-- ==== Sys2Proof/Word.lean ====
section
/-!
DEFINITION. Word.lean: the word types of the hub's registers, descriptors and packets (00_scope.md R4: every
multi-byte field is little-endian).
-/

namespace Sys2Proof

/-- A 64-bit register, descriptor or packet word. -/
abbrev Word := BitVec 64

/-- A byte of memory. -/
abbrev Byte := BitVec 8

end Sys2Proof
end

