-- ==== Sys2Proof/Syntax.lean ====
section
/-!
DEFINITION. Syntax.lean: the commands of the hub as data, one constructor per row of the table of operations and
events, and the records their operands are made of.
-/

namespace Sys2Proof

/-- A packet of the Commons (02_commons.md R45-R47): the header's fields, and of the payload the address, the length
or byte enables, and the data. `opc` is the opcode of R47, R106 and the owning chapters; `stream` names the stream of
R79 the issuing agent sends it in. `keep`, `near` and `withData` are the coherence fields of R107; `note` is the
issuing agent's own mark of what a request is for: 1 a descriptor, 2 a table that an item reads, 3 a sealing write of a chain
mover, 4 and 5 a read and a sealing write of a WEIGHT_CHUNK. The last five fields are not the issuing agent's: the sender's interface
resolves the physical destination in `dest` (0x3FE before it has), `far` when the hub field names another hub (01_architecture.md R17) and
the LINE of line form (02_commons.md R46); the home's interface fixes the partition `part` (13_sluice.md R422) and `hostc`, HBM_HOME_CFG.HOST_CACHE
as the request found it (04_coherence.md R135). -/
structure Pkt where
  opc : Nat := 0
  dst : Nat := 0
  src : Nat := 0
  txn : Nat := 0
  status : Nat := 0
  addr : Nat := 0
  len : Nat := 0
  mask : Nat := 0
  data : List Byte := []
  tenant : Nat := 0
  cls : Nat := 0
  deadline : Nat := 0
  stream : Nat := 0
  vol : Bool := false
  noalloc : Bool := false
  poison : Bool := false
  sealed : Bool := false
  ordered : Bool := false
  keep : Nat := 0
  near : Bool := false
  withData : Bool := false
  note : Nat := 0
  dest : Nat := 0x3FE
  far : Bool := false
  line : Nat := 0
  part : Nat := 0
  hostc : Bool := false
  deriving DecidableEq, Repr

/-- A lane repair of a stack: the failing data lane, and the spare lane of its channel that takes over, none where the channel has none left
(05_hbm.md R153). -/
structure LaneFix where
  lane : Nat
  spare : Option Nat
  deriving DecidableEq, Repr

/-- What the codes of a flit show at a router input (02_commons.md R44). -/
inductive FlitCode where
  | good | single | payloadDouble | headerDouble
  deriving DecidableEq, Repr

/-- Who makes a register access: the driver through BAR0, an agent of the Commons, or the management bus
(00_scope.md R7, 01_architecture.md R22, 20_management_power.md R641). -/
inductive Writer where
  | driver
  | agent (id : Nat)
  | oob
  deriving DecidableEq, Repr

/-- What the outer code finds in a 64-byte sector (05_hbm.md R141): its symbol errors, and what becomes of a pattern that it cannot correct:
0 detected, 1 miscorrected, 2 accepted as a valid codeword. -/
structure SectorRead where
  errs : Nat := 0
  found : Nat := 0
  deriving DecidableEq, Repr

/-- What a read at a home finds (05_hbm.md R140, R141, R150): its sectors in order, a missing one without errors; the corrections that the stack
reports; and the other members of a Granary stripe that are uncorrectable at that moment, by segment number. -/
structure CodeRead where
  sectors : List SectorRead := []
  inner : Nat := 0
  bad : List Nat := []
  deriving DecidableEq, Repr

/-- A message of the site transaction layer (14_sites.md R442-R443): the fields of its header and its data bytes. `aux` is
header bits 63:52. -/
structure StlMsg where
  typ : Nat := 0
  ch : Nat := 0
  cls : Nat := 0
  at_ : Nat := 3
  vol : Bool := false
  noalloc : Bool := false
  ordered : Bool := false
  poison : Bool := false
  alt : Bool := false
  tag : Nat := 0
  deadline : Nat := 0
  aux : Nat := 0
  addr : Nat := 0
  data : List Byte := []
  deriving DecidableEq, Repr

/-- A message of the transport between hubs (15_fabric_links.md R490, R491): the fields of its header and its data. -/
structure XMsg where
  typ : Nat := 0
  dstHub : Nat := 0
  srcHub : Nat := 0
  psn : Nat := 0
  srcAgent : Nat := 0
  txn : Nat := 0
  cls : Nat := 0
  vol : Bool := false
  noalloc : Bool := false
  ordered : Bool := false
  poison : Bool := false
  opens : Bool := false
  deadline : Nat := 0
  addr : Nat := 0
  epoch : Nat := 0
  size : Nat := 0
  status : Nat := 0
  aop : Nat := 0
  data : List Byte := []
  deriving DecidableEq, Repr

/-- A native flit as it reaches the link layer (15_fabric_links.md R477-R480): what FEC and CRC make of it, its header, and
the messages that end in its payload with the VC that each travels on. -/
structure LinkFlit where
  corrected : Nat := 0
  uncorrected : Nat := 0
  failed : Bool := false
  idle : Bool := false
  seq : Nat := 0
  ack : Nat := 0
  nak : Bool := false
  cvc : Nat := 0
  cred : Nat := 0
  msgs : List (Nat × XMsg) := []
  deriving DecidableEq, Repr

/-- An Ethernet frame as it reaches a port (15_fabric_links.md R483-R487): its destination MAC, its IP destination, IPv6 where `v6`, its UDP port and
BTH opcode, its CE mark, the source hub, and the messages it carries. `pfc` is set on a pause frame of IEEE 802.1Qbb: the priorities that it pauses. -/
structure EthFrame where
  mac : Nat := 0
  v6 : Bool := false
  ip : Nat := 0
  udp : Nat := 4791
  opcode : Nat := 0xC0
  ce : Bool := false
  srcHub : Nat := 0
  msgs : List XMsg := []
  pfc : Option Nat := none
  deriving DecidableEq, Repr

/-- The fields of a V64 instruction or micro-op but its operation (08_loom_isa.md R243, R265). `rsv` holds bits 63:59. -/
structure VOp where
  vd : Nat := 0
  vs1 : Nat := 0
  vs2 : Nat := 0
  vs3 : Nat := 0
  fs : Nat := 0
  fd : Nat := 0
  rm : Nat := 0
  sat : Bool := false
  vmk : Nat := 0
  kz : Bool := false
  s : Bool := false
  n1 : Bool := false
  rsv : Nat := 0
  deriving DecidableEq, Repr

/-- A CXL request of a chiplet in CXL mode as the hub receives it (14_sites.md R440), with its PASID where it has one, and its tag. -/
inductive SiteCxlOp where
  | memRd (addr len : Nat)
  | memWr (addr : Nat) (data : List Byte)
  | atomic (aop size addr a b : Nat)
  | ats (va : Nat) (write : Bool)
  | invDone
  | stl (m : StlMsg)
  deriving DecidableEq, Repr

structure SiteCxl where
  pasid : Option Nat := none
  tag : Nat := 0
  untranslated : Bool := true
  op : SiteCxlOp
  deriving DecidableEq, Repr

/-- What the modules of a site and its chiplet come to in steps 2-4 of bring-up (14_sites.md R436-R438, R470): the width of each module, 0
when it cannot run, 1 for x32 and 2 for x64, its lanes moved to redundant lanes, the rates that the chiplet advertises (bit r for rate
r of SITE_CFG), its protocol and its STL version. -/
structure SiteTrain where
  width : List Nat := []
  repaired : List Nat := []
  rates : Nat := 0
  proto : Nat := 0
  version : Nat := 1
  deriving DecidableEq, Repr

/-- A request of SPDM 1.3 as the Vestry tells them apart (17_security.md R546): the ones it supports, with the certificate slot, the
measurement index or the session that they name, and every other. -/
inductive SpdmAsk where
  | getVersion
  | getCapabilities
  | negotiateAlgorithms
  | getDigests
  | getCertificate (slot : Nat)
  | challenge (slot : Nat)
  | getMeasurements (index : Nat)
  | keyExchange
  | finish (session : Nat)
  | heartbeat (session : Nat)
  | keyUpdate (session : Nat)
  | endSession (session : Nat)
  | other (code : Nat)
  deriving DecidableEq, Repr

/-- What training makes of a stack in boot step 7 (05_hbm.md R136, R160, R161): position, serial number, pin rate in units of 0.1 Gb/s,
capacity in GiB, count left of its hard-repair counter, whether it trained, VDDQ in units of 5 mV, the range over which the set
was captured, the lanes moved to spares as (lane, spare), and the timing and equaliser values that full training finds, one of each lane. -/
structure StackTrain where
  m : Nat := 0
  serial : Nat := 0
  rate : Nat := 100
  gib : Nat := 0
  hardLeft : Nat := 0
  ok : Bool := false
  vddq : Nat := 0
  tMin : Nat := 0
  tMax : Nat := 0
  vqMin : Nat := 0
  vqMax : Nat := 0
  ldMin : Nat := 0
  ldMax : Nat := 0
  laneMap : List (Nat × Nat) := []
  eq : List Nat := []
  deriving DecidableEq, Repr

/-- What training makes of a link in boot step 8 (18_bringup.md R600): the link, the hub at its other end, whether it came up within its
bound, and its good lanes. -/
structure LinkTrain where
  l : Nat := 0
  peer : Nat := 0
  up : Bool := false
  lanes : Nat := 0
  deriving DecidableEq, Repr

/-- What a PMBus entry answers to READ_VOUT and READ_IOUT, in mV and mA (20_management_power.md R649). -/
structure PmbRead where
  k : Nat := 0
  mv : Nat := 0
  ma : Nat := 0
  deriving DecidableEq, Repr

/-- A PLDM request as the Reeve tells them apart (20_management_power.md R640): the numeric sensors are 0 hub power, 1 VCORE, 2 hottest die
temperature, 3-34 the die sensors, 35-42 the stack temperatures and 43 the stage delay; the state sensors are 0 Ready, 1-8 the stacks, 9-16
the sites and 17-64 the links. `base` is another command that the standards lay down. -/
inductive PldmAsk where
  | base (typ cmd arg : Nat)
  | getPdr (record : Nat)
  | getSensor (k : Nat)
  | getStateSensor (k : Nat)
  | getEffecter
  | setEffecter (watts : Nat)
  | setEventReceiver (eid : Nat)
  | cancelUpdate
  deriving DecidableEq, Repr

/-- An access through the JTAG port (20_management_power.md R659, 17_security.md R553, R556): the standard's instructions, registers and memory, control
cores, firmware cores and the Reeve by physical agent, and the instructions that a right opens by its bit. `step` carries the instruction that
the halted core executes. -/
inductive JtagAsk where
  | bypass
  | idcode
  | sample
  | preload (pins : List Byte)
  | extest
  | readReg (off size : Nat)
  | writeReg (off size : Nat) (value : Word)
  | readMem (addr n : Nat)
  | writeMem (addr : Nat) (data : List Byte)
  | halt (agent : Nat)
  | resume (agent : Nat)
  | step (tile : Nat) (w : Word)
  | inspect (tile r : Nat)
  | right (bit arg : Nat)
  deriving DecidableEq, Repr

/-- A request on the management bus as the Reeve handles it (20_management_power.md R640, R641, R646). -/
inductive OobAsk where
  | control (cmd arg : Nat)
  | pldm (ask : PldmAsk)
  | requestUpdate
  | applyComplete (slot : Nat) (image : List Byte) (fault : Option Nat)
  | activate (slot : Nat)
  | getEvents (index : Nat)
  | reset (kind : Nat)
  | wake
  | readReg (off count : Nat)
  | writeReg (off : Nat) (value : Word)
  | getBoot
  /-- A vendor-defined message: its command and instance, and what it asks (20_management_power.md R641). -/
  | vendor (cmd inst : Nat) (ask : OobAsk)
  deriving DecidableEq, Repr


/-- The commands of the hub: one constructor per row of the table of operations and events, with the row's
operands. A command is whole and indivisible (95_what_each_step_holds.md). -/
inductive Instr where
  /-- REGISTER_WRITE (R9): A write to a register field that has no row of its own takes effect according to the field's access type, class and lock state. -/
  | registerWrite (w : Writer) (off : Nat) (size : Nat) (value : Word)
  /-- STAGE_WINDOW_END (R31): At the end of each 1,024 ns window the Reeve's stage ring delivers a new HUB_STAGE measurement. -/
  | stageWindowEnd (stageFs : Nat)
  /-- FLIT_RECEIVE (R44): A router input checks a flit's codes: it corrects single errors, poisons on a payload double error, and drops the flit on a header double error. -/
  | flitReceive (code : FlitCode) (row col port : Nat) (p : Pkt)
  /-- RD (R47): An address-form read of 1–128 bytes is delivered to its destination and answered with RSP_DATA. -/
  | rd (p : Pkt)
  /-- RD_LINE (R47): A line-form read of one line is served by its home, bank or scratchpad and answered with RSP_DATA. -/
  | rdLine (p : Pkt)
  /-- RD_2LINE (R47): A line-form read of two lines is served and answered with RSP_DATA2. -/
  | rd2line (p : Pkt)
  /-- WR (R47): A posted address-form write of 1–64 bytes under MASK is performed at its destination. -/
  | wr (p : Pkt)
  /-- WR_LINE (R47): A posted full-line write is performed at its home, bank or scratchpad. -/
  | wrLine (p : Pkt)
  /-- WR_2LINE (R47): A posted two-line write of two flits is performed at its destination. -/
  | wr2line (p : Pkt)
  /-- WRN (R47): A non-posted address-form write is performed and answered with RSP. -/
  | wrn (p : Pkt)
  /-- WRN_LINE (R47): A non-posted full-line write is performed and answered with RSP. -/
  | wrnLine (p : Pkt)
  /-- ATOM (R125): An atomic runs far at the home or bank after invalidating cached copies, and the old value returns in RSP_DATA. -/
  | atom (p : Pkt)
  /-- CSR_RD (R666): A CSR read from an agent is checked against its CSR-access bit and served by the owning block's interface. -/
  | csrRd (p : Pkt)
  /-- CSR_WR (R666): A CSR write from an agent is checked against its CSR-access bit and served by the owning block's interface, which answers with RSP. -/
  | csrWr (p : Pkt)
  /-- RSP (R52): A status-only response arrives at the issuing agent, and any second answer to the same request is absorbed. -/
  | rsp (p : Pkt)
  /-- RSP_DATA (R52): A response with status and up to 128 data bytes arrives at the issuing agent. -/
  | rspData (p : Pkt)
  /-- RSP_DATA2 (R52): A two-flit response with 256 data bytes arrives at the issuing agent. -/
  | rspData2 (p : Pkt)
  /-- WFAIL (R64): A posted-write failure arrives at its source, which records a write failure against the item. -/
  | wfail (p : Pkt)
  /-- INBOUND_ACCEPT_RESUME (R51): When an inbound-table entry frees, an interface that was blocking REQ flits accepts the waiting flit. -/
  | inboundAcceptResume (agent : Nat)
  /-- DEAD_TIMEOUT (R53): An inbound entry or delivered snoop that has waited DEAD_US makes the destination interface isolate its agent. -/
  | deadTimeout (agent : Nat)
  /-- REQ_TIMEOUT (R54): A non-posted request unanswered for REQ_US is answered TIMEOUT, and its TXN is held for a further REQ_US. -/
  | reqTimeout (agent txn : Nat)
  /-- TXN_HOLD_END (R54): When the TXN hold period ends, a request that was waiting to reuse the TXN is released. -/
  | txnHoldEnd (agent txn : Nat)
  /-- STILE_CLOSE (R59): A CLOSE command moves an OPEN domain to DRAINING and asks its agents to quiesce. -/
  | stileClose (dom : Nat)
  /-- STILE_OPEN (R61): An OPEN command returns a DRAINING or FENCED domain to OPEN, or powers an OFF domain into OPENING. -/
  | stileOpen (dom : Nat)
  /-- STILE_FORCE_OFF (R61): A FORCE_OFF command isolates every agent of the domain and switches its power off. -/
  | stileForceOff (dom : Nat)
  /-- STILE_OP_RESERVED (R61): A command with OP 3, or one that names no existing domain, has no effect and sets REJECTED. -/
  | stileOpReserved (op dom : Nat)
  /-- STILE (R65): A STILE packet reaches a network interface, which applies the commanded state in every state. -/
  | stile (op agent : Nat)
  /-- STILE_ACK (R58): A state report from a network interface reaches the Stile controller. -/
  | stileAck (agent st : Nat)
  /-- AGENT_IDLE (R59): An agent of a DRAINING domain signals that it is idle. -/
  | agentIdle (agent : Nat)
  /-- DOMAIN_FENCED (R59): A draining domain enters FENCED once its agents are idle, its tables are empty and its requests are answered. -/
  | domainFenced (dom : Nat)
  /-- DOMAIN_POWER_OFF (R59): The power switch-off of a FENCED domain completes: the domain enters OFF, GO clears and STILE_DONE is raised. -/
  | domainPowerOff (dom : Nat)
  /-- DOMAIN_OPENED (R61): An OPENING domain completes its power ramp and agent start and enters OPEN, or returns to OFF when the start fails. -/
  | domainOpened (dom : Nat) (ok : Bool)
  /-- DRAIN_TIMEOUT (R62): A domain that has drained for DRAIN_US gets STUCK set and an event raised, followed by FORCE_OFF when AUTO_FORCE is 1. -/
  | drainTimeout (dom : Nat)
  /-- ISO_ISOLATE (R66): A write of COM_ISO_CMD.ISOLATE isolates the named agent, or sets REJECTED when it names the Vestry or the Reeve. -/
  | isoIsolate (agent : Nat)
  /-- ISO_RELEASE (R67): A write of COM_ISO_CMD.RELEASE ends an agent's isolation when its domain is OFF. -/
  | isoRelease (agent : Nat)
  /-- COM_ERR_CLEAR (R44): A write of COM_ERR.CLEAR zeroes the Commons error counts. -/
  | comErrClear
  /-- EVENT (R380): An EVENT packet is delivered to its agent, or absorbed and counted when the agent's domain is not open. -/
  | event (p : Pkt)
  /-- FLUSH_PROBE (R85): A WRN with an all-zero MASK reaches a destination, which holds it until every earlier REQ from that source is performed. -/
  | flushProbe (p : Pkt)
  /-- FLUSH_PROBE_ANSWER (R85): Once every earlier request from the source is performed, the destination answers the held flush probe. -/
  | flushProbeAnswer (agent src txn : Nat)
  /-- FENCE (R84): A stream's FENCE waits until every earlier local request is performed and holds back every later request. -/
  | fence (agent stream : Nat)
  /-- FENCE_COMPLETE (R84): A FENCE completes once every earlier request and flush probe has been answered, and later requests may issue. -/
  | fenceComplete (agent stream : Nat)
  /-- FENCE_REMOTE (R87): A FENCE.REMOTE also waits until every destination hub reports the stream's remote requests as performed or failed. -/
  | fenceRemote (agent stream : Nat)
  /-- HOME_READ_COMPLETE (R139): A DRAM read at a home returns, passes the outer-code check, and its data is sent on. -/
  | homeReadComplete (h : Nat) (line : Nat) (c : CodeRead)
  /-- RD_SHARED (R116): A shared read at a home is granted E, S or untracked S, after a snoop of the owner where one holds the line. -/
  | rdShared (p : Pkt)
  /-- RD_UNIQUE (R116): A read for ownership at a home invalidates the other holders and grants M with data. -/
  | rdUnique (p : Pkt)
  /-- CLAIM (R116): A holder in S asks for M, and the home invalidates the other holders and grants M without data. -/
  | claim (p : Pkt)
  /-- WB_DIRTY (R116): The home writes back a dirty line and acknowledges it with GRANT I, or treats it as a protocol error when the sender is not the owner. -/
  | wbDirty (p : Pkt)
  /-- EVICT_CLEAN (R116): A clean eviction clears the presence bit, or lowers the untracked counts, with no answer. -/
  | evictClean (p : Pkt)
  /-- ATOM_P (R125): A site atomic is run far at the home or granted near with NEAR = 1, as the predictor counter chooses. -/
  | atomP (p : Pkt)
  /-- GRANT (R117): A grant of a state, with or without data, reaches a caching agent. -/
  | grant (p : Pkt)
  /-- SNP_RSP (R121): A snoop answer without data reaches the home, which continues the transaction or waits for a WB_DIRTY when the answer is WB_PENDING. -/
  | snpRsp (p : Pkt)
  /-- SNP_RSP_DATA (R116): A snoop answer carrying the dirty line reaches the home, which writes it to memory before the grant. -/
  | snpRspData (p : Pkt)
  /-- CMP_ACK (R117): An install acknowledgement releases the busy line, or is absorbed and counted when no grant awaits it. -/
  | cmpAck (p : Pkt)
  /-- LINE_WAITER_SERVED (R119): When a busy line is released, the home serves the next waiting request for that line. -/
  | lineWaiterServed (line : Nat)
  /-- ACK_TIMEOUT (R123): A grant without CMP_ACK for ACK_US releases the line, records ACK_LOST, raises an event and isolates the module. -/
  | ackTimeout (line : Nat)
  /-- BI_TIMEOUT (R130): A back-invalidate left unanswered by the host for BI_TMO_US makes the home treat the host's copy as lost. -/
  | biTimeout (line : Nat)
  /-- FILTER_WALK_DONE (R132): A home's filter walk for a cache ends. -/
  | filterWalkDone (h cache : Nat)
  /-- LOST_LINE_POP (R134): A write of POP removes the oldest lost-line report entry. -/
  | lostLinePop (h : Nat)
  /-- HOME_CNT_CLEAR (R135): A write of HBM_HOME_CFG.CNT_CLEAR clears the home's counters. -/
  | homeCntClear (h : Nat)
  /-- CXL_MEMRD (R128): A host CXL.mem read is mapped to RD_SHARED, RD_UNIQUE or RD_LINE according to its MetaValue and HOST_CACHE. -/
  | cxlMemrd (tag line mval : Nat)
  /-- CXL_MEMWR (R128): A host CXL.mem write is mapped to WB_DIRTY for host-owned data, or served as a non-caching write. -/
  | cxlMemwr (tag line mask : Nat) (data : List Byte) (ep : Bool)
  /-- CXL_MEMCLNEVCT (R128): A host clean eviction is mapped to EVICT_CLEAN. -/
  | cxlMemclnevct (tag line : Nat)
  /-- CXL_BIRSP (R128): A host back-invalidate response reaches the home as SNP_RSP. -/
  | cxlBirsp (line st : Nat)
  /-- CXL_BICONFLICT (R526): A host BIConflict is answered with BIConflictAck once every earlier S2M response for the line has been sent. -/
  | cxlBiconflict (tag line : Nat)
  /-- STACK_TEMP_READ (R157): The 1 ms stack temperature reading adjusts refresh, steps the bandwidth cap and checks the catastrophic threshold. -/
  | stackTempRead (m temp refresh vddq : Nat)
  /-- CAP_RISE_TIMER (R157): After 10 ms at or below THR_C − 3 °C, the stack's bandwidth cap rises one step. -/
  | capRiseTimer (m : Nat)
  /-- SCRUB_READ (R152): A periodic scrub read of a granule rewrites corrected data and handles uncorrectable data, parity included. -/
  | scrubRead (m hpa : Nat) (c : CodeRead) (row : Nat)
  /-- LANE_REPAIR (R153): A failing data lane is moved to a spare lane with a channel pause, or the stack is lost when no spare remains. -/
  | laneRepair (m : Nat) (fix : LaneFix)
  /-- HBM_BURN (R155): A BURN write burns the oldest pending row into the stack's fuses, consuming one Tally count, when the stack is idle. -/
  | hbmBurn (m : Nat)
  /-- HBM_ERR_CLEAR (R140): A write of HBM_ERR.CLEAR clears the four error counts. -/
  | hbmErrClear (m : Nat)
  /-- HBM_TRAIN_SAVE (R161): A write of HBM_TRAIN.SAVE makes the Reeve store the training set in use to flash. -/
  | hbmTrainSave (m : Nat)
  /-- RECENTRE_START (R162): Within 100 ms of leaving its envelope, a stack starts a re-centre, one pseudo-channel at a time. -/
  | recentreStart (m : Nat)
  /-- RECENTRE_END (R162): A re-centre ends, the envelope widens and OUT_ENV clears. -/
  | recentreEnd (m : Nat)
  /-- STACK_NO_ANSWER_TIMEOUT (R164): A stack silent toward its controller for 10 ms is lost. -/
  | stackNoAnswerTimeout (m : Nat)
  /-- STACK_LOSS (R165): A stack is lost: STACK_LOST is raised, the hub retires, and items in flight fail one by one. -/
  | stackLoss (m cause : Nat)
  /-- GRAN_QUERY (R147): HBM_GRAN_CMD QUERY reports the state of a block. -/
  | granQuery (w : Writer) (block : Nat)
  /-- GRAN_FILL (R147): HBM_GRAN_CMD FILL moves an EMPTY block to FILLING. -/
  | granFill (w : Writer) (block : Nat)
  /-- GRAN_SEAL (R147): HBM_GRAN_CMD SEAL moves a FILLING block to PARITY and starts its parity pass. -/
  | granSeal (w : Writer) (block : Nat)
  /-- GRAN_RELEASE (R147): HBM_GRAN_CMD RELEASE moves a block toward WIPING and EMPTY. -/
  | granRelease (w : Writer) (block : Nat)
  /-- GRAN_RESTORE_BEGIN (R151): HBM_GRAN_CMD RESTORE_BEGIN moves a SEALED block with a POISONED page to RESTORING. -/
  | granRestoreBegin (w : Writer) (block page : Nat)
  /-- GRAN_RESTORE_END (R151): HBM_GRAN_CMD RESTORE_END returns a RESTORING block to SEALED and starts the recomputation of its parity. -/
  | granRestoreEnd (w : Writer) (block page : Nat)
  /-- GRAN_OP_NONE (R148): A GRAN_CMD write with OP 6–7, or from an agent without the right, has no effect or sets REJECTED. -/
  | granOpNone (w : Writer) (op block : Nat)
  /-- PARITY_PASS_END (R147): A block's parity pass ends: the block becomes SEALED, or returns to FILLING with RESULT 3. -/
  | parityPassEnd (block : Nat) (uncorrectable : Bool)
  /-- WIPE_END (R147): The zeroing of a WIPING block ends and the block becomes EMPTY. -/
  | wipeEnd (block : Nat)
  /-- RESTORE_PARITY_END (R151): The parity recomputation after a restore ends and removes the POISONED marks and HBM_GPOIS entries. -/
  | restoreParityEnd (block page : Nat) (stillBad : List Nat)
  /-- FMT_COMMIT (R179): A write of MOV_FMT_CTL.COMMIT takes the shadow descriptors as the new active table and increments GEN. -/
  | fmtCommit
  /-- FMT_COMMIT_DONE (R179): COMMIT clears once every open unit holds the new format table. -/
  | fmtCommitDone
  /-- LOOM_DISPATCH (R230): A DISPATCH with a launch record reaches a Loom tile, which accepts or refuses it and answers with RSP. -/
  | loomDispatch (p : Pkt)
  /-- LOOM_LAUNCH (R233): An accepted launch starts a kernel with its initial state, or becomes pending behind a running kernel. -/
  | loomLaunch (tile : Nat)
  /-- LOOM_CLAIM_RECORD (R231): A CLAIM record sets the tile's owner, wiping the tile first when the tenant changes. -/
  | loomClaimRecord (tile : Nat)
  /-- LOOM_PARK_RECORD (R237): A PARK record puts an idle tile into park, which keeps its state, and reports DONE. -/
  | loomParkRecord (tile : Nat)
  /-- LOOM_BUDGET_EXPIRE (R235): A non-persistent kernel still running after BUDGET_US is stopped and fails with LOOM_BUDGET. -/
  | loomBudgetExpire (tile : Nat)
  /-- UNIT_STOP (R366): A STOP (opcode 0x0D) makes a tile, mover, Mill lead slice or site stop the named item. -/
  | unitStop (p : Pkt)
  /-- SCALAR_INSTRUCTION (R197): The control core executes one RV64IMAC or Zicsr instruction on its own scratchpad and registers. -/
  | scalarInstruction (tile : Nat) (w : Word)
  /-- MRET (R212): MRET returns from a trap handler. -/
  | mret (tile : Nat)
  /-- FENCE_I (R199): FENCE.I makes code written into the scratchpad visible to instruction fetch. -/
  | fenceI (tile : Nat)
  /-- GLOBAL_LOAD (R200): The core issues a single-word volatile global load and records any error status in lgerr. -/
  | globalLoad (tile rd rs1 imm size : Nat) (uns : Bool)
  /-- GLOBAL_STORE (R200): The core issues a single-word global store, non-posted when local and posted when remote. -/
  | globalStore (tile rs1 rs2 imm size : Nat)
  /-- GLOBAL_AMO (R90): A control-core AMO on global memory is issued as ATOM under its aq and rl ordering. -/
  | globalAmo (tile aop rd rs1 rs2 size : Nat) (aq rl : Bool)
  /-- LR (R91): LR reserves a scratchpad location, or acts as a volatile load on global memory. -/
  | lr (tile rd rs1 size : Nat)
  /-- SC (R91): SC stores conditionally to the scratchpad, and on global memory writes nothing and returns failure. -/
  | sc (tile rd rs1 rs2 size : Nat)
  /-- VADD (R249): Vector add on the active elements. -/
  | vadd (tile : Nat) (f : VOp)
  /-- VSUB (R249): Vector subtract on the active elements. -/
  | vsub (tile : Nat) (f : VOp)
  /-- VMUL (R249): Vector multiply on the active elements. -/
  | vmul (tile : Nat) (f : VOp)
  /-- VFMA (R249): Vector fused multiply-add with one rounding. -/
  | vfma (tile : Nat) (f : VOp)
  /-- VFMS (R249): Vector fused multiply-subtract with one rounding. -/
  | vfms (tile : Nat) (f : VOp)
  /-- VFNMA (R249): Vector negated fused multiply-add with one rounding. -/
  | vfnma (tile : Nat) (f : VOp)
  /-- VFNMS (R249): Vector negated fused multiply-subtract with one rounding. -/
  | vfnms (tile : Nat) (f : VOp)
  /-- VMIN (R252): Vector minimum, with −0 ordered below +0 and NaN giving the canonical NaN. -/
  | vmin (tile : Nat) (f : VOp)
  /-- VMAX (R252): Vector maximum, with −0 ordered below +0 and NaN giving the canonical NaN. -/
  | vmax (tile : Nat) (f : VOp)
  /-- VABS (R251): Vector absolute value. -/
  | vabs (tile : Nat) (f : VOp)
  /-- VNEG (R251): Vector negation. -/
  | vneg (tile : Nat) (f : VOp)
  /-- VSEL (R251): Per-element select between two vectors by a mask register. -/
  | vsel (tile : Nat) (f : VOp)
  /-- VAND (R251): Vector bitwise AND. -/
  | vand (tile : Nat) (f : VOp)
  /-- VOR (R251): Vector bitwise OR. -/
  | vor (tile : Nat) (f : VOp)
  /-- VXOR (R251): Vector bitwise XOR. -/
  | vxor (tile : Nat) (f : VOp)
  /-- VSLL (R251): Vector shift left. -/
  | vsll (tile : Nat) (f : VOp)
  /-- VSRL (R251): Vector logical shift right. -/
  | vsrl (tile : Nat) (f : VOp)
  /-- VSRA (R251): Vector arithmetic shift right. -/
  | vsra (tile : Nat) (f : VOp)
  /-- VMULH (R251): Upper half of a signed vector product. -/
  | vmulh (tile : Nat) (f : VOp)
  /-- VCMPEQ (R252): Vector equality compare into a mask. -/
  | vcmpeq (tile : Nat) (f : VOp)
  /-- VCMPNE (R252): Vector inequality compare into a mask. -/
  | vcmpne (tile : Nat) (f : VOp)
  /-- VCMPLT (R251): Vector less-than compare into a mask, raising NV on a NaN operand. -/
  | vcmplt (tile : Nat) (f : VOp)
  /-- VCMPLE (R251): Vector less-or-equal compare into a mask, raising NV on a NaN operand. -/
  | vcmple (tile : Nat) (f : VOp)
  /-- VCMPUN (R251): Vector unordered compare into a mask. -/
  | vcmpun (tile : Nat) (f : VOp)
  /-- VCVT (R254): Vector format conversion, including MX scale choice. -/
  | vcvt (tile : Nat) (f : VOp)
  /-- VRCP (R258): Vector reciprocal. -/
  | vrcp (tile : Nat) (f : VOp)
  /-- VRSQRT (R258): Vector reciprocal square root. -/
  | vrsqrt (tile : Nat) (f : VOp)
  /-- VSQRT (R258): Correctly rounded vector square root. -/
  | vsqrt (tile : Nat) (f : VOp)
  /-- VDIV (R258): Correctly rounded vector division. -/
  | vdiv (tile : Nat) (f : VOp)
  /-- VEXP (R258): Vector e to the power a. -/
  | vexp (tile : Nat) (f : VOp)
  /-- VEXP2 (R258): Vector 2 to the power a. -/
  | vexp2 (tile : Nat) (f : VOp)
  /-- VLN (R258): Vector natural logarithm. -/
  | vln (tile : Nat) (f : VOp)
  /-- VLOG2 (R258): Vector base-2 logarithm. -/
  | vlog2 (tile : Nat) (f : VOp)
  /-- VTANH (R258): Vector hyperbolic tangent. -/
  | vtanh (tile : Nat) (f : VOp)
  /-- VSIGM (R258): Vector logistic sigmoid. -/
  | vsigm (tile : Nat) (f : VOp)
  /-- VSIN (R258): Vector sine. -/
  | vsin (tile : Nat) (f : VOp)
  /-- VCOS (R258): Vector cosine. -/
  | vcos (tile : Nat) (f : VOp)
  /-- VERF (R258): Vector error function. -/
  | verf (tile : Nat) (f : VOp)
  /-- VRAND (R256): Vector of uniform values in (0, 1) drawn from seed lseed and a register index. -/
  | vrand (tile : Nat) (f : VOp)
  /-- VPERM (R256): Vector permute by an index vector. -/
  | vperm (tile : Nat) (f : VOp)
  /-- VSLIDEUP (R256): Vector slide up by k elements. -/
  | vslideup (tile : Nat) (f : VOp)
  /-- VSLIDEDN (R256): Vector slide down by k elements. -/
  | vslidedn (tile : Nat) (f : VOp)
  /-- VCOMPRESS (R256): Packs the active elements to the bottom of the destination. -/
  | vcompress (tile : Nat) (f : VOp)
  /-- LBCAST (R251): Broadcasts an integer-register element into a vector register. -/
  | lbcast (tile : Nat) (f : VOp)
  /-- LEXT (R251): Extracts one vector element, zero-extended, into an integer register. -/
  | lext (tile : Nat) (f : VOp)
  /-- VLD (R253): Strided or packed vector load from the scratchpad, with conversion and scales. -/
  | vld (tile : Nat) (f : VOp)
  /-- VST (R253): Strided or packed vector store to the scratchpad, with conversion and scales. -/
  | vst (tile : Nat) (f : VOp)
  /-- VLDX (R253): Indexed vector load by 32-bit offsets. -/
  | vldx (tile : Nat) (f : VOp)
  /-- VSTX (R255): Indexed vector store, in which the higher index wins on overlap. -/
  | vstx (tile : Nat) (f : VOp)
  /-- VMLD (R257): Loads a mask register from a bit string in the scratchpad. -/
  | vmld (tile : Nat) (f : VOp)
  /-- VMST (R257): Stores a mask register to a bit string in the scratchpad. -/
  | vmst (tile : Nat) (f : VOp)
  /-- VRED_ADD (R220): Folds the active elements into an accumulator by FP32 ADD in a fixed order. -/
  | vredAdd (tile : Nat) (f : VOp)
  /-- VRED_EXACT (R221): Folds the active elements into an accumulator by exact 320-bit summation. -/
  | vredExact (tile : Nat) (f : VOp)
  /-- VRED_IADD (R219): Folds the active elements into an accumulator by wrapping 64-bit integer addition. -/
  | vredIadd (tile : Nat) (f : VOp)
  /-- VRED_MAX (R222): Folds the active elements into an accumulator by maximum. -/
  | vredMax (tile : Nat) (f : VOp)
  /-- VRED_MIN (R222): Folds the active elements into an accumulator by minimum. -/
  | vredMin (tile : Nat) (f : VOp)
  /-- VRED_ARGMAX (R222): Folds the active elements into an accumulator by maximum with its index. -/
  | vredArgmax (tile : Nat) (f : VOp)
  /-- VRED_ARGMIN (R222): Folds the active elements into an accumulator by minimum with its index. -/
  | vredArgmin (tile : Nat) (f : VOp)
  /-- VRED_AND (R219): Folds the active elements into an accumulator by AND. -/
  | vredAnd (tile : Nat) (f : VOp)
  /-- VRED_OR (R219): Folds the active elements into an accumulator by OR. -/
  | vredOr (tile : Nat) (f : VOp)
  /-- VRED_XOR (R219): Folds the active elements into an accumulator by XOR. -/
  | vredXor (tile : Nat) (f : VOp)
  /-- LRBCAST (R223): Broadcasts an accumulator value, converted under lrm, into a vector register. -/
  | lrbcast (tile : Nat) (f : VOp)
  /-- VMAND (R251): Mask AND. -/
  | vmand (tile : Nat) (f : VOp)
  /-- VMOR (R251): Mask OR. -/
  | vmor (tile : Nat) (f : VOp)
  /-- VMXOR (R251): Mask XOR. -/
  | vmxor (tile : Nat) (f : VOp)
  /-- VMANDN (R251): Mask AND-NOT. -/
  | vmandn (tile : Nat) (f : VOp)
  /-- LMPOP (R257): Counts the set active bits of a mask into an integer register. -/
  | lmpop (tile : Nat) (f : VOp)
  /-- LMFIRST (R257): Finds the lowest active set bit of a mask. -/
  | lmfirst (tile : Nat) (f : VOp)
  /-- LSETVL (R205): Sets vl to the minimum of the request and VLMAX for the width. -/
  | lsetvl (tile rd rs1 rs2 ww : Nat)
  /-- LRRESET (R219): Empties an accumulator and sets its operation and format. -/
  | lrreset (tile rd rs1 rs2 : Nat)
  /-- LRD (R223): Reads an accumulator value into an integer register once its reductions are complete. -/
  | lrd (tile rd rs1 rs2 : Nat)
  /-- LRDI (R223): Reads an ARGMAX or ARGMIN accumulator's index into an integer register. -/
  | lrdi (tile rd rs1 rs2 : Nat)
  /-- LRSAVE (R223): Stores a 48-byte accumulator record to the scratchpad. -/
  | lrsave (tile rd rs1 rs2 : Nat)
  /-- LRMERGE (R223): Merges a saved record into an accumulator. -/
  | lrmerge (tile rd rs1 rs2 : Nat)
  /-- LPLOAD (R264): Checks a pattern image and loads it into a slot. -/
  | lpload (tile rd rs1 rs2 : Nat)
  /-- LPRUN (R225): Runs a pattern over a PRD's streams, strip-mined into iterations. -/
  | lprun (tile rd rs1 rs2 : Nat)
  /-- LVSYNC (R202): Waits until every earlier vector instruction has written its results and its stores. -/
  | lvsync (tile rd rs1 rs2 : Nat)
  /-- LSIGNAL (R202): Acts as LVSYNC followed by an EVT_OP SIGNAL of an event. -/
  | lsignal (tile rd rs1 rs2 : Nat)
  /-- LWAIT (R262): Registers a wait on an event and blocks until it is signalled, the limit passes or a vector trap is pending. -/
  | lwait (tile rd rs1 rs2 : Nat)
  /-- LWAIT_LIMIT (R262): The LWAIT limit passes and LWAIT returns 1. -/
  | lwaitLimit (tile : Nat)
  /-- LEND (R234): Ends a kernel with DONE after LVSYNC and FENCE.REMOTE, and sends the completion EVENT. -/
  | lend (tile rd rs1 rs2 : Nat)
  /-- LFAIL (R234): Ends a kernel with KERNEL_ERROR after LVSYNC and FENCE.REMOTE. -/
  | lfail (tile rd rs1 rs2 : Nat)
  /-- MILL_DISPATCH (R273): A DISPATCH with a collective record reaches a lead slice, which answers OK, MILL_BUSY or DESC_INVALID. -/
  | millDispatch (p : Pkt)
  /-- MILL_ITEM_START (R272): An accepted item starts once its staging fits: the descriptor is read and checked, and the stripes are engaged. -/
  | millItemStart (slice item : Nat)
  /-- COLL_JOIN (R293): A JOIN arrives: it is matched to its collective, queued in the join table, or answered NACK. -/
  | collJoin (p : Pkt)
  /-- COLL_EXP (R281): An exponent message arrives and its bytes are combined by maximum. -/
  | collExp (p : Pkt)
  /-- COLL_DATA (R284): A data chunk arrives and is combined or forwarded as the algorithm lays down. -/
  | collData (p : Pkt)
  /-- COLL_CREDIT (R293): A CREDIT grants the sender more chunks. -/
  | collCredit (p : Pkt)
  /-- COLL_KEEP (R294): A KEEP refreshes a peer's progress deadline. -/
  | collKeep (p : Pkt)
  /-- COLL_LATE (R298): A LATE extends the collective's deadlines within LATE_MAX. -/
  | collLate (p : Pkt)
  /-- COLL_ABORT (R302): A first ABORT makes the member abort its stripes, mark the group DEGRADED and fail the item. -/
  | collAbort (p : Pkt)
  /-- COLL_NACK (R293): A NACK reports a full join table, or a digest mismatch that aborts the collective. -/
  | collNack (p : Pkt)
  /-- JOIN_RETRY_TIMER (R293): Every 10 µs after a NACK for a full table, the JOIN is sent again. -/
  | joinRetryTimer (slice item : Nat)
  /-- KEEP_TIMER (R294): After PROGRESS_MS/4 of silence toward a peer, a stripe sends KEEP. -/
  | keepTimer (slice item : Nat)
  /-- LATE_TIMER (R297): Every LATE_MS/2 while the hub is throttled, each slice repeats LATE. -/
  | lateTimer
  /-- MILL_START_DEADLINE (R300): The start deadline passes without a peer's JOIN and the member is lost with cause 0. -/
  | millStartDeadline (slice item rank : Nat)
  /-- MILL_PROGRESS_DEADLINE (R300): The progress deadline of an awaited peer passes and the member is lost with cause 1. -/
  | millProgressDeadline (slice item rank : Nat)
  /-- MILL_ITEM_END (R305): Every stripe of an item has ended and the lead slice reports the fate in a completion EVENT. -/
  | millItemEnd (slice item : Nat)
  /-- MILL_GRP_COMMIT (R275): COMMIT reads and checks a group's list and sets RANK, DIGEST and STATE. -/
  | millGrpCommit (w : Writer) (g : Nat)
  /-- MILL_CNT_CLEAR (R298): MILL_CFG.CNT_CLEAR clears the Mill counters. -/
  | millCntClear
  /-- MOVER_DISPATCH (R309): A DISPATCH with a mover record is checked and queued, or answered MOVER_BUSY or MOV_DESC_INVALID. -/
  | moverDispatch (p : Pkt)
  /-- MOV_DESC_START (R317): A fetched descriptor is checked, translated and pinned before it moves any byte. -/
  | movDescStart (mover q : Nat)
  /-- MOV_DESC_END (R310): A descriptor's writes are issued, and the next descriptor runs or the item completes after FENCE.REMOTE. -/
  | movDescEnd (mover q : Nat)
  /-- MOV_ITEM_COMPLETE (R344): The mover sends the item's completion EVENT with its fate and result. -/
  | movItemComplete (mover q : Nat)
  /-- XLT_REQUEST (R333): A translation request reaches a slice, which looks up its TLB and walks the page tables where it misses. -/
  | xltRequest (p : Pkt)
  /-- WALK_STEP (R333): A page-table read returns to a slice, which advances the walk or ends it with a translation or a fault. -/
  | walkStep (slice walk : Nat)
  /-- FAULT_OPEN (R341): A fault reaches the fault unit and joins an open entry or opens a new one with a new FID. -/
  | faultOpen
  /-- FAULT_RECORD_WRITE (R341): HOLD_NS after an entry opens, its fault record is written to the ring or held, followed by MSI-X. -/
  | faultRecordWrite (fid : Nat)
  /-- FAULT_ENTRY_TIMEOUT (R345): An entry still open after TMO_MS closes and its waiters fail with XLT_FAULT_TMO. -/
  | faultEntryTimeout (fid : Nat)
  /-- FLT_RESP_RETRY (R343): A RETRY response makes every waiter of the entry translate its descriptor again. -/
  | fltRespRetry (w : Writer) (fid : Nat)
  /-- FLT_RESP_FAIL (R343): A FAIL response fails every waiter's item with XLT_FAULT. -/
  | fltRespFail (w : Writer) (fid : Nat)
  /-- FAULT_RING_HEAD (R342): A write of MOV_FLT_PTR.HEAD frees ring slots and lets held records be written, or sets REJECTED. -/
  | faultRingHead (w : Writer) (head : Nat)
  /-- XLT_INV_GO (R338): MOV_XLT_INV.GO starts an invalidation of the scope across the slices, micro-TLBs and sites. -/
  | xltInvGo (w : Writer) (scope asid va count : Nat)
  /-- XLT_INV_COMPLETE (R338): GO clears once the caches are cleared, the walks and descriptors have ended and their accesses are performed. -/
  | xltInvComplete
  /-- BUSY_PAGE_RETRY (R346): A write waiting on a BUSY page translates again at least every 100 µs, and fails after TMO_MS. -/
  | busyPageRetry (agent q : Nat) (expired : Bool)
  /-- SQ_DOORBELL (R354): A write of STW_SQDB sets a submission tail and starts fetching. -/
  | sqDoorbell (w : Writer) (q tail : Nat)
  /-- CQ_DOORBELL (R354): A write of STW_CQDB sets a completion head, or puts the naming queues in ERROR when the head is invalid. -/
  | cqDoorbell (w : Writer) (q head : Nat)
  /-- PACKET_FETCH (R360): A ring read returns packets, which are checked in order and become items. -/
  | packetFetch (data : List Byte) (bad : Bool)
  /-- ITEM_DISPATCH (R405): When a unit or firmware core can take work, the Steward selects a candidate and dispatches it. -/
  | itemDispatch
  /-- BUSY_RETRY_TIMER (R364): An item refused with a busy code is dispatched again 1 µs later, or at the unit's next completion. -/
  | busyRetryTimer (q item : Nat)
  /-- NOP (R363): Opcode NOP completes DONE. -/
  | nop (q item : Nat)
  /-- LOOM_RUN (R363): Opcode LOOM_RUN dispatches a kernel launch to a tile. -/
  | loomRun (q item : Nat)
  /-- LOOM_CLAIM (R363): Opcode LOOM_CLAIM claims a tile for the queue's tenant. -/
  | loomClaim (q item : Nat)
  /-- LOOM_PARK (R363): Opcode LOOM_PARK parks a tile. -/
  | loomPark (q item : Nat)
  /-- MOVE (R363): Opcode MOVE dispatches a descriptor array to a mover queue. -/
  | move (q item : Nat)
  /-- COLLECTIVE (R363): Opcode COLLECTIVE dispatches a collective to a lead slice. -/
  | collective (q item : Nat)
  /-- SITE_WORK (R363): Opcode SITE_WORK dispatches work to a site work queue. -/
  | siteWork (q item : Nat)
  /-- WRITE_IMM (R363): Opcode WRITE_IMM writes up to 24 immediate bytes with non-posted writes. -/
  | writeImm (q item : Nat)
  /-- BARRIER (R379): Opcode BARRIER completes when every earlier item of its scope has a fate. -/
  | barrier (q item : Nat)
  /-- EVT_SIGNAL (R377): Opcode EVT_SIGNAL adds to an event's count or sets FAILED. -/
  | evtSignal (q item : Nat)
  /-- EVT_WAIT (R376): Opcode EVT_WAIT completes when the event satisfies the value. -/
  | evtWait (q item : Nat)
  /-- EVT_WAIT_TIMEOUT (R363): An EVT_WAIT whose limit passes fails with WAIT_TIMEOUT. -/
  | evtWaitTimeout (q item : Nat)
  /-- EVT_RESET (R377): Opcode EVT_RESET sets an event's count and clears FAILED. -/
  | evtReset (q item : Nat)
  /-- CANCEL (R366): Opcode CANCEL fails an undispatched target or stops a running one, and reports what it found. -/
  | cancel (q item : Nat)
  /-- ITEM_QUERY (R363): Opcode ITEM_QUERY reports whether a target item is unknown, waiting or running. -/
  | itemQuery (q item : Nat)
  /-- ALLOC (R392): Opcode ALLOC places a buddy block in a pool under the tenant's quota. -/
  | alloc (q item : Nat)
  /-- FREE (R393): Opcode FREE releases a live block and merges it with its buddies. -/
  | free (q item : Nat)
  /-- BLOCK_ZERO_DONE (R393): The zeroing of a freed block ends and the block becomes free. -/
  | blockZeroDone (hpa : Nat)
  /-- KV_ALLOC (R398): Opcode KV_ALLOC appends KV blocks to a manual sequence's block table. -/
  | kvAlloc (q item : Nat)
  /-- KV_FREE (R398): Opcode KV_FREE removes entries from a manual sequence's block table and lowers their counts. -/
  | kvFree (q item : Nat)
  /-- PREFETCH (R348): Opcode PREFETCH migrates pages between host memory and HBM in the order of R348. -/
  | prefetch (q item : Nat)
  /-- ADVISE (R349): Opcode ADVISE writes ADV into the leaves of a range. -/
  | advise (q item : Nat)
  /-- EVACUATE (R166): Opcode EVACUATE copies a range to the buddy hub, writing lost granules as poisoned lines. -/
  | evacuate (q item : Nat)
  /-- WEIGHT_LOAD (R561): Opcode WEIGHT_LOAD checks a manifest and binds a model into the tenant, allocating Granary blocks. -/
  | weightLoad (q item : Nat)
  /-- WEIGHT_CHUNK (R563): Opcode WEIGHT_CHUNK decrypts, checks and seals one ciphertext chunk into the Granary. -/
  | weightChunk (q item : Nat)
  /-- WEIGHT_RELEASE (R566): Opcode WEIGHT_RELEASE unmaps a model from the tenant and frees it when no tenant maps it. -/
  | weightRelease (q item : Nat)
  /-- SEQ_OPEN (R401): Opcode SEQ_OPEN opens a sequence slot, copying its prompt and the shared parent blocks. -/
  | seqOpen (q item : Nat)
  /-- SEQ_FEED (R402): Opcode SEQ_FEED appends tokens to a service sequence's token buffer. -/
  | seqFeed (q item : Nat)
  /-- SEQ_CLOSE (R403): Opcode SEQ_CLOSE ends a sequence and frees its blocks and slot. -/
  | seqClose (q item : Nat)
  /-- GEN_START (R408): Opcode GEN_START checks the service descriptor and starts or resumes the generation service. -/
  | genStart (q item : Nat)
  /-- GEN_STOP (R416): Opcode GEN_STOP pauses the service at the next step boundary, or drains it to IDLE. -/
  | genStop (q item : Nat)
  /-- COMPLETION_EVENT (R380): A unit's completion EVENT fixes an item's fate, applies SIGNAL and writes the reply, or is discarded as stray. -/
  | completionEvent (p : Pkt)
  /-- EVT_OP (R378): An agent's EVT_OP SIGNAL, WAIT or UNWAIT is applied to an event and answered at once. -/
  | evtOp (p : Pkt)
  /-- WAKE_EVENT (R378): A wake EVENT reaches an agent whose registered wait is satisfied. -/
  | wakeEvent (p : Pkt)
  /-- EVT_REG_WRITE (R375): A write of STW_EVT is applied as an event operation and re-evaluates its waits. -/
  | evtRegWrite (w : Writer) (e value : Nat)
  /-- QUEUE_ENABLE (R357): Writing ENABLE = 1 moves an OFF queue to RUNNING, or sets REJECTED. -/
  | queueEnable (w : Writer) (q : Nat)
  /-- QUEUE_DISABLE (R357): Writing ENABLE = 0 moves a RUNNING or ERROR queue to DRAINING. -/
  | queueDisable (w : Writer) (q : Nat)
  /-- QUEUE_DRAINED (R357): A DRAINING queue becomes OFF when its last fetched item has a fate. -/
  | queueDrained (q : Nat)
  /-- CQBASE_WRITE (R356): A write of STW_CQBASE resets the completion queue's pointers, count and phase when its queues are OFF. -/
  | cqbaseWrite (w : Writer) (c value : Nat)
  /-- CQ_COAL_TIMEOUT (R385): COAL_US after the oldest unannounced reply, the completion queue raises its interrupt. -/
  | cqCoalTimeout (c : Nat)
  /-- MBOX_GO (R381): STW_MBOX_CTL.GO starts the mailbox command, and the mailbox moves to NOT_READY. -/
  | mboxGo (w : Writer)
  /-- MBOX_READY (R382): The mailbox command's fate fills RES_DATA and moves the mailbox to READY. -/
  | mboxReady
  /-- RES_ACK (R381): A write of RES_ACK moves a READY mailbox to FREE. -/
  | resAck (w : Writer)
  /-- RSV_WRITE (R388): A write of STW_RSV sets the reserve region, or sets REJECTED under its commit rule. -/
  | rsvWrite (w : Writer) (value : Nat)
  /-- POOL_COMMIT (R391): STW_POOL_CFG.COMMIT applies a pool's configuration or returns the pool to EMPTY. -/
  | poolCommit (w : Writer) (pool value : Nat)
  /-- POOL_ZERO_DONE (R391): A ZEROING pool finishes its zero fill and enters READY. -/
  | poolZeroDone (pool : Nat)
  /-- KV_POOL_COMMIT (R396): STW_KV_CFG1.COMMIT applies a KV pool's configuration or returns it to EMPTY. -/
  | kvPoolCommit (w : Writer) (pool cfg0 cfg1 : Nat)
  /-- GEN_STEP_BOUNDARY (R410): At a step boundary the service applies closes and feeds, builds the batch, allocates KV, writes the table and dispatches the plan. -/
  | genStepBoundary
  /-- GEN_SAMPLE (R411): When every plan item of a step is DONE, the service samples each LOGIT entry on the tiles and applies the stop rules. -/
  | genSample
  /-- GEN_STEP_RETRY (R415): When a plan item fails, the service waits for every fate, discards the step and reruns it, or fails. -/
  | genStepRetry
  /-- GEN_RECORDS_WRITE (R414): Once they all fit, the step's output records are written in batch order, followed by MSI-X. -/
  | genRecordsWrite
  /-- GEN_OUT_HEAD (R414): A write of the output-ring HEAD frees records, or sets REJECTED. -/
  | genOutHead (w : Writer) (head : Nat)
  /-- BUCKET_REFILL (R424): Every 8 ns of bell time, the regulators' token buckets refill. -/
  | bucketRefill
  /-- SLU_WINDOW_END (R429): At the end of each WIN_US window, the regulators judge guarantee and deadline misses and record them. -/
  | sluWindowEnd (meas : List (Nat × Nat))
  /-- SLU_COMMIT (R433): SLU_CTL.COMMIT applies the shadow settings, or sets REJECTED. -/
  | sluCommit (w : Writer)
  /-- SLU_COMMIT_DONE (R433): COMMIT clears once every regulator uses the new settings. -/
  | sluCommitDone
  /-- SLU_MISS_CLEAR (R431): SLU_MISS_CNT.CLEAR clears the miss counts. -/
  | sluMissClear (w : Writer)
  /-- SITE_DISPATCH (R457): A DISPATCH of SITE_WORK is checked by the module and sent to the site as WORK. -/
  | siteDispatch (p : Pkt)
  /-- STL_RD (R443): A site read is stamped, translated and issued into the hub. -/
  | stlRd (n u : Nat) (m : StlMsg)
  /-- STL_WR (R443): A site posted write is stamped and issued. -/
  | stlWr (n u : Nat) (m : StlMsg)
  /-- STL_WRN (R443): A site non-posted write is stamped and issued. -/
  | stlWrn (n u : Nat) (m : StlMsg)
  /-- STL_ATOM (R443): A site atomic is issued as ATOM. -/
  | stlAtom (n u : Nat) (m : StlMsg)
  /-- STL_RD_SHARED (R443): A site coherent shared read is issued to the line's home. -/
  | stlRdShared (n u : Nat) (m : StlMsg)
  /-- STL_RD_UNIQUE (R443): A site read for ownership is issued to the line's home. -/
  | stlRdUnique (n u : Nat) (m : StlMsg)
  /-- STL_CLAIM (R443): A site CLAIM is issued to the line's home. -/
  | stlClaim (n u : Nat) (m : StlMsg)
  /-- STL_WB_DIRTY (R443): A site writeback is issued to the line's home. -/
  | stlWbDirty (n u : Nat) (m : StlMsg)
  /-- STL_EVICT_CLEAN (R443): A site clean eviction is issued to the line's home. -/
  | stlEvictClean (n u : Nat) (m : StlMsg)
  /-- STL_ATOM_P (R443): A site atomic that may run near or far is issued as ATOM_P. -/
  | stlAtomP (n u : Nat) (m : StlMsg)
  /-- STL_FENCE (R449): A site FENCE on a slot completes once every earlier request of the channel on that slot is performed. -/
  | stlFence (n u : Nat) (m : StlMsg)
  /-- STL_FENCE_REMOTE (R449): A site FENCE_REMOTE adds the remote-performance condition. -/
  | stlFenceRemote (n u : Nat) (m : StlMsg)
  /-- XLT_REQ (R453): A site translation request is answered with XLT_RSP. -/
  | xltReq (n u : Nat) (m : StlMsg)
  /-- STL_EVT (R460): A site EVT acts as EVT_OP for the slot's agent. -/
  | stlEvt (n u : Nat) (m : StlMsg)
  /-- STL_IRQ (R460): A site IRQ fences its slot and raises an MSI-X vector, or sets PEND while masked. -/
  | stlIrq (n u : Nat) (m : StlMsg)
  /-- WQ_DONE (R458): A site work-end report becomes a completion EVENT. -/
  | wqDone (n u : Nat) (m : StlMsg)
  /-- STL_ERR (R461): A site error report is logged, raises an event, or isolates the site. -/
  | stlErr (n u : Nat) (m : StlMsg)
  /-- STL_SNP_RSP (R443): A site snoop answer without data is passed to the home. -/
  | stlSnpRsp (n u : Nat) (m : StlMsg)
  /-- STL_SNP_RSP_DATA (R443): A site snoop answer with data is passed to the home. -/
  | stlSnpRspData (n u : Nat) (m : StlMsg)
  /-- STL_CMP_ACK (R443): A site install acknowledgement is passed to the home. -/
  | stlCmpAck (n u : Nat) (m : StlMsg)
  /-- W_RSP (R450): A site answer to a window access or WORK is passed to the requester. -/
  | wRsp (n u : Nat) (m : StlMsg)
  /-- W_RSP_DATA (R450): A site data answer to a window read or atomic is passed to the requester. -/
  | wRspData (n u : Nat) (m : StlMsg)
  /-- XLT_INV_DONE (R455): A site invalidation acknowledgement is followed by flush probes and then an acknowledgement to the slice. -/
  | xltInvDone (n u : Nat) (m : StlMsg)
  /-- ECHO (R471): A site echo reply is compared with the ECHO_REQ data. -/
  | echo (n u : Nat) (m : StlMsg)
  /-- CREDIT (R447): A CREDIT message sets or returns the credits of a slot. -/
  | credit (n u : Nat) (m : StlMsg)
  /-- SITE_CXL_REQUEST (R440): A CXL-mode request from a chiplet is mapped onto the matching STL operation. -/
  | siteCxlRequest (n : Nat) (r : SiteCxl)
  /-- SIDEBAND_IDLE (R466): A site's IDLE on the sideband starts the filter walk toward FENCED. -/
  | sidebandIdle (n : Nat)
  /-- SIDEBAND_SELFTEST (R470): A site's SELFTEST result passes or fails the site's bring-up. -/
  | sidebandSelftest (n result : Nat)
  /-- SIDEBAND_FATAL (R462): A FATAL on the sideband isolates the site. -/
  | sidebandFatal (n : Nat)
  /-- CRED_TIMEOUT (R448): RSP messages to a site that wait CRED_US without credit isolate the site. -/
  | credTimeout (n u : Nat)
  /-- INV_TIMEOUT (R455): XLT_INV unanswered for INV_US isolates the site. -/
  | invTimeout (n : Nat)
  /-- STOP_TIMEOUT (R459): An item still running STOP_US after STOP isolates the site. -/
  | stopTimeout (n item : Nat)
  /-- SITE_TRAIN_TIMEOUT (R470): Bring-up steps 2–7 not done within TRAIN_MS fail the site. -/
  | siteTrainTimeout (n : Nat)
  /-- ECHO_TIMEOUT (R471): An echo not returned within 10 µs marks the module KAT_FAIL. -/
  | echoTimeout (n u : Nat)
  /-- MODULE_RETRAIN (R437): A module whose error rate exceeds the threshold retrains with its traffic held, or makes the site lost. -/
  | moduleRetrain (n u : Nat) (ok : Bool)
  /-- SITE_IRQ_UNMASK (R460): Clearing a mask bit with PEND set delivers one interrupt and clears the pending bit. -/
  | siteIrqUnmask (w : Writer) (n mask : Nat)
  /-- SITE_BRINGUP (R470): The site sequence powers, trains, exchanges parameters, tests, attests and opens a site. -/
  | siteBringup (n : Nat) (t : SiteTrain)
  /-- RIGHT_REVOKE (R469): A cleared right stops SEALED stamping, waits for stamped requests, then makes the homes invalidate the site's Granary lines. -/
  | rightRevoke (n tenant : Nat)
  /-- LINK_FLIT_RECEIVE (R480): A native flit is FEC-decoded and CRC-checked, accepted in SEQ order, applies ACK and credits, or triggers NAK. -/
  | linkFlitReceive (l : Nat) (f : LinkFlit)
  /-- LINK_REPLAY_TIMEOUT (R480): ACK not advancing for 2 µs makes the sender replay, and sixteen such replays make the link retrain. -/
  | linkReplayTimeout (l : Nat)
  /-- ETH_FRAME_RECEIVE (R487): An Ethernet frame is checked, and foreign frames are discarded. -/
  | ethFrameReceive (l port : Nat) (f : EthFrame)
  /-- ETH_CNP (R486): A received CNP halves the pair's send rate. -/
  | ethCnp (hub : Nat)
  /-- ETH_RATE_RISE (R486): Each 55 µs without a CNP raises the pair's rate by 5 % of the link rate. -/
  | ethRateRise (hub : Nat)
  /-- ANCHOR_SEND (R488): A request for another hub reaches its anchor, which sequences it in a send context and sends it. -/
  | anchorSend (p : Pkt)
  /-- XP_RD (R493): A delivered remote read is window-matched and issued into the Commons. -/
  | xpRd (m : XMsg)
  /-- XP_WR (R493): A delivered remote posted write is issued as a non-posted write. -/
  | xpWr (m : XMsg)
  /-- XP_WRN (R493): A delivered remote non-posted write is issued and answered. -/
  | xpWrn (m : XMsg)
  /-- XP_ATOM (R493): A delivered remote atomic is issued as ATOM. -/
  | xpAtom (m : XMsg)
  /-- XP_COLL (R497): A COLL segment is reassembled and its Mill message delivered to the Mill. -/
  | xpColl (m : XMsg)
  /-- XP_CLOSE (R489): A sequenced CLOSE frees the receive context. -/
  | xpClose (m : XMsg)
  /-- XP_RSP (R492): A remote status response is delivered in order to the issuing agent. -/
  | xpRsp (m : XMsg)
  /-- XP_RSP_DATA (R492): A remote data response is delivered in order to the issuing agent. -/
  | xpRspData (m : XMsg)
  /-- XP_WFAIL (R492): A remote posted-write failure is delivered to its source. -/
  | xpWfail (m : XMsg)
  /-- XP_ACK (R492): An ACK frees acknowledged messages from the send buffer. -/
  | xpAck (m : XMsg)
  /-- XP_PERF (R494): A PERF is applied after the responses it covers, and held flush probes are answered. -/
  | xpPerf (m : XMsg)
  /-- XP_BUSY (R489): A BUSY makes the sender repeat its OPEN. -/
  | xpBusy (m : XMsg)
  /-- XP_ACK_TIMER (R492): 1 µs after the oldest unacknowledged delivery, the receiver sends ACK. -/
  | xpAckTimer (hub : Nat)
  /-- XP_RTO (R492): RTO_US without ACK progress resends the stream, and after RETRY_MAX resends the pair is lost. -/
  | xpRto (hub : Nat)
  /-- XP_OPEN_RETRY (R489): Every 10 µs the OPEN is repeated, until OPEN_MS passes and the pair is lost. -/
  | xpOpenRetry (hub : Nat) (expired : Bool)
  /-- XP_IDLE_CLOSE (R489): A send context idle for IDLE_US sends CLOSE. -/
  | xpIdleClose (hub : Nat)
  /-- INTERMEDIATE_FORWARD (R500): An intermediate hub forwards a message that is not for it by its own route table. -/
  | intermediateForward (l vc : Nat) (m : XMsg)
  /-- TIME_SYNC_TIMER (R507): Every SYNC_US, each end of an UP link sends a TIME message. -/
  | timeSyncTimer
  /-- LINK_TIME_MSG (R507): A TIME message updates the follower's offset and its servo. -/
  | linkTimeMsg (l t1 r1 r2 : Nat)
  /-- PTP_FRAME (R508): A PTP event frame is timestamped and processed by the Reeve's PTP state machines. -/
  | ptpFrame (l port : Nat) (offset : Option Int)
  /-- LINK_LANE_FAIL (R510): A failing lane is removed and the link retrains at a narrower width, or goes DOWN. -/
  | linkLaneFail (l lane : Nat)
  /-- LINK_RETRAIN_TIMER (R512): Every 10 ms, a DOWN link retrains, up to RETRAIN_MAX times. -/
  | linkRetrainTimer (l : Nat)
  /-- LINK_RETRAIN (R512): A write of LNK_CFG.RETRAIN retrains a DOWN link. -/
  | linkRetrain (l : Nat)
  /-- LNK_ERR_CLEAR (R512): LNK_ERR.CLEAR clears the link error counts. -/
  | lnkErrClear (l : Nat)
  /-- ROUTE_WRITE (R501): LNK_RT_ACC.WRITE writes a route entry, which applies to later messages. -/
  | routeWrite (idx : Nat) (valid : Bool) (set : Nat)
  /-- WINDOW_COMMIT (R504): LNK_WIN_CTL.COMMIT makes the shadow the window's active mapping, or sets REJECTED. -/
  | windowCommit (w : Nat)
  /-- HOST_MEM_READ (R523): A host memory read to BAR0 or BAR2 is decoded and served, or completed as R524 lays down. -/
  | hostMemRead (bar tag off len : Nat)
  /-- HOST_MEM_WRITE (R523): A host memory write to BAR0 or BAR2 is decoded and performed, or discarded and counted. -/
  | hostMemWrite (bar off : Nat) (data : List Byte) (ep : Bool)
  /-- HOST_ATOMICOP (R523): A host AtomicOp to BAR2 is performed as ATOM. -/
  | hostAtomicop (tag off op size a b : Nat)
  /-- HOST_COMPLETION (R527): A completion for a hub request to host memory returns to the issuing agent. -/
  | hostCompletion (tag status : Nat) (data : List Byte) (ep : Bool)
  /-- HOST_CPL_TIMEOUT (R527): A host read or AtomicOp without completion in time is answered HOST_CPL_TIMEOUT. -/
  | hostCplTimeout (tag : Nat)
  /-- BME_CLEAR (R531): Clearing Bus Master Enable, or entering D3hot, withdraws mastering: new host requests are refused and outstanding reads are answered. -/
  | bmeClear (d3 : Bool)
  /-- BME_DRAIN_TIMEOUT (R531): 2 µs after the clear, queued TLPs still present are dropped and answered HOST_BLOCKED. -/
  | bmeDrainTimeout
  /-- BME_SET (R533): When mastering returns, the fate log is flushed, fetching resumes and held interrupts are sent. -/
  | bmeSet (d0 : Bool)
  /-- MSIX_PENDING_SEND (R528): A vector with its PBA bit set sends one message when every condition next holds. -/
  | msixPendingSend (vector : Nat)
  /-- FUNCTION_LEVEL_RESET (R535): An FLR, Hot Reset or DL_Down runs the function-level reset and gives every item its fate. -/
  | functionLevelReset (kind : Nat)
  /-- FLR_UNIT_WAIT_TIMEOUT (R535): 8 ms into a function-level reset, each unit still owing a completion EVENT is isolated. -/
  | flrUnitWaitTimeout
  /-- LTR_IDLE_TIMER (R529): After IDLE_US with nothing in flight, the endpoint enters IDLE and sends its LTR. -/
  | ltrIdleTimer
  /-- FATE_POP (R539): FATE_LOG_STAT.POP removes the oldest fate-log record and releases its completion slot. -/
  | fatePop (w : Writer)
  /-- FATE_ACK (R540): FATE_CTL.ACK clears every FATE_SUM, FATE_LOST and LOST. -/
  | fateAck (w : Writer)
  /-- HEP_UNSUP_CLEAR (R524): HEP_UNSUP.CLEAR clears the unsupported-access record. -/
  | hepUnsupClear (w : Writer)
  /-- LC_TRANSITION (R550): A Vestry command verifies a token and advances the life-cycle state one step. -/
  | lcTransition (w : Writer) (len : Nat)
  /-- DEBUG_CERT (R555): A Vestry command checks a debug certificate, purges and opens its rights. -/
  | debugCert (w : Writer) (len : Nat)
  /-- EPOCH_RAISE (R558): A Vestry command raises the revocation epoch. -/
  | epochRaise (w : Writer) (len : Nat)
  /-- OWNER_SET (R559): A Vestry command installs a new owner-key digest. -/
  | ownerSet (w : Writer) (len : Nat)
  /-- SITE_ATTEST (R468): A Vestry command attests one site. -/
  | siteAttest (w : Writer) (len : Nat)
  /-- LEDGER_CHECKPOINT (R581): A Vestry command writes a signed Ledger checkpoint. -/
  | ledgerCheckpoint (w : Writer) (len : Nat)
  /-- PURGE (R576): A Vestry command destroys all sealed state. -/
  | purge (w : Writer) (len : Nat)
  /-- PURGE_END (R576): A purge ends when every Granary block is EMPTY. -/
  | purgeEnd
  /-- IDENTITY (R583): A Vestry command returns the serial, the binding digest and the certificate digests. -/
  | identity (w : Writer) (len : Nat)
  /-- VST_MBOX_ACK (R583): VST_MBOX_CTL.ACK moves a DONE Vestry mailbox to FREE. -/
  | vstMboxAck (w : Writer)
  /-- SPDM_REQUEST (R546): An SPDM request over DOE or MCTP is answered by the Vestry. -/
  | spdmRequest (via : Nat) (ask : SpdmAsk)
  /-- LEDGER_EXPORT (R579): A write of LDG_PTR.EXPORTED lets the Vestry reuse the exported records. -/
  | ledgerExport (w : Writer) (value : Nat)
  /-- BOOT_VESTRY (R590): Boot step 1 checks the Vestry ROM, resumes any interrupted transition and starts the Vestry firmware. -/
  | bootVestry (w : Writer) (arg us : Nat) (rom sig : Bool)
  /-- BOOT_FUSES (R585): Boot step 2 loads trims, HUB_CONFIG, COM_AGENT and the defect list. -/
  | bootFuses (w : Writer) (arg us : Nat) (good : Bool) (stks sites links : Nat) (bad : List Nat)
  /-- BOOT_COMMONS (R591): Boot step 3 runs the Commons self-test. -/
  | bootCommons (w : Writer) (arg us corr : Nat) (bad : Option (Nat × Nat × Nat))
  /-- BOOT_REEVE (R590): Boot step 4 checks and starts the Reeve firmware. -/
  | bootReeve (w : Writer) (arg us : Nat) (sig : Bool)
  /-- BOOT_KAT (R592): Boot step 5 runs the known-answer runs on every spared unit and home. -/
  | bootKat (w : Writer) (arg us : Nat) (fails : List (Nat × Nat)) (homes : List Nat)
  /-- BOOT_ROLL (R596): Boot step 6 builds the Roll in STRICT, VACANT or FLOORPLAN mode. -/
  | bootRoll (w : Writer) (arg us : Nat)
  /-- BOOT_HBM (R599): Boot step 7 trains the stacks, sets TOTAL_GIB and opens the stack domains. -/
  | bootHbm (w : Writer) (arg us : Nat) (ts : List StackTrain)
  /-- BOOT_LINKS (R600): Boot step 8 trains the links and locks HUB_NUMBER. -/
  | bootLinks (w : Writer) (arg us : Nat) (ts : List LinkTrain)
  /-- BOOT_SITES (R602): Boot step 9 runs the site sequence on every populated site. -/
  | bootSites (w : Writer) (arg : Nat)
  /-- BOOT_CRIER (R606): Boot step 10 verifies and broadcasts the firmware images with repair rounds. -/
  | bootCrier (w : Writer) (arg : Nat)
  /-- BOOT_READY (R608): Boot step 11 checks the ready criteria and sets READY. -/
  | bootReady (w : Writer) (arg us : Nat)
  /-- BOOT_GO_REFUSED (R586): A GO out of order, while busy, after Ready or with an invalid STEP sets REJECTED and ORDER. -/
  | bootGoRefused (w : Writer) (step arg : Nat)
  /-- BOOT_SAVE_HBM (R601): BOOT_SAVE.HBM stores the stack training sets in flash. -/
  | bootSaveHbm (w : Writer)
  /-- BOOT_SAVE_LINKS (R601): BOOT_SAVE.LINKS stores the native link training sets in flash. -/
  | bootSaveLinks (w : Writer)
  /-- ROLL_UPD (R595): A Roll entry update reaches a network interface, which installs it and answers STILE_ACK. -/
  | rollUpd (agent logical phys gen : Nat)
  /-- CRIER (R605): A CRIER block, CLOSE or QUERY reaches an interface, which stores, verifies or reports. -/
  | crier (agent : Nat) (p : Pkt)
  /-- CRIER_REPORT (R606): A REPORT from a receiver reaches the Reeve, which plans repair rounds. -/
  | crierReport (p : Pkt)
  /-- IMAGE_DIGEST_DONE (R605): A unit's loader finishes the SHA-384 of its image and starts the core or clears the bitmap. -/
  | imageDigestDone (agent : Nat)
  /-- EVT_RECORD_WRITE (R614): The Reeve writes an event record into the event ring and raises MSI-X, or holds or filters it. -/
  | evtRecordWrite
  /-- EVT_RING_HEAD (R614): A write of RVE_EVT_PTR.HEAD frees slots and flushes held records with EVT_LOST, or sets REJECTED. -/
  | evtRingHead (w : Writer) (head : Nat)
  /-- HUB_FATAL_ERROR (R613): A hub-fatal control-state error raises HUB_FATAL. -/
  | hubFatalError (agent : Nat)
  /-- FATAL_RESET_TIMER (R613): 1 ms after a hub-fatal event with AUTO_RESET, the Reeve performs a hub reset. -/
  | fatalResetTimer
  /-- UNIT_FAILURE (R620): A spared unit failed in service is marked, drained and swapped to a spare, or made VACANT. -/
  | unitFailure (agent : Nat)
  /-- UNIT_DRAIN_TIMEOUT (R620): A failed unit's drain not FENCED 500 ms after CLOSE is ended with FORCE_OFF. -/
  | unitDrainTimeout (agent : Nat)
  /-- UNIT_SWAPPED (R620): Once every interface has answered the Roll update, UNIT_SWAPPED is raised and the held items are dispatched to the spare. -/
  | unitSwapped
  /-- SVC_WARM (R629): RVE_SVC_CMD WARM performs a warm reset. -/
  | svcWarm (w : Writer)
  /-- SVC_HUB_RESET (R629): RVE_SVC_CMD HUB_RESET performs a hub reset with the host link up. -/
  | svcHubReset (w : Writer)
  /-- SVC_DOMAIN_RESET (R630): RVE_SVC_CMD DOMAIN_RESET closes and reopens one domain. -/
  | svcDomainReset (w : Writer) (dom : Nat) (force : Bool)
  /-- SVC_DOZE (R634): RVE_SVC_CMD DOZE puts the hub into doze when its conditions hold. -/
  | svcDoze (w : Writer)
  /-- SVC_WAKE (R636): RVE_SVC_CMD WAKE wakes the hub from doze. -/
  | svcWake (w : Writer)
  /-- SVC_UNIT_FAIL (R619): RVE_SVC_CMD UNIT_FAIL fails a named spared unit in service. -/
  | svcUnitFail (w : Writer) (unit : Nat)
  /-- SVC_FW_UPDATE (R624): RVE_SVC_CMD FW_UPDATE updates an image slot live, receiver by receiver. -/
  | svcFwUpdate (w : Writer) (slot : Nat) (allowOld : Bool)
  /-- SVC_RECAL (R627): RVE_SVC_CMD RECAL forces a re-centre of a stack, link or site module. -/
  | svcRecal (w : Writer) (target : Nat)
  /-- SVC_OP_INVALID (R637): An RVE_SVC_CMD with OP 9–15 is refused with STATUS 2. -/
  | svcOpInvalid (w : Writer) (op arg : Nat)
  /-- FW_UPDATE_WAIT_TIMEOUT (R625): 100 ms after a receiver stops taking items, the Reeve closes and reloads it anyway. -/
  | fwUpdateWaitTimeout
  /-- FW_RECEIVER_VERIFIED (R625): A receiver's new image is verified and the update moves to the next receiver. -/
  | fwReceiverVerified (agent : Nat)
  /-- WARM_RESET (R629): A PCIe fundamental reset with power held performs a warm reset. -/
  | warmReset
  /-- DOZE_ENTERED (R634): The entry sequence completes and the hub is in doze. -/
  | dozeEntered
  /-- WAKE_COMPLETE (R636): The wake sequence completes and the Steward resumes fetching. -/
  | wakeComplete
  /-- POWER_ON (R651): PWRGOOD rises and the straps are sampled. -/
  | powerOn (straps : Nat)
  /-- COLD_RESET (R628): The release of COLD_RST_N starts a cold reset and the endpoint's start from its flash record. -/
  | coldReset (rate : Nat)
  /-- POWER_FAIL (R652): PWRGOOD falling while the hub runs is a cold reset at that moment. -/
  | powerFail
  /-- POWER_EVAL (R653): Every 100 µs the Reeve reads the regulators, computes POWER_W and sets the VCORE setpoint under its ceilings. -/
  | powerEval (reads : List PmbRead)
  /-- THERMAL_SENSOR_READ (R648): Every 100 µs each die sensor is read and checked. -/
  | thermalSensorRead (k temp : Nat) (ok : Bool)
  /-- THERMAL_CEILING_TICK (R653): The thermal ceiling falls every 1 ms while hot and rises every 10 ms while cool. -/
  | thermalCeilingTick (rise : Bool)
  /-- STAGE_MISS_TIMER (R654): A stage delay above target for 1 ms with a limiter raises STAGE_MISSED, repeated every 100 ms. -/
  | stageMissTimer
  /-- PIN_THROTTLE (R653): VR_HOT_N or THROTTLE_N changing sets or releases the pin ceiling. -/
  | pinThrottle (pin : Nat) (low : Bool)
  /-- THERMAL_TRIP (R655): The comparator trips at 115 °C, drives THERMTRIP_N and drops site power and links. -/
  | thermalTrip (sensor : Nat)
  /-- MCTP_MESSAGE (R639): An MCTP message from the management bus is handled or forwarded by the Reeve. -/
  | mctpMessage (via typ : Nat) (data : List Byte)
  /-- I3C_CCC (R638): An I3C common command code is handled by the hub's target. -/
  | i3cCcc (code arg : Nat)
  /-- PLDM_REQUEST (R640): A PLDM monitoring or control request reads sensors or sets the out-of-band cap. -/
  | pldmRequest (via : Nat) (ask : PldmAsk)
  /-- PLDM_REQUEST_UPDATE (R646): PLDM RequestUpdate enters update mode, or is answered RETRY_REQUEST_UPDATE while flash is busy. -/
  | pldmRequestUpdate (via : Nat)
  /-- PLDM_APPLY_COMPLETE (R646): PLDM ApplyComplete performs ACTIVATE. -/
  | pldmApplyComplete (via slot : Nat) (image : List Byte) (fault : Option Nat)
  /-- PLDM_ACTIVATE_FIRMWARE (R646): PLDM ActivateFirmware performs FW_UPDATE. -/
  | pldmActivateFirmware (via slot : Nat)
  /-- GET_EVENTS (R641): A vendor command returns records of the out-of-band event log. -/
  | getEvents (via index : Nat)
  /-- OOB_RESET (R641): A vendor command requests a warm or hub reset. -/
  | oobReset (via kind : Nat)
  /-- OOB_WAKE (R641): A vendor command wakes the hub. -/
  | oobWake (via : Nat)
  /-- READ_REG (R641): A vendor command reads CSR registers. -/
  | readReg (via off count : Nat)
  /-- WRITE_REG (R641): A vendor command writes a CSR register. -/
  | writeReg (via off : Nat) (value : Word)
  /-- GET_BOOT (R641): A vendor command returns the boot status and the reset cause. -/
  | getBoot (via : Nat)
  /-- OOB_LOG_FLUSH (R647): At least once a second, the Reeve writes the out-of-band event log to flash. -/
  | oobLogFlush
  /-- FLASH_STAGE (R645): RVE_FLASH_CMD STAGE copies an image into the inactive bank, verifies it and checks its signature. -/
  | flashStage (w : Writer) (slot len : Nat) (fault : Option Nat)
  /-- FLASH_ACTIVATE (R644): RVE_FLASH_CMD ACTIVATE flips the slot's active bank in the directory. -/
  | flashActivate (w : Writer) (slot : Nat)
  /-- FLASH_OP_INVALID (R664): An RVE_FLASH_CMD with OP 3 or an invalid slot ends with STATUS 2. -/
  | flashOpInvalid (w : Writer) (op slot : Nat)
  /-- PPS_PULSE (R658): At each whole second of bell time the hub emits a pulse on PPS_OUT. -/
  | ppsPulse
  /-- HOST_CONFIG_REQUEST (R522): A host configuration read or write reaches the endpoint's configuration space and is served, ignored for EA BARs, or completed with Request Retry Status during a reset. -/
  | hostConfigRequest (tag : Nat) (write : Bool) (off be value : Nat)
  /-- LOAD_CLASS_WINDOW_END (R161): At the end of each 10 ms window the stack controller measures the load class, and a class outside the envelope sets OUT_ENV. -/
  | loadClassWindowEnd (m share : Nat)
  /-- SITE_SPDM_RESPONSE (R468): An SPDM response from a site's responder over the UCIe management transport reaches the Vestry, which advances the attestation and sets or clears SITE_SEAL.RIGHTS. -/
  | siteSpdmResponse (n result : Nat) (meas : List (Nat × List Byte))
  /-- LEDGER_RECORD_IN_FLASH (R580): A Ledger record's write to SPI flash completes, and an anchored record then burns its OTP anchor entry. -/
  | ledgerRecordInFlash
  /-- LINK_TRAINING_END (R512): A link retrain started by a lane failure, a replay limit, the retrain timer or RETRAIN ends, and the link enters UP or DOWN and raises LINK_STATE. -/
  | linkTrainingEnd (l : Nat) (ok : Bool) (lanes : Nat)
  /-- COLD_RESET_ASSERT (R652): COLD_RST_N driven low while the hub runs holds the hub in cold reset. -/
  | coldResetAssert
  /-- JTAG_DEBUG_ACCESS (R553): A JTAG or debug-port operation scans pins, halts or inspects a core, or reads or writes memory, returning the poison pattern for sealed data and writing the Ledger. -/
  | jtagDebugAccess (ask : JtagAsk)
  /-- MARKER_LOCK (R477): A native link receiver gains or loses lock to the frame markers and codeword boundaries of the incoming stream. -/
  | markerLock (l : Nat) (gained : Bool)
  deriving DecidableEq, Repr

end Sys2Proof
end

