-- ==== Sys2Proof/Decode.lean ====
section
/-!
DEFINITION. Decode.lean: the command that a table word spells. No row of the table of operations and events has bits, so no
word spells a command.
-/

namespace Sys2Proof

/-- The command of a word of `nbits` bits: none, for the table gives no row any bits. -/
def decodeTableWord (_nbits _w : Nat) : Option Instr := none

end Sys2Proof
end

