-- ==== Sys2Proof/Machine/Crypto.lean ====
section
/-!
DEFINITION. Machine/Crypto.lean: AES-256 in GCM (10_data_movers.md R326, R327) and SHA-384 (R323, 17_security.md), the published
algorithms that the spec names.
-/

namespace Sys2Proof.Machine

/-- The AES substitution table. -/
def aesTable : List Nat :=
  [
    0x63, 0x7C, 0x77, 0x7B, 0xF2, 0x6B, 0x6F, 0xC5, 0x30, 0x01, 0x67, 0x2B, 0xFE, 0xD7, 0xAB, 0x76,
    0xCA, 0x82, 0xC9, 0x7D, 0xFA, 0x59, 0x47, 0xF0, 0xAD, 0xD4, 0xA2, 0xAF, 0x9C, 0xA4, 0x72, 0xC0,
    0xB7, 0xFD, 0x93, 0x26, 0x36, 0x3F, 0xF7, 0xCC, 0x34, 0xA5, 0xE5, 0xF1, 0x71, 0xD8, 0x31, 0x15,
    0x04, 0xC7, 0x23, 0xC3, 0x18, 0x96, 0x05, 0x9A, 0x07, 0x12, 0x80, 0xE2, 0xEB, 0x27, 0xB2, 0x75] ++
   [
    0x09, 0x83, 0x2C, 0x1A, 0x1B, 0x6E, 0x5A, 0xA0, 0x52, 0x3B, 0xD6, 0xB3, 0x29, 0xE3, 0x2F, 0x84,
    0x53, 0xD1, 0x00, 0xED, 0x20, 0xFC, 0xB1, 0x5B, 0x6A, 0xCB, 0xBE, 0x39, 0x4A, 0x4C, 0x58, 0xCF,
    0xD0, 0xEF, 0xAA, 0xFB, 0x43, 0x4D, 0x33, 0x85, 0x45, 0xF9, 0x02, 0x7F, 0x50, 0x3C, 0x9F, 0xA8,
    0x51, 0xA3, 0x40, 0x8F, 0x92, 0x9D, 0x38, 0xF5, 0xBC, 0xB6, 0xDA, 0x21, 0x10, 0xFF, 0xF3, 0xD2] ++
   [
    0xCD, 0x0C, 0x13, 0xEC, 0x5F, 0x97, 0x44, 0x17, 0xC4, 0xA7, 0x7E, 0x3D, 0x64, 0x5D, 0x19, 0x73,
    0x60, 0x81, 0x4F, 0xDC, 0x22, 0x2A, 0x90, 0x88, 0x46, 0xEE, 0xB8, 0x14, 0xDE, 0x5E, 0x0B, 0xDB,
    0xE0, 0x32, 0x3A, 0x0A, 0x49, 0x06, 0x24, 0x5C, 0xC2, 0xD3, 0xAC, 0x62, 0x91, 0x95, 0xE4, 0x79,
    0xE7, 0xC8, 0x37, 0x6D, 0x8D, 0xD5, 0x4E, 0xA9, 0x6C, 0x56, 0xF4, 0xEA, 0x65, 0x7A, 0xAE, 0x08] ++
   [
    0xBA, 0x78, 0x25, 0x2E, 0x1C, 0xA6, 0xB4, 0xC6, 0xE8, 0xDD, 0x74, 0x1F, 0x4B, 0xBD, 0x8B, 0x8A,
    0x70, 0x3E, 0xB5, 0x66, 0x48, 0x03, 0xF6, 0x0E, 0x61, 0x35, 0x57, 0xB9, 0x86, 0xC1, 0x1D, 0x9E,
    0xE1, 0xF8, 0x98, 0x11, 0x69, 0xD9, 0x8E, 0x94, 0x9B, 0x1E, 0x87, 0xE9, 0xCE, 0x55, 0x28, 0xDF,
    0x8C, 0xA1, 0x89, 0x0D, 0xBF, 0xE6, 0x42, 0x68, 0x41, 0x99, 0x2D, 0x0F, 0xB0, 0x54, 0xBB, 0x16]

/-- Substitute one byte. -/
def aesSub (x : Nat) : Nat := aesTable.getD x 0

/-- Multiply by x in the AES field. -/
def aesDouble (a : Nat) : Nat := (2 * a % 256) ^^^ (if 128 ≤ a then 0x1B else 0)

/-- One new word of the key schedule of AES-256, words as lists of four bytes, the newest first. -/
def aesNextWord (k : Nat) (rcon : Nat) (ws : List (List Nat)) : List Nat :=
  let last := ws.headD []
  let t := if k % 8 = 0 then ((last.drop 1 ++ last.take 1).map aesSub).mapIdx (fun i b => if i = 0 then b ^^^ rcon else b)
    else if k % 8 = 4 then last.map aesSub else last
  (t.zip (ws.getD 7 [])).map (fun e => e.1 ^^^ e.2)

/-- The key schedule: words 8 up to 60. -/
def aesWords : Nat → Nat → Nat → List (List Nat) → List (List Nat)
  | 0, _, _, ws => ws
  | n + 1, k, rcon, ws => aesWords n (k + 1) (if k % 8 = 0 then 2 * rcon else rcon) (aesNextWord k rcon ws :: ws)

/-- The fifteen round keys of a 32-byte key. -/
def aesKeys (key : List Nat) : List (List Nat) :=
  let w0 := (List.range 8).map (fun i => (key.drop (4 * i)).take 4)
  let ws := (aesWords 52 8 1 w0.reverse).reverse
  (List.range 15).map (fun r => ((ws.drop (4 * r)).take 4).flatten)

/-- Substitute and shift the rows of a state of 16 bytes, column by column. -/
def aesShift (st : List Nat) : List Nat :=
  (List.range 16).map (fun i => aesSub (st.getD ((i + 4 * (i % 4)) % 16) 0))

/-- Mix one column. -/
def aesMix : List Nat → List Nat
  | a :: b :: c :: d :: l =>
    let x2 := aesDouble
    let x3 (v : Nat) := aesDouble v ^^^ v
    (x2 a ^^^ x3 b ^^^ c ^^^ d) :: (a ^^^ x2 b ^^^ x3 c ^^^ d) :: (a ^^^ b ^^^ x2 c ^^^ x3 d) ::
      (x3 a ^^^ b ^^^ c ^^^ x2 d) :: aesMix l
  | l => l

def xorNats (a b : List Nat) : List Nat := (a.zip b).map (fun e => e.1 ^^^ e.2)

/-- The middle rounds and the last. -/
def aesRounds : List (List Nat) → List Nat → List Nat
  | [], st => st
  | [k], st => xorNats (aesShift st) k
  | k :: l, st => aesRounds l (xorNats (aesMix (aesShift st)) k)

/-- Encrypt one block under the round keys. -/
def aesBlock (ks : List (List Nat)) (b : List Nat) : List Nat :=
  match ks with
  | k :: l => aesRounds l (xorNats b k)
  | [] => b

/-- The number that 16 bytes spell, highest first, and back. -/
def beNat (l : List Nat) : Nat := l.foldl (fun a b => a * 256 + b) 0
def natBe (k n : Nat) : List Nat := (List.range k).map (fun i => n / 256 ^ (k - 1 - i) % 256)

/-- Multiplication in the field of GHASH: `n` bits of x are left, from the highest. -/
def ghashMul : Nat → Nat → Nat → Nat → Nat
  | 0, _, _, z => z
  | n + 1, x, v, z =>
    ghashMul n x (if v % 2 = 1 then (v / 2) ^^^ (0xE1 * 2 ^ 120) else v / 2) (if Nat.testBit x n then z ^^^ v else z)

/-- GHASH over blocks of 16 bytes, the last padded with zeros; at most `fuel` blocks. -/
def ghash (h : Nat) : Nat → Nat → List Nat → Nat
  | 0, y, _ => y
  | n + 1, y, l =>
    if l.isEmpty then y
    else
      let b := l.take 16
      ghash h n (ghashMul 128 (y ^^^ beNat (b ++ List.replicate (16 - b.length) 0)) h 0) (l.drop 16)

/-- Counter mode from counter block value `c` on. -/
def gcmStream (ks : List (List Nat)) (iv : List Nat) : Nat → Nat → List Nat → List Nat
  | 0, _, _ => []
  | n + 1, c, l =>
    if l.isEmpty then []
    else xorNats (l.take 16) (aesBlock ks (iv ++ natBe 4 c)) ++ gcmStream ks iv n (c + 1) (l.drop 16)

/-- AES-256-GCM with a 12-byte IV and no additional data, of a ciphertext: the plaintext and the tag that belongs to it. -/
def gcmOpen (key iv : List Nat) (ct : List Nat) : List Nat × List Nat :=
  let ks := aesKeys key
  let h := beNat (aesBlock ks (List.replicate 16 0))
  let n := ct.length / 16 + 2
  let y := ghashMul 128 (ghash h n 0 ct ^^^ (ct.length * 8)) h 0
  (gcmStream ks iv n 2 ct, xorNats (natBe 16 y) (aesBlock ks (iv ++ natBe 4 1)))

/-- The round constants of SHA-384. -/
def shaConsts : List Nat :=
  [
    0x428A2F98D728AE22, 0x7137449123EF65CD, 0xB5C0FBCFEC4D3B2F, 0xE9B5DBA58189DBBC,
    0x3956C25BF348B538, 0x59F111F1B605D019, 0x923F82A4AF194F9B, 0xAB1C5ED5DA6D8118,
    0xD807AA98A3030242, 0x12835B0145706FBE, 0x243185BE4EE4B28C, 0x550C7DC3D5FFB4E2,
    0x72BE5D74F27B896F, 0x80DEB1FE3B1696B1, 0x9BDC06A725C71235, 0xC19BF174CF692694,
    0xE49B69C19EF14AD2, 0xEFBE4786384F25E3, 0x0FC19DC68B8CD5B5, 0x240CA1CC77AC9C65,
    0x2DE92C6F592B0275, 0x4A7484AA6EA6E483, 0x5CB0A9DCBD41FBD4, 0x76F988DA831153B5,
    0x983E5152EE66DFAB, 0xA831C66D2DB43210, 0xB00327C898FB213F, 0xBF597FC7BEEF0EE4,
    0xC6E00BF33DA88FC2, 0xD5A79147930AA725, 0x06CA6351E003826F, 0x142929670A0E6E70,
    0x27B70A8546D22FFC, 0x2E1B21385C26C926, 0x4D2C6DFC5AC42AED, 0x53380D139D95B3DF,
    0x650A73548BAF63DE, 0x766A0ABB3C77B2A8, 0x81C2C92E47EDAEE6, 0x92722C851482353B] ++
   [
    0xA2BFE8A14CF10364, 0xA81A664BBC423001, 0xC24B8B70D0F89791, 0xC76C51A30654BE30,
    0xD192E819D6EF5218, 0xD69906245565A910, 0xF40E35855771202A, 0x106AA07032BBD1B8,
    0x19A4C116B8D2D0C8, 0x1E376C085141AB53, 0x2748774CDF8EEB99, 0x34B0BCB5E19B48A8,
    0x391C0CB3C5C95A63, 0x4ED8AA4AE3418ACB, 0x5B9CCA4F7763E373, 0x682E6FF3D6B2B8A3,
    0x748F82EE5DEFB2FC, 0x78A5636F43172F60, 0x84C87814A1F0AB72, 0x8CC702081A6439EC,
    0x90BEFFFA23631E28, 0xA4506CEBDE82BDE9, 0xBEF9A3F7B2C67915, 0xC67178F2E372532B,
    0xCA273ECEEA26619C, 0xD186B8C721C0C207, 0xEADA7DD6CDE0EB1E, 0xF57D4F7FEE6ED178,
    0x06F067AA72176FBA, 0x0A637DC5A2C898A6, 0x113F9804BEF90DAE, 0x1B710B35131C471B,
    0x28DB77F523047D84, 0x32CAAB7B40C72493, 0x3C9EBE0A15C9BEBC, 0x431D67C49C100D4C,
    0x4CC5D4BECB3E42B6, 0x597F299CFC657E2A, 0x5FCB6FAB3AD6FAEC, 0x6C44198C4A475817]

/-- The initial hash value of SHA-384. -/
def shaInit : List Nat :=
  [0xCBBB9D5DC1059ED8, 0x629A292A367CD507, 0x9159015A3070DD17, 0x152FECD8F70E5939,
   0x67332667FFC00B31, 0x8EB44A8768581511, 0xDB0C2E0D64F98FA7, 0x47B5481DBEFA4FA4]

/-- 64-bit rotation to the right. -/
def ror64 (n x : Nat) : Nat := (x / 2 ^ n + x * 2 ^ (64 - n)) % 2 ^ 64

/-- The message schedule, newest word first. -/
def shaSchedule : Nat → List Nat → List Nat
  | 0, w => w
  | n + 1, w =>
    let a := w.getD 14 0
    let b := w.getD 1 0
    let s0 := ror64 1 a ^^^ ror64 8 a ^^^ a / 128
    let s1 := ror64 19 b ^^^ ror64 61 b ^^^ b / 64
    shaSchedule n (((w.getD 15 0 + s0 + w.getD 6 0 + s1) % 2 ^ 64) :: w)

/-- The eighty rounds over (constant, word) pairs. -/
def shaRounds : List (Nat × Nat) → List Nat → List Nat
  | (k, w) :: l, [a, b, c, d, e, f, g, h] =>
    let m := 2 ^ 64
    let t1 := (h + (ror64 14 e ^^^ ror64 18 e ^^^ ror64 41 e) + ((e &&& f) ^^^ ((m - 1 - e) &&& g)) + k + w) % m
    let t2 := ((ror64 28 a ^^^ ror64 34 a ^^^ ror64 39 a) + ((a &&& b) ^^^ (a &&& c) ^^^ (b &&& c))) % m
    shaRounds l [(t1 + t2) % m, a, b, c, (d + t1) % m, e, f, g]
  | _, st => st

/-- Hash the 128-byte blocks of a padded message. -/
def shaBlocks : Nat → List Nat → List Nat → List Nat
  | 0, _, st => st
  | n + 1, msg, st =>
    if msg.isEmpty then st
    else
      let w := (List.range 16).map (fun i => beNat ((msg.drop (8 * i)).take 8))
      let ws := (shaSchedule 64 w.reverse).reverse
      let r := shaRounds (shaConsts.zip ws) st
      shaBlocks n (msg.drop 128) ((st.zip r).map (fun e => (e.1 + e.2) % 2 ^ 64))

/-- SHA-384 of bytes: 48 bytes. -/
def sha384 (l : List Byte) : List Byte :=
  let m := l.map BitVec.toNat
  let pad := (111 + 256 - m.length % 128) % 128
  let msg := m ++ [0x80] ++ List.replicate pad 0 ++ natBe 16 (8 * m.length)
  let st := shaBlocks (msg.length / 128 + 1) msg shaInit
  ((st.take 6).flatMap (natBe 8)).map (BitVec.ofNat 8)

/-! ### CRC-32C (09_mill.md R275, R291, 10_data_movers.md R323) -/

/-- Steps of the reflected polynomial 0x82F63B78. -/
def crcBits : Nat → Nat → Nat
  | 0, c => c
  | k + 1, c => crcBits k (if c % 2 = 1 then (c / 2) ^^^ 0x82F63B78 else c / 2)

/-- CRC-32C of bytes. -/
def crc32c (l : List Byte) : Nat := (l.foldl (fun c b => crcBits 8 (c ^^^ b.toNat)) 0xFFFFFFFF) ^^^ 0xFFFFFFFF

end Sys2Proof.Machine
end

