-- ==== Sys2Proof/Machine/Flags.lean ====
section
/-!
DEFINITION. Machine/Flags.lean: the 6-bit flag vector of conversions and arithmetic (06_number_formats.md R185).
-/

namespace Sys2Proof.Machine

def fSAT : Nat := 32
def fNV : Nat := 16
def fDZ : Nat := 8
def fOF : Nat := 4
def fUF : Nat := 2
def fNX : Nat := 1

/-- The flags of several results together. -/
def orFlags (l : List Nat) : Nat := l.foldl (· ||| ·) 0

/-- A flag when a condition holds. -/
def flagIf (b : Bool) (f : Nat) : Nat := if b then f else 0

end Sys2Proof.Machine
end

