-- ==== Sys2Proof/Machine/Formats.lean ====
section
/-!
DEFINITION. Machine/Formats.lean: number formats, rounding, conversion, exact values and sums, block formats, GRID40
and the 320-bit accumulator (06_number_formats.md). Every function here is exact: a value is a sign and a rational
times a power of two, rounded once.
-/

namespace Sys2Proof.Machine

/-- An exact value: NaN, an infinity, or (-1)^neg * num / den * 2^e, zero when `num` is 0. -/
inductive Val where
  | nan
  | inf (neg : Bool)
  | fin (neg : Bool) (num den : Nat) (e : Int)
  deriving DecidableEq, Repr

/-- Special-value policies (R177). -/
inductive Special where
  | ieee | topNan | none | negZeroNan
  deriving DecidableEq, Repr

/-- An element format: `eb` exponent bits, 0 for an integer or fixed-point element, whose `bias` is then its fraction
bits and whose `mb` its magnitude bits (R176, R177). -/
structure Fmt where
  sign : Bool
  eb : Nat
  mb : Nat
  bias : Nat
  special : Special
  deriving DecidableEq, Repr

/-- The width of an element. -/
def Fmt.width (f : Fmt) : Nat := (if f.sign then 1 else 0) + f.eb + f.mb

def fp32 : Fmt := ⟨true, 8, 23, 127, .ieee⟩
def fp64 : Fmt := ⟨true, 11, 52, 1023, .ieee⟩
def bf16 : Fmt := ⟨true, 8, 7, 127, .ieee⟩
def fp16 : Fmt := ⟨true, 5, 10, 15, .ieee⟩
def e4m3 : Fmt := ⟨true, 4, 3, 7, .topNan⟩
def e5m2 : Fmt := ⟨true, 5, 2, 15, .ieee⟩
def e3m2 : Fmt := ⟨true, 3, 2, 3, .none⟩
def e2m3 : Fmt := ⟨true, 2, 3, 1, .none⟩
def e2m1 : Fmt := ⟨true, 2, 1, 1, .none⟩
def mxint8 : Fmt := ⟨true, 0, 7, 6, .none⟩
def intFmt (w : Nat) : Fmt := ⟨true, 0, w - 1, 0, .none⟩

/-- Rounding modes (R181); DYN is resolved before rounding. -/
inductive RM where
  | rne | rtz | rup | rdn | rsr
  deriving DecidableEq, Repr

/-- The mode of an encoded field, DYN giving `dyn`; none for the reserved values 5 and 6. -/
def rmOf (dyn : RM) : Nat → Option RM
  | 0 => some .rne
  | 1 => some .rtz
  | 2 => some .rup
  | 3 => some .rdn
  | 4 => some .rsr
  | 7 => some dyn
  | _ => none

/-- The 64-bit word z of element `i` of a stream with `seed` (R182). -/
def rsrZ (seed i : Nat) : Nat :=
  let m := 2 ^ 64
  let z0 := (seed + (i + 1) * 0x9E3779B97F4A7C15) % m
  let z1 := ((z0 ^^^ (z0 / 2 ^ 30)) * 0xBF58476D1CE4E5B9) % m
  let z2 := ((z1 ^^^ (z1 / 2 ^ 27)) * 0x94D049BB133111EB) % m
  z2 ^^^ (z2 / 2 ^ 31)

/-- The random word of element `i` of a stream with `seed` (R182). -/
def rsrWord (seed i : Nat) : Nat := rsrZ seed i / 2 ^ 32

/-- Two to a power that may be negative, as a fraction. -/
def pow2Num (e : Int) : Nat := 2 ^ e.toNat
def pow2Den (e : Int) : Nat := 2 ^ (-e).toNat

/-- The numerator and denominator of num / den * 2^e. -/
def ratNum (num : Nat) (e : Int) : Nat := num * pow2Num e
def ratDen (den : Nat) (e : Int) : Nat := den * pow2Den e

/-- Floor of log2 of num / den * 2^e, for a positive value. -/
def log2Val (num den : Nat) (e : Int) : Int :=
  let d : Int := (Nat.log2 num : Int) - (Nat.log2 den : Int)
  let ge : Bool := decide (den * pow2Num d ≤ num * pow2Den d)
  (if ge then d else d - 1) + e

/-- Round num / den * 2^e to a whole number of quanta 2^q: the rounded count and whether it is inexact (R181, R182).
`r` is the random word of RSR. -/
def roundQ (rm : RM) (neg : Bool) (r num den : Nat) (e q : Int) : Nat × Bool :=
  let n := ratNum num (e - q)
  let d := ratDen den (e - q)
  let k := n / d
  let x := n % d
  let up : Bool := match rm with
    | .rne => decide (d < 2 * x) || (decide (2 * x = d) && decide (k % 2 = 1))
    | .rtz => false
    | .rup => !neg && decide (0 < x)
    | .rdn => neg && decide (0 < x)
    | .rsr => decide (0 < x) && decide (r < 2 ^ 32 * x / d)
  (if up then k + 1 else k, decide (x ≠ 0))

/-- Largest exponent field of a finite value, and the largest mantissa at it. -/
def Fmt.topExp (f : Fmt) : Nat :=
  match f.special with
  | .ieee => 2 ^ f.eb - 2
  | .topNan => if f.mb = 0 then 2 ^ f.eb - 2 else 2 ^ f.eb - 1
  | _ => 2 ^ f.eb - 1
def Fmt.topMant (f : Fmt) : Nat :=
  match f.special with
  | .topNan => if f.mb = 0 then 0 else 2 ^ f.mb - 2
  | _ => 2 ^ f.mb - 1

/-- The exponent of the smallest normal value. -/
def Fmt.emin (f : Fmt) : Int := 1 - (f.bias : Int)

/-- The largest finite magnitude as a pair (m, e) with value m * 2^e (R169, R184). -/
def Fmt.maxFin (f : Fmt) : Nat × Int :=
  if f.eb = 0 then (2 ^ f.mb - 1, -(f.bias : Int))
  else if f.topExp = 0 then (f.topMant, f.emin - f.mb)
  else (2 ^ f.mb + f.topMant, (f.topExp : Int) - f.bias - f.mb)

/-- The pattern with a sign and a body. -/
def Fmt.pat (f : Fmt) (neg : Bool) (body : Nat) : Nat := (if neg && f.sign then 2 ^ (f.eb + f.mb) else 0) + body

/-- The pattern of the largest finite magnitude of a floating-point format. -/
def Fmt.maxPat (f : Fmt) (neg : Bool) : Nat := f.pat neg (f.topExp * 2 ^ f.mb + f.topMant)

/-- Infinity, where the format has one. -/
def Fmt.infPat (f : Fmt) (neg : Bool) : Nat := f.pat neg ((2 ^ f.eb - 1) * 2 ^ f.mb)

/-- Whether the format has infinities (class F-INF of R184). -/
def Fmt.hasInf (f : Fmt) : Bool := decide (f.eb ≠ 0) && decide (f.special = .ieee)

/-- The canonical NaN, none for a format without one (R169, R171, R177). That of a custom format has sign 0 and, with infinities, the top mantissa bit
alone (log entry 146). -/
def Fmt.nanPat (f : Fmt) : Option Nat :=
  if f.eb = 0 then none else
  match f.special with
  | .ieee => if f.mb = 0 then none else some ((2 ^ f.eb - 1) * 2 ^ f.mb + 2 ^ (f.mb - 1))
  | .topNan => some (2 ^ (f.eb + f.mb) - 1)
  | .none => none
  | .negZeroNan => some (2 ^ (f.eb + f.mb))

/-- The value of a pattern (R170, R171, R177). -/
def Fmt.decode (f : Fmt) (p : Nat) : Val :=
  let w := f.width
  let p := p % 2 ^ w
  if f.eb = 0 then
    if f.sign && decide (2 ^ f.mb ≤ p) then .fin true (2 ^ w - p) 1 (-(f.bias : Int))
    else .fin false p 1 (-(f.bias : Int))
  else
    let neg := f.sign && decide (2 ^ (f.eb + f.mb) ≤ p)
    let body := p % 2 ^ (f.eb + f.mb)
    let ex := body / 2 ^ f.mb
    let m := body % 2 ^ f.mb
    let finite : Val := if ex = 0 then .fin neg m 1 (f.emin - f.mb)
      else .fin neg (2 ^ f.mb + m) 1 ((ex : Int) - f.bias - f.mb)
    match f.special with
    | .ieee => if ex = 2 ^ f.eb - 1 then (if m = 0 then .inf neg else .nan) else finite
    | .topNan => if body = 2 ^ (f.eb + f.mb) - 1 then .nan else finite
    | .none => finite
    | .negZeroNan => if p = 2 ^ (f.eb + f.mb) then .nan else finite

/-- A NaN result in a target: its canonical NaN, or +0 with NV where it has none; 0 with NV for an integer (R184). -/
def Fmt.nanResult (f : Fmt) : Nat × Nat :=
  match f.nanPat with
  | some p => (p, 0)
  | none => (0, fNV)

/-- The clamped pattern with the source's sign, for an integer target its largest or smallest value (R184). -/
def Fmt.clamp (f : Fmt) (neg : Bool) : Nat :=
  if f.eb = 0 then (if neg then (if f.sign then 2 ^ f.mb else 0) else 2 ^ f.mb - 1) else f.maxPat neg

/-- A zero result with its sign; NEGZERO_NAN and unsigned and integer targets have only +0 (R177, R184). -/
def Fmt.zero (f : Fmt) (neg : Bool) : Nat :=
  if f.eb = 0 || decide (f.special = .negZeroNan) then 0 else f.pat neg 0

/-- Convert an exact value into a format under a mode and a saturation bit: the pattern and the flags (R181-R185).
`r` is the random word of RSR. -/
def Fmt.convert (f : Fmt) (rm : RM) (sat : Bool) (r : Nat) (v : Val) : Nat × Nat :=
  match v with
  | .nan => f.nanResult
  | .inf neg =>
    if neg && !f.sign then (0, fNV ||| fSAT)
    else if f.eb = 0 then (f.clamp neg, fNV ||| fSAT)
    else if sat then (f.maxPat neg, fOF ||| fSAT)
    else match f.special with
      | .ieee => (f.infPat neg, 0)
      | .none => (f.maxPat neg, fOF ||| fSAT)
      | _ => (f.nanResult.1, fOF)
  | .fin neg num den e =>
    if num = 0 then (f.zero neg, 0)
    else if neg && !f.sign then (0, fNV ||| fSAT)
    else if f.eb = 0 then
      let (k, ix) := roundQ rm neg r num den e (-(f.bias : Int))
      let lim := if neg then 2 ^ f.mb else 2 ^ f.mb - 1
      if lim < k then (f.clamp neg, fNV ||| fSAT)
      else (if neg then (2 ^ f.width - k) % 2 ^ f.width else k, flagIf ix fNX)
    else
      let lg := log2Val num den e
      let q := max (lg - f.mb) (f.emin - f.mb)
      let (k, ix) := roundQ rm neg r num den e q
      -- the rounding with unbounded exponent, for the tininess of UF
      let (ku, _) := roundQ rm neg r num den e (lg - f.mb)
      let tiny : Bool := decide (lg < f.emin) && !(decide (lg + 1 = f.emin) && decide (ku = 2 ^ (f.mb + 1)))
      let (k, q) := if k = 2 ^ (f.mb + 1) then (2 ^ f.mb, q + 1) else (k, q)
      let (mm, me) := f.maxFin
      let excess : Bool := decide (ratNum mm (me - q) < k * pow2Den (me - q))
      if excess then
        if sat then (f.maxPat neg, fOF ||| fNX ||| fSAT)
        else match f.special with
          | .none => (f.maxPat neg, fOF ||| fNX ||| fSAT)
          | sp =>
            let toInf : Bool := match rm with
              | .rne => true
              | .rtz => false
              | .rup => !neg
              | .rdn => neg
              | .rsr => true
            if toInf then (if sp = .ieee then f.infPat neg else f.nanResult.1, fOF ||| fNX)
            else (f.maxPat neg, fOF ||| fNX)
      else if k = 0 then (f.zero neg, fUF ||| fNX)
      else
        let body := if k < 2 ^ f.mb then k
          else ((q + f.mb + f.bias).toNat) * 2 ^ f.mb + (k - 2 ^ f.mb)
        (f.pat neg body, flagIf ix fNX ||| flagIf (ix && tiny) fUF)

/-! ### Exact arithmetic on values -/

/-- Negate. -/
def Val.neg : Val → Val
  | .nan => .nan
  | .inf n => .inf (!n)
  | .fin n a b e => .fin (!n) a b e

def Val.isNan : Val → Bool
  | .nan => true
  | _ => false

def Val.isZero : Val → Bool
  | .fin _ 0 _ _ => true
  | _ => false

/-- The sign of a value, false for NaN. -/
def Val.isNeg : Val → Bool
  | .nan => false
  | .inf n => n
  | .fin n _ _ _ => n

/-- The magnitude. -/
def Val.abs : Val → Val
  | .nan => .nan
  | .inf _ => .inf false
  | .fin _ a b e => .fin false a b e

/-- An exact rational from a signed numerator. -/
def valOfInt (i : Int) (e : Int) (negZero : Bool) : Val :=
  if i = 0 then .fin negZero 0 1 0 else .fin (decide (i < 0)) i.natAbs 1 e

/-- Signed numerator of a finite value over den * 2^e. -/
def signed (neg : Bool) (n : Nat) : Int := if neg then -(n : Int) else n

/-- Exact sum; the sign of an exactly zero sum of values that are not both zeros of one sign is + except under RDN, as
IEEE 754 gives. Infinities of both signs give NaN with NV. -/
def addVal (rm : RM) (a b : Val) : Val × Nat :=
  match a, b with
  | .nan, _ => (.nan, 0)
  | _, .nan => (.nan, 0)
  | .inf x, .inf y => if x = y then (.inf x, 0) else (.nan, fNV)
  | .inf x, _ => (.inf x, 0)
  | _, .inf y => (.inf y, 0)
  | .fin x n d e, .fin y m c g =>
    if n = 0 && m = 0 then
      (.fin (if x = y then x else decide (rm = .rdn)) 0 1 0, 0)
    else
      let q := min e g
      let i : Int := signed x (n * c * pow2Num (e - q)) + signed y (m * d * pow2Num (g - q))
      if i = 0 then (.fin (decide (rm = .rdn)) 0 1 0, 0)
      else (.fin (decide (i < 0)) i.natAbs (d * c) q, 0)

/-- Exact product; 0 times an infinity gives NaN with NV. -/
def mulVal (a b : Val) : Val × Nat :=
  match a, b with
  | .nan, _ => (.nan, 0)
  | _, .nan => (.nan, 0)
  | .inf x, .inf y => (.inf (x != y), 0)
  | .inf x, .fin y m _ _ => if m = 0 then (.nan, fNV) else (.inf (x != y), 0)
  | .fin x n _ _, .inf y => if n = 0 then (.nan, fNV) else (.inf (x != y), 0)
  | .fin x n d e, .fin y m c g => (.fin (x != y) (n * m) (d * c) (e + g), 0)

/-- Exact quotient: 0/0 and inf/inf NaN with NV, a finite non-zero value over 0 an infinity with DZ. -/
def divVal (a b : Val) : Val × Nat :=
  match a, b with
  | .nan, _ => (.nan, 0)
  | _, .nan => (.nan, 0)
  | .inf _, .inf _ => (.nan, fNV)
  | .inf x, .fin y _ _ _ => (.inf (x != y), 0)
  | .fin x _ _ _, .inf y => (.fin (x != y) 0 1 0, 0)
  | .fin x n d e, .fin y m c g =>
    if m = 0 then (if n = 0 then (.nan, fNV) else (.inf (x != y), fDZ))
    else if n = 0 then (.fin (x != y) 0 1 0, 0)
    else (.fin (x != y) (n * c) (d * m) (e - g), 0)

/-- Compare magnitudes and signs: none for NaN, and +0 equals -0 (R252 orders zeros where it says so). -/
def cmpVal (a b : Val) : Option Ordering :=
  match a, b with
  | .nan, _ => none
  | _, .nan => none
  | .inf x, .inf y => some (if x = y then .eq else if x then .lt else .gt)
  | .inf x, _ => some (if x then .lt else .gt)
  | _, .inf y => some (if y then .gt else .lt)
  | .fin x n d e, .fin y m c g =>
    let q := min e g
    some (compare (signed x (n * c * pow2Num (e - q))) (signed y (m * d * pow2Num (g - q))))

/-- Integer square root by bisection on bits: the largest r with r * r at most n. -/
def isqrtGo (n : Nat) : Nat → Nat → Nat
  | 0, r => r
  | k + 1, r => let t := r + 2 ^ k; isqrtGo n k (if t * t ≤ n then t else r)
def isqrt (n : Nat) : Nat := isqrtGo n (Nat.log2 n / 2 + 1) 0

/-- A square root good for one rounding of up to 26 bits and 32 random bits: the root truncated at 2^-96 of its
leading bit with a sticky bit, so that every rounding decision equals that of the exact root. -/
def sqrtVal (a : Val) : Val × Nat :=
  match a with
  | .nan => (.nan, 0)
  | .inf n => if n then (.nan, fNV) else (.inf false, 0)
  | .fin n num den e =>
    if num = 0 then (.fin n 0 1 0, 0)
    else if n then (.nan, fNV)
    else
      let k : Nat := 2 * (100 + Nat.log2 den + 1)
      let e2 := if e % 2 = 0 then e else e - 1
      let num2 := if e % 2 = 0 then num else 2 * num
      let x := num2 * 2 ^ k / den
      let r := isqrt x
      let exact : Bool := decide (r * r * den = num2 * 2 ^ k)
      (.fin false (if exact then 2 * r else 2 * r + 1) 1 (e2 / 2 - (k / 2 : Nat) - 1), 0)

/-! ### Format codes and block formats -/

/-- Scale formats (R173, R176-R178). -/
inductive ScaleFmt where
  | none
  | e8m0
  | fp (f : Fmt)
  deriving DecidableEq, Repr

/-- A format code's meaning: the element, the block (0 for none), the scale, its rule and its place (R167, R176). -/
structure FmtInfo where
  elt : Fmt
  block : Nat := 0
  scale : ScaleFmt := .none
  ceil : Bool := false
  place : Nat := 0
  deriving DecidableEq, Repr

/-- Fields of a format descriptor. -/
def descBits (d : Word) (hi lo : Nat) : Nat := (d.toNat >>> lo) % 2 ^ (hi - lo + 1)

/-- The fields of a format descriptor that marks itself VALID are well formed (R176). -/
def descOk (d : Word) : Bool :=
  let sg := descBits d 0 0
  let ex := descBits d 11 8
  let mt := descBits d 20 16
  let bs := descBits d 39 32
  let sp := descBits d 41 40
  let bl := descBits d 46 44
  let sf := descBits d 50 48
  let w := sg + ex + mt
  decide (2 ≤ w ∧ w ≤ 32 ∧ ex ≤ 8) && (ex = 0 || decide (mt ≤ 23)) && (ex ≠ 0 || (decide (bs ≤ 31) && decide (sp = 2)))
  && (sp ≠ 0 || decide (2 ≤ ex)) && (sp ≠ 3 || decide (sg = 1))
  && decide (descBits d 55 54 ≤ 1 ∧ descBits d 53 52 ≤ 2 ∧ sf ≤ 5 ∧ bl ≤ 4)
  && decide ((bl = 0) = (sf = 0)) && (descBits d 55 54 = 0 || decide (sf = 1))

/-- The format that a descriptor describes, none when it is not valid. -/
def descFmt (d : Word) : Option FmtInfo :=
  if descBits d 63 63 = 1 && descOk d then
    some
      { elt := ⟨decide (descBits d 0 0 = 1), descBits d 11 8, descBits d 20 16, descBits d 39 32,
          match descBits d 41 40 with | 0 => .ieee | 1 => .topNan | 3 => .negZeroNan | _ => .none⟩
        block := match descBits d 46 44 with | 1 => 8 | 2 => 16 | 3 => 32 | 4 => 64 | _ => 0
        scale := match descBits d 50 48 with
          | 1 => .e8m0 | 2 => .fp e4m3 | 3 => .fp bf16 | 4 => .fp fp16 | 5 => .fp fp32 | _ => .none
        ceil := decide (descBits d 55 54 = 1)
        place := descBits d 53 52 }
  else none

/-- The meaning of a format code under a descriptor table; GRID40 (0x0F) and codes with no valid slot have none here
(R167, R168). -/
def fmtOf (tab : List Word) (code : Nat) : Option FmtInfo :=
  match code with
  | 0x00 => some { elt := fp32 }
  | 0x01 => some { elt := bf16 }
  | 0x02 => some { elt := fp16 }
  | 0x03 => some { elt := e4m3 }
  | 0x04 => some { elt := e5m2 }
  | 0x05 => some { elt := e4m3, block := 32, scale := .e8m0 }
  | 0x06 => some { elt := e5m2, block := 32, scale := .e8m0 }
  | 0x07 => some { elt := e3m2, block := 32, scale := .e8m0 }
  | 0x08 => some { elt := e2m3, block := 32, scale := .e8m0 }
  | 0x09 => some { elt := e2m1, block := 32, scale := .e8m0 }
  | 0x0A => some { elt := mxint8, block := 32, scale := .e8m0 }
  | 0x0B => some { elt := intFmt 32 }
  | 0x0C => some { elt := intFmt 16 }
  | 0x0D => some { elt := intFmt 8 }
  | 0x0E => some { elt := intFmt 4 }
  | c => if 0x10 ≤ c ∧ c < 0x20 then (tab[c - 0x10]?).bind descFmt else none

/-- A number from little-endian bytes. -/
def leVal : List Byte → Nat
  | [] => 0
  | b :: l => b.toNat + 256 * leVal l

/-- Element `i` of width `w` in a packed vector (R172). -/
def eltAt (bs : List Byte) (w i : Nat) : Nat := leVal ((bs.drop (w * i / 8)).take ((w + 14) / 8)) >>> (w * i % 8) % 2 ^ w

/-- The number whose bits are the packed elements. -/
def packNat (w : Nat) : List Nat → Nat
  | [] => 0
  | x :: l => x % 2 ^ w + 2 ^ w * packNat w l

/-- The bytes of a packed vector; spare high bits are 0 (R172). -/
def packElts (w : Nat) (xs : List Nat) : List Byte :=
  let n := packNat w xs
  (List.range ((w * xs.length + 7) / 8)).map (fun k => BitVec.ofNat 8 (n >>> (8 * k)))

/-- Bytes of a scale. -/
def ScaleFmt.bytes : ScaleFmt → Nat
  | .none => 0
  | .e8m0 => 1
  | .fp f => (f.width + 7) / 8

/-- Multiply by a power of two exactly. -/
def scaleVal (v : Val) (k : Int) : Val :=
  match v with
  | .fin n a b e => .fin n a b (e + k)
  | v => v

/-- The value of an element under its block's scale (R173, R177). -/
def scaledElt (sf : ScaleFmt) (sc : Nat) (v : Val) : Val :=
  match sf with
  | .none => v
  | .e8m0 => if sc = 0xFF then .nan else scaleVal v ((sc : Int) - 127)
  | .fp f =>
    match f.decode sc with
    | .fin _ a b e => (mulVal (.fin false a b e) v).1
    | _ => .nan

/-- The larger of two magnitudes. -/
def maxAbs (a b : Val) : Val :=
  match cmpVal a.abs b.abs with
  | some .lt => b.abs
  | _ => a.abs

/-- The scale of a block under FLOOR or CEIL for E8M0 (R175), or rounded up in its own format (R178); the flags; and
whether every element is written 0. Under FLOOR the exponent of a custom element's largest finite value is its emax (log entry 146). -/
def chooseScale (fi : FmtInfo) (xs : List Val) : Nat × Nat × Bool :=
  let hasNan := xs.any Val.isNan
  let hasInf := xs.any (fun v => match v with | .inf _ => true | _ => false)
  let am := xs.foldl maxAbs (.fin false 0 1 0)
  let (mm, me) := fi.elt.maxFin
  match fi.scale with
  | .none => (0, 0, false)
  | .e8m0 =>
    if hasNan || hasInf then (0xFF, flagIf hasNan fNV ||| flagIf hasInf fOF, true)
    else match am with
      | .fin _ n d e =>
        if n = 0 then (0, 0, true)
        else
          let raw : Int :=
            if fi.ceil then
              -- smallest E with amax <= maxfin * 2^E
              let t := log2Val n d e - log2Val mm 1 me
              if cmpVal am (.fin false mm 1 (me + t - 1)) ≠ some .gt then t - 1
              else if cmpVal am (.fin false mm 1 (me + t)) ≠ some .gt then t
              else t + 1
            else log2Val n d e - log2Val mm 1 me
          let cl : Int := if raw < -127 then -127 else if 127 < raw then 127 else raw
          ((cl + 127).toNat, 0, false)
      | _ => (0, 0, true)
  | .fp f =>
    if hasNan || hasInf then
      let p := match f.nanPat with | some p => p | none => f.maxPat false
      (p, flagIf hasNan fNV ||| flagIf hasInf fOF, true)
    else if am.isZero then (0, 0, true)
    else
      let q := (divVal am (.fin false mm 1 me)).1
      let (p, _) := f.convert .rup true 0 q
      (p, 0, false)

/-- Convert one block's values: scale, element patterns and flags. `base` is the stream index of its first element. -/
def encodeBlock (fi : FmtInfo) (rm : RM) (sat : Bool) (seed base : Nat) (xs : List Val) : Nat × List Nat × Nat :=
  let (sc, fl, allZero) := chooseScale fi xs
  let outs : List (Nat × Nat) := (xs.zipIdx).map (fun (v, k) =>
    if allZero then (0, 0)
    else
      let t : Val := match fi.scale with
        | .none => v
        | .e8m0 => scaleVal v (127 - (sc : Int))
        | .fp f => match f.decode sc with
          | .fin _ a b e => if a = 0 then v else (divVal v (.fin false a b e)).1
          | _ => v
      fi.elt.convert rm sat (rsrWord seed (base + k)) t)
  (sc, outs.map (·.1), orFlags (fl :: outs.map (·.2)))

/-- Cut a list into pieces of `n`, for at most `fuel` pieces. -/
def chunk {α : Type} (n : Nat) : Nat → List α → List (List α)
  | 0, _ => []
  | k + 1, l => if l.isEmpty then [] else l.take n :: chunk n k (l.drop n)

/-- Bytes of the element part of a vector of `n` elements (R172, R174, R177). -/
def vecBytes (fi : FmtInfo) (n : Nat) : Nat :=
  if fi.block = 0 then (fi.elt.width * n + 7) / 8
  else
    let nb := (n + fi.block - 1) / fi.block
    if fi.place = 0 then (fi.elt.width * fi.block * nb + 7) / 8
    else nb * ((fi.elt.width * fi.block + 7) / 8 + fi.scale.bytes)

/-- Bytes of the separate scale array of a vector of `n` elements. -/
def scaleBytes (fi : FmtInfo) (n : Nat) : Nat :=
  if fi.block = 0 || fi.place ≠ 0 then 0 else (n + fi.block - 1) / fi.block * fi.scale.bytes

/-! ### The fixed grid (R190-R193, R665) -/

def gridNan : Nat := 0x8000000000
def gridPinf : Nat := 0x8000000001
def gridNinf : Nat := 0x8000000002

/-- The exponent byte of a block of FP32 patterns: the largest exponent field of its finite elements (R190). -/
def gridByte (xs : List Nat) : Nat :=
  xs.foldl (fun m p => let e := p / 2 ^ 23 % 256; if e = 255 then m else max m (if p % 2 ^ 31 = 0 then 0 else e)) 0

/-- Encode one FP32 pattern at agreed byte `b`: the 40-bit word and its flags (R191, R665). -/
def gridEncode (b p : Nat) : Nat × Nat :=
  let es : Int := max (b : Int) 1
  match fp32.decode p with
  | .nan => (gridNan, 0)
  | .inf n => (if n then gridNinf else gridPinf, 0)
  | .fin n m d e =>
    if m = 0 then (0, 0)
    else
      let (k, ix) := roundQ .rne n 0 m d e (es - 149)
      let lim := 2 ^ 23 - 1
      let (k2, cl) := if lim < k then (lim, true) else (k, false)
      (if n then (2 ^ 40 - k2) % 2 ^ 40 else k2, flagIf ix fNX ||| flagIf cl (fSAT ||| fNX))

/-- Whether a grid word is special; 0x80_0000_0003 to 0x80_0000_FFFF read as NaN (R191). -/
def gridSpecial (w : Nat) : Bool := decide (gridNan ≤ w ∧ w ≤ 0x800000FFFF)

/-- Combine two grid words (R192). -/
def gridAdd (a b : Nat) : Nat :=
  if gridSpecial a || gridSpecial b then
    let nan (w : Nat) : Bool := gridSpecial w && w ≠ gridPinf && w ≠ gridNinf
    if nan a || nan b then gridNan
    else if gridSpecial a && gridSpecial b then (if a = b then a else gridNan)
    else if gridSpecial a then a else b
  else (a + b) % 2 ^ 40

/-- The exact value of a grid word at agreed byte `b` (R193). -/
def gridDecode (b w : Nat) : Val :=
  if gridSpecial w then (if w = gridPinf then .inf false else if w = gridNinf then .inf true else .nan)
  else
    let es : Int := max (b : Int) 1
    if 2 ^ 39 ≤ w then .fin true (2 ^ 40 - w) 1 (es - 149) else .fin false w 1 (es - 149)

/-! ### The exact accumulator (R187-R189) -/

/-- A 320-bit accumulator; `a` is the two's complement pattern. -/
structure Acc320 where
  a : Nat := 0
  nan : Bool := false
  pinf : Bool := false
  ninf : Bool := false
  ovf : Bool := false
  any : Bool := false
  nonneg : Bool := false
  deriving DecidableEq, Repr

/-- The signed integer of a 320-bit pattern. -/
def accInt (a : Nat) : Int := if 2 ^ 319 ≤ a then (a : Int) - 2 ^ 320 else a

/-- The pattern of an integer, and whether it left the range. -/
def accPat (i : Int) : Nat × Bool := ((i % 2 ^ 320).toNat, decide (i < -(2 ^ 319)) || decide (2 ^ 319 ≤ i))

/-- Add an FP32 term (R187). -/
def Acc320.term (x : Acc320) (p : Nat) : Acc320 :=
  let y := { x with any := true, nonneg := x.nonneg || p % 2 ^ 32 ≠ 0x80000000 }
  match fp32.decode p with
  | .nan => { y with nan := true }
  | .inf n => if n then { y with ninf := true } else { y with pinf := true }
  | .fin n m _ e =>
    let (a, o) := accPat (accInt x.a + signed n (m * pow2Num (e + 149)))
    { y with a := a, ovf := y.ovf || o }

/-- Merge two accumulators (R189). -/
def Acc320.merge (x y : Acc320) : Acc320 :=
  let (a, o) := accPat (accInt x.a + accInt y.a)
  { a := a, nan := x.nan || y.nan, pinf := x.pinf || y.pinf, ninf := x.ninf || y.ninf,
    ovf := x.ovf || y.ovf || o, any := x.any || y.any, nonneg := x.nonneg || y.nonneg }

/-- The exact result before rounding, and NV (R188). -/
def Acc320.value (x : Acc320) (rm : RM) : Val × Nat :=
  if x.nan || x.ovf || (x.pinf && x.ninf) then (.nan, flagIf (x.ovf || (x.pinf && x.ninf)) fNV)
  else if x.pinf then (.inf false, 0)
  else if x.ninf then (.inf true, 0)
  else (valOfInt (accInt x.a) (-149) (x.any && (!x.nonneg || decide (rm = .rdn))), 0)

/-- The 48 bytes of an ACC320 record (R189). -/
def Acc320.toBytes (x : Acc320) : List Byte :=
  (List.range 40).map (fun k => BitVec.ofNat 8 (x.a >>> (8 * k))) ++
  [BitVec.ofNat 8 (flagIf x.nan 1 + flagIf x.pinf 2 + flagIf x.ninf 4 + flagIf x.ovf 8 + flagIf x.any 16 +
    flagIf x.nonneg 32)] ++ List.replicate 7 0

/-- The accumulator of a record. -/
def accOfBytes (bs : List Byte) : Acc320 :=
  let f := ((bs.drop 40).headD 0).toNat
  { a := leVal (bs.take 40), nan := f.testBit 0, pinf := f.testBit 1, ninf := f.testBit 2, ovf := f.testBit 3,
    any := f.testBit 4, nonneg := f.testBit 5 }

end Sys2Proof.Machine
end

