-- ==== Sys2Proof/Config.lean ====
section
/-!
DEFINITION. Config.lean: what one implementation fixes and the spec leaves open. Every constant here is opaque: no
proof can use a value of it.
-/

namespace Sys2Proof

/-- The free byte number `n`: a byte that the spec leaves open. -/
opaque Config.freeByte (n : Nat) : Byte

/-- The free number `n`, a value that the spec leaves open. -/
opaque Config.freeNat (n : Nat) : Nat

/-- A free choice number `n` between two behaviours that the spec both allows. -/
opaque Config.freeBool (n : Nat) : Bool

/-- Which of the results within the bound of 08_loom_isa.md R258 special function `op` answers: for the input pattern `inp` of
a function that need not be monotonic, else for the step above the result pattern `inp`; the same on every tile (R260). -/
opaque Config.special (op inp : Nat) : Nat

/-- The AK-E signature of the Ledger checkpoint with a SEQ (17_security.md R545, R581), 96 bytes. -/
opaque Config.akSign (seq : Nat) : List Byte

/-- The device serial, fused in TEST (17_security.md R545). -/
opaque Config.serial : BitVec 64

/-- What a configuration-space register of the PCIe and CXL standards reads whose value the spec does not give, by offset
(16_host_endpoint.md R520). -/
opaque Config.cfgReg (off : Nat) : BitVec 32

/-- What a CXL component or device register reads whose value the spec does not give, by BAR0 offset (16_host_endpoint.md R520). -/
opaque Config.cxlReg (off : Nat) : BitVec 32

/-- The SHA-384 digest of the token of life-cycle transition `k`, burned before the part leaves wafer test (17_security.md R549). -/
opaque Config.tokenDigest (k : Nat) : List Byte

/-- The binding digest of the hub and the digests of its certificates, which follow from its UDS (17_security.md R545, R583). -/
opaque Config.bindingDigest : List Byte
opaque Config.certDigest (slot : Nat) : List Byte

/-- Whether Dunaom's key of algorithm `alg` (0 ECDSA P-384, 1 ML-DSA-87), a given public key, or the owner whose key has a digest, signed
`msg` with `sig` (17_security.md R554-R560). -/
opaque Config.dunaomSigned (alg : Nat) (msg sig : List Byte) : Bool
opaque Config.keySigned (alg : Nat) (key msg sig : List Byte) : Bool
opaque Config.ownerSigned (alg : Nat) (digest msg sig : List Byte) : Bool

/-- The content key that DevID-K's decapsulation of `ct` unwraps from `wrapped` under a model identifier; none where the unwrapping fails
its check (17_security.md R560, R562). -/
opaque Config.contentKey (ct wrapped : List Byte) (modelId : Nat) : Option (List Byte)

/-- The measurements that the spec gives no bytes of, by index, and the one over the digests of the images that the Crier broadcast, in
order (17_security.md R547). -/
opaque Config.measurement (index : Nat) : List Byte
opaque Config.crierMeasurement (images : List (List Byte)) : List Byte

/-- The data of an SPDM answer that the spec leaves to the standard, by request and argument (17_security.md R546). -/
opaque Config.spdm (request arg : Nat) : List Byte

/-- The base-layer stepping and metal revision, fused (HUB_VERSION of 01_architecture.md), and the order in which agents and empty places
fill the 384 local ports of the mesh (02_commons.md R38): place k goes before place j where its key is lower. -/
opaque Config.stepping : BitVec 8
opaque Config.metal : BitVec 8
opaque Config.placeKey (k : Nat) : Nat

/-- The bytes of the receive buffer of a class at an Ethernet link (15_fabric_links.md R485). -/
opaque Config.ethBuffer : Nat

/-- The manufacturer field of IDCODE, from OTP, and what a right of a debug certificate reads out (20_management_power.md R659, 17_security.md
R556). -/
opaque Config.manufacturer : BitVec 11
opaque Config.debugRead (right arg : Nat) : List Byte

/-- What the image or the standards fix on the management bus: a PDR, the answer to a PLDM command that only they lay down, and the data of
an I3C common command (20_management_power.md R638, R640). -/
opaque Config.pdr (record : Nat) : List Byte
opaque Config.pldmBase (typ cmd arg : Nat) : List Byte
opaque Config.i3c (code : Nat) : List Byte

/-- What flash holds at reset, by byte (20_management_power.md R642). -/
opaque Config.flashByte (a : Nat) : Byte

/-- Which reference count of the reserve region belongs to a block of a KV pool, whose places 12_steward_resources.md R388 leaves open. -/
opaque Config.kvRefPlace : Nat → Nat → Nat

end Sys2Proof
end

