-- ==== Sys2Proof/Machine/Maps.lean ====
section
/-!
DEFINITION. Machine/Maps.lean: sparse maps as lists of (key, value) pairs with strictly rising keys. Memory, the
register file and every table of units are such maps; what an unlisted key reads as is given at each use.
-/

namespace Sys2Proof.Machine

/-- A sparse map: pairs in strictly rising key order. -/
abbrev SMap (α : Type) := List (Nat × α)

/-- The entry at `k`, if listed. -/
def SMap.get? {α : Type} : SMap α → Nat → Option α
  | [], _ => none
  | (a, v) :: m, k => if a = k then some v else SMap.get? m k

/-- The entry at `k`, or `d` where it is not listed. -/
def SMap.getD {α : Type} (m : SMap α) (k : Nat) (d : α) : α := (SMap.get? m k).getD d

/-- The map with `k` listed as `v`. -/
def SMap.put {α : Type} : SMap α → Nat → α → SMap α
  | [], k, v => [(k, v)]
  | (a, w) :: m, k, v =>
    if k < a then (k, v) :: (a, w) :: m
    else if k = a then (k, v) :: m
    else (a, w) :: SMap.put m k v

/-- The map with `k` not listed. -/
def SMap.del {α : Type} : SMap α → Nat → SMap α
  | [], _ => []
  | (a, w) :: m, k => if a = k then SMap.del m k else (a, w) :: SMap.del m k

/-- The map in which `k` reads as `v` when an unlisted key reads as `d`: an entry equal to `d` is removed. -/
def SMap.set {α : Type} [DecidableEq α] (d : α) (m : SMap α) (k : Nat) (v : α) : SMap α :=
  if v = d then SMap.del m k else SMap.put m k v

/-- The map with the entry at `k` changed by `f`, an unlisted key reading as `d`. -/
def SMap.upd {α : Type} [DecidableEq α] (d : α) (m : SMap α) (k : Nat) (f : α → α) : SMap α :=
  SMap.set d m k (f (SMap.getD m k d))

/-- The keys are strictly rising, all above `lo` when `lo` is given. -/
def SMap.rising {α : Type} : Option Nat → SMap α → Bool
  | _, [] => true
  | lo, (a, _) :: m => (match lo with | none => true | some l => decide (l < a)) && SMap.rising (some a) m

/-- Canonical form: keys strictly rising and no entry equal to `d`. -/
def SMap.wf {α : Type} [DecidableEq α] (d : α) (m : SMap α) : Bool :=
  SMap.rising none m && m.all (fun e => decide (e.2 ≠ d))

/-- A list of natural numbers in strictly rising order with `x` in it. -/
def insertNat : List Nat → Nat → List Nat
  | [], x => [x]
  | a :: l, x => if x < a then x :: a :: l else if x = a then a :: l else a :: insertNat l x

/-- The strictly rising list without `x`. -/
def eraseNat (l : List Nat) (x : Nat) : List Nat := l.filter (· ≠ x)

/-- Add one with saturation at `top`. -/
def satAdd (x n top : Nat) : Nat := if x + n ≤ top then x + n else top

/-- The entry of a list with the least key, the earliest of equals. -/
def leastBy {α : Type} (key : α → Nat) : List α → Option α
  | [] => none
  | a :: l => match leastBy key l with
    | some b => if key b < key a then some b else some a
    | none => some a

end Sys2Proof.Machine
end

