-- ==== Sys2Proof/Machine/Regs.lean ====
section
/-!
DEFINITION. Machine/Regs.lean: every register of BAR0, its offset, its retention class and its fields, as the
register tables of the chapters give them (00_scope.md R6-R10 for the columns). A register that the spec repeats
takes one index; for a register repeated in two or three directions the indices are joined, the outermost first
(home h of HBM_HOME_CFG is index h, queue w of site s in SITE_WQ is index 16*s + w).
-/

namespace Sys2Proof.Machine

/-- Access types of register fields (00_scope.md R9). -/
inductive Access where
  | ro | rw | w1c | w1s | rwl | wo1 | tal
  deriving DecidableEq, Repr

/-- Retention classes (00_scope.md R10). -/
inductive Retention where
  | cold | warm | function | domain | volatile
  deriving DecidableEq, Repr

/-- One field: its bits, its access type and its reset value `rst + rstStep * index`, plus `rstFirst` at index 0. -/
structure FieldDef where
  hi : Nat
  lo : Nat
  acc : Access
  rst : Nat := 0
  rstStep : Nat := 0
  rstFirst : Nat := 0
  deriving DecidableEq, Repr

/-- One register: its BAR0 offset, the (stride, count) pairs of its repetition, its class and its fields. `far` marks
the LOOM_ registers, whose indices 64-67 lie at 0x1B0_0000 (18_bringup.md R598). -/
structure RegDef where
  base : Nat
  dims : List (Nat × Nat)
  first : Nat := 0
  far : Bool := false
  ret : Retention
  fields : List FieldDef
  deriving DecidableEq, Repr

/-- A named field of a register. -/
structure RF where
  reg : RegDef
  hi : Nat
  lo : Nat
  deriving DecidableEq, Repr

/-- The number of repetitions that a list of (stride, count) pairs makes. -/
def dimCount : List (Nat × Nat) → Nat
  | [] => 1
  | (_, c) :: r => c * dimCount r

/-- The displacement of joined index `i` under a list of (stride, count) pairs. -/
def dimOff : List (Nat × Nat) → Nat → Nat
  | [], _ => 0
  | (s, _) :: r, i => (i / dimCount r) * s + dimOff r (i % dimCount r)

/-- The joined index whose displacement is `x`, if there is one. -/
def dimFind : List (Nat × Nat) → Nat → Option Nat
  | [], x => if x = 0 then some 0 else none
  | (s, c) :: r, x =>
    if x / s < c then (dimFind r (x % s)).map (fun j => (x / s) * dimCount r + j) else none

/-- The BAR0 offset of the register at index `i`. -/
def RegDef.off (r : RegDef) (i : Nat) : Nat :=
  if r.far && 64 ≤ i then 0x1B00000 + (r.base - 0x800000) + (dimOff r.dims i - 0x400000)
  else r.base + dimOff r.dims i - (match r.dims with | (s, _) :: _ => r.first * s | [] => 0)

/-- The index at which the register lies at BAR0 offset `x`. -/
def RegDef.find (r : RegDef) (x : Nat) : Option Nat :=
  if r.far then
    (if 0x1B00000 ≤ x && x < 0x1B40000 then dimFind r.dims (x - 0x1B00000 - (r.base - 0x800000) + 0x400000)
     else if r.base ≤ x && x < 0xC00000 then dimFind r.dims (x - r.base) else none)
  else if x < r.base then none else
  (dimFind r.dims (x - r.base + (match r.dims with | (s, _) :: _ => r.first * s | [] => 0))).bind
    (fun i => if i < r.first then none else some i)

/-- Reset value of a field at an index. -/
def FieldDef.resetAt (f : FieldDef) (i : Nat) : Nat :=
  (f.rst + f.rstStep * i + (if i = 0 then f.rstFirst else 0)) % 2 ^ (f.hi - f.lo + 1)

/-- Reset value of the register at an index: each field at its own (00_scope.md R8: reserved fields read 0). -/
def RegDef.resetAt (r : RegDef) (i : Nat) : Word :=
  r.fields.foldl (fun v f => v ||| BitVec.ofNat 64 (f.resetAt i <<< f.lo)) 0

/-- A field of a 64-bit value. -/
def bitsOf (v : Word) (hi lo : Nat) : Nat := (v.toNat >>> lo) % 2 ^ (hi - lo + 1)

/-- A 64-bit value with one field replaced. -/
def setBits (v : Word) (hi lo x : Nat) : Word :=
  let m : Word := BitVec.ofNat 64 ((2 ^ (hi - lo + 1) - 1) <<< lo)
  (v &&& ~~~ m) ||| BitVec.ofNat 64 ((x % 2 ^ (hi - lo + 1)) <<< lo)

/-- HUB_VERSION (01_architecture.md), retention cold. -/
def HUB_VERSION : RegDef :=
  { base := 0x0, dims := [], ret := .cold,
    fields := [{ hi := 31, lo := 16, acc := .ro, rst := 0x4801 },
      { hi := 15, lo := 8, acc := .ro },
      { hi := 7, lo := 0, acc := .ro }] }
def HUB_VERSION_PART : RF := ⟨HUB_VERSION, 31, 16⟩
def HUB_VERSION_STEP : RF := ⟨HUB_VERSION, 15, 8⟩
def HUB_VERSION_METAL : RF := ⟨HUB_VERSION, 7, 0⟩
/-- HUB_NUMBER (01_architecture.md), retention warm. -/
def HUB_NUMBER : RegDef :=
  { base := 0x8, dims := [], ret := .warm,
    fields := [{ hi := 16, lo := 16, acc := .ro },
      { hi := 15, lo := 0, acc := .rwl }] }
def HUB_NUMBER_LOCKED : RF := ⟨HUB_NUMBER, 16, 16⟩
def HUB_NUMBER_HUB : RF := ⟨HUB_NUMBER, 15, 0⟩
/-- HUB_CONFIG (01_architecture.md), retention cold. -/
def HUB_CONFIG : RegDef :=
  { base := 0x10, dims := [], ret := .cold,
    fields := [{ hi := 63, lo := 16, acc := .ro },
      { hi := 15, lo := 8, acc := .ro },
      { hi := 7, lo := 0, acc := .ro }] }
def HUB_CONFIG_LINKS : RF := ⟨HUB_CONFIG, 63, 16⟩
def HUB_CONFIG_SITES : RF := ⟨HUB_CONFIG, 15, 8⟩
def HUB_CONFIG_STACKS : RF := ⟨HUB_CONFIG, 7, 0⟩
/-- HUB_HBM_SIZE (01_architecture.md), retention warm. -/
def HUB_HBM_SIZE : RegDef :=
  { base := 0x18, dims := [], ret := .warm,
    fields := [{ hi := 23, lo := 16, acc := .ro },
      { hi := 15, lo := 0, acc := .ro }] }
def HUB_HBM_SIZE_STACK_GIB : RF := ⟨HUB_HBM_SIZE, 23, 16⟩
def HUB_HBM_SIZE_TOTAL_GIB : RF := ⟨HUB_HBM_SIZE, 15, 0⟩
/-- HUB_STAGE (01_architecture.md), retention volatile. -/
def HUB_STAGE : RegDef :=
  { base := 0x20, dims := [], ret := .volatile,
    fields := [{ hi := 31, lo := 31, acc := .ro },
      { hi := 17, lo := 0, acc := .ro }] }
def HUB_STAGE_VALID : RF := ⟨HUB_STAGE, 31, 31⟩
def HUB_STAGE_STAGE_FS : RF := ⟨HUB_STAGE, 17, 0⟩
/-- COM_CSR_ACC (02_commons.md), retention warm. -/
def COM_CSR_ACC : RegDef :=
  { base := 0x1c00000, dims := [(0x8, 16)], ret := .warm,
    fields := [{ hi := 63, lo := 0, acc := .rw }] }
def COM_CSR_ACC_ALLOW : RF := ⟨COM_CSR_ACC, 63, 0⟩
/-- COM_STILE_CMD (02_commons.md), retention warm. -/
def COM_STILE_CMD : RegDef :=
  { base := 0x1c00100, dims := [], ret := .warm,
    fields := [{ hi := 30, lo := 30, acc := .w1c },
      { hi := 16, lo := 16, acc := .w1s },
      { hi := 9, lo := 8, acc := .rw },
      { hi := 7, lo := 0, acc := .rw }] }
def COM_STILE_CMD_REJECTED : RF := ⟨COM_STILE_CMD, 30, 30⟩
def COM_STILE_CMD_GO : RF := ⟨COM_STILE_CMD, 16, 16⟩
def COM_STILE_CMD_OP : RF := ⟨COM_STILE_CMD, 9, 8⟩
def COM_STILE_CMD_DOMAIN : RF := ⟨COM_STILE_CMD, 7, 0⟩
/-- COM_STILE_TMO (02_commons.md), retention warm. -/
def COM_STILE_TMO : RegDef :=
  { base := 0x1c00108, dims := [], ret := .warm,
    fields := [{ hi := 32, lo := 32, acc := .rw },
      { hi := 31, lo := 0, acc := .rw, rst := 0x64 }] }
def COM_STILE_TMO_AUTO_FORCE : RF := ⟨COM_STILE_TMO, 32, 32⟩
def COM_STILE_TMO_DRAIN_US : RF := ⟨COM_STILE_TMO, 31, 0⟩
/-- COM_TMO (02_commons.md), retention warm. -/
def COM_TMO : RegDef :=
  { base := 0x1c00110, dims := [], ret := .warm,
    fields := [{ hi := 51, lo := 32, acc := .rw, rst := 0x7d0 },
      { hi := 19, lo := 0, acc := .rw, rst := 0x3e8 }] }
def COM_TMO_REQ_US : RF := ⟨COM_TMO, 51, 32⟩
def COM_TMO_DEAD_US : RF := ⟨COM_TMO, 19, 0⟩
/-- COM_ISO_CMD (02_commons.md), retention warm. -/
def COM_ISO_CMD : RegDef :=
  { base := 0x1c00118, dims := [], ret := .warm,
    fields := [{ hi := 30, lo := 30, acc := .w1c },
      { hi := 17, lo := 17, acc := .w1s },
      { hi := 16, lo := 16, acc := .w1s },
      { hi := 9, lo := 0, acc := .rw }] }
def COM_ISO_CMD_REJECTED : RF := ⟨COM_ISO_CMD, 30, 30⟩
def COM_ISO_CMD_RELEASE : RF := ⟨COM_ISO_CMD, 17, 17⟩
def COM_ISO_CMD_ISOLATE : RF := ⟨COM_ISO_CMD, 16, 16⟩
def COM_ISO_CMD_AGENT : RF := ⟨COM_ISO_CMD, 9, 0⟩
/-- COM_ERR (02_commons.md), retention cold. -/
def COM_ERR : RegDef :=
  { base := 0x1c00200, dims := [], ret := .cold,
    fields := [{ hi := 63, lo := 48, acc := .ro },
      { hi := 47, lo := 40, acc := .ro },
      { hi := 39, lo := 32, acc := .ro },
      { hi := 31, lo := 16, acc := .ro },
      { hi := 15, lo := 15, acc := .w1c },
      { hi := 14, lo := 11, acc := .ro },
      { hi := 10, lo := 8, acc := .ro },
      { hi := 7, lo := 5, acc := .ro },
      { hi := 4, lo := 4, acc := .w1s }] }
def COM_ERR_CORR : RF := ⟨COM_ERR, 63, 48⟩
def COM_ERR_HDR_UE : RF := ⟨COM_ERR, 47, 40⟩
def COM_ERR_PAY_UE : RF := ⟨COM_ERR, 39, 32⟩
def COM_ERR_ABSORBED : RF := ⟨COM_ERR, 31, 16⟩
def COM_ERR_HDR_FLAG : RF := ⟨COM_ERR, 15, 15⟩
def COM_ERR_LAST_ROW : RF := ⟨COM_ERR, 14, 11⟩
def COM_ERR_LAST_COL : RF := ⟨COM_ERR, 10, 8⟩
def COM_ERR_LAST_PORT : RF := ⟨COM_ERR, 7, 5⟩
def COM_ERR_CLEAR : RF := ⟨COM_ERR, 4, 4⟩
/-- COM_DOMAIN (02_commons.md), retention warm. -/
def COM_DOMAIN : RegDef :=
  { base := 0x1c01000, dims := [(0x8, 256)], ret := .warm,
    fields := [{ hi := 63, lo := 48, acc := .ro },
      { hi := 47, lo := 32, acc := .ro },
      { hi := 4, lo := 4, acc := .ro },
      { hi := 3, lo := 3, acc := .w1c },
      { hi := 2, lo := 0, acc := .ro }] }
def COM_DOMAIN_OUTBOUND : RF := ⟨COM_DOMAIN, 63, 48⟩
def COM_DOMAIN_INBOUND : RF := ⟨COM_DOMAIN, 47, 32⟩
def COM_DOMAIN_ISO : RF := ⟨COM_DOMAIN, 4, 4⟩
def COM_DOMAIN_STUCK : RF := ⟨COM_DOMAIN, 3, 3⟩
def COM_DOMAIN_STATE : RF := ⟨COM_DOMAIN, 2, 0⟩
/-- COM_AGENT (02_commons.md), retention warm. -/
def COM_AGENT : RegDef :=
  { base := 0x1c02000, dims := [(0x8, 1024)], ret := .warm,
    fields := [{ hi := 39, lo := 32, acc := .ro },
      { hi := 28, lo := 26, acc := .ro },
      { hi := 25, lo := 16, acc := .ro },
      { hi := 15, lo := 12, acc := .ro },
      { hi := 10, lo := 8, acc := .ro },
      { hi := 1, lo := 0, acc := .ro }] }
def COM_AGENT_DOMAIN : RF := ⟨COM_AGENT, 39, 32⟩
def COM_AGENT_STATE : RF := ⟨COM_AGENT, 28, 26⟩
def COM_AGENT_PHYS : RF := ⟨COM_AGENT, 25, 16⟩
def COM_AGENT_ROW : RF := ⟨COM_AGENT, 15, 12⟩
def COM_AGENT_COL : RF := ⟨COM_AGENT, 10, 8⟩
def COM_AGENT_PORT : RF := ⟨COM_AGENT, 1, 0⟩
/-- HBM_HOME_CFG (04_coherence.md), retention warm. -/
def HBM_HOME_CFG : RegDef :=
  { base := 0xc20000, dims := [(0x40000, 8), (0x1000, 4)], ret := .warm,
    fields := [{ hi := 47, lo := 32, acc := .rw, rst := 0x1f4 },
      { hi := 31, lo := 16, acc := .rw, rst := 0x3e8 },
      { hi := 7, lo := 7, acc := .w1s },
      { hi := 6, lo := 4, acc := .rw, rst := 4 },
      { hi := 3, lo := 3, acc := .rw, rst := 1 },
      { hi := 1, lo := 0, acc := .rw }] }
def HBM_HOME_CFG_ACK_US : RF := ⟨HBM_HOME_CFG, 47, 32⟩
def HBM_HOME_CFG_BI_TMO_US : RF := ⟨HBM_HOME_CFG, 31, 16⟩
def HBM_HOME_CFG_CNT_CLEAR : RF := ⟨HBM_HOME_CFG, 7, 7⟩
def HBM_HOME_CFG_HOT_MIN : RF := ⟨HBM_HOME_CFG, 6, 4⟩
def HBM_HOME_CFG_HOST_CACHE : RF := ⟨HBM_HOME_CFG, 3, 3⟩
def HBM_HOME_CFG_ATOM_MODE : RF := ⟨HBM_HOME_CFG, 1, 0⟩
/-- HBM_HOME_SF (04_coherence.md), retention volatile. -/
def HBM_HOME_SF : RegDef :=
  { base := 0xc20008, dims := [(0x40000, 8), (0x1000, 4)], ret := .volatile,
    fields := [{ hi := 63, lo := 48, acc := .ro },
      { hi := 47, lo := 32, acc := .ro },
      { hi := 18, lo := 0, acc := .ro }] }
def HBM_HOME_SF_BUSY : RF := ⟨HBM_HOME_SF, 63, 48⟩
def HBM_HOME_SF_OVF_SETS : RF := ⟨HBM_HOME_SF, 47, 32⟩
def HBM_HOME_SF_ENTRIES : RF := ⟨HBM_HOME_SF, 18, 0⟩
/-- HBM_HOME_UNTRK (04_coherence.md), retention volatile. -/
def HBM_HOME_UNTRK : RegDef :=
  { base := 0xc20010, dims := [(0x40000, 8), (0x1000, 4)], ret := .volatile,
    fields := [{ hi := 62, lo := 56, acc := .ro },
      { hi := 55, lo := 0, acc := .ro }] }
def HBM_HOME_UNTRK_HOST : RF := ⟨HBM_HOME_UNTRK, 62, 56⟩
def HBM_HOME_UNTRK_SITE : RF := ⟨HBM_HOME_UNTRK, 55, 0⟩
/-- HBM_HOME_CNT0 (04_coherence.md), retention warm. -/
def HBM_HOME_CNT0 : RegDef :=
  { base := 0xc20018, dims := [(0x40000, 8), (0x1000, 4)], ret := .warm,
    fields := [{ hi := 63, lo := 32, acc := .ro },
      { hi := 31, lo := 0, acc := .ro }] }
def HBM_HOME_CNT0_SNOOPS : RF := ⟨HBM_HOME_CNT0, 63, 32⟩
def HBM_HOME_CNT0_BCAST : RF := ⟨HBM_HOME_CNT0, 31, 0⟩
/-- HBM_HOME_CNT1 (04_coherence.md), retention warm. -/
def HBM_HOME_CNT1 : RegDef :=
  { base := 0xc20020, dims := [(0x40000, 8), (0x1000, 4)], ret := .warm,
    fields := [{ hi := 63, lo := 32, acc := .ro },
      { hi := 31, lo := 0, acc := .ro }] }
def HBM_HOME_CNT1_BACKINV : RF := ⟨HBM_HOME_CNT1, 63, 32⟩
def HBM_HOME_CNT1_WBPEND : RF := ⟨HBM_HOME_CNT1, 31, 0⟩
/-- HBM_HOME_CNT2 (04_coherence.md), retention warm. -/
def HBM_HOME_CNT2 : RegDef :=
  { base := 0xc20028, dims := [(0x40000, 8), (0x1000, 4)], ret := .warm,
    fields := [{ hi := 63, lo := 32, acc := .ro },
      { hi := 31, lo := 0, acc := .ro }] }
def HBM_HOME_CNT2_NEAR : RF := ⟨HBM_HOME_CNT2, 63, 32⟩
def HBM_HOME_CNT2_FAR : RF := ⟨HBM_HOME_CNT2, 31, 0⟩
/-- HBM_HOME_LOST_STAT (04_coherence.md), retention warm. -/
def HBM_HOME_LOST_STAT : RegDef :=
  { base := 0xc20030, dims := [(0x40000, 8), (0x1000, 4)], ret := .warm,
    fields := [{ hi := 47, lo := 32, acc := .ro },
      { hi := 16, lo := 16, acc := .w1s },
      { hi := 6, lo := 0, acc := .ro }] }
def HBM_HOME_LOST_STAT_OVERFLOW : RF := ⟨HBM_HOME_LOST_STAT, 47, 32⟩
def HBM_HOME_LOST_STAT_POP : RF := ⟨HBM_HOME_LOST_STAT, 16, 16⟩
def HBM_HOME_LOST_STAT_COUNT : RF := ⟨HBM_HOME_LOST_STAT, 6, 0⟩
/-- HBM_HOME_LOST_ENT (04_coherence.md), retention warm. -/
def HBM_HOME_LOST_ENT : RegDef :=
  { base := 0xc20038, dims := [(0x40000, 8), (0x1000, 4)], ret := .warm,
    fields := [{ hi := 63, lo := 63, acc := .ro },
      { hi := 62, lo := 60, acc := .ro },
      { hi := 59, lo := 50, acc := .ro },
      { hi := 47, lo := 7, acc := .ro }] }
def HBM_HOME_LOST_ENT_VALID : RF := ⟨HBM_HOME_LOST_ENT, 63, 63⟩
def HBM_HOME_LOST_ENT_CAUSE : RF := ⟨HBM_HOME_LOST_ENT, 62, 60⟩
def HBM_HOME_LOST_ENT_AGENT : RF := ⟨HBM_HOME_LOST_ENT, 59, 50⟩
def HBM_HOME_LOST_ENT_HPA : RF := ⟨HBM_HOME_LOST_ENT, 47, 7⟩
/-- HBM_STAT (05_hbm.md), retention volatile. -/
def HBM_STAT : RegDef :=
  { base := 0xc00000, dims := [(0x40000, 8)], ret := .volatile,
    fields := [{ hi := 63, lo := 56, acc := .ro },
      { hi := 51, lo := 50, acc := .ro },
      { hi := 49, lo := 48, acc := .ro },
      { hi := 3, lo := 0, acc := .ro }] }
def HBM_STAT_TEMP_C : RF := ⟨HBM_STAT, 63, 56⟩
def HBM_STAT_REFRESH : RF := ⟨HBM_STAT, 51, 50⟩
def HBM_STAT_STEP : RF := ⟨HBM_STAT, 49, 48⟩
def HBM_STAT_STATE : RF := ⟨HBM_STAT, 3, 0⟩
/-- HBM_CFG (05_hbm.md), retention warm. -/
def HBM_CFG : RegDef :=
  { base := 0xc00008, dims := [(0x40000, 8)], ret := .warm,
    fields := [{ hi := 63, lo := 56, acc := .rw, rst := 0x6e },
      { hi := 55, lo := 48, acc := .rw, rst := 0x5f },
      { hi := 47, lo := 40, acc := .rw, rst := 0x18 },
      { hi := 0, lo := 0, acc := .rw }] }
def HBM_CFG_CAT_C : RF := ⟨HBM_CFG, 63, 56⟩
def HBM_CFG_THR_C : RF := ⟨HBM_CFG, 55, 48⟩
def HBM_CFG_SCRUB_H : RF := ⟨HBM_CFG, 47, 40⟩
def HBM_CFG_RS_MODE : RF := ⟨HBM_CFG, 0, 0⟩
/-- HBM_ERR (05_hbm.md), retention cold. -/
def HBM_ERR : RegDef :=
  { base := 0xc00010, dims := [(0x40000, 8)], ret := .cold,
    fields := [{ hi := 63, lo := 48, acc := .ro },
      { hi := 47, lo := 32, acc := .ro },
      { hi := 31, lo := 16, acc := .ro },
      { hi := 15, lo := 8, acc := .ro },
      { hi := 0, lo := 0, acc := .w1s }] }
def HBM_ERR_INNER_CE : RF := ⟨HBM_ERR, 63, 48⟩
def HBM_ERR_OUTER_CE : RF := ⟨HBM_ERR, 47, 32⟩
def HBM_ERR_RECON : RF := ⟨HBM_ERR, 31, 16⟩
def HBM_ERR_UE : RF := ⟨HBM_ERR, 15, 8⟩
def HBM_ERR_CLEAR : RF := ⟨HBM_ERR, 0, 0⟩
/-- HBM_ERR_LOG (05_hbm.md), retention cold. -/
def HBM_ERR_LOG : RegDef :=
  { base := 0xc00018, dims := [(0x40000, 8)], ret := .cold,
    fields := [{ hi := 63, lo := 63, acc := .w1c },
      { hi := 62, lo := 60, acc := .ro },
      { hi := 59, lo := 54, acc := .ro },
      { hi := 47, lo := 8, acc := .ro }] }
def HBM_ERR_LOG_VALID : RF := ⟨HBM_ERR_LOG, 63, 63⟩
def HBM_ERR_LOG_KIND : RF := ⟨HBM_ERR_LOG, 62, 60⟩
def HBM_ERR_LOG_PC : RF := ⟨HBM_ERR_LOG, 59, 54⟩
def HBM_ERR_LOG_HPA : RF := ⟨HBM_ERR_LOG, 47, 8⟩
/-- HBM_REPAIR (05_hbm.md), retention cold. -/
def HBM_REPAIR : RegDef :=
  { base := 0xc00020, dims := [(0x40000, 8)], ret := .cold,
    fields := [{ hi := 63, lo := 56, acc := .ro },
      { hi := 55, lo := 48, acc := .ro },
      { hi := 47, lo := 40, acc := .ro },
      { hi := 39, lo := 32, acc := .ro },
      { hi := 1, lo := 1, acc := .w1c },
      { hi := 0, lo := 0, acc := .tal }] }
def HBM_REPAIR_HARD_LEFT : RF := ⟨HBM_REPAIR, 63, 56⟩
def HBM_REPAIR_HARD_PEND : RF := ⟨HBM_REPAIR, 55, 48⟩
def HBM_REPAIR_SOFT_ROWS : RF := ⟨HBM_REPAIR, 47, 40⟩
def HBM_REPAIR_LANES : RF := ⟨HBM_REPAIR, 39, 32⟩
def HBM_REPAIR_REJECTED : RF := ⟨HBM_REPAIR, 1, 1⟩
def HBM_REPAIR_BURN : RF := ⟨HBM_REPAIR, 0, 0⟩
/-- HBM_TRAIN (05_hbm.md), retention domain. -/
def HBM_TRAIN : RegDef :=
  { base := 0xc00028, dims := [(0x40000, 8)], ret := .domain,
    fields := [{ hi := 63, lo := 48, acc := .ro },
      { hi := 47, lo := 40, acc := .ro },
      { hi := 39, lo := 32, acc := .ro },
      { hi := 31, lo := 24, acc := .ro },
      { hi := 23, lo := 16, acc := .ro },
      { hi := 15, lo := 14, acc := .ro },
      { hi := 13, lo := 12, acc := .ro },
      { hi := 11, lo := 10, acc := .ro },
      { hi := 9, lo := 9, acc := .ro },
      { hi := 8, lo := 8, acc := .w1s },
      { hi := 7, lo := 6, acc := .ro }] }
def HBM_TRAIN_RECENTRES : RF := ⟨HBM_TRAIN, 63, 48⟩
def HBM_TRAIN_T_MAX : RF := ⟨HBM_TRAIN, 47, 40⟩
def HBM_TRAIN_T_MIN : RF := ⟨HBM_TRAIN, 39, 32⟩
def HBM_TRAIN_VQ_MAX : RF := ⟨HBM_TRAIN, 31, 24⟩
def HBM_TRAIN_VQ_MIN : RF := ⟨HBM_TRAIN, 23, 16⟩
def HBM_TRAIN_LD_MAX : RF := ⟨HBM_TRAIN, 15, 14⟩
def HBM_TRAIN_LD_MIN : RF := ⟨HBM_TRAIN, 13, 12⟩
def HBM_TRAIN_LD_NOW : RF := ⟨HBM_TRAIN, 11, 10⟩
def HBM_TRAIN_OUT_ENV : RF := ⟨HBM_TRAIN, 9, 9⟩
def HBM_TRAIN_SAVE : RF := ⟨HBM_TRAIN, 8, 8⟩
def HBM_TRAIN_SOURCE : RF := ⟨HBM_TRAIN, 7, 6⟩
/-- HBM_GRAN_CFG (05_hbm.md), retention warm. -/
def HBM_GRAN_CFG : RegDef :=
  { base := 0xc30000, dims := [], ret := .warm,
    fields := [{ hi := 63, lo := 63, acc := .w1c },
      { hi := 47, lo := 32, acc := .rw },
      { hi := 15, lo := 0, acc := .rw }] }
def HBM_GRAN_CFG_REJECTED : RF := ⟨HBM_GRAN_CFG, 63, 63⟩
def HBM_GRAN_CFG_COUNT : RF := ⟨HBM_GRAN_CFG, 47, 32⟩
def HBM_GRAN_CFG_FIRST : RF := ⟨HBM_GRAN_CFG, 15, 0⟩
/-- HBM_GRAN_CMD (05_hbm.md), retention warm. -/
def HBM_GRAN_CMD : RegDef :=
  { base := 0xc30008, dims := [], ret := .warm,
    fields := [{ hi := 63, lo := 63, acc := .w1c },
      { hi := 62, lo := 60, acc := .ro },
      { hi := 59, lo := 57, acc := .ro },
      { hi := 56, lo := 56, acc := .w1s },
      { hi := 23, lo := 19, acc := .rw },
      { hi := 18, lo := 16, acc := .rw },
      { hi := 15, lo := 0, acc := .rw }] }
def HBM_GRAN_CMD_REJECTED : RF := ⟨HBM_GRAN_CMD, 63, 63⟩
def HBM_GRAN_CMD_RESULT : RF := ⟨HBM_GRAN_CMD, 62, 60⟩
def HBM_GRAN_CMD_STATE : RF := ⟨HBM_GRAN_CMD, 59, 57⟩
def HBM_GRAN_CMD_GO : RF := ⟨HBM_GRAN_CMD, 56, 56⟩
def HBM_GRAN_CMD_PAGE : RF := ⟨HBM_GRAN_CMD, 23, 19⟩
def HBM_GRAN_CMD_OP : RF := ⟨HBM_GRAN_CMD, 18, 16⟩
def HBM_GRAN_CMD_BLOCK : RF := ⟨HBM_GRAN_CMD, 15, 0⟩
/-- HBM_GPOIS_STAT (05_hbm.md), retention warm. -/
def HBM_GPOIS_STAT : RegDef :=
  { base := 0xc30010, dims := [], ret := .warm,
    fields := [{ hi := 63, lo := 48, acc := .ro },
      { hi := 23, lo := 16, acc := .rw },
      { hi := 8, lo := 0, acc := .ro }] }
def HBM_GPOIS_STAT_OVERFLOW : RF := ⟨HBM_GPOIS_STAT, 63, 48⟩
def HBM_GPOIS_STAT_IDX : RF := ⟨HBM_GPOIS_STAT, 23, 16⟩
def HBM_GPOIS_STAT_COUNT : RF := ⟨HBM_GPOIS_STAT, 8, 0⟩
/-- HBM_GPOIS_ENT (05_hbm.md), retention warm. -/
def HBM_GPOIS_ENT : RegDef :=
  { base := 0xc30018, dims := [], ret := .warm,
    fields := [{ hi := 63, lo := 63, acc := .ro },
      { hi := 62, lo := 62, acc := .ro },
      { hi := 47, lo := 21, acc := .ro }] }
def HBM_GPOIS_ENT_VALID : RF := ⟨HBM_GPOIS_ENT, 63, 63⟩
def HBM_GPOIS_ENT_RESTORING : RF := ⟨HBM_GPOIS_ENT, 62, 62⟩
def HBM_GPOIS_ENT_HPA : RF := ⟨HBM_GPOIS_ENT, 47, 21⟩
/-- HBM_EVAC (05_hbm.md), retention warm. -/
def HBM_EVAC : RegDef :=
  { base := 0xc30020, dims := [], ret := .warm,
    fields := [{ hi := 63, lo := 62, acc := .ro },
      { hi := 48, lo := 48, acc := .rw },
      { hi := 47, lo := 32, acc := .rw },
      { hi := 31, lo := 0, acc := .ro }] }
def HBM_EVAC_STATE : RF := ⟨HBM_EVAC, 63, 62⟩
def HBM_EVAC_BUDDY_VALID : RF := ⟨HBM_EVAC, 48, 48⟩
def HBM_EVAC_BUDDY : RF := ⟨HBM_EVAC, 47, 32⟩
def HBM_EVAC_LOST_GRANULES : RF := ⟨HBM_EVAC, 31, 0⟩
/-- MOV_FMT_DESC (06_number_formats.md), retention warm. -/
def MOV_FMT_DESC : RegDef :=
  { base := 0x3f0000, dims := [(0x8, 16)], ret := .warm,
    fields := [{ hi := 63, lo := 63, acc := .rw },
      { hi := 55, lo := 54, acc := .rw },
      { hi := 53, lo := 52, acc := .rw },
      { hi := 50, lo := 48, acc := .rw },
      { hi := 46, lo := 44, acc := .rw },
      { hi := 41, lo := 40, acc := .rw },
      { hi := 39, lo := 32, acc := .rw },
      { hi := 20, lo := 16, acc := .rw },
      { hi := 11, lo := 8, acc := .rw },
      { hi := 0, lo := 0, acc := .rw }] }
def MOV_FMT_DESC_VALID : RF := ⟨MOV_FMT_DESC, 63, 63⟩
def MOV_FMT_DESC_SCALE_RULE : RF := ⟨MOV_FMT_DESC, 55, 54⟩
def MOV_FMT_DESC_SCALE_PLACE : RF := ⟨MOV_FMT_DESC, 53, 52⟩
def MOV_FMT_DESC_SCALE_FMT : RF := ⟨MOV_FMT_DESC, 50, 48⟩
def MOV_FMT_DESC_BLOCK : RF := ⟨MOV_FMT_DESC, 46, 44⟩
def MOV_FMT_DESC_SPECIAL : RF := ⟨MOV_FMT_DESC, 41, 40⟩
def MOV_FMT_DESC_BIAS : RF := ⟨MOV_FMT_DESC, 39, 32⟩
def MOV_FMT_DESC_MANT : RF := ⟨MOV_FMT_DESC, 20, 16⟩
def MOV_FMT_DESC_EXP : RF := ⟨MOV_FMT_DESC, 11, 8⟩
def MOV_FMT_DESC_SIGN : RF := ⟨MOV_FMT_DESC, 0, 0⟩
/-- MOV_FMT_CTL (06_number_formats.md), retention warm. -/
def MOV_FMT_CTL : RegDef :=
  { base := 0x3f0080, dims := [], ret := .warm,
    fields := [{ hi := 63, lo := 63, acc := .w1c },
      { hi := 48, lo := 48, acc := .ro, rst := 1 },
      { hi := 47, lo := 32, acc := .ro },
      { hi := 16, lo := 16, acc := .w1s },
      { hi := 15, lo := 0, acc := .ro }] }
def MOV_FMT_CTL_REJECTED : RF := ⟨MOV_FMT_CTL, 63, 63⟩
def MOV_FMT_CTL_DRAINED : RF := ⟨MOV_FMT_CTL, 48, 48⟩
def MOV_FMT_CTL_GEN : RF := ⟨MOV_FMT_CTL, 47, 32⟩
def MOV_FMT_CTL_COMMIT : RF := ⟨MOV_FMT_CTL, 16, 16⟩
def MOV_FMT_CTL_BAD : RF := ⟨MOV_FMT_CTL, 15, 0⟩
/-- LOOM_STAT (08_loom_isa.md), retention domain. -/
def LOOM_STAT : RegDef :=
  { base := 0x800000, dims := [(0x10000, 68)], far := true, ret := .domain,
    fields := [{ hi := 63, lo := 32, acc := .ro },
      { hi := 29, lo := 24, acc := .ro },
      { hi := 20, lo := 16, acc := .ro },
      { hi := 10, lo := 8, acc := .ro },
      { hi := 2, lo := 0, acc := .ro }] }
def LOOM_STAT_ITEM : RF := ⟨LOOM_STAT, 63, 32⟩
def LOOM_STAT_OWNER : RF := ⟨LOOM_STAT, 29, 24⟩
def LOOM_STAT_QUEUE : RF := ⟨LOOM_STAT, 20, 16⟩
def LOOM_STAT_LAST_END : RF := ⟨LOOM_STAT, 10, 8⟩
def LOOM_STAT_STATE : RF := ⟨LOOM_STAT, 2, 0⟩
/-- LOOM_LAST (08_loom_isa.md), retention domain. -/
def LOOM_LAST : RegDef :=
  { base := 0x800008, dims := [(0x10000, 68)], far := true, ret := .domain,
    fields := [{ hi := 63, lo := 32, acc := .ro },
      { hi := 31, lo := 24, acc := .ro },
      { hi := 23, lo := 23, acc := .ro },
      { hi := 22, lo := 22, acc := .ro },
      { hi := 21, lo := 21, acc := .ro },
      { hi := 20, lo := 0, acc := .ro }] }
def LOOM_LAST_ITEM : RF := ⟨LOOM_LAST, 63, 32⟩
def LOOM_LAST_MCAUSE : RF := ⟨LOOM_LAST, 31, 24⟩
def LOOM_LAST_VALID : RF := ⟨LOOM_LAST, 23, 23⟩
def LOOM_LAST_POISON : RF := ⟨LOOM_LAST, 22, 22⟩
def LOOM_LAST_LGERR : RF := ⟨LOOM_LAST, 21, 21⟩
def LOOM_LAST_OFFSET : RF := ⟨LOOM_LAST, 20, 0⟩
/-- LOOM_RESULT (08_loom_isa.md), retention domain. -/
def LOOM_RESULT : RegDef :=
  { base := 0x800010, dims := [(0x10000, 68)], far := true, ret := .domain,
    fields := [{ hi := 63, lo := 0, acc := .ro }] }
def LOOM_RESULT_RESULT : RF := ⟨LOOM_RESULT, 63, 0⟩
/-- LOOM_CNT (08_loom_isa.md), retention domain. -/
def LOOM_CNT : RegDef :=
  { base := 0x800018, dims := [(0x10000, 68)], far := true, ret := .domain,
    fields := [{ hi := 63, lo := 32, acc := .ro },
      { hi := 31, lo := 0, acc := .ro }] }
def LOOM_CNT_KERNELS : RF := ⟨LOOM_CNT, 63, 32⟩
def LOOM_CNT_TRAPS : RF := ⟨LOOM_CNT, 31, 0⟩
/-- LOOM_BUSY (08_loom_isa.md), retention domain. -/
def LOOM_BUSY : RegDef :=
  { base := 0x800020, dims := [(0x10000, 68)], far := true, ret := .domain,
    fields := [{ hi := 63, lo := 0, acc := .ro }] }
def LOOM_BUSY_STEPS : RF := ⟨LOOM_BUSY, 63, 0⟩
/-- MILL_CFG (09_mill.md), retention warm. -/
def MILL_CFG : RegDef :=
  { base := 0x400000, dims := [], ret := .warm,
    fields := [{ hi := 63, lo := 48, acc := .rw, rst := 0x7d0 },
      { hi := 47, lo := 32, acc := .rw, rst := 0x64 },
      { hi := 31, lo := 24, acc := .rw, rst := 0x32 },
      { hi := 23, lo := 16, acc := .rw, rst := 0x14 },
      { hi := 0, lo := 0, acc := .w1s }] }
def MILL_CFG_START_MS : RF := ⟨MILL_CFG, 63, 48⟩
def MILL_CFG_PROGRESS_MS : RF := ⟨MILL_CFG, 47, 32⟩
def MILL_CFG_LATE_MS : RF := ⟨MILL_CFG, 31, 24⟩
def MILL_CFG_LATE_MAX : RF := ⟨MILL_CFG, 23, 16⟩
def MILL_CFG_CNT_CLEAR : RF := ⟨MILL_CFG, 0, 0⟩
/-- MILL_CNT0 (09_mill.md), retention warm. -/
def MILL_CNT0 : RegDef :=
  { base := 0x400008, dims := [], ret := .warm,
    fields := [{ hi := 63, lo := 32, acc := .ro },
      { hi := 31, lo := 0, acc := .ro }] }
def MILL_CNT0_DONE : RF := ⟨MILL_CNT0, 63, 32⟩
def MILL_CNT0_FAILED : RF := ⟨MILL_CNT0, 31, 0⟩
/-- MILL_CNT1 (09_mill.md), retention warm. -/
def MILL_CNT1 : RegDef :=
  { base := 0x400010, dims := [], ret := .warm,
    fields := [{ hi := 63, lo := 48, acc := .ro },
      { hi := 47, lo := 32, acc := .ro },
      { hi := 31, lo := 16, acc := .ro },
      { hi := 15, lo := 0, acc := .ro }] }
def MILL_CNT1_LATE_SENT : RF := ⟨MILL_CNT1, 63, 48⟩
def MILL_CNT1_LATE_RCVD : RF := ⟨MILL_CNT1, 47, 32⟩
def MILL_CNT1_LATE_USED : RF := ⟨MILL_CNT1, 31, 16⟩
def MILL_CNT1_LATE_IGNORED : RF := ⟨MILL_CNT1, 15, 0⟩
/-- MILL_LOSS (09_mill.md), retention warm. -/
def MILL_LOSS : RegDef :=
  { base := 0x400018, dims := [], ret := .warm,
    fields := [{ hi := 63, lo := 32, acc := .ro },
      { hi := 31, lo := 31, acc := .w1c },
      { hi := 27, lo := 24, acc := .ro },
      { hi := 23, lo := 16, acc := .ro },
      { hi := 15, lo := 0, acc := .ro }] }
def MILL_LOSS_TAG : RF := ⟨MILL_LOSS, 63, 32⟩
def MILL_LOSS_VALID : RF := ⟨MILL_LOSS, 31, 31⟩
def MILL_LOSS_CAUSE : RF := ⟨MILL_LOSS, 27, 24⟩
def MILL_LOSS_GROUP : RF := ⟨MILL_LOSS, 23, 16⟩
def MILL_LOSS_RANK : RF := ⟨MILL_LOSS, 15, 0⟩
/-- MILL_SLICE (09_mill.md), retention domain. -/
def MILL_SLICE : RegDef :=
  { base := 0x400100, dims := [(0x8, 17)], ret := .domain,
    fields := [{ hi := 63, lo := 48, acc := .ro },
      { hi := 42, lo := 38, acc := .ro },
      { hi := 37, lo := 32, acc := .ro },
      { hi := 2, lo := 0, acc := .ro }] }
def MILL_SLICE_STAGING_KB : RF := ⟨MILL_SLICE, 63, 48⟩
def MILL_SLICE_ACCEPTED : RF := ⟨MILL_SLICE, 42, 38⟩
def MILL_SLICE_STRIPES : RF := ⟨MILL_SLICE, 37, 32⟩
def MILL_SLICE_STATE : RF := ⟨MILL_SLICE, 2, 0⟩
/-- MILL_GRP_CFG (09_mill.md), retention warm. -/
def MILL_GRP_CFG : RegDef :=
  { base := 0x410000, dims := [(0x20, 256)], ret := .warm,
    fields := [{ hi := 30, lo := 30, acc := .w1c },
      { hi := 29, lo := 29, acc := .w1s },
      { hi := 28, lo := 27, acc := .ro },
      { hi := 22, lo := 17, acc := .rw },
      { hi := 16, lo := 0, acc := .rw }] }
def MILL_GRP_CFG_REJECTED : RF := ⟨MILL_GRP_CFG, 30, 30⟩
def MILL_GRP_CFG_COMMIT : RF := ⟨MILL_GRP_CFG, 29, 29⟩
def MILL_GRP_CFG_STATE : RF := ⟨MILL_GRP_CFG, 28, 27⟩
def MILL_GRP_CFG_TENANT : RF := ⟨MILL_GRP_CFG, 22, 17⟩
def MILL_GRP_CFG_SIZE : RF := ⟨MILL_GRP_CFG, 16, 0⟩
/-- MILL_GRP_LIST (09_mill.md), retention warm. -/
def MILL_GRP_LIST : RegDef :=
  { base := 0x410008, dims := [(0x20, 256)], ret := .warm,
    fields := [{ hi := 47, lo := 7, acc := .rw }] }
def MILL_GRP_LIST_BASE : RF := ⟨MILL_GRP_LIST, 47, 7⟩
/-- MILL_GRP_ID (09_mill.md), retention warm. -/
def MILL_GRP_ID : RegDef :=
  { base := 0x410010, dims := [(0x20, 256)], ret := .warm,
    fields := [{ hi := 63, lo := 48, acc := .ro },
      { hi := 31, lo := 0, acc := .rw }] }
def MILL_GRP_ID_RANK : RF := ⟨MILL_GRP_ID, 63, 48⟩
def MILL_GRP_ID_GROUP_ID : RF := ⟨MILL_GRP_ID, 31, 0⟩
/-- MILL_GRP_DIGEST (09_mill.md), retention warm. -/
def MILL_GRP_DIGEST : RegDef :=
  { base := 0x410018, dims := [(0x20, 256)], ret := .warm,
    fields := [{ hi := 31, lo := 0, acc := .ro }] }
def MILL_GRP_DIGEST_DIGEST : RF := ⟨MILL_GRP_DIGEST, 31, 0⟩
/-- MOV_STAT (10_data_movers.md), retention domain. -/
def MOV_STAT : RegDef :=
  { base := 0x300000, dims := [(0x100, 34)], ret := .domain,
    fields := [{ hi := 63, lo := 56, acc := .ro },
      { hi := 55, lo := 48, acc := .ro },
      { hi := 41, lo := 32, acc := .ro },
      { hi := 2, lo := 0, acc := .ro }] }
def MOV_STAT_BUSY : RF := ⟨MOV_STAT, 63, 56⟩
def MOV_STAT_FAULTED : RF := ⟨MOV_STAT, 55, 48⟩
def MOV_STAT_ITEMS : RF := ⟨MOV_STAT, 41, 32⟩
def MOV_STAT_STATE : RF := ⟨MOV_STAT, 2, 0⟩
/-- MOV_BYTES (10_data_movers.md), retention domain. -/
def MOV_BYTES : RegDef :=
  { base := 0x300008, dims := [(0x100, 34)], ret := .domain,
    fields := [{ hi := 63, lo := 0, acc := .ro }] }
def MOV_BYTES_BYTES : RF := ⟨MOV_BYTES, 63, 0⟩
/-- MOV_XLT_CTX (10_data_movers.md), retention warm. -/
def MOV_XLT_CTX : RegDef :=
  { base := 0x380000, dims := [], ret := .warm,
    fields := [{ hi := 47, lo := 16, acc := .rw },
      { hi := 0, lo := 0, acc := .rw }] }
def MOV_XLT_CTX_BASE : RF := ⟨MOV_XLT_CTX, 47, 16⟩
def MOV_XLT_CTX_ENABLE : RF := ⟨MOV_XLT_CTX, 0, 0⟩
/-- MOV_XLT_INV (10_data_movers.md), retention warm. -/
def MOV_XLT_INV : RegDef :=
  { base := 0x380008, dims := [], ret := .warm,
    fields := [{ hi := 63, lo := 63, acc := .w1c },
      { hi := 59, lo := 59, acc := .w1s },
      { hi := 58, lo := 57, acc := .rw },
      { hi := 56, lo := 45, acc := .rw }] }
def MOV_XLT_INV_REJECTED : RF := ⟨MOV_XLT_INV, 63, 63⟩
def MOV_XLT_INV_GO : RF := ⟨MOV_XLT_INV, 59, 59⟩
def MOV_XLT_INV_SCOPE : RF := ⟨MOV_XLT_INV, 58, 57⟩
def MOV_XLT_INV_ASID : RF := ⟨MOV_XLT_INV, 56, 45⟩
/-- MOV_XLT_INV_VA (10_data_movers.md), retention warm. -/
def MOV_XLT_INV_VA : RegDef :=
  { base := 0x380010, dims := [], ret := .warm,
    fields := [{ hi := 47, lo := 16, acc := .rw },
      { hi := 15, lo := 0, acc := .rw }] }
def MOV_XLT_INV_VA_VA : RF := ⟨MOV_XLT_INV_VA, 47, 16⟩
def MOV_XLT_INV_VA_COUNT : RF := ⟨MOV_XLT_INV_VA, 15, 0⟩
/-- MOV_FLT_CFG (10_data_movers.md), retention warm. -/
def MOV_FLT_CFG : RegDef :=
  { base := 0x380018, dims := [], ret := .warm,
    fields := [{ hi := 63, lo := 48, acc := .rw, rst := 0x1388 },
      { hi := 47, lo := 32, acc := .rw, rst := 0xc8 },
      { hi := 10, lo := 0, acc := .rw, rst := 1 }] }
def MOV_FLT_CFG_TMO_MS : RF := ⟨MOV_FLT_CFG, 63, 48⟩
def MOV_FLT_CFG_HOLD_NS : RF := ⟨MOV_FLT_CFG, 47, 32⟩
def MOV_FLT_CFG_VECTOR : RF := ⟨MOV_FLT_CFG, 10, 0⟩
/-- MOV_FLT_RING (10_data_movers.md), retention function. -/
def MOV_FLT_RING : RegDef :=
  { base := 0x380020, dims := [], ret := .function,
    fields := [{ hi := 63, lo := 12, acc := .rw },
      { hi := 4, lo := 0, acc := .rw }] }
def MOV_FLT_RING_BASE : RF := ⟨MOV_FLT_RING, 63, 12⟩
def MOV_FLT_RING_LOG2N : RF := ⟨MOV_FLT_RING, 4, 0⟩
/-- MOV_FLT_PTR (10_data_movers.md), retention function. -/
def MOV_FLT_PTR : RegDef :=
  { base := 0x380028, dims := [], ret := .function,
    fields := [{ hi := 63, lo := 63, acc := .w1c },
      { hi := 47, lo := 32, acc := .rw },
      { hi := 15, lo := 0, acc := .ro }] }
def MOV_FLT_PTR_REJECTED : RF := ⟨MOV_FLT_PTR, 63, 63⟩
def MOV_FLT_PTR_HEAD : RF := ⟨MOV_FLT_PTR, 47, 32⟩
def MOV_FLT_PTR_TAIL : RF := ⟨MOV_FLT_PTR, 15, 0⟩
/-- MOV_FLT_RESP (10_data_movers.md), retention function. -/
def MOV_FLT_RESP : RegDef :=
  { base := 0x380030, dims := [], ret := .function,
    fields := [{ hi := 63, lo := 63, acc := .w1c },
      { hi := 40, lo := 40, acc := .w1s },
      { hi := 32, lo := 32, acc := .rw },
      { hi := 31, lo := 0, acc := .rw }] }
def MOV_FLT_RESP_REJECTED : RF := ⟨MOV_FLT_RESP, 63, 63⟩
def MOV_FLT_RESP_GO : RF := ⟨MOV_FLT_RESP, 40, 40⟩
def MOV_FLT_RESP_ACTION : RF := ⟨MOV_FLT_RESP, 32, 32⟩
def MOV_FLT_RESP_FID : RF := ⟨MOV_FLT_RESP, 31, 0⟩
/-- MOV_FLT_STAT (10_data_movers.md), retention function. -/
def MOV_FLT_STAT : RegDef :=
  { base := 0x380038, dims := [], ret := .function,
    fields := [{ hi := 63, lo := 48, acc := .ro },
      { hi := 47, lo := 32, acc := .ro },
      { hi := 24, lo := 16, acc := .ro },
      { hi := 8, lo := 0, acc := .ro }] }
def MOV_FLT_STAT_FULL_STALLS : RF := ⟨MOV_FLT_STAT, 63, 48⟩
def MOV_FLT_STAT_TIMEOUTS : RF := ⟨MOV_FLT_STAT, 47, 32⟩
def MOV_FLT_STAT_ENTRIES : RF := ⟨MOV_FLT_STAT, 24, 16⟩
def MOV_FLT_STAT_HELD : RF := ⟨MOV_FLT_STAT, 8, 0⟩
/-- MOV_XLT_CNT (10_data_movers.md), retention warm. -/
def MOV_XLT_CNT : RegDef :=
  { base := 0x380040, dims := [], ret := .warm,
    fields := [{ hi := 63, lo := 32, acc := .ro },
      { hi := 31, lo := 0, acc := .ro }] }
def MOV_XLT_CNT_WALKS : RF := ⟨MOV_XLT_CNT, 63, 32⟩
def MOV_XLT_CNT_FAULTS : RF := ⟨MOV_XLT_CNT, 31, 0⟩
/-- STW_CTL (11_steward_commands.md), retention warm. -/
def STW_CTL : RegDef :=
  { base := 0x100000, dims := [], ret := .warm,
    fields := [{ hi := 15, lo := 15, acc := .rw },
      { hi := 10, lo := 0, acc := .rw, rst := 2 }] }
def STW_CTL_HOLD : RF := ⟨STW_CTL, 15, 15⟩
def STW_CTL_VECTOR : RF := ⟨STW_CTL, 10, 0⟩
/-- STW_STAT (11_steward_commands.md), retention volatile. -/
def STW_STAT : RegDef :=
  { base := 0x100008, dims := [], ret := .volatile,
    fields := [{ hi := 63, lo := 63, acc := .ro },
      { hi := 48, lo := 32, acc := .ro },
      { hi := 31, lo := 16, acc := .ro },
      { hi := 3, lo := 0, acc := .ro }] }
def STW_STAT_RETIRED : RF := ⟨STW_STAT, 63, 63⟩
def STW_STAT_INFLIGHT : RF := ⟨STW_STAT, 48, 32⟩
def STW_STAT_STRAY : RF := ⟨STW_STAT, 31, 16⟩
def STW_STAT_FW_UP : RF := ⟨STW_STAT, 3, 0⟩
/-- STW_ERR (11_steward_commands.md), retention function. -/
def STW_ERR : RegDef :=
  { base := 0x100010, dims := [], ret := .function,
    fields := [{ hi := 63, lo := 63, acc := .w1c },
      { hi := 47, lo := 32, acc := .ro },
      { hi := 31, lo := 24, acc := .ro },
      { hi := 10, lo := 10, acc := .ro },
      { hi := 9, lo := 0, acc := .ro }] }
def STW_ERR_VALID : RF := ⟨STW_ERR, 63, 63⟩
def STW_ERR_COUNT : RF := ⟨STW_ERR, 47, 32⟩
def STW_ERR_CAUSE : RF := ⟨STW_ERR, 31, 24⟩
def STW_ERR_CQ : RF := ⟨STW_ERR, 10, 10⟩
def STW_ERR_QUEUE : RF := ⟨STW_ERR, 9, 0⟩
/-- STW_MBOX_CMD (11_steward_commands.md), retention function. -/
def STW_MBOX_CMD : RegDef :=
  { base := 0x100040, dims := [(0x8, 8)], ret := .function,
    fields := [{ hi := 63, lo := 0, acc := .rw }] }
def STW_MBOX_CMD_PKT : RF := ⟨STW_MBOX_CMD, 63, 0⟩
/-- RES_STAT (11_steward_commands.md), retention function. -/
def RES_STAT : RegDef :=
  { base := 0x100080, dims := [], ret := .function,
    fields := [{ hi := 63, lo := 32, acc := .ro },
      { hi := 31, lo := 24, acc := .ro },
      { hi := 17, lo := 16, acc := .ro },
      { hi := 1, lo := 0, acc := .ro }] }
def RES_STAT_ITEM : RF := ⟨RES_STAT, 63, 32⟩
def RES_STAT_STATUS : RF := ⟨RES_STAT, 31, 24⟩
def RES_STAT_FATE : RF := ⟨RES_STAT, 17, 16⟩
def RES_STAT_STATE : RF := ⟨RES_STAT, 1, 0⟩
/-- RES_DATA (11_steward_commands.md), retention function. -/
def RES_DATA : RegDef :=
  { base := 0x100088, dims := [(0x8, 4)], ret := .function,
    fields := [{ hi := 63, lo := 0, acc := .ro }] }
def RES_DATA_REPLY : RF := ⟨RES_DATA, 63, 0⟩
/-- RES_ACK (11_steward_commands.md), retention function. -/
def RES_ACK : RegDef :=
  { base := 0x1000a8, dims := [], ret := .function,
    fields := [{ hi := 0, lo := 0, acc := .w1s }] }
def RES_ACK_ACK : RF := ⟨RES_ACK, 0, 0⟩
/-- STW_MBOX_CTL (11_steward_commands.md), retention function. -/
def STW_MBOX_CTL : RegDef :=
  { base := 0x1000b0, dims := [], ret := .function,
    fields := [{ hi := 1, lo := 1, acc := .w1c },
      { hi := 0, lo := 0, acc := .w1s }] }
def STW_MBOX_CTL_REJECTED : RF := ⟨STW_MBOX_CTL, 1, 1⟩
def STW_MBOX_CTL_GO : RF := ⟨STW_MBOX_CTL, 0, 0⟩
/-- STW_QBASE (11_steward_commands.md), retention function. -/
def STW_QBASE : RegDef :=
  { base := 0x100100, dims := [(0x40, 1024)], ret := .function,
    fields := [{ hi := 63, lo := 12, acc := .rw },
      { hi := 8, lo := 8, acc := .rw },
      { hi := 4, lo := 0, acc := .rw }] }
def STW_QBASE_BASE : RF := ⟨STW_QBASE, 63, 12⟩
def STW_QBASE_LOC : RF := ⟨STW_QBASE, 8, 8⟩
def STW_QBASE_LOG2N : RF := ⟨STW_QBASE, 4, 0⟩
/-- STW_QCFG (11_steward_commands.md), retention function. -/
def STW_QCFG : RegDef :=
  { base := 0x100108, dims := [(0x40, 1024)], ret := .function,
    fields := [{ hi := 63, lo := 62, acc := .ro },
      { hi := 61, lo := 61, acc := .rw },
      { hi := 60, lo := 60, acc := .w1c },
      { hi := 57, lo := 52, acc := .rw },
      { hi := 51, lo := 40, acc := .rw },
      { hi := 31, lo := 24, acc := .rw, rst := 0xff },
      { hi := 23, lo := 16, acc := .rw, rst := 1 },
      { hi := 9, lo := 0, acc := .rw, rstStep := 1 }] }
def STW_QCFG_STATE : RF := ⟨STW_QCFG, 63, 62⟩
def STW_QCFG_ENABLE : RF := ⟨STW_QCFG, 61, 61⟩
def STW_QCFG_REJECTED : RF := ⟨STW_QCFG, 60, 60⟩
def STW_QCFG_TENANT : RF := ⟨STW_QCFG, 57, 52⟩
def STW_QCFG_ASID : RF := ⟨STW_QCFG, 51, 40⟩
def STW_QCFG_CLASSES : RF := ⟨STW_QCFG, 31, 24⟩
def STW_QCFG_WEIGHT : RF := ⟨STW_QCFG, 23, 16⟩
def STW_QCFG_CQ : RF := ⟨STW_QCFG, 9, 0⟩
/-- STW_QPTR (11_steward_commands.md), retention function. -/
def STW_QPTR : RegDef :=
  { base := 0x100110, dims := [(0x40, 1024)], ret := .function,
    fields := [{ hi := 47, lo := 32, acc := .ro },
      { hi := 15, lo := 0, acc := .ro }] }
def STW_QPTR_HEAD : RF := ⟨STW_QPTR, 47, 32⟩
def STW_QPTR_TAIL : RF := ⟨STW_QPTR, 15, 0⟩
/-- STW_CQBASE (11_steward_commands.md), retention function. -/
def STW_CQBASE : RegDef :=
  { base := 0x100118, dims := [(0x40, 1024)], ret := .function,
    fields := [{ hi := 63, lo := 12, acc := .rw },
      { hi := 8, lo := 8, acc := .rw },
      { hi := 4, lo := 0, acc := .rw }] }
def STW_CQBASE_BASE : RF := ⟨STW_CQBASE, 63, 12⟩
def STW_CQBASE_LOC : RF := ⟨STW_CQBASE, 8, 8⟩
def STW_CQBASE_LOG2N : RF := ⟨STW_CQBASE, 4, 0⟩
/-- STW_CQCFG (11_steward_commands.md), retention function. -/
def STW_CQCFG : RegDef :=
  { base := 0x100120, dims := [(0x40, 1024)], ret := .function,
    fields := [{ hi := 63, lo := 63, acc := .rw },
      { hi := 47, lo := 32, acc := .rw },
      { hi := 31, lo := 24, acc := .rw },
      { hi := 10, lo := 0, acc := .rw, rst := 0x10, rstStep := 1 }] }
def STW_CQCFG_IRQ_EN : RF := ⟨STW_CQCFG, 63, 63⟩
def STW_CQCFG_COAL_US : RF := ⟨STW_CQCFG, 47, 32⟩
def STW_CQCFG_COAL_CNT : RF := ⟨STW_CQCFG, 31, 24⟩
def STW_CQCFG_VECTOR : RF := ⟨STW_CQCFG, 10, 0⟩
/-- STW_CQPTR (11_steward_commands.md), retention function. -/
def STW_CQPTR : RegDef :=
  { base := 0x100128, dims := [(0x40, 1024)], ret := .function,
    fields := [{ hi := 48, lo := 48, acc := .ro, rst := 1 },
      { hi := 47, lo := 32, acc := .ro },
      { hi := 31, lo := 16, acc := .ro },
      { hi := 15, lo := 0, acc := .ro }] }
def STW_CQPTR_PHASE : RF := ⟨STW_CQPTR, 48, 48⟩
def STW_CQPTR_TAIL : RF := ⟨STW_CQPTR, 47, 32⟩
def STW_CQPTR_RESERVED : RF := ⟨STW_CQPTR, 31, 16⟩
def STW_CQPTR_HEAD : RF := ⟨STW_CQPTR, 15, 0⟩
/-- STW_QSTAT (11_steward_commands.md), retention function. -/
def STW_QSTAT : RegDef :=
  { base := 0x100130, dims := [(0x40, 1024)], ret := .function,
    fields := [{ hi := 63, lo := 48, acc := .ro },
      { hi := 39, lo := 32, acc := .ro },
      { hi := 31, lo := 0, acc := .ro }] }
def STW_QSTAT_INFLIGHT : RF := ⟨STW_QSTAT, 63, 48⟩
def STW_QSTAT_CAUSE : RF := ⟨STW_QSTAT, 39, 32⟩
def STW_QSTAT_FETCHED : RF := ⟨STW_QSTAT, 31, 0⟩
/-- STW_EVT (11_steward_commands.md), retention function. -/
def STW_EVT : RegDef :=
  { base := 0x120000, dims := [(0x8, 4096)], ret := .function,
    fields := [{ hi := 63, lo := 63, acc := .rw },
      { hi := 62, lo := 62, acc := .rw },
      { hi := 53, lo := 48, acc := .rw },
      { hi := 47, lo := 0, acc := .rw }] }
def STW_EVT_VALID : RF := ⟨STW_EVT, 63, 63⟩
def STW_EVT_FAILED : RF := ⟨STW_EVT, 62, 62⟩
def STW_EVT_TENANT : RF := ⟨STW_EVT, 53, 48⟩
def STW_EVT_COUNT : RF := ⟨STW_EVT, 47, 0⟩
/-- STW_SQDB (11_steward_commands.md), retention function. -/
def STW_SQDB : RegDef :=
  { base := 0x4000000, dims := [(0x10000, 1024)], ret := .function,
    fields := [{ hi := 15, lo := 0, acc := .rw }] }
def STW_SQDB_TAIL : RF := ⟨STW_SQDB, 15, 0⟩
/-- STW_CQDB (11_steward_commands.md), retention function. -/
def STW_CQDB : RegDef :=
  { base := 0x4000008, dims := [(0x10000, 1024)], ret := .function,
    fields := [{ hi := 15, lo := 0, acc := .rw }] }
def STW_CQDB_HEAD : RF := ⟨STW_CQDB, 15, 0⟩
/-- STW_SCHED (12_steward_resources.md), retention function. -/
def STW_SCHED : RegDef :=
  { base := 0x130000, dims := [], ret := .function,
    fields := [{ hi := 63, lo := 48, acc := .rw, rst := 0x3e8 },
      { hi := 47, lo := 32, acc := .rw, rst := 0x61b }] }
def STW_SCHED_AGE_US : RF := ⟨STW_SCHED, 63, 48⟩
def STW_SCHED_URGENT : RF := ⟨STW_SCHED, 47, 32⟩
/-- STW_RSV (12_steward_resources.md), retention function. -/
def STW_RSV : RegDef :=
  { base := 0x130008, dims := [], ret := .function,
    fields := [{ hi := 63, lo := 63, acc := .w1c },
      { hi := 47, lo := 28, acc := .rw },
      { hi := 0, lo := 0, acc := .rw }] }
def STW_RSV_REJECTED : RF := ⟨STW_RSV, 63, 63⟩
def STW_RSV_BASE : RF := ⟨STW_RSV, 47, 28⟩
def STW_RSV_VALID : RF := ⟨STW_RSV, 0, 0⟩
/-- STW_TENANT (12_steward_resources.md), retention function. -/
def STW_TENANT : RegDef :=
  { base := 0x131000, dims := [(0x10, 64)], ret := .function,
    fields := [{ hi := 63, lo := 56, acc := .rw, rst := 0x10 },
      { hi := 54, lo := 32, acc := .rw, rst := 0x7fffff },
      { hi := 28, lo := 16, acc := .rw, rst := 0x1fff }] }
def STW_TENANT_SHARE : RF := ⟨STW_TENANT, 63, 56⟩
def STW_TENANT_HBM_Q : RF := ⟨STW_TENANT, 54, 32⟩
def STW_TENANT_CEL_Q : RF := ⟨STW_TENANT, 28, 16⟩
/-- STW_USAGE (12_steward_resources.md), retention function. -/
def STW_USAGE : RegDef :=
  { base := 0x131008, dims := [(0x10, 64)], ret := .function,
    fields := [{ hi := 54, lo := 32, acc := .ro },
      { hi := 28, lo := 16, acc := .ro }] }
def STW_USAGE_HBM_USED : RF := ⟨STW_USAGE, 54, 32⟩
def STW_USAGE_CEL_USED : RF := ⟨STW_USAGE, 28, 16⟩
/-- STW_POOL_CFG (12_steward_resources.md), retention function. -/
def STW_POOL_CFG : RegDef :=
  { base := 0x132000, dims := [(0x10, 32)], ret := .function,
    fields := [{ hi := 63, lo := 63, acc := .w1c },
      { hi := 62, lo := 62, acc := .w1s },
      { hi := 61, lo := 60, acc := .ro },
      { hi := 59, lo := 59, acc := .rw, rst := 1 },
      { hi := 58, lo := 58, acc := .rw },
      { hi := 57, lo := 52, acc := .rw },
      { hi := 51, lo := 48, acc := .rw },
      { hi := 47, lo := 16, acc := .rw },
      { hi := 15, lo := 0, acc := .rw }] }
def STW_POOL_CFG_REJECTED : RF := ⟨STW_POOL_CFG, 63, 63⟩
def STW_POOL_CFG_COMMIT : RF := ⟨STW_POOL_CFG, 62, 62⟩
def STW_POOL_CFG_STATE : RF := ⟨STW_POOL_CFG, 61, 60⟩
def STW_POOL_CFG_ZERO : RF := ⟨STW_POOL_CFG, 59, 59⟩
def STW_POOL_CFG_SPACE : RF := ⟨STW_POOL_CFG, 58, 58⟩
def STW_POOL_CFG_TENANT : RF := ⟨STW_POOL_CFG, 57, 52⟩
def STW_POOL_CFG_MAXORD : RF := ⟨STW_POOL_CFG, 51, 48⟩
def STW_POOL_CFG_BASE : RF := ⟨STW_POOL_CFG, 47, 16⟩
def STW_POOL_CFG_COUNT : RF := ⟨STW_POOL_CFG, 15, 0⟩
/-- STW_POOL_STAT (12_steward_resources.md), retention function. -/
def STW_POOL_STAT : RegDef :=
  { base := 0x132008, dims := [(0x10, 32)], ret := .function,
    fields := [{ hi := 63, lo := 56, acc := .ro, rst := 0xff },
      { hi := 55, lo := 32, acc := .ro },
      { hi := 31, lo := 8, acc := .ro }] }
def STW_POOL_STAT_LARGEST : RF := ⟨STW_POOL_STAT, 63, 56⟩
def STW_POOL_STAT_FREE : RF := ⟨STW_POOL_STAT, 55, 32⟩
def STW_POOL_STAT_LIVE : RF := ⟨STW_POOL_STAT, 31, 8⟩
/-- STW_KV_CFG0 (12_steward_resources.md), retention function. -/
def STW_KV_CFG0 : RegDef :=
  { base := 0x133000, dims := [(0x20, 16)], ret := .function,
    fields := [{ hi := 63, lo := 56, acc := .rw },
      { hi := 55, lo := 48, acc := .rw },
      { hi := 47, lo := 16, acc := .rw }] }
def STW_KV_CFG0_TOKENS : RF := ⟨STW_KV_CFG0, 63, 56⟩
def STW_KV_CFG0_BLOCK : RF := ⟨STW_KV_CFG0, 55, 48⟩
def STW_KV_CFG0_BASE : RF := ⟨STW_KV_CFG0, 47, 16⟩
/-- STW_KV_CFG1 (12_steward_resources.md), retention function. -/
def STW_KV_CFG1 : RegDef :=
  { base := 0x133008, dims := [(0x20, 16)], ret := .function,
    fields := [{ hi := 63, lo := 63, acc := .w1c },
      { hi := 62, lo := 62, acc := .w1s },
      { hi := 61, lo := 61, acc := .ro },
      { hi := 29, lo := 24, acc := .rw },
      { hi := 23, lo := 0, acc := .rw }] }
def STW_KV_CFG1_REJECTED : RF := ⟨STW_KV_CFG1, 63, 63⟩
def STW_KV_CFG1_COMMIT : RF := ⟨STW_KV_CFG1, 62, 62⟩
def STW_KV_CFG1_STATE : RF := ⟨STW_KV_CFG1, 61, 61⟩
def STW_KV_CFG1_TENANT : RF := ⟨STW_KV_CFG1, 29, 24⟩
def STW_KV_CFG1_COUNT : RF := ⟨STW_KV_CFG1, 23, 0⟩
/-- STW_KV_STAT (12_steward_resources.md), retention function. -/
def STW_KV_STAT : RegDef :=
  { base := 0x133010, dims := [(0x20, 16)], ret := .function,
    fields := [{ hi := 23, lo := 0, acc := .ro }] }
def STW_KV_STAT_FREE : RF := ⟨STW_KV_STAT, 23, 0⟩
/-- STW_GEN_STAT (12_steward_resources.md), retention function. -/
def STW_GEN_STAT : RegDef :=
  { base := 0x134000, dims := [], ret := .function,
    fields := [{ hi := 63, lo := 40, acc := .ro },
      { hi := 39, lo := 32, acc := .ro },
      { hi := 31, lo := 29, acc := .ro },
      { hi := 28, lo := 16, acc := .ro },
      { hi := 15, lo := 0, acc := .ro }] }
def STW_GEN_STAT_STEP : RF := ⟨STW_GEN_STAT, 63, 40⟩
def STW_GEN_STAT_STATUS : RF := ⟨STW_GEN_STAT, 39, 32⟩
def STW_GEN_STAT_STATE : RF := ⟨STW_GEN_STAT, 31, 29⟩
def STW_GEN_STAT_LIVE : RF := ⟨STW_GEN_STAT, 28, 16⟩
def STW_GEN_STAT_LAST_NS : RF := ⟨STW_GEN_STAT, 15, 0⟩
/-- STW_GEN_OUT (12_steward_resources.md), retention function. -/
def STW_GEN_OUT : RegDef :=
  { base := 0x134008, dims := [], ret := .function,
    fields := [{ hi := 63, lo := 12, acc := .rw },
      { hi := 8, lo := 8, acc := .rw },
      { hi := 4, lo := 0, acc := .rw }] }
def STW_GEN_OUT_BASE : RF := ⟨STW_GEN_OUT, 63, 12⟩
def STW_GEN_OUT_LOC : RF := ⟨STW_GEN_OUT, 8, 8⟩
def STW_GEN_OUT_LOG2N : RF := ⟨STW_GEN_OUT, 4, 0⟩
/-- STW_GEN_OUTPTR (12_steward_resources.md), retention function. -/
def STW_GEN_OUTPTR : RegDef :=
  { base := 0x134010, dims := [], ret := .function,
    fields := [{ hi := 63, lo := 63, acc := .w1c },
      { hi := 52, lo := 32, acc := .rw },
      { hi := 26, lo := 16, acc := .rw, rst := 3 }] }
def STW_GEN_OUTPTR_REJECTED : RF := ⟨STW_GEN_OUTPTR, 63, 63⟩
def STW_GEN_OUTPTR_HEAD : RF := ⟨STW_GEN_OUTPTR, 52, 32⟩
def STW_GEN_OUTPTR_VECTOR : RF := ⟨STW_GEN_OUTPTR, 26, 16⟩
/-- SLU_CTL (13_sluice.md), retention warm. -/
def SLU_CTL : RegDef :=
  { base := 0x200000, dims := [], ret := .warm,
    fields := [{ hi := 63, lo := 63, acc := .w1c },
      { hi := 59, lo := 59, acc := .w1s },
      { hi := 58, lo := 48, acc := .rw, rst := 4 },
      { hi := 47, lo := 32, acc := .ro },
      { hi := 31, lo := 16, acc := .rw, rst := 0x64 },
      { hi := 15, lo := 0, acc := .rw, rst := 0x10 }] }
def SLU_CTL_REJECTED : RF := ⟨SLU_CTL, 63, 63⟩
def SLU_CTL_COMMIT : RF := ⟨SLU_CTL, 59, 59⟩
def SLU_CTL_VECTOR : RF := ⟨SLU_CTL, 58, 48⟩
def SLU_CTL_GEN : RF := ⟨SLU_CTL, 47, 32⟩
def SLU_CTL_WIN_US : RF := ⟨SLU_CTL, 31, 16⟩
def SLU_CTL_URGENT : RF := ⟨SLU_CTL, 15, 0⟩
/-- SLU_DLCFG (13_sluice.md), retention warm. -/
def SLU_DLCFG : RegDef :=
  { base := 0x200008, dims := [], ret := .warm,
    fields := [{ hi := 15, lo := 0, acc := .rw }] }
def SLU_DLCFG_DL_LIMIT : RF := ⟨SLU_DLCFG, 15, 0⟩
/-- SLU_MISS (13_sluice.md), retention warm. -/
def SLU_MISS : RegDef :=
  { base := 0x200010, dims := [], ret := .warm,
    fields := [{ hi := 63, lo := 63, acc := .w1c },
      { hi := 62, lo := 61, acc := .ro },
      { hi := 60, lo := 60, acc := .ro },
      { hi := 59, lo := 54, acc := .ro },
      { hi := 53, lo := 50, acc := .ro },
      { hi := 49, lo := 32, acc := .ro },
      { hi := 31, lo := 0, acc := .ro }] }
def SLU_MISS_VALID : RF := ⟨SLU_MISS, 63, 63⟩
def SLU_MISS_KIND : RF := ⟨SLU_MISS, 62, 61⟩
def SLU_MISS_DIR : RF := ⟨SLU_MISS, 60, 60⟩
def SLU_MISS_UNIT : RF := ⟨SLU_MISS, 59, 54⟩
def SLU_MISS_WHICH : RF := ⟨SLU_MISS, 53, 50⟩
def SLU_MISS_SHORT : RF := ⟨SLU_MISS, 49, 32⟩
def SLU_MISS_WHEN : RF := ⟨SLU_MISS, 31, 0⟩
/-- SLU_MISS_CNT (13_sluice.md), retention warm. -/
def SLU_MISS_CNT : RegDef :=
  { base := 0x200018, dims := [], ret := .warm,
    fields := [{ hi := 63, lo := 32, acc := .ro },
      { hi := 31, lo := 17, acc := .ro },
      { hi := 16, lo := 2, acc := .ro },
      { hi := 0, lo := 0, acc := .w1s }] }
def SLU_MISS_CNT_HBM : RF := ⟨SLU_MISS_CNT, 63, 32⟩
def SLU_MISS_CNT_PORT : RF := ⟨SLU_MISS_CNT, 31, 17⟩
def SLU_MISS_CNT_DEADLINE : RF := ⟨SLU_MISS_CNT, 16, 2⟩
def SLU_MISS_CNT_CLEAR : RF := ⟨SLU_MISS_CNT, 0, 0⟩
/-- SLU_MAP (13_sluice.md), retention warm. -/
def SLU_MAP : RegDef :=
  { base := 0x200100, dims := [(0x8, 64)], ret := .warm,
    fields := [{ hi := 31, lo := 0, acc := .rw }] }
def SLU_MAP_PART : RF := ⟨SLU_MAP, 31, 0⟩
/-- SLU_PART (13_sluice.md), retention warm. -/
def SLU_PART : RegDef :=
  { base := 0x201000, dims := [(0x10, 16)], ret := .warm,
    fields := [{ hi := 63, lo := 55, acc := .rw, rst := 0x100 },
      { hi := 54, lo := 47, acc := .rw },
      { hi := 46, lo := 39, acc := .rw, rst := 0x40 },
      { hi := 38, lo := 26, acc := .rw, rst := 0x1000 },
      { hi := 25, lo := 13, acc := .rw }] }
def SLU_PART_ENT_MAX : RF := ⟨SLU_PART, 63, 55⟩
def SLU_PART_ENT_MIN : RF := ⟨SLU_PART, 54, 47⟩
def SLU_PART_BURST_KB : RF := ⟨SLU_PART, 46, 39⟩
def SLU_PART_MAX : RF := ⟨SLU_PART, 38, 26⟩
def SLU_PART_MIN : RF := ⟨SLU_PART, 25, 13⟩
/-- SLU_PSTAT (13_sluice.md), retention volatile. -/
def SLU_PSTAT : RegDef :=
  { base := 0x201008, dims := [(0x10, 16)], ret := .volatile,
    fields := [{ hi := 63, lo := 32, acc := .ro },
      { hi := 31, lo := 16, acc := .ro }] }
def SLU_PSTAT_SERVED_KB : RF := ⟨SLU_PSTAT, 63, 32⟩
def SLU_PSTAT_MISSES : RF := ⟨SLU_PSTAT, 31, 16⟩
/-- SLU_PORT (13_sluice.md), retention warm. -/
def SLU_PORT : RegDef :=
  { base := 0x204000, dims := [(0x80, 56), (0x40, 2), (0x8, 8)], ret := .warm,
    fields := [{ hi := 40, lo := 32, acc := .rw, rst := 0x100 },
      { hi := 31, lo := 24, acc := .rw },
      { hi := 23, lo := 16, acc := .rw, rst := 0x10 }] }
def SLU_PORT_MAX : RF := ⟨SLU_PORT, 40, 32⟩
def SLU_PORT_MIN : RF := ⟨SLU_PORT, 31, 24⟩
def SLU_PORT_BURST_KB : RF := ⟨SLU_PORT, 23, 16⟩
/-- SITE_CFG (14_sites.md), retention warm. -/
def SITE_CFG : RegDef :=
  { base := 0x1000000, dims := [(0x100000, 8)], ret := .warm,
    fields := [{ hi := 63, lo := 63, acc := .w1c },
      { hi := 31, lo := 16, acc := .rw, rst := 0xa },
      { hi := 9, lo := 9, acc := .rw },
      { hi := 8, lo := 8, acc := .rw, rst := 1 },
      { hi := 5, lo := 4, acc := .rw, rst := 2 },
      { hi := 0, lo := 0, acc := .rw }] }
def SITE_CFG_REJECTED : RF := ⟨SITE_CFG, 63, 63⟩
def SITE_CFG_PWR_MS : RF := ⟨SITE_CFG, 31, 16⟩
def SITE_CFG_IGNORE_ST : RF := ⟨SITE_CFG, 9, 9⟩
def SITE_CFG_ATTEST : RF := ⟨SITE_CFG, 8, 8⟩
def SITE_CFG_RATE : RF := ⟨SITE_CFG, 5, 4⟩
def SITE_CFG_PROTO : RF := ⟨SITE_CFG, 0, 0⟩
/-- SITE_STAT (14_sites.md), retention volatile. -/
def SITE_STAT : RegDef :=
  { base := 0x1000008, dims := [(0x100000, 8)], ret := .volatile,
    fields := [{ hi := 63, lo := 48, acc := .ro },
      { hi := 47, lo := 40, acc := .ro },
      { hi := 39, lo := 32, acc := .ro },
      { hi := 31, lo := 24, acc := .ro },
      { hi := 11, lo := 10, acc := .ro },
      { hi := 9, lo := 9, acc := .ro },
      { hi := 3, lo := 0, acc := .ro }] }
def SITE_STAT_SELFTEST : RF := ⟨SITE_STAT, 63, 48⟩
def SITE_STAT_UP : RF := ⟨SITE_STAT, 47, 40⟩
def SITE_STAT_FOLD : RF := ⟨SITE_STAT, 39, 32⟩
def SITE_STAT_HALF : RF := ⟨SITE_STAT, 31, 24⟩
def SITE_STAT_RATE_NOW : RF := ⟨SITE_STAT, 11, 10⟩
def SITE_STAT_PROTO_NOW : RF := ⟨SITE_STAT, 9, 9⟩
def SITE_STAT_STATE : RF := ⟨SITE_STAT, 3, 0⟩
/-- SITE_TMO (14_sites.md), retention warm. -/
def SITE_TMO : RegDef :=
  { base := 0x1000010, dims := [(0x100000, 8)], ret := .warm,
    fields := [{ hi := 63, lo := 48, acc := .rw, rst := 0x64 },
      { hi := 47, lo := 32, acc := .rw, rst := 0x3e8 },
      { hi := 31, lo := 16, acc := .rw, rst := 0x1f4 },
      { hi := 15, lo := 0, acc := .rw, rst := 0x64 }] }
def SITE_TMO_TRAIN_MS : RF := ⟨SITE_TMO, 63, 48⟩
def SITE_TMO_STOP_US : RF := ⟨SITE_TMO, 47, 32⟩
def SITE_TMO_INV_US : RF := ⟨SITE_TMO, 31, 16⟩
def SITE_TMO_CRED_US : RF := ⟨SITE_TMO, 15, 0⟩
/-- SITE_IRQ (14_sites.md), retention warm. -/
def SITE_IRQ : RegDef :=
  { base := 0x1000018, dims := [(0x100000, 8)], ret := .warm,
    fields := [{ hi := 63, lo := 48, acc := .ro },
      { hi := 47, lo := 32, acc := .rw },
      { hi := 10, lo := 0, acc := .rw, rst := 0x410, rstStep := 16 }] }
def SITE_IRQ_PEND : RF := ⟨SITE_IRQ, 63, 48⟩
def SITE_IRQ_MASK : RF := ⟨SITE_IRQ, 47, 32⟩
def SITE_IRQ_BASE : RF := ⟨SITE_IRQ, 10, 0⟩
/-- SITE_ERR (14_sites.md), retention cold. -/
def SITE_ERR : RegDef :=
  { base := 0x1000020, dims := [(0x100000, 8)], ret := .cold,
    fields := [{ hi := 63, lo := 63, acc := .w1c },
      { hi := 55, lo := 48, acc := .ro },
      { hi := 47, lo := 44, acc := .ro },
      { hi := 43, lo := 42, acc := .ro },
      { hi := 41, lo := 39, acc := .ro },
      { hi := 15, lo := 0, acc := .ro }] }
def SITE_ERR_VALID : RF := ⟨SITE_ERR, 63, 63⟩
def SITE_ERR_COUNT : RF := ⟨SITE_ERR, 55, 48⟩
def SITE_ERR_KIND : RF := ⟨SITE_ERR, 47, 44⟩
def SITE_ERR_SEVERITY : RF := ⟨SITE_ERR, 43, 42⟩
def SITE_ERR_SLOT : RF := ⟨SITE_ERR, 41, 39⟩
def SITE_ERR_CODE : RF := ⟨SITE_ERR, 15, 0⟩
/-- SITE_SEAL (14_sites.md), retention domain. -/
def SITE_SEAL : RegDef :=
  { base := 0x1000028, dims := [(0x100000, 8)], ret := .domain,
    fields := [{ hi := 63, lo := 1, acc := .ro }] }
def SITE_SEAL_RIGHTS : RF := ⟨SITE_SEAL, 63, 1⟩
/-- SITE_ATT (14_sites.md), retention domain. -/
def SITE_ATT : RegDef :=
  { base := 0x1000030, dims := [(0x100000, 8)], ret := .domain,
    fields := [{ hi := 63, lo := 63, acc := .ro },
      { hi := 49, lo := 48, acc := .ro },
      { hi := 31, lo := 0, acc := .ro }] }
def SITE_ATT_PENDING : RF := ⟨SITE_ATT, 63, 63⟩
def SITE_ATT_RESULT : RF := ⟨SITE_ATT, 49, 48⟩
def SITE_ATT_COUNT : RF := ⟨SITE_ATT, 31, 0⟩
/-- SITE_CNT (14_sites.md), retention warm. -/
def SITE_CNT : RegDef :=
  { base := 0x1000038, dims := [(0x100000, 8)], ret := .warm,
    fields := [{ hi := 63, lo := 32, acc := .ro },
      { hi := 31, lo := 0, acc := .ro }] }
def SITE_CNT_IN_KB : RF := ⟨SITE_CNT, 63, 32⟩
def SITE_CNT_OUT_KB : RF := ⟨SITE_CNT, 31, 0⟩
/-- SITE_MOD (14_sites.md), retention domain. -/
def SITE_MOD : RegDef :=
  { base := 0x1000100, dims := [(0x100000, 8), (0x8, 8)], ret := .domain,
    fields := [{ hi := 63, lo := 48, acc := .ro },
      { hi := 47, lo := 32, acc := .ro },
      { hi := 31, lo := 24, acc := .ro },
      { hi := 19, lo := 17, acc := .ro },
      { hi := 16, lo := 16, acc := .ro },
      { hi := 8, lo := 8, acc := .ro }] }
def SITE_MOD_RETRIES : RF := ⟨SITE_MOD, 63, 48⟩
def SITE_MOD_RETRAINS : RF := ⟨SITE_MOD, 47, 32⟩
def SITE_MOD_REPAIRED : RF := ⟨SITE_MOD, 31, 24⟩
def SITE_MOD_CARRIER : RF := ⟨SITE_MOD, 19, 17⟩
def SITE_MOD_HALF : RF := ⟨SITE_MOD, 16, 16⟩
def SITE_MOD_KAT_FAIL : RF := ⟨SITE_MOD, 8, 8⟩
/-- SITE_WQ (14_sites.md), retention function. -/
def SITE_WQ : RegDef :=
  { base := 0x1000200, dims := [(0x100000, 8), (0x8, 16)], ret := .function,
    fields := [{ hi := 63, lo := 63, acc := .rw },
      { hi := 62, lo := 62, acc := .rw },
      { hi := 61, lo := 59, acc := .rw, rst := 7 },
      { hi := 57, lo := 52, acc := .rw },
      { hi := 51, lo := 40, acc := .rw },
      { hi := 39, lo := 39, acc := .w1c }] }
def SITE_WQ_ENABLE : RF := ⟨SITE_WQ, 63, 63⟩
def SITE_WQ_TRUST : RF := ⟨SITE_WQ, 62, 62⟩
def SITE_WQ_CLASS_MAX : RF := ⟨SITE_WQ, 61, 59⟩
def SITE_WQ_TENANT : RF := ⟨SITE_WQ, 57, 52⟩
def SITE_WQ_ASID : RF := ⟨SITE_WQ, 51, 40⟩
def SITE_WQ_REJECTED : RF := ⟨SITE_WQ, 39, 39⟩
/-- LNK_CFG (15_fabric_links.md), retention warm. -/
def LNK_CFG : RegDef :=
  { base := 0x1800000, dims := [(0x10000, 48)], ret := .warm,
    fields := [{ hi := 63, lo := 63, acc := .w1c },
      { hi := 16, lo := 16, acc := .w1s },
      { hi := 15, lo := 8, acc := .rw, rst := 0x64 },
      { hi := 5, lo := 4, acc := .rw },
      { hi := 2, lo := 0, acc := .rw }] }
def LNK_CFG_REJECTED : RF := ⟨LNK_CFG, 63, 63⟩
def LNK_CFG_RETRAIN : RF := ⟨LNK_CFG, 16, 16⟩
def LNK_CFG_RETRAIN_MAX : RF := ⟨LNK_CFG, 15, 8⟩
def LNK_CFG_WIDTH_MIN : RF := ⟨LNK_CFG, 5, 4⟩
def LNK_CFG_MODE : RF := ⟨LNK_CFG, 2, 0⟩
/-- LNK_STAT (15_fabric_links.md), retention volatile. -/
def LNK_STAT : RegDef :=
  { base := 0x1800008, dims := [(0x10000, 48)], ret := .volatile,
    fields := [{ hi := 15, lo := 12, acc := .ro },
      { hi := 11, lo := 10, acc := .ro },
      { hi := 9, lo := 8, acc := .ro },
      { hi := 2, lo := 0, acc := .ro }] }
def LNK_STAT_LANES : RF := ⟨LNK_STAT, 15, 12⟩
def LNK_STAT_WIDTH : RF := ⟨LNK_STAT, 11, 10⟩
def LNK_STAT_PORTS : RF := ⟨LNK_STAT, 9, 8⟩
def LNK_STAT_STATE : RF := ⟨LNK_STAT, 2, 0⟩
/-- LNK_ERR (15_fabric_links.md), retention cold. -/
def LNK_ERR : RegDef :=
  { base := 0x1800010, dims := [(0x10000, 48)], ret := .cold,
    fields := [{ hi := 63, lo := 44, acc := .ro },
      { hi := 43, lo := 36, acc := .ro },
      { hi := 35, lo := 28, acc := .ro },
      { hi := 27, lo := 24, acc := .ro },
      { hi := 23, lo := 18, acc := .ro },
      { hi := 17, lo := 12, acc := .ro },
      { hi := 11, lo := 6, acc := .ro },
      { hi := 5, lo := 1, acc := .ro },
      { hi := 0, lo := 0, acc := .w1s }] }
def LNK_ERR_FEC_CORR : RF := ⟨LNK_ERR, 63, 44⟩
def LNK_ERR_FEC_UNCORR : RF := ⟨LNK_ERR, 43, 36⟩
def LNK_ERR_REPLAYS : RF := ⟨LNK_ERR, 35, 28⟩
def LNK_ERR_DOWNS : RF := ⟨LNK_ERR, 27, 24⟩
def LNK_ERR_HOP : RF := ⟨LNK_ERR, 23, 18⟩
def LNK_ERR_NOROUTE : RF := ⟨LNK_ERR, 17, 12⟩
def LNK_ERR_MALFORMED : RF := ⟨LNK_ERR, 11, 6⟩
def LNK_ERR_FOREIGN : RF := ⟨LNK_ERR, 5, 1⟩
def LNK_ERR_CLEAR : RF := ⟨LNK_ERR, 0, 0⟩
/-- LNK_ETH_MAC (15_fabric_links.md), retention warm. -/
def LNK_ETH_MAC : RegDef :=
  { base := 0x1800020, dims := [(0x10000, 48), (0x10, 2)], ret := .warm,
    fields := [{ hi := 63, lo := 56, acc := .rw },
      { hi := 54, lo := 54, acc := .rw },
      { hi := 47, lo := 0, acc := .rw }] }
def LNK_ETH_MAC_PFC : RF := ⟨LNK_ETH_MAC, 63, 56⟩
def LNK_ETH_MAC_VLAN_EN : RF := ⟨LNK_ETH_MAC, 54, 54⟩
def LNK_ETH_MAC_MAC : RF := ⟨LNK_ETH_MAC, 47, 0⟩
/-- LNK_ETH_GW (15_fabric_links.md), retention warm. -/
def LNK_ETH_GW : RegDef :=
  { base := 0x1800028, dims := [(0x10000, 48), (0x10, 2)], ret := .warm,
    fields := [{ hi := 59, lo := 48, acc := .rw },
      { hi := 47, lo := 0, acc := .rw }] }
def LNK_ETH_GW_VID : RF := ⟨LNK_ETH_GW, 59, 48⟩
def LNK_ETH_GW_GW : RF := ⟨LNK_ETH_GW, 47, 0⟩
/-- LNK_XP_CFG (15_fabric_links.md), retention warm. -/
def LNK_XP_CFG : RegDef :=
  { base := 0x1808000, dims := [], ret := .warm,
    fields := [{ hi := 63, lo := 48, acc := .rw, rst := 0x3e8 },
      { hi := 47, lo := 32, acc := .rw, rst := 0x32 },
      { hi := 31, lo := 24, acc := .rw, rst := 8 },
      { hi := 23, lo := 8, acc := .rw, rst := 0x64 },
      { hi := 0, lo := 0, acc := .rw, rst := 1 }] }
def LNK_XP_CFG_IDLE_US : RF := ⟨LNK_XP_CFG, 63, 48⟩
def LNK_XP_CFG_RTO_US : RF := ⟨LNK_XP_CFG, 47, 32⟩
def LNK_XP_CFG_RETRY_MAX : RF := ⟨LNK_XP_CFG, 31, 24⟩
def LNK_XP_CFG_OPEN_MS : RF := ⟨LNK_XP_CFG, 23, 8⟩
def LNK_XP_CFG_IPV6 : RF := ⟨LNK_XP_CFG, 0, 0⟩
/-- LNK_XP_STAT (15_fabric_links.md), retention warm. -/
def LNK_XP_STAT : RegDef :=
  { base := 0x1808008, dims := [], ret := .warm,
    fields := [{ hi := 63, lo := 50, acc := .ro },
      { hi := 49, lo := 36, acc := .ro },
      { hi := 35, lo := 16, acc := .ro },
      { hi := 15, lo := 0, acc := .ro }] }
def LNK_XP_STAT_SEND_CTX : RF := ⟨LNK_XP_STAT, 63, 50⟩
def LNK_XP_STAT_RECV_CTX : RF := ⟨LNK_XP_STAT, 49, 36⟩
def LNK_XP_STAT_RESENDS : RF := ⟨LNK_XP_STAT, 35, 16⟩
def LNK_XP_STAT_LOST : RF := ⟨LNK_XP_STAT, 15, 0⟩
/-- LNK_IP_PFX0 (15_fabric_links.md), retention warm. -/
def LNK_IP_PFX0 : RegDef :=
  { base := 0x1808010, dims := [], ret := .warm,
    fields := [{ hi := 63, lo := 0, acc := .rw }] }
def LNK_IP_PFX0_V6_HI : RF := ⟨LNK_IP_PFX0, 63, 0⟩
/-- LNK_IP_PFX1 (15_fabric_links.md), retention warm. -/
def LNK_IP_PFX1 : RegDef :=
  { base := 0x1808018, dims := [], ret := .warm,
    fields := [{ hi := 63, lo := 16, acc := .rw },
      { hi := 15, lo := 0, acc := .rw }] }
def LNK_IP_PFX1_V6_LO : RF := ⟨LNK_IP_PFX1, 63, 16⟩
def LNK_IP_PFX1_PFX4 : RF := ⟨LNK_IP_PFX1, 15, 0⟩
/-- LNK_RT_ACC (15_fabric_links.md), retention warm. -/
def LNK_RT_ACC : RegDef :=
  { base := 0x1808020, dims := [], ret := .warm,
    fields := [{ hi := 32, lo := 32, acc := .w1s },
      { hi := 31, lo := 16, acc := .rw },
      { hi := 9, lo := 9, acc := .rw },
      { hi := 7, lo := 0, acc := .rw }] }
def LNK_RT_ACC_WRITE : RF := ⟨LNK_RT_ACC, 32, 32⟩
def LNK_RT_ACC_IDX : RF := ⟨LNK_RT_ACC, 31, 16⟩
def LNK_RT_ACC_VALID : RF := ⟨LNK_RT_ACC, 9, 9⟩
def LNK_RT_ACC_SET : RF := ⟨LNK_RT_ACC, 7, 0⟩
/-- LNK_TIME_CFG (15_fabric_links.md), retention warm. -/
def LNK_TIME_CFG : RegDef :=
  { base := 0x1808028, dims := [], ret := .warm,
    fields := [{ hi := 63, lo := 32, acc := .rw, rst := 0x3e8 },
      { hi := 31, lo := 16, acc := .rw, rst := 0xa },
      { hi := 13, lo := 13, acc := .rw, rst := 1 },
      { hi := 12, lo := 12, acc := .rw },
      { hi := 11, lo := 11, acc := .rw },
      { hi := 7, lo := 2, acc := .rw },
      { hi := 1, lo := 0, acc := .rw }] }
def LNK_TIME_CFG_STEP_NS : RF := ⟨LNK_TIME_CFG, 63, 32⟩
def LNK_TIME_CFG_SYNC_US : RF := ⟨LNK_TIME_CFG, 31, 16⟩
def LNK_TIME_CFG_ALLOW_STEP : RF := ⟨LNK_TIME_CFG, 13, 13⟩
def LNK_TIME_CFG_GM : RF := ⟨LNK_TIME_CFG, 12, 12⟩
def LNK_TIME_CFG_PORT : RF := ⟨LNK_TIME_CFG, 11, 11⟩
def LNK_TIME_CFG_UPLINK : RF := ⟨LNK_TIME_CFG, 7, 2⟩
def LNK_TIME_CFG_MODE : RF := ⟨LNK_TIME_CFG, 1, 0⟩
/-- LNK_TIME_STAT (15_fabric_links.md), retention volatile. -/
def LNK_TIME_STAT : RegDef :=
  { base := 0x1808030, dims := [], ret := .volatile,
    fields := [{ hi := 63, lo := 63, acc := .ro },
      { hi := 55, lo := 32, acc := .ro },
      { hi := 31, lo := 0, acc := .ro }] }
def LNK_TIME_STAT_LOCKED : RF := ⟨LNK_TIME_STAT, 63, 63⟩
def LNK_TIME_STAT_RATE_PPB : RF := ⟨LNK_TIME_STAT, 55, 32⟩
def LNK_TIME_STAT_OFFSET_NS : RF := ⟨LNK_TIME_STAT, 31, 0⟩
/-- LNK_ANCHOR (15_fabric_links.md), retention warm. -/
def LNK_ANCHOR : RegDef :=
  { base := 0x1808400, dims := [(0x8, 32)], ret := .warm,
    fields := [{ hi := 63, lo := 0, acc := .rw }] }
def LNK_ANCHOR_LINK : RF := ⟨LNK_ANCHOR, 63, 0⟩
/-- LNK_SET (15_fabric_links.md), retention warm. -/
def LNK_SET : RegDef :=
  { base := 0x1808800, dims := [(0x8, 256)], ret := .warm,
    fields := [{ hi := 47, lo := 0, acc := .rw }] }
def LNK_SET_LINKS : RF := ⟨LNK_SET, 47, 0⟩
/-- LNK_WIN_IN (15_fabric_links.md), retention warm. -/
def LNK_WIN_IN : RegDef :=
  { base := 0x1809000, dims := [(0x20, 64)], ret := .warm,
    fields := [{ hi := 63, lo := 63, acc := .rw },
      { hi := 62, lo := 57, acc := .rw },
      { hi := 56, lo := 56, acc := .rw },
      { hi := 55, lo := 40, acc := .rw },
      { hi := 39, lo := 8, acc := .rw }] }
def LNK_WIN_IN_VALID : RF := ⟨LNK_WIN_IN, 63, 63⟩
def LNK_WIN_IN_LOG2SIZE : RF := ⟨LNK_WIN_IN, 62, 57⟩
def LNK_WIN_IN_ANY : RF := ⟨LNK_WIN_IN, 56, 56⟩
def LNK_WIN_IN_SRC_HUB : RF := ⟨LNK_WIN_IN, 55, 40⟩
def LNK_WIN_IN_IN_BASE : RF := ⟨LNK_WIN_IN, 39, 8⟩
/-- LNK_WIN_TGT (15_fabric_links.md), retention warm. -/
def LNK_WIN_TGT : RegDef :=
  { base := 0x1809008, dims := [(0x20, 64)], ret := .warm,
    fields := [{ hi := 63, lo := 61, acc := .rw },
      { hi := 59, lo := 54, acc := .rw },
      { hi := 47, lo := 16, acc := .rw }] }
def LNK_WIN_TGT_PERM : RF := ⟨LNK_WIN_TGT, 63, 61⟩
def LNK_WIN_TGT_TENANT : RF := ⟨LNK_WIN_TGT, 59, 54⟩
def LNK_WIN_TGT_TARGET : RF := ⟨LNK_WIN_TGT, 47, 16⟩
/-- LNK_WIN_CTL (15_fabric_links.md), retention warm. -/
def LNK_WIN_CTL : RegDef :=
  { base := 0x1809010, dims := [(0x20, 64)], ret := .warm,
    fields := [{ hi := 63, lo := 63, acc := .w1c },
      { hi := 62, lo := 62, acc := .w1s },
      { hi := 61, lo := 61, acc := .ro },
      { hi := 60, lo := 60, acc := .ro },
      { hi := 47, lo := 32, acc := .ro },
      { hi := 31, lo := 0, acc := .ro }] }
def LNK_WIN_CTL_REJECTED : RF := ⟨LNK_WIN_CTL, 63, 63⟩
def LNK_WIN_CTL_COMMIT : RF := ⟨LNK_WIN_CTL, 62, 62⟩
def LNK_WIN_CTL_OLD_BUSY : RF := ⟨LNK_WIN_CTL, 61, 61⟩
def LNK_WIN_CTL_OPEN : RF := ⟨LNK_WIN_CTL, 60, 60⟩
def LNK_WIN_CTL_GEN : RF := ⟨LNK_WIN_CTL, 47, 32⟩
def LNK_WIN_CTL_REFUSED : RF := ⟨LNK_WIN_CTL, 31, 0⟩
/-- HEP_STAT (16_host_endpoint.md), retention volatile. -/
def HEP_STAT : RegDef :=
  { base := 0x1d00000, dims := [], ret := .volatile,
    fields := [{ hi := 15, lo := 14, acc := .ro },
      { hi := 13, lo := 13, acc := .ro },
      { hi := 12, lo := 12, acc := .ro },
      { hi := 11, lo := 11, acc := .ro },
      { hi := 10, lo := 10, acc := .ro },
      { hi := 9, lo := 9, acc := .ro },
      { hi := 8, lo := 6, acc := .ro },
      { hi := 5, lo := 5, acc := .ro },
      { hi := 0, lo := 0, acc := .ro }] }
def HEP_STAT_LTR_STATE : RF := ⟨HEP_STAT, 15, 14⟩
def HEP_STAT_FLR_BUSY : RF := ⟨HEP_STAT, 13, 13⟩
def HEP_STAT_D3HOT : RF := ⟨HEP_STAT, 12, 12⟩
def HEP_STAT_BME : RF := ⟨HEP_STAT, 11, 11⟩
def HEP_STAT_CXL : RF := ⟨HEP_STAT, 10, 10⟩
def HEP_STAT_FLIT : RF := ⟨HEP_STAT, 9, 9⟩
def HEP_STAT_RATE : RF := ⟨HEP_STAT, 8, 6⟩
def HEP_STAT_WIDTH : RF := ⟨HEP_STAT, 5, 5⟩
def HEP_STAT_LINK_UP : RF := ⟨HEP_STAT, 0, 0⟩
/-- HEP_CFGREC (16_host_endpoint.md), retention cold. -/
def HEP_CFGREC : RegDef :=
  { base := 0x1d00008, dims := [], ret := .cold,
    fields := [{ hi := 63, lo := 63, acc := .ro },
      { hi := 33, lo := 33, acc := .ro },
      { hi := 32, lo := 32, acc := .ro },
      { hi := 31, lo := 16, acc := .ro },
      { hi := 15, lo := 0, acc := .ro }] }
def HEP_CFGREC_VALID : RF := ⟨HEP_CFGREC, 63, 63⟩
def HEP_CFGREC_X8 : RF := ⟨HEP_CFGREC, 33, 33⟩
def HEP_CFGREC_EA : RF := ⟨HEP_CFGREC, 32, 32⟩
def HEP_CFGREC_SSVID : RF := ⟨HEP_CFGREC, 31, 16⟩
def HEP_CFGREC_SSID : RF := ⟨HEP_CFGREC, 15, 0⟩
/-- HEP_EA0 (16_host_endpoint.md), retention cold. -/
def HEP_EA0 : RegDef :=
  { base := 0x1d00010, dims := [], ret := .cold,
    fields := [{ hi := 63, lo := 28, acc := .ro },
      { hi := 0, lo := 0, acc := .ro }] }
def HEP_EA0_BASE : RF := ⟨HEP_EA0, 63, 28⟩
def HEP_EA0_ENABLE : RF := ⟨HEP_EA0, 0, 0⟩
/-- HEP_EA2 (16_host_endpoint.md), retention cold. -/
def HEP_EA2 : RegDef :=
  { base := 0x1d00018, dims := [], ret := .cold,
    fields := [{ hi := 63, lo := 36, acc := .ro }] }
def HEP_EA2_BASE : RF := ⟨HEP_EA2, 63, 36⟩
/-- HEP_BAR2 (16_host_endpoint.md), retention function. -/
def HEP_BAR2 : RegDef :=
  { base := 0x1d00020, dims := [], ret := .function,
    fields := [{ hi := 47, lo := 30, acc := .rw }] }
def HEP_BAR2_BASE : RF := ⟨HEP_BAR2, 47, 30⟩
/-- HEP_UNSUP (16_host_endpoint.md), retention warm. -/
def HEP_UNSUP : RegDef :=
  { base := 0x1d00028, dims := [], ret := .warm,
    fields := [{ hi := 63, lo := 40, acc := .ro },
      { hi := 39, lo := 38, acc := .ro },
      { hi := 37, lo := 37, acc := .ro },
      { hi := 36, lo := 36, acc := .w1s },
      { hi := 35, lo := 0, acc := .ro }] }
def HEP_UNSUP_COUNT : RF := ⟨HEP_UNSUP, 63, 40⟩
def HEP_UNSUP_REGION : RF := ⟨HEP_UNSUP, 39, 38⟩
def HEP_UNSUP_WRITE : RF := ⟨HEP_UNSUP, 37, 37⟩
def HEP_UNSUP_CLEAR : RF := ⟨HEP_UNSUP, 36, 36⟩
def HEP_UNSUP_OFFSET : RF := ⟨HEP_UNSUP, 35, 0⟩
/-- HEP_BME (16_host_endpoint.md), retention warm. -/
def HEP_BME : RegDef :=
  { base := 0x1d00030, dims := [], ret := .warm,
    fields := [{ hi := 63, lo := 48, acc := .ro },
      { hi := 47, lo := 24, acc := .ro },
      { hi := 23, lo := 0, acc := .ro }] }
def HEP_BME_CLEARS : RF := ⟨HEP_BME, 63, 48⟩
def HEP_BME_DISCARDED : RF := ⟨HEP_BME, 47, 24⟩
def HEP_BME_BLOCKED : RF := ⟨HEP_BME, 23, 0⟩
/-- HEP_LTR (16_host_endpoint.md), retention warm. -/
def HEP_LTR : RegDef :=
  { base := 0x1d00038, dims := [], ret := .warm,
    fields := [{ hi := 63, lo := 48, acc := .rw, rst := 0x801 },
      { hi := 47, lo := 32, acc := .rw, rst := 0x840 },
      { hi := 31, lo := 16, acc := .rw, rst := 0x1401 },
      { hi := 15, lo := 0, acc := .rw, rst := 0x64 }] }
def HEP_LTR_ACTIVE : RF := ⟨HEP_LTR, 63, 48⟩
def HEP_LTR_IDLE : RF := ⟨HEP_LTR, 47, 32⟩
def HEP_LTR_DOZE : RF := ⟨HEP_LTR, 31, 16⟩
def HEP_LTR_IDLE_US : RF := ⟨HEP_LTR, 15, 0⟩
/-- FATE_LOG_STAT (16_host_endpoint.md), retention cold. -/
def FATE_LOG_STAT : RegDef :=
  { base := 0x1d80000, dims := [], ret := .cold,
    fields := [{ hi := 63, lo := 32, acc := .ro },
      { hi := 17, lo := 17, acc := .w1s },
      { hi := 16, lo := 0, acc := .ro }] }
def FATE_LOG_STAT_LOST : RF := ⟨FATE_LOG_STAT, 63, 32⟩
def FATE_LOG_STAT_POP : RF := ⟨FATE_LOG_STAT, 17, 17⟩
def FATE_LOG_STAT_COUNT : RF := ⟨FATE_LOG_STAT, 16, 0⟩
/-- FATE_LOG_HDR (16_host_endpoint.md), retention cold. -/
def FATE_LOG_HDR : RegDef :=
  { base := 0x1d80008, dims := [], ret := .cold,
    fields := [{ hi := 63, lo := 32, acc := .ro },
      { hi := 31, lo := 31, acc := .ro },
      { hi := 30, lo := 30, acc := .ro },
      { hi := 29, lo := 27, acc := .ro }] }
def FATE_LOG_HDR_FSEQ : RF := ⟨FATE_LOG_HDR, 63, 32⟩
def FATE_LOG_HDR_VALID : RF := ⟨FATE_LOG_HDR, 31, 31⟩
def FATE_LOG_HDR_HELD : RF := ⟨FATE_LOG_HDR, 30, 30⟩
def FATE_LOG_HDR_CAUSE : RF := ⟨FATE_LOG_HDR, 29, 27⟩
/-- FATE_LOG_ENT (16_host_endpoint.md), retention cold. -/
def FATE_LOG_ENT : RegDef :=
  { base := 0x1d80010, dims := [(0x8, 4)], ret := .cold,
    fields := [{ hi := 63, lo := 0, acc := .ro }] }
def FATE_LOG_ENT_REPLY : RF := ⟨FATE_LOG_ENT, 63, 0⟩
/-- FATE_LOST (16_host_endpoint.md), retention cold. -/
def FATE_LOST : RegDef :=
  { base := 0x1d80030, dims := [], ret := .cold,
    fields := [{ hi := 63, lo := 32, acc := .ro },
      { hi := 31, lo := 0, acc := .ro }] }
def FATE_LOST_FIRST : RF := ⟨FATE_LOST, 63, 32⟩
def FATE_LOST_LAST : RF := ⟨FATE_LOST, 31, 0⟩
/-- FATE_CTL (16_host_endpoint.md), retention cold. -/
def FATE_CTL : RegDef :=
  { base := 0x1d80038, dims := [], ret := .cold,
    fields := [{ hi := 0, lo := 0, acc := .w1s }] }
def FATE_CTL_ACK : RF := ⟨FATE_CTL, 0, 0⟩
/-- FATE_SUM (16_host_endpoint.md), retention cold. -/
def FATE_SUM : RegDef :=
  { base := 0x1d90000, dims := [(0x8, 1024)], ret := .cold,
    fields := [{ hi := 63, lo := 63, acc := .ro },
      { hi := 47, lo := 32, acc := .ro },
      { hi := 31, lo := 16, acc := .ro },
      { hi := 15, lo := 0, acc := .ro }] }
def FATE_SUM_VALID : RF := ⟨FATE_SUM, 63, 63⟩
def FATE_SUM_ABANDONED : RF := ⟨FATE_SUM, 47, 32⟩
def FATE_SUM_LOST : RF := ⟨FATE_SUM, 31, 16⟩
def FATE_SUM_NEXT_SLOT : RF := ⟨FATE_SUM, 15, 0⟩
/-- VST_STAT (17_security.md), retention cold. -/
def VST_STAT : RegDef :=
  { base := 0x1e00000, dims := [], ret := .cold,
    fields := [{ hi := 63, lo := 63, acc := .ro },
      { hi := 62, lo := 62, acc := .ro },
      { hi := 61, lo := 61, acc := .ro },
      { hi := 60, lo := 60, acc := .ro },
      { hi := 59, lo := 59, acc := .ro },
      { hi := 55, lo := 50, acc := .ro },
      { hi := 37, lo := 32, acc := .ro },
      { hi := 31, lo := 0, acc := .ro }] }
def VST_STAT_READY : RF := ⟨VST_STAT, 63, 63⟩
def VST_STAT_PURGING : RF := ⟨VST_STAT, 62, 62⟩
def VST_STAT_RMA : RF := ⟨VST_STAT, 61, 61⟩
def VST_STAT_VESTRY_DEBUG : RF := ⟨VST_STAT, 60, 60⟩
def VST_STAT_SCAN : RF := ⟨VST_STAT, 59, 59⟩
def VST_STAT_EPOCH : RF := ⟨VST_STAT, 55, 50⟩
def VST_STAT_MODELS : RF := ⟨VST_STAT, 37, 32⟩
def VST_STAT_REFUSALS : RF := ⟨VST_STAT, 31, 0⟩
/-- VST_MBOX_CTL (17_security.md), retention function. -/
def VST_MBOX_CTL : RegDef :=
  { base := 0x1e00010, dims := [], ret := .function,
    fields := [{ hi := 63, lo := 63, acc := .w1c },
      { hi := 62, lo := 62, acc := .w1s },
      { hi := 61, lo := 60, acc := .ro },
      { hi := 59, lo := 59, acc := .w1s },
      { hi := 23, lo := 16, acc := .rw },
      { hi := 15, lo := 0, acc := .rw }] }
def VST_MBOX_CTL_REJECTED : RF := ⟨VST_MBOX_CTL, 63, 63⟩
def VST_MBOX_CTL_GO : RF := ⟨VST_MBOX_CTL, 62, 62⟩
def VST_MBOX_CTL_STATE : RF := ⟨VST_MBOX_CTL, 61, 60⟩
def VST_MBOX_CTL_ACK : RF := ⟨VST_MBOX_CTL, 59, 59⟩
def VST_MBOX_CTL_CMD : RF := ⟨VST_MBOX_CTL, 23, 16⟩
def VST_MBOX_CTL_LEN : RF := ⟨VST_MBOX_CTL, 15, 0⟩
/-- VST_MBOX_STAT (17_security.md), retention function. -/
def VST_MBOX_STAT : RegDef :=
  { base := 0x1e00018, dims := [], ret := .function,
    fields := [{ hi := 63, lo := 56, acc := .ro },
      { hi := 47, lo := 0, acc := .ro }] }
def VST_MBOX_STAT_STATUS : RF := ⟨VST_MBOX_STAT, 63, 56⟩
def VST_MBOX_STAT_RESULT : RF := ⟨VST_MBOX_STAT, 47, 0⟩
/-- VST_MBOX_BUF (17_security.md), retention function. -/
def VST_MBOX_BUF : RegDef :=
  { base := 0x1e04000, dims := [(0x8, 2048)], ret := .function,
    fields := [{ hi := 63, lo := 0, acc := .rw }] }
def VST_MBOX_BUF_DATA : RF := ⟨VST_MBOX_BUF, 63, 0⟩
/-- VST_TALLY (17_security.md), retention cold. -/
def VST_TALLY : RegDef :=
  { base := 0x1e00020, dims := [], ret := .cold,
    fields := [{ hi := 23, lo := 22, acc := .ro },
      { hi := 21, lo := 16, acc := .ro },
      { hi := 15, lo := 13, acc := .ro },
      { hi := 9, lo := 0, acc := .ro }] }
def VST_TALLY_LC_LEFT : RF := ⟨VST_TALLY, 23, 22⟩
def VST_TALLY_EPOCH_LEFT : RF := ⟨VST_TALLY, 21, 16⟩
def VST_TALLY_OWNER_LEFT : RF := ⟨VST_TALLY, 15, 13⟩
def VST_TALLY_ANCHOR_FREE : RF := ⟨VST_TALLY, 9, 0⟩
/-- VST_DIR (17_security.md), retention warm. -/
def VST_DIR : RegDef :=
  { base := 0x1e00028, dims := [], ret := .warm,
    fields := [{ hi := 63, lo := 63, acc := .w1c },
      { hi := 47, lo := 28, acc := .rw },
      { hi := 4, lo := 0, acc := .rw }] }
def VST_DIR_REJECTED : RF := ⟨VST_DIR, 63, 63⟩
def VST_DIR_BASE : RF := ⟨VST_DIR, 47, 28⟩
def VST_DIR_LOG2SIZE : RF := ⟨VST_DIR, 4, 0⟩
/-- VST_TENANT (17_security.md), retention warm. -/
def VST_TENANT : RegDef :=
  { base := 0x1e01000, dims := [(0x8, 64)], ret := .warm,
    fields := [{ hi := 63, lo := 63, acc := .ro },
      { hi := 62, lo := 62, acc := .ro },
      { hi := 31, lo := 0, acc := .ro }] }
def VST_TENANT_SEALED : RF := ⟨VST_TENANT, 63, 63⟩
def VST_TENANT_UNSEALING : RF := ⟨VST_TENANT, 62, 62⟩
def VST_TENANT_MODELS : RF := ⟨VST_TENANT, 31, 0⟩
/-- VST_MODEL (17_security.md), retention warm. -/
def VST_MODEL : RegDef :=
  { base := 0x1e02000, dims := [(0x10, 32)], ret := .warm,
    fields := [{ hi := 63, lo := 61, acc := .ro },
      { hi := 60, lo := 56, acc := .ro },
      { hi := 55, lo := 55, acc := .ro },
      { hi := 47, lo := 32, acc := .ro },
      { hi := 15, lo := 0, acc := .ro }] }
def VST_MODEL_STATE : RF := ⟨VST_MODEL, 63, 61⟩
def VST_MODEL_CHUNK_LOG2 : RF := ⟨VST_MODEL, 60, 56⟩
def VST_MODEL_SHARE : RF := ⟨VST_MODEL, 55, 55⟩
def VST_MODEL_COUNT : RF := ⟨VST_MODEL, 47, 32⟩
def VST_MODEL_FIRST : RF := ⟨VST_MODEL, 15, 0⟩
/-- VST_MODEL_ID (17_security.md), retention warm. -/
def VST_MODEL_ID : RegDef :=
  { base := 0x1e02008, dims := [(0x10, 32)], ret := .warm,
    fields := [{ hi := 63, lo := 0, acc := .ro }] }
def VST_MODEL_ID_MODEL_ID : RF := ⟨VST_MODEL_ID, 63, 0⟩
/-- LCS_STAT (17_security.md), retention cold. -/
def LCS_STAT : RegDef :=
  { base := 0x1e08000, dims := [], ret := .cold,
    fields := [{ hi := 21, lo := 19, acc := .ro },
      { hi := 18, lo := 16, acc := .ro },
      { hi := 12, lo := 8, acc := .ro },
      { hi := 4, lo := 4, acc := .ro },
      { hi := 3, lo := 3, acc := .ro },
      { hi := 2, lo := 0, acc := .ro }] }
def LCS_STAT_DONE : RF := ⟨LCS_STAT, 21, 19⟩
def LCS_STAT_INTENT : RF := ⟨LCS_STAT, 18, 16⟩
def LCS_STAT_FAILS : RF := ⟨LCS_STAT, 12, 8⟩
def LCS_STAT_LOCKOUT : RF := ⟨LCS_STAT, 4, 4⟩
def LCS_STAT_RESUMED : RF := ⟨LCS_STAT, 3, 3⟩
def LCS_STAT_STATE : RF := ⟨LCS_STAT, 2, 0⟩
/-- LDG_STAT (17_security.md), retention cold. -/
def LDG_STAT : RegDef :=
  { base := 0x1f80000, dims := [], ret := .cold,
    fields := [{ hi := 63, lo := 32, acc := .ro },
      { hi := 31, lo := 16, acc := .ro },
      { hi := 15, lo := 15, acc := .ro },
      { hi := 12, lo := 0, acc := .ro }] }
def LDG_STAT_SEQ : RF := ⟨LDG_STAT, 63, 32⟩
def LDG_STAT_DROPPED : RF := ⟨LDG_STAT, 31, 16⟩
def LDG_STAT_FULL : RF := ⟨LDG_STAT, 15, 15⟩
def LDG_STAT_PENDING : RF := ⟨LDG_STAT, 12, 0⟩
/-- LDG_PTR (17_security.md), retention cold. -/
def LDG_PTR : RegDef :=
  { base := 0x1f80008, dims := [], ret := .cold,
    fields := [{ hi := 63, lo := 32, acc := .ro },
      { hi := 31, lo := 0, acc := .rw }] }
def LDG_PTR_OLDEST : RF := ⟨LDG_PTR, 63, 32⟩
def LDG_PTR_EXPORTED : RF := ⟨LDG_PTR, 31, 0⟩
/-- BOOT_CMD (18_bringup.md), retention warm. -/
def BOOT_CMD : RegDef :=
  { base := 0x10000, dims := [], ret := .warm,
    fields := [{ hi := 63, lo := 63, acc := .w1c },
      { hi := 16, lo := 16, acc := .w1s },
      { hi := 15, lo := 8, acc := .rw },
      { hi := 3, lo := 0, acc := .rw }] }
def BOOT_CMD_REJECTED : RF := ⟨BOOT_CMD, 63, 63⟩
def BOOT_CMD_GO : RF := ⟨BOOT_CMD, 16, 16⟩
def BOOT_CMD_ARG : RF := ⟨BOOT_CMD, 15, 8⟩
def BOOT_CMD_STEP : RF := ⟨BOOT_CMD, 3, 0⟩
/-- BOOT_STAT (18_bringup.md), retention cold. -/
def BOOT_STAT : RegDef :=
  { base := 0x10008, dims := [], ret := .cold,
    fields := [{ hi := 63, lo := 63, acc := .ro },
      { hi := 59, lo := 56, acc := .ro },
      { hi := 39, lo := 32, acc := .ro },
      { hi := 21, lo := 0, acc := .ro }] }
def BOOT_STAT_READY : RF := ⟨BOOT_STAT, 63, 63⟩
def BOOT_STAT_CURRENT : RF := ⟨BOOT_STAT, 59, 56⟩
def BOOT_STAT_UNIT_FAILS : RF := ⟨BOOT_STAT, 39, 32⟩
def BOOT_STAT_STEPS : RF := ⟨BOOT_STAT, 21, 0⟩
/-- BOOT_ERR (18_bringup.md), retention cold. -/
def BOOT_ERR : RegDef :=
  { base := 0x10010, dims := [], ret := .cold,
    fields := [{ hi := 63, lo := 63, acc := .w1c },
      { hi := 59, lo := 56, acc := .ro },
      { hi := 55, lo := 48, acc := .ro },
      { hi := 41, lo := 32, acc := .ro },
      { hi := 31, lo := 0, acc := .ro }] }
def BOOT_ERR_VALID : RF := ⟨BOOT_ERR, 63, 63⟩
def BOOT_ERR_STEP : RF := ⟨BOOT_ERR, 59, 56⟩
def BOOT_ERR_CODE : RF := ⟨BOOT_ERR, 55, 48⟩
def BOOT_ERR_AGENT : RF := ⟨BOOT_ERR, 41, 32⟩
def BOOT_ERR_DETAIL : RF := ⟨BOOT_ERR, 31, 0⟩
/-- BOOT_SAVE (18_bringup.md), retention warm. -/
def BOOT_SAVE : RegDef :=
  { base := 0x10018, dims := [], ret := .warm,
    fields := [{ hi := 1, lo := 1, acc := .w1s },
      { hi := 0, lo := 0, acc := .w1s }] }
def BOOT_SAVE_LINKS : RF := ⟨BOOT_SAVE, 1, 1⟩
def BOOT_SAVE_HBM : RF := ⟨BOOT_SAVE, 0, 0⟩
/-- BOOT_TIME (18_bringup.md), retention cold. -/
def BOOT_TIME : RegDef :=
  { base := 0x10100, dims := [(0x8, 12)], first := 1, ret := .cold,
    fields := [{ hi := 31, lo := 0, acc := .ro }] }
def BOOT_TIME_US : RF := ⟨BOOT_TIME, 31, 0⟩
/-- BOOT_IMG (18_bringup.md), retention warm. -/
def BOOT_IMG : RegDef :=
  { base := 0x10200, dims := [(0x8, 16)], ret := .warm,
    fields := [{ hi := 63, lo := 62, acc := .ro },
      { hi := 61, lo := 58, acc := .ro },
      { hi := 57, lo := 50, acc := .ro },
      { hi := 49, lo := 40, acc := .ro },
      { hi := 31, lo := 0, acc := .ro }] }
def BOOT_IMG_STATE : RF := ⟨BOOT_IMG, 63, 62⟩
def BOOT_IMG_ROUNDS : RF := ⟨BOOT_IMG, 61, 58⟩
def BOOT_IMG_FAILED : RF := ⟨BOOT_IMG, 57, 50⟩
def BOOT_IMG_SIZE_KB : RF := ⟨BOOT_IMG, 49, 40⟩
def BOOT_IMG_VERSION : RF := ⟨BOOT_IMG, 31, 0⟩
/-- ROLL_STAT (18_bringup.md), retention warm. -/
def ROLL_STAT : RegDef :=
  { base := 0x10800, dims := [], ret := .warm,
    fields := [{ hi := 63, lo := 62, acc := .ro, rst := 3 },
      { hi := 47, lo := 32, acc := .ro },
      { hi := 31, lo := 24, acc := .ro },
      { hi := 18, lo := 16, acc := .ro },
      { hi := 15, lo := 15, acc := .ro },
      { hi := 14, lo := 14, acc := .ro },
      { hi := 13, lo := 13, acc := .ro },
      { hi := 12, lo := 10, acc := .ro }] }
def ROLL_STAT_MODE : RF := ⟨ROLL_STAT, 63, 62⟩
def ROLL_STAT_GEN : RF := ⟨ROLL_STAT, 47, 32⟩
def ROLL_STAT_VACANT : RF := ⟨ROLL_STAT, 31, 24⟩
def ROLL_STAT_TILE_SPARES : RF := ⟨ROLL_STAT, 18, 16⟩
def ROLL_STAT_PLAIN_SPARE : RF := ⟨ROLL_STAT, 15, 15⟩
def ROLL_STAT_CHAIN_SPARE : RF := ⟨ROLL_STAT, 14, 14⟩
def ROLL_STAT_SLICE_SPARE : RF := ⟨ROLL_STAT, 13, 13⟩
def ROLL_STAT_BANK_SPARES : RF := ⟨ROLL_STAT, 12, 10⟩
/-- ROLL_PHYS (18_bringup.md), retention cold. -/
def ROLL_PHYS : RegDef :=
  { base := 0x11000, dims := [(0x8, 212)], ret := .cold,
    fields := [{ hi := 63, lo := 61, acc := .ro },
      { hi := 60, lo := 57, acc := .ro },
      { hi := 41, lo := 32, acc := .ro, rst := 0x3fe },
      { hi := 31, lo := 0, acc := .ro }] }
def ROLL_PHYS_STATE : RF := ⟨ROLL_PHYS, 63, 61⟩
def ROLL_PHYS_CAUSE : RF := ⟨ROLL_PHYS, 60, 57⟩
def ROLL_PHYS_LOGICAL : RF := ⟨ROLL_PHYS, 41, 32⟩
def ROLL_PHYS_DETAIL : RF := ⟨ROLL_PHYS, 31, 0⟩
/-- RVE_RESET_CAUSE (19_faults_resets.md), retention cold. -/
def RVE_RESET_CAUSE : RegDef :=
  { base := 0x1f40000, dims := [], ret := .cold,
    fields := [{ hi := 63, lo := 48, acc := .ro },
      { hi := 47, lo := 32, acc := .ro },
      { hi := 31, lo := 16, acc := .ro },
      { hi := 11, lo := 8, acc := .ro },
      { hi := 2, lo := 0, acc := .ro }] }
def RVE_RESET_CAUSE_WARM_CNT : RF := ⟨RVE_RESET_CAUSE, 63, 48⟩
def RVE_RESET_CAUSE_FLR_CNT : RF := ⟨RVE_RESET_CAUSE, 47, 32⟩
def RVE_RESET_CAUSE_FATAL : RF := ⟨RVE_RESET_CAUSE, 31, 16⟩
def RVE_RESET_CAUSE_SOURCE : RF := ⟨RVE_RESET_CAUSE, 11, 8⟩
def RVE_RESET_CAUSE_KIND : RF := ⟨RVE_RESET_CAUSE, 2, 0⟩
/-- RVE_GRP_RET (19_faults_resets.md), retention cold. -/
def RVE_GRP_RET : RegDef :=
  { base := 0x1f40008, dims := [], ret := .cold,
    fields := [{ hi := 63, lo := 0, acc := .w1c, rst := 0x11f7f1fff7f }] }
def RVE_GRP_RET_GROUPS : RF := ⟨RVE_GRP_RET, 63, 0⟩
/-- RVE_DOM_RET (19_faults_resets.md), retention cold. -/
def RVE_DOM_RET : RegDef :=
  { base := 0x1f40010, dims := [(0x8, 4)], ret := .cold,
    fields := [{ hi := 63, lo := 0, acc := .w1c, rst := 0xffffffffffffffff }] }
def RVE_DOM_RET_DOMAINS : RF := ⟨RVE_DOM_RET, 63, 0⟩
/-- RVE_SVC_CMD (19_faults_resets.md), retention warm. -/
def RVE_SVC_CMD : RegDef :=
  { base := 0x1f40030, dims := [], ret := .warm,
    fields := [{ hi := 63, lo := 63, acc := .w1c },
      { hi := 62, lo := 60, acc := .ro },
      { hi := 32, lo := 32, acc := .w1s },
      { hi := 24, lo := 16, acc := .rw },
      { hi := 3, lo := 0, acc := .rw }] }
def RVE_SVC_CMD_REJECTED : RF := ⟨RVE_SVC_CMD, 63, 63⟩
def RVE_SVC_CMD_STATUS : RF := ⟨RVE_SVC_CMD, 62, 60⟩
def RVE_SVC_CMD_GO : RF := ⟨RVE_SVC_CMD, 32, 32⟩
def RVE_SVC_CMD_ARG : RF := ⟨RVE_SVC_CMD, 24, 16⟩
def RVE_SVC_CMD_OP : RF := ⟨RVE_SVC_CMD, 3, 0⟩
/-- RVE_EVT_RING (19_faults_resets.md), retention function. -/
def RVE_EVT_RING : RegDef :=
  { base := 0x1f40100, dims := [], ret := .function,
    fields := [{ hi := 63, lo := 12, acc := .rw },
      { hi := 8, lo := 8, acc := .rw },
      { hi := 4, lo := 0, acc := .rw }] }
def RVE_EVT_RING_BASE : RF := ⟨RVE_EVT_RING, 63, 12⟩
def RVE_EVT_RING_LOC : RF := ⟨RVE_EVT_RING, 8, 8⟩
def RVE_EVT_RING_LOG2N : RF := ⟨RVE_EVT_RING, 4, 0⟩
/-- RVE_EVT_PTR (19_faults_resets.md), retention function. -/
def RVE_EVT_PTR : RegDef :=
  { base := 0x1f40108, dims := [], ret := .function,
    fields := [{ hi := 63, lo := 63, acc := .w1c },
      { hi := 47, lo := 32, acc := .rw },
      { hi := 16, lo := 16, acc := .ro, rst := 1 },
      { hi := 15, lo := 0, acc := .ro }] }
def RVE_EVT_PTR_REJECTED : RF := ⟨RVE_EVT_PTR, 63, 63⟩
def RVE_EVT_PTR_HEAD : RF := ⟨RVE_EVT_PTR, 47, 32⟩
def RVE_EVT_PTR_PHASE : RF := ⟨RVE_EVT_PTR, 16, 16⟩
def RVE_EVT_PTR_TAIL : RF := ⟨RVE_EVT_PTR, 15, 0⟩
/-- RVE_EVT_CFG (19_faults_resets.md), retention warm. -/
def RVE_EVT_CFG : RegDef :=
  { base := 0x1f40110, dims := [], ret := .warm,
    fields := [{ hi := 16, lo := 16, acc := .rw },
      { hi := 14, lo := 12, acc := .rw },
      { hi := 10, lo := 0, acc := .rw }] }
def RVE_EVT_CFG_AUTO_RESET : RF := ⟨RVE_EVT_CFG, 16, 16⟩
def RVE_EVT_CFG_SEV_MIN : RF := ⟨RVE_EVT_CFG, 14, 12⟩
def RVE_EVT_CFG_VECTOR : RF := ⟨RVE_EVT_CFG, 10, 0⟩
/-- RVE_EVT_STAT (19_faults_resets.md), retention function. -/
def RVE_EVT_STAT : RegDef :=
  { base := 0x1f40118, dims := [], ret := .function,
    fields := [{ hi := 63, lo := 32, acc := .ro },
      { hi := 31, lo := 16, acc := .ro },
      { hi := 8, lo := 0, acc := .ro }] }
def RVE_EVT_STAT_FILTERED : RF := ⟨RVE_EVT_STAT, 63, 32⟩
def RVE_EVT_STAT_LOST : RF := ⟨RVE_EVT_STAT, 31, 16⟩
def RVE_EVT_STAT_HELD : RF := ⟨RVE_EVT_STAT, 8, 0⟩
/-- PWR_CFG (20_management_power.md), retention warm. -/
def PWR_CFG : RegDef :=
  { base := 0x1f00000, dims := [], ret := .warm,
    fields := [{ hi := 63, lo := 48, acc := .rw, rst := 0x2d0 },
      { hi := 47, lo := 32, acc := .rw, rst := 0x2d0 },
      { hi := 17, lo := 0, acc := .rw, rst := 0x1e848 }] }
def PWR_CFG_CAP_W : RF := ⟨PWR_CFG, 63, 48⟩
def PWR_CFG_ICC_A : RF := ⟨PWR_CFG, 47, 32⟩
def PWR_CFG_STAGE_FS : RF := ⟨PWR_CFG, 17, 0⟩
/-- PWR_STAT (20_management_power.md), retention volatile. -/
def PWR_STAT : RegDef :=
  { base := 0x1f00008, dims := [], ret := .volatile,
    fields := [{ hi := 63, lo := 48, acc := .ro },
      { hi := 47, lo := 32, acc := .ro, rst := 0x2d0 },
      { hi := 31, lo := 24, acc := .ro },
      { hi := 23, lo := 21, acc := .ro },
      { hi := 20, lo := 20, acc := .ro },
      { hi := 19, lo := 19, acc := .ro },
      { hi := 9, lo := 0, acc := .ro }] }
def PWR_STAT_POWER_W : RF := ⟨PWR_STAT, 63, 48⟩
def PWR_STAT_CAP_OOB_W : RF := ⟨PWR_STAT, 47, 32⟩
def PWR_STAT_TJ_C : RF := ⟨PWR_STAT, 31, 24⟩
def PWR_STAT_LIMITER : RF := ⟨PWR_STAT, 23, 21⟩
def PWR_STAT_VR_HOT : RF := ⟨PWR_STAT, 20, 20⟩
def PWR_STAT_THROTTLE : RF := ⟨PWR_STAT, 19, 19⟩
def PWR_STAT_VCORE_MV : RF := ⟨PWR_STAT, 9, 0⟩
/-- PWR_ENERGY (20_management_power.md), retention volatile. -/
def PWR_ENERGY : RegDef :=
  { base := 0x1f00010, dims := [], ret := .volatile,
    fields := [{ hi := 63, lo := 0, acc := .ro }] }
def PWR_ENERGY_UJ : RF := ⟨PWR_ENERGY, 63, 0⟩
/-- PWR_TEMP (20_management_power.md), retention volatile. -/
def PWR_TEMP : RegDef :=
  { base := 0x1f00100, dims := [(0x8, 32)], ret := .volatile,
    fields := [{ hi := 31, lo := 31, acc := .ro },
      { hi := 15, lo := 0, acc := .ro }] }
def PWR_TEMP_VALID : RF := ⟨PWR_TEMP, 31, 31⟩
def PWR_TEMP_TEMP : RF := ⟨PWR_TEMP, 15, 0⟩
/-- PWR_PMB (20_management_power.md), retention warm. -/
def PWR_PMB : RegDef :=
  { base := 0x1f00200, dims := [(0x8, 8)], ret := .warm,
    fields := [{ hi := 63, lo := 63, acc := .rw, rstFirst := 1 },
      { hi := 19, lo := 16, acc := .rw },
      { hi := 15, lo := 8, acc := .rw },
      { hi := 6, lo := 0, acc := .rw, rstFirst := 64 }] }
def PWR_PMB_ENABLE : RF := ⟨PWR_PMB, 63, 63⟩
def PWR_PMB_RAIL : RF := ⟨PWR_PMB, 19, 16⟩
def PWR_PMB_PAGE : RF := ⟨PWR_PMB, 15, 8⟩
def PWR_PMB_ADDR : RF := ⟨PWR_PMB, 6, 0⟩
/-- RVE_OOB (20_management_power.md), retention warm. -/
def RVE_OOB : RegDef :=
  { base := 0x1f20000, dims := [], ret := .warm,
    fields := [{ hi := 63, lo := 56, acc := .ro },
      { hi := 55, lo := 49, acc := .ro },
      { hi := 47, lo := 41, acc := .ro },
      { hi := 40, lo := 40, acc := .ro },
      { hi := 18, lo := 16, acc := .rw, rst := 2 },
      { hi := 1, lo := 1, acc := .rw, rst := 1 },
      { hi := 0, lo := 0, acc := .rw, rst := 1 }] }
def RVE_OOB_EID : RF := ⟨RVE_OOB, 63, 56⟩
def RVE_OOB_DYN_ADDR : RF := ⟨RVE_OOB, 55, 49⟩
def RVE_OOB_STATIC_ADDR : RF := ⟨RVE_OOB, 47, 41⟩
def RVE_OOB_BUS : RF := ⟨RVE_OOB, 40, 40⟩
def RVE_OOB_EVT_SEV : RF := ⟨RVE_OOB, 18, 16⟩
def RVE_OOB_WR_EN : RF := ⟨RVE_OOB, 1, 1⟩
def RVE_OOB_RESET_EN : RF := ⟨RVE_OOB, 0, 0⟩
/-- RVE_FLASH_SRC (20_management_power.md), retention warm. -/
def RVE_FLASH_SRC : RegDef :=
  { base := 0x1f20010, dims := [], ret := .warm,
    fields := [{ hi := 47, lo := 12, acc := .rw }] }
def RVE_FLASH_SRC_HPA : RF := ⟨RVE_FLASH_SRC, 47, 12⟩
/-- RVE_FLASH_CMD (20_management_power.md), retention warm. -/
def RVE_FLASH_CMD : RegDef :=
  { base := 0x1f20018, dims := [], ret := .warm,
    fields := [{ hi := 63, lo := 63, acc := .w1c },
      { hi := 62, lo := 60, acc := .ro },
      { hi := 56, lo := 56, acc := .w1s },
      { hi := 55, lo := 54, acc := .rw },
      { hi := 53, lo := 51, acc := .rw },
      { hi := 20, lo := 0, acc := .rw }] }
def RVE_FLASH_CMD_REJECTED : RF := ⟨RVE_FLASH_CMD, 63, 63⟩
def RVE_FLASH_CMD_STATUS : RF := ⟨RVE_FLASH_CMD, 62, 60⟩
def RVE_FLASH_CMD_GO : RF := ⟨RVE_FLASH_CMD, 56, 56⟩
def RVE_FLASH_CMD_OP : RF := ⟨RVE_FLASH_CMD, 55, 54⟩
def RVE_FLASH_CMD_SLOT : RF := ⟨RVE_FLASH_CMD, 53, 51⟩
def RVE_FLASH_CMD_LEN : RF := ⟨RVE_FLASH_CMD, 20, 0⟩
/-- RVE_PTP_CFG (20_management_power.md), retention warm. -/
def RVE_PTP_CFG : RegDef :=
  { base := 0x1f20020, dims := [], ret := .warm,
    fields := [{ hi := 63, lo := 56, acc := .rw },
      { hi := 55, lo := 54, acc := .rw },
      { hi := 53, lo := 52, acc := .rw, rst := 1 },
      { hi := 47, lo := 40, acc := .rw, rst := 0xfc },
      { hi := 39, lo := 32, acc := .rw, rst := 1 },
      { hi := 31, lo := 24, acc := .rw, rst := 0x80 },
      { hi := 23, lo := 16, acc := .rw, rst := 0x80 },
      { hi := 15, lo := 15, acc := .rw, rst := 1 }] }
def RVE_PTP_CFG_DOMAIN : RF := ⟨RVE_PTP_CFG, 63, 56⟩
def RVE_PTP_CFG_DELAY : RF := ⟨RVE_PTP_CFG, 55, 54⟩
def RVE_PTP_CFG_TRANSPORT : RF := ⟨RVE_PTP_CFG, 53, 52⟩
def RVE_PTP_CFG_LOG_SYNC : RF := ⟨RVE_PTP_CFG, 47, 40⟩
def RVE_PTP_CFG_LOG_ANNOUNCE : RF := ⟨RVE_PTP_CFG, 39, 32⟩
def RVE_PTP_CFG_PRIORITY1 : RF := ⟨RVE_PTP_CFG, 31, 24⟩
def RVE_PTP_CFG_PRIORITY2 : RF := ⟨RVE_PTP_CFG, 23, 16⟩
def RVE_PTP_CFG_FOLLOWER_ONLY : RF := ⟨RVE_PTP_CFG, 15, 15⟩

/-- The registers of BAR0, part 1. -/
def regTable1 : List RegDef := [HUB_VERSION, HUB_NUMBER, HUB_CONFIG, HUB_HBM_SIZE, HUB_STAGE, COM_CSR_ACC, COM_STILE_CMD, COM_STILE_TMO, COM_TMO, COM_ISO_CMD, COM_ERR, COM_DOMAIN, COM_AGENT, HBM_HOME_CFG, HBM_HOME_SF, HBM_HOME_UNTRK, HBM_HOME_CNT0, HBM_HOME_CNT1, HBM_HOME_CNT2, HBM_HOME_LOST_STAT, HBM_HOME_LOST_ENT, HBM_STAT, HBM_CFG, HBM_ERR, HBM_ERR_LOG, HBM_REPAIR, HBM_TRAIN, HBM_GRAN_CFG, HBM_GRAN_CMD, HBM_GPOIS_STAT]
/-- The registers of BAR0, part 2. -/
def regTable2 : List RegDef := [HBM_GPOIS_ENT, HBM_EVAC, MOV_FMT_DESC, MOV_FMT_CTL, LOOM_STAT, LOOM_LAST, LOOM_RESULT, LOOM_CNT, LOOM_BUSY, MILL_CFG, MILL_CNT0, MILL_CNT1, MILL_LOSS, MILL_SLICE, MILL_GRP_CFG, MILL_GRP_LIST, MILL_GRP_ID, MILL_GRP_DIGEST, MOV_STAT, MOV_BYTES, MOV_XLT_CTX, MOV_XLT_INV, MOV_XLT_INV_VA, MOV_FLT_CFG, MOV_FLT_RING, MOV_FLT_PTR, MOV_FLT_RESP, MOV_FLT_STAT, MOV_XLT_CNT, STW_CTL]
/-- The registers of BAR0, part 3. -/
def regTable3 : List RegDef := [STW_STAT, STW_ERR, STW_MBOX_CMD, RES_STAT, RES_DATA, RES_ACK, STW_MBOX_CTL, STW_QBASE, STW_QCFG, STW_QPTR, STW_CQBASE, STW_CQCFG, STW_CQPTR, STW_QSTAT, STW_EVT, STW_SQDB, STW_CQDB, STW_SCHED, STW_RSV, STW_TENANT, STW_USAGE, STW_POOL_CFG, STW_POOL_STAT, STW_KV_CFG0, STW_KV_CFG1, STW_KV_STAT, STW_GEN_STAT, STW_GEN_OUT, STW_GEN_OUTPTR, SLU_CTL]
/-- The registers of BAR0, part 4. -/
def regTable4 : List RegDef := [SLU_DLCFG, SLU_MISS, SLU_MISS_CNT, SLU_MAP, SLU_PART, SLU_PSTAT, SLU_PORT, SITE_CFG, SITE_STAT, SITE_TMO, SITE_IRQ, SITE_ERR, SITE_SEAL, SITE_ATT, SITE_CNT, SITE_MOD, SITE_WQ, LNK_CFG, LNK_STAT, LNK_ERR, LNK_ETH_MAC, LNK_ETH_GW, LNK_XP_CFG, LNK_XP_STAT, LNK_IP_PFX0, LNK_IP_PFX1, LNK_RT_ACC, LNK_TIME_CFG, LNK_TIME_STAT, LNK_ANCHOR]
/-- The registers of BAR0, part 5. -/
def regTable5 : List RegDef := [LNK_SET, LNK_WIN_IN, LNK_WIN_TGT, LNK_WIN_CTL, HEP_STAT, HEP_CFGREC, HEP_EA0, HEP_EA2, HEP_BAR2, HEP_UNSUP, HEP_BME, HEP_LTR, FATE_LOG_STAT, FATE_LOG_HDR, FATE_LOG_ENT, FATE_LOST, FATE_CTL, FATE_SUM, VST_STAT, VST_MBOX_CTL, VST_MBOX_STAT, VST_MBOX_BUF, VST_TALLY, VST_DIR, VST_TENANT, VST_MODEL, VST_MODEL_ID, LCS_STAT, LDG_STAT, LDG_PTR]
/-- The registers of BAR0, part 6. -/
def regTable6 : List RegDef := [BOOT_CMD, BOOT_STAT, BOOT_ERR, BOOT_SAVE, BOOT_TIME, BOOT_IMG, ROLL_STAT, ROLL_PHYS, RVE_RESET_CAUSE, RVE_GRP_RET, RVE_DOM_RET, RVE_SVC_CMD, RVE_EVT_RING, RVE_EVT_PTR, RVE_EVT_CFG, RVE_EVT_STAT, PWR_CFG, PWR_STAT, PWR_ENERGY, PWR_TEMP, PWR_PMB, RVE_OOB, RVE_FLASH_SRC, RVE_FLASH_CMD, RVE_PTP_CFG]
/-- Every register of BAR0 (01_architecture.md R24). -/
def regTable : List RegDef := regTable1 ++ regTable2 ++ regTable3 ++ regTable4 ++ regTable5 ++ regTable6

/-- The register and its index at a BAR0 offset, among `l`. -/
def findIn : List RegDef → Nat → Option (RegDef × Nat)
  | [], _ => none
  | r :: l, x => match r.find x with
    | some i => some (r, i)
    | none => findIn l x

/-- The register and its index at a BAR0 offset. -/
def findReg (x : Nat) : Option (RegDef × Nat) := findIn regTable x

end Sys2Proof.Machine
end

