-- ==== Sys2Proof/Machine/State.lean ====
section
/-!
DEFINITION. Machine/State.lean: the state of the hub as plain data. Fields of BAR0 registers live in `regs`; what a
status register only reports of another part of the state is computed when it is read (Machine/Csr.lean), so each
piece of state is stored once.
-/

namespace Sys2Proof.Machine

/-- Why the hub stops with a fault. No command of the table stops it: every error the spec names is a status, an
event or a register. -/
inductive Fault where
  deriving DecidableEq, Repr

/-- Why a command has no meaning. -/
inductive Refusal where
  /-- The command of this name has no meaning in the model; raised by Machine/Dispatch.lean; safe. -/
  | notModelled (mnemonic : String)
  deriving DecidableEq, Repr

/-- What waits at a sender's interface, oldest first: a request, or a fence behind earlier requests of its stream (02_commons.md R54,
03_memory_model.md R84). -/
inductive Held where
  | req (p : Pkt)
  | fence (stream : Nat) (remote : Bool)
  deriving DecidableEq, Repr

/-- A request of its inbound table that a link agent has sent to another hub (02_commons.md R51, 15_fabric_links.md R494): the request PSNs of its
messages, with the hub above them, the responses to come, and the first status that failed it. -/
structure FarReq where
  req : Pkt
  psns : List Nat := []
  left : Nat := 0
  status : Nat := 0
  deriving DecidableEq, Repr

/-- A network interface and its agent's side of it (02_commons.md R50-R54, R58, R66, R84-R88), by physical agent ID. `fences` are the fences
in progress; `sent` the requests of its inbound table that a link agent has sent on; `remote` its remote requests that no PERF has covered. -/
structure Iface where
  inbound : List Pkt := []
  outstanding : List Pkt := []
  txnHold : List Nat := []
  waiting : List Held := []
  blocked : List Pkt := []
  sent : List FarReq := []
  snoops : List Pkt := []
  posted : List (Nat × Nat) := []
  remote : List (Nat × Nat) := []
  fences : List (Nat × Bool) := []
  answers : List Pkt := []
  writeFails : List Pkt := []
  isolated : Bool := false
  idle : Bool := false
  deriving DecidableEq, Repr

/-- An entry of a home's snoop filter (04_coherence.md R111): `owned` is filter state O; `pres` is the presence
vector, bit 8 for the host. -/
structure HEntry where
  owned : Bool := false
  pres : Nat := 0
  heat : Nat := 0
  way : Nat := 0
  deriving DecidableEq, Repr

/-- What a busy line at a home waits for (04_coherence.md R112, R117, R119, R121, R133): a way of its set, which the back-invalidation of
`victim` frees where one was chosen; snoop answers, and the writebacks answered WB_PENDING, of its own request, of a back-invalidation or of
the walk of a draining site; its DRAM read; or the CMP_ACK of a cache. -/
inductive HPhase where
  | alloc (victim : Option Nat)
  | snoop (waits : List Nat) (wbWaits : List Nat)
  | backInv (waits : List Nat) (wbWaits : List Nat)
  | walk (waits : List Nat) (wbWaits : List Nat)
  | data (cache : Nat)
  | ack (cache : Nat)
  deriving DecidableEq, Repr

/-- A transaction in progress for a line (04_coherence.md R112-R116): `way` is the way that it has reserved for its entry, `untracked` says that
R113 grants it without one, and `excl` that no untracked copy could exist when it was served. -/
structure HTxn where
  req : Pkt
  phase : HPhase
  way : Option Nat := none
  untracked : Bool := false
  excl : Bool := false
  deriving DecidableEq, Repr

/-- What waits at a home, in order of arrival: a request, with how often a later one has passed it (13_sluice.md R425); the scrub of a granule, with
what it will find and the row it lies in (05_hbm.md R152); or the snoop of a line for the walk of a draining site (04_coherence.md R133). -/
inductive HWait where
  | req (p : Pkt) (passed : Nat)
  | scrub (hpa : Nat) (c : CodeRead) (row : Nat)
  | walk (line cache : Nat)
  deriving DecidableEq, Repr

/-- An entry of a lost-line report (04_coherence.md R134). -/
structure LostLine where
  cause : Nat
  agent : Nat
  hpa : Nat
  deriving DecidableEq, Repr

/-- A DRAM read in progress at a home: the line, the request it serves, and the data fixed when it was served. -/
structure HRead where
  line : Nat
  req : Pkt
  data : List Byte
  poison : Bool
  deriving DecidableEq, Repr

/-- A home (04_coherence.md R111-R134). Lines are named by HPA / 128. `ovf` is each set's overflow count, `untrk` each
cache's untracked count, `pred` the ATOM_P predictor counters (R126, reset 1), `walks` the caches being walked. `waiters` holds what waits for its
line, for its order or for the Sluice. -/
structure Home where
  entries : SMap HEntry := []
  ovf : SMap Nat := []
  untrk : SMap Nat := []
  busy : SMap HTxn := []
  waiters : List HWait := []
  heldWb : List Pkt := []
  pred : SMap Nat := []
  reads : List HRead := []
  lost : List LostLine := []
  walks : List Nat := []
  deriving DecidableEq, Repr

/-- A saved training set of a stack (05_hbm.md R161), as flash keeps it: its key, its envelope, its lane repair map as (lane, spare), and the timing and
equaliser values of its lanes in the model's own numbering. -/
structure TrainSet where
  serial : Nat := 0
  rate : Nat := 0
  version : Nat := 0
  tMin : Nat := 0
  tMax : Nat := 0
  vqMin : Nat := 0
  vqMax : Nat := 0
  ldMin : Nat := 0
  ldMax : Nat := 0
  laneMap : List (Nat × Nat) := []
  eq : List Nat := []
  deriving DecidableEq, Repr

/-- A stack and its controller (05_hbm.md R152-R164) beside its registers. `passes` counts, by row, the scrub passes
that needed a correction, and `seen` the rows counted in this pass; `laneMap` is the lane repair map and `eq` the lane values in use; `pendHard` lists rows pending hard repair, oldest first; `ueHere` counts uncorrectable
events of this scrub period. -/
structure Stack where
  present : Bool := false
  serial : Nat := 0
  rate : Nat := 0
  gib : Nat := 0
  hardLeft : Nat := 0
  hotOnce : Bool := false
  passes : SMap Nat := []
  seen : List Nat := []
  laneMap : List (Nat × Nat) := []
  eq : List Nat := []
  pendHard : List Nat := []
  softRows : List Nat := []
  ueHere : Nat := 0
  recentring : Bool := false
  vddq : Nat := 0
  lost : Bool := false
  saved : Option TrainSet := none
  deriving DecidableEq, Repr

/-- A Granary block (05_hbm.md R147): `st` is 0 EMPTY, 1 FILLING, 2 PARITY, 3 SEALED, 4 WIPING, 5 RESTORING; `page`
is the page under restore, `restored` lists pages whose parity is being recomputed. The registers of the directory name the model of a
block (17_security.md R565). -/
structure GBlock where
  st : Nat := 0
  page : Option Nat := none
  restored : List Nat := []
  deriving DecidableEq, Repr

/-- An event raised and not yet written by the Reeve (19_faults_resets.md R615, R617). -/
structure Event where
  code : Nat
  sev : Nat
  agent : Nat := 0x3FE
  tenant : Nat := 0
  arg0 : Nat := 0
  arg1 : Nat := 0
  time : Nat := 0
  deriving DecidableEq, Repr

/-- Where a packet stands in the mesh: in the input buffer of a router, by column, row and input port (02_commons.md R39, R41). -/
structure Hop where
  p : Pkt
  col : Nat
  row : Nat
  port : Nat
  deriving DecidableEq, Repr

/-- The turns of an output port (02_commons.md R43): the network other than CTL that it served last, and for each network the input port that it
served last. -/
structure Arb where
  net : Nat := 0
  ports : SMap Nat := []
  deriving DecidableEq, Repr

/-- The Commons and its Stile (02_commons.md). `dom` is each domain's state (R58 by the numbers of COM_DOMAIN.STATE; an
unlisted domain is OFF); `forced` the domains under FORCE_OFF; `stuck` those whose drain has timed out (R62); `acked` the state reports of
interfaces in STILE_ACK; `out` the packets on the Commons in the order of issue. `mesh` follows those packets through the routers, `arb` holds the turns of each output port
(R41, R43), and `casts` the broadcast packets with the interfaces that have yet to receive them (R40). -/
structure Commons where
  ifaces : SMap Iface := []
  dom : SMap Nat := []
  acked : List (Nat × Nat) := []
  forced : List Nat := []
  stuck : List Nat := []
  out : List Pkt := []
  mesh : List Hop := []
  arb : SMap Arb := []
  casts : List (Pkt × List Nat) := []
  deriving DecidableEq, Repr

/-- The logical-to-physical map of spared units (18_bringup.md R594-R598): `map` gives each logical ID its physical ID,
0x3FE where the logical unit is VACANT; `bad` lists the failed and defective physical units. -/
structure Roll where
  built : Bool := false
  floorplan : Bool := false
  map : SMap Nat := []
  bad : List Nat := []
  deriving DecidableEq, Repr

/-- A record of the Ledger (17_security.md R579-R581): `seq` its number, `bell` the bell time at which it was made, `sig` half of a
checkpoint's signature, `prev` the digest of the record before it, once it is in flash. -/
structure LedgerRec where
  seq : Nat := 0
  kind : Nat
  path : Nat := 0
  tenant : Nat := 0
  anchored : Bool := false
  count : Nat := 1
  arg : Nat := 0
  bell : Nat := 0
  sig : List Byte := []
  prev : List Byte := []
  deriving DecidableEq, Repr

/-- The Ledger: records waiting in Vestry SRAM, oldest first, records in flash, the entries burned in the OTP anchor, and the records made
since the latest checkpoint. -/
structure Ledger where
  sram : List LedgerRec := []
  flash : List LedgerRec := []
  nextSeq : Nat := 0
  anchors : List (Nat × List Byte) := []
  sinceCp : Nat := 0
  deriving DecidableEq, Repr

/-- Data that an agent's reads have brought: the place, the bytes, and poison. -/
structure Got where
  host : Bool := false
  addr : Nat
  data : List Byte
  poison : Bool := false
  deriving DecidableEq, Repr

/-- A work item without a fate (11_steward_commands.md R359-R369). `q` is its queue, 0xFFFF for the mailbox and 0xFFFE for
a plan item of the generation service; `order` its place in the order of fetching. `st` is 0 queued, 1 dispatched by the
Steward and handled by its opcode, 2 running on `unit`, 3 refused busy and held. `stop` is the status it fails with once
its unit has stopped, when a STOP was sent. An opcode that takes several commands keeps in `phase`, `k` and `acc` how far it has
come, in `aux` what a page's leaf held, and in `got` the data that its reads brought. -/
structure Item where
  q : Nat
  slot : Nat := 0
  id : Nat := 0
  pkt : List Byte := []
  tenant : Nat := 0
  asid : Nat := 0
  deadline : Nat := 0
  order : Nat := 0
  st : Nat := 0
  unit : Nat := 0x3FE
  started : Bool := false
  stop : Option Nat := none
  fails : List Nat := []
  poison : Bool := false
  k : Nat := 0
  phase : Nat := 0
  got : List Got := []
  acc : Nat := 0
  aux : Nat := 0
  deriving DecidableEq, Repr

/-- A registered wait on an event, of an EVT_WAIT item or of an agent (11_steward_commands.md R376-R378). -/
structure EvWait where
  evt : Nat
  value : Nat
  agent : Option Nat := none
  q : Nat := 0
  id : Nat := 0
  deriving DecidableEq, Repr

/-- A window access or WORK that a module has sent to site logic (14_sites.md R442, R450): its tag, the Commons request
that it serves, and the status of the first part of it that failed. `last` marks its last part. -/
structure WinReq where
  tag : Nat
  req : Pkt
  last : Bool := true
  done : Bool := false
  status : Nat := 0
  deriving DecidableEq, Repr

/-- The status of the first part that failed of a site request that its module sends as several parts. -/
structure SiteReq where
  tag : Nat
  status : Nat
  deriving DecidableEq, Repr

/-- One slot of a site (14_sites.md R445-R448): the credits the hub holds toward the site (REQ headers and chunks, SNP
headers, RSP headers and chunks, once `init` came), messages that wait for credit, window accesses and snoops by tag, messages held for a
translation or a fault (R454) with the state of each channel's head in `xw` (1 translation asked, 2 faulted, 3 at a BUSY page, 4 held by the Sluice, 5
fencing), an XLT_INV by
tag and phase (0 sent, 1 probing), grants by TAG and line that await CMP_ACK, and fences by channel, TAG and type. The Sluice holds requests toward
the site in `outHeld`, and of each channel the request in `inHeld`, with its global address (13_sluice.md R428); `reqSent` lists the REQ messages whose
header credit is not back, with the posted write or the flush probe that each ends; `evWait` is the channel of its registered wait on an event. A fence of
type 0 is the module's own, one of type 1 that of XLT_INV_DONE; `cxl` marks a slot in CXL mode, which has no credits. -/
structure Slot where
  reqH : Nat := 0
  reqD : Nat := 0
  snpH : Nat := 0
  rspH : Nat := 0
  rspD : Nat := 0
  waiting : List StlMsg := []
  tags : List SiteReq := []
  wins : List WinReq := []
  snps : List (Nat × Pkt) := []
  held : List StlMsg := []
  nextTag : Nat := 0
  inv : Option (Nat × Nat) := none
  acks : List (Nat × Nat) := []
  echoes : Nat := 0
  xw : SMap Nat := []
  fences : List (Nat × Nat × Nat) := []
  outHeld : List Pkt := []
  inHeld : SMap (StlMsg × Nat) := []
  evWait : Option Nat := none
  reqSent : List (Option Pkt) := []
  init : Bool := false
  cxl : Bool := false
  deriving DecidableEq, Repr

/-- A work item at a site (14_sites.md R457-R459): accepted by W_RSP OK, and stopping after STOP. -/
structure SiteWork where
  wq : Nat
  item : Nat
  accepted : Bool := false
  stopping : Bool := false
  deriving DecidableEq, Repr

/-- A site (14_sites.md): its slots, the messages and sideband messages sent to site logic (oldest first), its running
work, its bring-up and its power enable. `meas` holds the measurements of its latest attestation by index; `revoke` lists tenants whose right is being revoked,
`owed` says that rights wait for its end (R469); `cxlq` holds the requests of a chiplet in CXL mode that
wait for their turn, with their slots (R440). -/
structure Site where
  slots : SMap Slot := []
  tx : List (Nat × StlMsg) := []
  side : List Nat := []
  work : List SiteWork := []
  step : Nat := 0
  repeated : Bool := false
  selftest : Option Nat := none
  pwren : Bool := false
  quiesced : Bool := false
  attesting : Bool := false
  revoke : List Nat := []
  owed : Bool := false
  meas : SMap (List Byte) := []
  inB : Nat := 0
  outB : Nat := 0
  cxlq : List (Nat × StlMsg) := []
  deriving DecidableEq, Repr

/-- A frame of the transport as it leaves a port (15_fabric_links.md R483, R484): destination and source MAC, priority where it is tagged, IP
version, source and destination, DSCP, UDP source port, BTH opcode, PSN, and its messages; none in a congestion notification. `vid` is the VLAN of a
tagged frame. ECN is ECT(0), and TTL or hop limit 64. -/
structure SentFrame where
  port : Nat
  dmac : Nat
  smac : Nat
  pcp : Option Nat := none
  vid : Option Nat := none
  v6 : Bool := false
  sip : Nat := 0
  dip : Nat := 0
  dscp : Nat := 0
  udpSrc : Nat := 0
  opcode : Nat := 0xC0
  psn : Nat := 0
  msgs : List XMsg := []
  deriving DecidableEq, Repr

/-- What a link has sent, oldest first: a native flit, an Ethernet frame, a pause of a priority on a port (15_fabric_links.md R485), or a TIME
message. -/
inductive LinkTx where
  | flit (f : LinkFlit)
  | frame (f : SentFrame)
  | pause (port prio : Nat)
  | time (t1 t2 t3 : Nat)
  deriving DecidableEq, Repr

/-- A link (15_fabric_links.md R475-R482, R510-R512): `seq` the next SEQ it sends, `exp` the next it accepts, `retry` the
flits without ACK, `credits` by VC in 16-byte units, `txq` messages that wait for credit or for the Sluice, `rx` messages received and not
yet handled, with their VC, `paused` the priorities that the peer of an Ethernet link has paused, as 8 x port + priority. `t1` and `t2` are the times of the last TIME message
received, `peer` the hub that training found at the other end, and `seeded` whether a saved set seeded it (18_bringup.md R600). -/
structure Link where
  seq : Nat := 0
  exp : Nat := 0
  retry : List LinkFlit := []
  replays : Nat := 0
  nak : Bool := false
  credits : SMap Nat := []
  txq : List (Nat × XMsg) := []
  tx : List LinkTx := []
  rx : List (Nat × XMsg) := []
  paused : List Nat := []
  retrains : Nat := 0
  locked : Bool := false
  t1 : Nat := 0
  t2 : Nat := 0
  peer : Nat := 0
  seeded : Bool := false
  deriving DecidableEq, Repr

/-- A send context (15_fabric_links.md R489, R492): the PSNs of its two streams, its unacknowledged messages, messages
beyond the limit of 1,024, and the PERFs that wait for responses (R494). -/
structure SendCtx where
  epoch : Nat := 0
  reqPsn : Nat := 0
  rspPsn : Nat := 0
  unReq : List XMsg := []
  unRsp : List XMsg := []
  waiting : List XMsg := []
  busy : Bool := false
  resends : Nat := 0
  closing : Bool := false
  perfs : List (Nat × Nat) := []
  deriving DecidableEq, Repr

/-- A remote request that has been issued into the Commons by a link agent and not performed (15_fabric_links.md R493, R505): `bad` is the status of a part
of it that has failed. One whose receive context is gone keeps its hub, and its answer leaves unless `silent`. -/
structure XPend where
  txn : Nat
  psn : Nat
  orig : XMsg
  win : Nat := 0
  gen : Nat := 0
  agent : Nat := 0x3FE
  bad : Nat := 0
  hub : Nat := 0
  silent : Bool := false
  deriving DecidableEq, Repr

/-- A receive context (15_fabric_links.md R489, R492, R494, R497). -/
structure RecvCtx where
  epoch : Nat := 0
  expReq : Nat := 0
  expRsp : Nat := 0
  held : List XMsg := []
  due : Nat := 0
  pend : List XPend := []
  perfSent : Nat := 0
  coll : List Byte := []
  collLen : Nat := 0
  collBad : Nat := 0
  deriving DecidableEq, Repr

/-- The active mapping of an inbound window (15_fabric_links.md R504), as the committed shadow words. -/
structure WinMap where
  inw : Word := 0
  tgt : Word := 0
  deriving DecidableEq, Repr

/-- The fabric side of the hub (15_fabric_links.md): links, contexts by remote hub, the last EPOCH of each, the anchor of
each open send context, routes (the
link-set index of a hub with a valid entry), the path rotation of each pair (R483), send rates in millionths of the link rate with the time before which
a slowed pair sends no frame, the time of each pair's last CNP (R486), active windows, the count of consecutive small time offsets (R509), requests
whose receive context is gone, and responses that wait for a free send context. -/
structure Fabric where
  links : SMap Link := []
  send : SMap SendCtx := []
  recv : SMap RecvCtx := []
  epochs : SMap Nat := []
  anchors : SMap Nat := []
  routes : SMap Nat := []
  rots : SMap Nat := []
  rates : SMap Nat := []
  pace : SMap Nat := []
  cnps : SMap Nat := []
  wins : SMap WinMap := []
  goodOffsets : Nat := 0
  orphans : List XPend := []
  rspWait : List (Nat × XMsg) := []
  deriving DecidableEq, Repr

/-- A record of the fate log (16_host_endpoint.md R537). -/
structure FateRec where
  reply : List Byte
  q : Nat
  cq : Nat
  fseq : Nat
  cause : Nat
  held : Bool
  irq : Bool := false
  deriving DecidableEq, Repr

/-- What the host endpoint has put on the host bus, oldest first; `ep` marks poisoned data. A completion carries its status by PCIe's
numbers (0 success, 1 Unsupported Request, 2 Request Retry Status, 4 Completer Abort). A CXL message carries opcode 1 for a read's data,
2 for a completion, 3 for BIConflictAck, and the snoop opcodes of 04_coherence.md R106; `line` counts 64-byte blocks. -/
inductive HostTlp where
  | write (addr : Nat) (data : List Byte) (ep : Bool := false)
  | read (tag addr len : Nat)
  | msix (vector : Nat)
  | completion (tag status : Nat) (data : List Byte) (ep : Bool := false)
  | ltr (latency : Nat)
  | cxl (opc tag line st : Nat) (data : List Byte) (ep : Bool := false)
  deriving DecidableEq, Repr

/-- A hub request to host memory that awaits its completion; `dead` once it was answered without one, its tag staying allocated. -/
structure HostReq where
  tag : Nat
  req : Pkt
  dead : Bool := false
  deriving DecidableEq, Repr

/-- A host request to BAR0, BAR2 or CXL.mem (16_host_endpoint.md R523, R525): `kind` is 0 read, 1 write, 2 AtomicOp; `off` its offset and `addr` its HPA;
`sent` once its parts are issued, `err` the first status that failed it, `bad` whether poisoned data that no seal covers came back; `cxl` is the request of
CXL.mem that it makes at a home. -/
structure HostIn where
  kind : Nat
  bar : Nat := 2
  tag : Nat := 0
  off : Nat
  addr : Nat := 0
  len : Nat
  data : List Byte := []
  ep : Bool := false
  op : Nat := 0
  sent : Bool := false
  got : List Got := []
  err : Nat := 0
  bad : Bool := false
  cxl : Option Pkt := none
  deriving DecidableEq, Repr

/-- A CXL.mem request of the host that awaits its S2M response; `kind` is 0 read, 1 write. -/
structure CxlReq where
  txn : Nat
  tag : Nat
  line : Nat
  kind : Nat
  deriving DecidableEq, Repr

/-- The host endpoint (16_host_endpoint.md): configuration space as far as the spec gives it effects, the pending and unmasked vectors
of MSI-X, the host bus, the fate log. `queued` holds hub requests that wait for a tag, `hq` host requests in order, `conflicts`
the 128-byte lines of BIConflict with the TXNs that its answer waits for. `hdm` holds CXL component registers by offset. `announce` lists the
vectors that wait until writes of an agent and stream are performed (03_memory_model.md R94). -/
structure Hep where
  bme : Bool := false
  d3 : Bool := false
  memEn : Bool := false
  msixEn : Bool := false
  fmask : Bool := false
  ltrEn : Bool := false
  cxlEn : Bool := false
  unmasked : List Nat := []
  pba : List Nat := []
  cfg : SMap (BitVec 32) := []
  msixTab : SMap (BitVec 32) := []
  hdm : SMap (BitVec 32) := []
  bus : List HostTlp := []
  queued : List Pkt := []
  outstanding : List HostReq := []
  hq : List HostIn := []
  cxl : List CxlReq := []
  conflicts : List (Nat × List Nat) := []
  flr : Bool := false
  ltrState : Nat := 0
  linkUp : Bool := false
  rate : Nat := 0
  log : List FateRec := []
  fseq : Nat := 0
  announce : List (Nat × Nat × Nat) := []
  deriving DecidableEq, Repr

/-- A queue's candidate (12_steward_resources.md R405): the item's order and class, and since when it has been one. -/
structure Cand where
  q : Nat
  order : Nat
  tenant : Nat
  cls : Nat
  since : Nat
  deriving DecidableEq, Repr

/-- A block of a pool that is live or being zeroed (12_steward_resources.md R392, R393). -/
structure PoolBlock where
  pool : Nat
  hpa : Nat
  ord : Nat
  tenant : Nat
  zeroing : Bool := false
  deriving DecidableEq, Repr

/-- A sequence slot (12_steward_resources.md R399-R403, R413): its generation; while it is open, its owner, its descriptor, its block
table, its pending tokens, the positions processed, the tokens generated and the latest of them, and whether it has ended. `last` is one
more than the token generated and not yet processed, 0 without one; `ready` says that its parent has processed the positions it shares, `admitted`
that its prefill has begun; `order` is its place in the order of opening. -/
structure Seq where
  gen : Nat := 0
  isOpen : Bool := false
  tenant : Nat := 0
  service : Bool := false
  hold : Bool := false
  pool : Nat := 0
  maxNew : Nat := 0
  maxCtx : Nat := 0
  parent : Nat := 0xFFFFFFFF
  share : Nat := 0
  temp : Nat := 0
  topP : Nat := 0
  topK : Nat := 0
  cls : Nat := 0
  seed : Nat := 0
  stop : List Nat := []
  table : List Nat := []
  toks : List Nat := []
  pos : Nat := 0
  made : Nat := 0
  last : Nat := 0
  ended : Bool := false
  admitted : Bool := false
  ready : Bool := false
  order : Nat := 0
  deriving DecidableEq, Repr

/-- An entry of a step's batch (12_steward_resources.md R409, R410). -/
structure BatchEnt where
  slot : Nat
  toks : List Nat
  pos : Nat
  logit : Bool
  prefill : Bool
  deriving DecidableEq, Repr

/-- The generation service (12_steward_resources.md R408-R416): its descriptor and plan, the step, its batch, the retries used, the
status of the step's first failure, the pages whose restoring the step waits for, the records that wait for room in the ring, the ring's write position
and phase, and how it stops. `stage` is 0 between steps, 1 while the plan runs, 2 while the batch table is written, 3 while the block tables before it are. -/
structure Gen where
  tenant : Nat := 0
  asid : Nat := 0
  desc : List Byte := []
  plan : List Byte := []
  step : Nat := 0
  stage : Nat := 0
  batch : List BatchEnt := []
  retries : Nat := 0
  fail : Nat := 0
  held : List Nat := []
  recs : List (List Byte) := []
  tail : Nat := 0
  phase : Bool := true
  pausing : Bool := false
  lastFate : Nat := 0
  deriving DecidableEq, Repr

/-- The Steward engine (11_steward_commands.md, 12_steward_resources.md): items without a fate in the order of fetching, waits in
registration order, the replies written to each completion queue, and those not yet announced by an interrupt. `heldUnits` are
logical units held for a swap (19_faults_resets.md R622); `planFates` the fates of the service's plan items; `lastQueue` the queue
fetched last; `tenantTime` and `queueTime` virtual times by 8 x tenant or queue + class; `cands` the present candidates; `kvRef` the
reference counts of KV blocks by pool x 2^24 + block; `ended` the items of each queue that have their fate, by queue and ID, since the queue was enabled; `mbox` the reply of a mailbox command before READY, with its fate, status and IRQ. -/
structure Stw where
  items : List Item := []
  nextOrder : Nat := 0
  waits : List EvWait := []
  cqCount : SMap Nat := []
  cqSince : SMap Nat := []
  retired : Bool := false
  heldUnits : List Nat := []
  planFates : List (Nat × Nat × Nat) := []
  lastQueue : Nat := 1023
  tenantTime : SMap Nat := []
  queueTime : SMap Nat := []
  cands : List Cand := []
  dozing : Bool := false
  blocks : List PoolBlock := []
  kvRef : SMap Nat := []
  seqs : SMap Seq := []
  seqOrder : Nat := 0
  gen : Gen := {}
  mbox : Option (List Byte × Nat × Nat × Bool) := none
  ended : List (Nat × Nat) := []
  deriving DecidableEq, Repr

/-- The HBM side of the hub. -/
structure Hbm where
  homes : SMap Home := []
  stks : SMap Stack := []
  gran : SMap GBlock := []
  poisonPages : List Nat := []
  gpois : List (Nat × Bool) := []
  deriving DecidableEq, Repr

/-- A launch record (07_loom_model.md R230). -/
structure Launch where
  item : Nat := 0
  tenant : Nat := 0
  cls : Nat := 0
  rm : Nat := 0
  sat : Bool := false
  deadline : Nat := 0
  entry : Nat := 0
  args : Nat := 0
  arg1 : Nat := 0
  seed : Nat := 0
  budget : Nat := 0
  claim : Bool := false
  park : Bool := false
  persist : Bool := false
  restart : Bool := false
  deriving DecidableEq, Repr

/-- What a control core waits for: the answer of a global request, named by its TXN, of an access at `addr` that goes to
`rd` (`size` bytes, sign-extended unless `uns`), `len` bytes of instruction being passed on success, with a FENCE behind it
where `fence` is set; the answer of an EVT_OP WAIT; a fence; an event, with its limit in ns; or the end of its kernel, with what it will report. -/
inductive CoreWait where
  | glob (txn addr rd size len : Nat) (uns store fence : Bool)
  | reg (txn rd len limit : Nat)
  | fence
  | event (rd len limit : Nat)
  | ending (fate status result lastEnd mcause off : Nat)
  deriving DecidableEq, Repr

/-- What an instruction captures as it enters the vector queue (07_loom_model.md R201, 08_loom_isa.md R248): vl, the mode of DYN, the seed, the index of
its element 0 under RSR, the integer registers of VS1, VS2 and VS3 (of rs1 in `x1` for a 32-bit instruction), and its scalar source b. -/
structure VCtx where
  vl : Nat := 0
  lrm : Nat := 0
  seed : Nat := 0
  sri : Nat := 0
  x1 : Nat := 0
  x2 : Nat := 0
  x3 : Nat := 0
  k : Option Nat := none
  deriving DecidableEq, Repr

/-- An instruction of the vector queue (07_loom_model.md R195): a V64 word, or a 32-bit one by its fields; an LPRUN with the PRD that was read at
entry, and whether it lay in poisoned granules (R225). -/
inductive VqIns where
  | v64 (op : Nat) (f : VOp)
  | q32 (f3 f7 rd rs1 rs2 : Nat) (prd : List Byte) (bad : Bool)
  deriving DecidableEq, Repr

/-- An entry of the vector queue: its scratchpad offset, the instruction, and what it captured. -/
structure VqEntry where
  off : Nat
  ins : VqIns
  c : VCtx := {}
  deriving DecidableEq, Repr

/-- An accumulator of the reduction tree (07_loom_model.md R219-R223): its operation by the numbers of LRRESET, the format
of MAX, MIN, ARGMAX and ARGMIN, the value as a pattern, the index, the positions fed since LRRESET, the exact sum, and
poison. -/
structure Accum where
  op : Nat := 0
  fmt : Nat := 0
  any : Bool := false
  val : Nat := 0
  idx : Nat := 0
  fed : Nat := 0
  sum : Acc320 := {}
  poison : Bool := false
  deriving DecidableEq, Repr

/-- A physical Loom tile (07_loom_model.md R195-R237, 08_loom_isa.md R269). Vector and mask registers are numbers whose bit
k is bit k of the register; `vp` holds the poison bits of the lane slots. `vtrap` is the cause of a pending vector trap,
`run` the running kernel, `launches` the launches accepted and not started, `claim` and `park` accepted records of those
kinds, `wait` what the core waits for, `halted` a halt through the JTAG port, `nextPosted` the TXN of posted stores, `vq` the vector queue, oldest
first. -/
structure Tile where
  pc : Nat := 0
  x : SMap Nat := []
  mepc : Nat := 0
  mcause : Nat := 0
  mtval : Nat := 0
  mtvec : Nat := 0
  mstatus : Nat := 0
  mscratch : Nat := 0
  mip : Nat := 0
  resv : Option Nat := none
  lrm : Nat := 0
  lseed : Nat := 0
  lsridx : Nat := 0
  lflags : Nat := 0
  ltrapen : Nat := 0
  errValid : Bool := false
  errCount : Nat := 0
  errStatus : Nat := 0
  vl : Nat := 0
  lvepc : Nat := 0
  trapRun : Bool := false
  trapDetail : Nat := 0
  trapIter : Nat := 0
  trapUop : Nat := 0
  lvdisc : Nat := 0
  runOff : List Nat := []
  fmtGen : Nat := 0
  fmts : List Word := []
  inTrap : Bool := false
  poisonSeen : Bool := false
  vtrap : Option Nat := none
  vq : List VqEntry := []
  v : SMap Nat := []
  vp : SMap Nat := []
  vm : SMap Nat := []
  acc : SMap Accum := []
  progs : SMap (List Word) := []
  run : Option Launch := none
  launches : List Launch := []
  claim : Option Launch := none
  park : Option Launch := none
  parked : Bool := false
  wait : Option CoreWait := none
  halted : Bool := false
  nextPosted : Nat := 0
  deriving DecidableEq, Repr

/-- A block that a stripe has received (09_mill.md R284, R292): its pass (0 partial exponent, 1 reduce, 2 gather or broadcast,
3 agreed exponent), the rank that sent it, its index within the stripe, and its words with their poison. -/
structure MillRx where
  pass : Nat
  src : Nat
  block : Nat
  ws : List (Nat × Bool) := []
  deriving DecidableEq, Repr

/-- A stripe of a collective item (09_mill.md R274, R293): the ranks whose JOIN has arrived, the chunks granted by each peer,
the ranks to which JOIN must be repeated, the time of the last message to each peer, the messages of its plan that are sent, the
blocks received, and the blocks written at DST. -/
structure MillStripe where
  joined : List Nat := []
  credits : SMap Nat := []
  retry : List Nat := []
  sentAt : SMap Nat := []
  sent : List Nat := []
  rx : List MillRx := []
  wrote : List Nat := []
  deriving DecidableEq, Repr

/-- A collective item at its lead slice (09_mill.md R273), `lead` being the physical slice: `seq` names its stream, `raw` is
its descriptor, `fetched` that its read was issued, `gen` the generation of the format table captured at its start, `startDue` and `due` its deadlines in ns. -/
structure MillItem where
  seq : Nat
  lead : Nat
  item : Nat
  tenant : Nat := 0
  cls : Nat := 0
  deadline : Nat := 0
  desc : Nat := 0
  raw : List Byte := []
  fetched : Bool := false
  started : Bool := false
  gen : Nat := 0
  startDue : Nat := 0
  due : SMap Nat := []
  lateUsed : Nat := 0
  stripes : List MillStripe := []
  got : List Got := []
  flags : Nat := 0
  bad : Bool := false
  fate : Option (Nat × Nat × Nat) := none
  deriving DecidableEq, Repr

/-- An entry of the join table (09_mill.md R293). -/
structure MillJoin where
  hub : Nat
  gid : Nat
  tag : Nat
  stripe : Nat
  rank : Nat
  credits : Nat
  digest : Nat
  image : Nat
  deriving DecidableEq, Repr

/-- The Mill (09_mill.md): items in the order of acceptance, the join table, and the member list of each group as its latest
COMMIT read it. -/
structure Mill where
  items : List MillItem := []
  joins : List MillJoin := []
  groups : SMap (List Nat) := []
  nextSeq : Nat := 0
  deriving DecidableEq, Repr

/-- A translation that a TLB holds, or that a descriptor has pinned (10_data_movers.md R334, R335, R339): the page's first VA,
log2 of its size, and the leaf entry. -/
structure TlbEnt where
  asid : Nat
  base : Nat
  bits : Nat
  pte : Nat
  deriving DecidableEq, Repr

/-- An entry of a walk cache: the table that a level's index below `base` leads to. -/
structure WalkEnt where
  asid : Nat
  level : Nat
  base : Nat
  table : Nat
  deriving DecidableEq, Repr

/-- A walk in flight (10_data_movers.md R333, R336): it reads level `level` in `table` for `va`, for a stream. -/
structure Walk where
  id : Nat
  asid : Nat
  va : Nat
  level : Nat
  table : Nat
  src : Nat
  stream : Nat
  deriving DecidableEq, Repr

/-- A translation request at a slice: the packet that it will answer, its pages in order with a mark for writes, and the pages
whose walk ended in a fault, with kind and level. -/
structure XReq where
  pkt : Pkt
  asid : Nat
  prefetch : Bool := false
  pages : List (Nat × Bool)
  bad : List (Nat × Nat × Nat) := []
  deriving DecidableEq, Repr

/-- A translation slice (10_data_movers.md R331). -/
structure XSlice where
  tlb : List TlbEnt := []
  wc : List WalkEnt := []
  walks : List Walk := []
  reqs : List XReq := []
  deriving DecidableEq, Repr

/-- Who waits on a fault: a mover queue, or a request of a site module (10_data_movers.md R343, 14_sites.md R454). -/
structure Waiter where
  agent : Nat
  stream : Nat
  deriving DecidableEq, Repr

/-- A fault on its way to the fault unit. -/
structure XFault where
  asid : Nat
  tenant : Nat
  page : Nat
  kind : Nat
  level : Nat
  write : Bool
  waiter : Waiter
  deriving DecidableEq, Repr

/-- An open entry of the fault unit (10_data_movers.md R341, R342). -/
structure FaultEnt where
  fid : Nat
  first : XFault
  access : Nat
  count : Nat
  waiters : List Waiter
  recorded : Bool := false
  deriving DecidableEq, Repr

/-- An invalidation in progress (10_data_movers.md R338): its scope, and the walks and descriptors that it waits for. -/
structure XInv where
  scope : Nat
  asid : Nat
  va : Nat
  count : Nat
  walks : List Nat
  descs : List (Nat × Nat)
  deriving DecidableEq, Repr

/-- The translation unit (10_data_movers.md R331-R346): slices, micro-TLBs by physical mover, the fault unit, records held on
die, the phase of the ring, and the running invalidation. -/
structure Xlt where
  slices : SMap XSlice := []
  micro : SMap (List TlbEnt) := []
  nextWalk : Nat := 0
  inbox : List XFault := []
  stalled : Nat := 0
  faults : List FaultEnt := []
  nextFid : Nat := 0
  held : List (List Byte) := []
  phase : Bool := true
  inv : Option XInv := none
  deriving DecidableEq, Repr

/-- An item in a mover queue (10_data_movers.md R308-R310, R344). `k` is the running descriptor; `phase` is 0 before its checks, 1
while its chain record is read, 2 while it is translated, 3 while its data is read, 5 once the item waits for its last fence. `dgot`,
`cgot` and `got` hold descriptors, tables and data that were read; `pins` the translations of the descriptor; `tab` the table of formats captured
and `gen` its generation; `tried` says that the translation of the chain record was asked for; `pois` the first poisoned descriptor, `wfail` the first failed write, `fail` the fate of an item that stopped. `chunk` marks the
descriptor of a WEIGHT_CHUNK (17_security.md R563). -/
structure MovJob where
  seq : Nat
  item : Nat
  tenant : Nat := 0
  cls : Nat := 0
  deadline : Nat := 0
  asid : Nat := 0
  restart : Bool := false
  ndesc : Nat := 1
  desc : Nat := 0
  k : Nat := 0
  fetched : Nat := 0
  phase : Nat := 0
  dgot : List Got := []
  cgot : List Got := []
  got : List Got := []
  pins : List TlbEnt := []
  tab : List Word := []
  gen : Option Nat := none
  tried : Bool := false
  asidOk : Bool := false
  fault : Bool := false
  busy : Bool := false
  flags : Nat := 0
  moved : Bool := false
  pois : Option Nat := none
  wfail : Option (Nat × Nat) := none
  rfail : Option Nat := none
  fail : Option (Nat × Nat × Nat) := none
  chunk : Bool := false
  deriving DecidableEq, Repr

/-- The OTP rows of the Vestry as far as commands change them (17_security.md R544, R549-R559): INTENT and DONE bits of the life-cycle
transitions, the revocation epoch, and the digests of owner keys, oldest first. -/
structure Otp where
  intent : Nat := 0
  fin : Nat := 0
  epoch : Nat := 0
  owners : List (List Byte) := []
  deriving DecidableEq, Repr

/-- A directory entry of a model beside its registers (17_security.md R560-R568): its manifest digest, plaintext bytes, IV base, chunks,
the place and the size of its part of the directory region, its site policies as (index mask, digest), the number of chunks not yet written,
and the chunks rewritten of pages under restore. -/
structure Model where
  digest : List Byte := []
  total : Nat := 0
  ivBase : Nat := 0
  chunks : Nat := 0
  dirOff : Nat := 0
  dirLen : Nat := 0
  policies : List (Nat × List Byte) := []
  left : Nat := 0
  page : List Nat := []
  deriving DecidableEq, Repr

/-- What the Vestry has answered over SPDM, oldest first: the session or requester, the request, and the data; none for an ERROR. -/
structure SpdmOut where
  via : Nat
  op : Nat
  data : Option (List Byte)
  deriving DecidableEq, Repr

/-- What the Vestry holds beside its registers (17_security.md): the key slots, the OTP, directory entries, the SPDM sessions and answers,
`noId` once the identity is given up (R556), the site that a mailbox command attests, and the rights that a certificate opens at the end of
its purge. -/
structure Vst where
  keys : SMap (List Byte) := []
  otp : Otp := {}
  models : SMap Model := []
  sessions : List Nat := []
  out : List SpdmOut := []
  noId : Bool := false
  mboxSite : Option Nat := none
  rights : Option Nat := none
  deriving DecidableEq, Repr

/-- A record of the out-of-band event log (20_management_power.md R647), with its pass count; `saved` once flash holds it. -/
structure OobRec where
  ev : Event
  pass : Nat := 0
  saved : Bool := false
  deriving DecidableEq, Repr

/-- A saved training set of a link (18_bringup.md R600): the mode, the peer hub and the format version that it matches. -/
structure LinkSet where
  mode : Nat := 0
  peer : Nat := 0
  version : Nat := 0
  deriving DecidableEq, Repr

/-- A receiver of the Crier (18_bringup.md R605): its generation, none before the first broadcast, the blocks written, the CLOSE that it received as digest and length, and
its state by the codes of REPORT. -/
structure CrierRx where
  gen : Option Nat := none
  blocks : SMap (List Byte) := []
  close : Option (List Byte × Nat) := none
  st : Nat := 0
  deriving DecidableEq, Repr

/-- What the Reeve knows of a receiver in this round (R606): the bitmap segments reported, the blocks missing in them, and the state. -/
structure CrierRep where
  segs : List Nat := []
  missing : List Nat := []
  st : Nat := 0
  deriving DecidableEq, Repr

/-- The Crier at work (R606): the slot, its image with digest and version, the receivers addressed, their reports, and in `mode` what it
works for: 0 boot step 10, 1 the wake from doze, 2 a live firmware update, 3 a spare that must take its image before a swap. -/
structure Crier where
  mode : Nat := 0
  slot : Nat := 0
  image : List Byte := []
  digest : List Byte := []
  version : Nat := 0
  targets : List Nat := []
  reps : SMap CrierRep := []
  rounds : Nat := 0
  failed : List Nat := []
  deriving DecidableEq, Repr

/-- A spared unit that failed in service (19_faults_resets.md R620): the physical and the logical unit, the cause, once the update is sent
the spare (none for VACANT), the interfaces that have taken it, and those whose answer has come. `boot` marks a receiver that boot step 10 declared failed. -/
structure Swap where
  boot : Bool := false
  unit : Nat
  logical : Nat
  cause : Nat
  sent : Bool := false
  spare : Option Nat := none
  took : List Nat := []
  acked : List Nat := []
  deriving DecidableEq, Repr

/-- A live firmware update (R624, R625): the slot, the receivers to come, and the one being updated; `closing` once its domain closes. -/
structure FwUpdate where
  slot : Nat
  left : List Nat := []
  cur : Option Nat := none
  closing : Bool := false
  failed : Nat := 0
  deriving DecidableEq, Repr

/-- VCORE control (20_management_power.md R649, R653-R655), voltages in mV: the target, the ceilings, the pins, the evaluations for which the
cap held V at its floor, the latest READ_IOUT in A, the failed reads of each PMBus entry, the die sensors that failed their self-check, and the thermal trip. -/
structure Power where
  vt : Nat := 750
  cap : Nat := 850
  cur : Nat := 850
  therm : Nat := 850
  vrHot : Bool := false
  throttle : Bool := false
  capHeld : Nat := 0
  iout : Nat := 0
  fails : SMap Nat := []
  faulty : List Nat := []
  trip : Bool := false
  deriving DecidableEq, Repr

/-- What the Reeve has answered or sent on the management bus, oldest first: the requester, the completion code, and the data. -/
structure OobMsg where
  dest : Nat
  code : Nat
  data : List Byte := []
  deriving DecidableEq, Repr

/-- The Reeve (18_bringup.md, 19_faults_resets.md, 20_management_power.md): records that wait for the event ring, the out-of-band log and the
number of records ever in it, the Crier and its generation, the receivers, failed units in the order of detection, the firmware update, the
targets of running re-centres, the domain under reset with FORCE and how far it is (0 it waits, 1 closing, 2 opening), the reset that runs (0 none, 1 function-level, 2 warm or hub), its
link part, the hub-fatal event once its record is written or held, and whether its 1 ms has passed, the bell time at which the boot step
began, the management bus, the flash, and pins. `up` says that the Reeve's firmware runs, of `version`, `away` that it restarts on a new image, and
`inReset` that COLD_RST_N is low. `linkSets` are the saved sets of links in flash. `images` holds the digests of the images that the Crier broadcast, in order. `dozeStep` is 0 awake, 1 entering doze, 2 in doze,
3 waking, 4 entering with a wake to follow, and 5 waking once the images are reloaded; `dozed` lists the domains that doze closed. `mctp` lists
the requesters whose SPDM request the Vestry has, `waiting` the requests that wait for the Reeve, and `halted` the firmware cores and the Reeve
halted through the JTAG port. `scan` is the boundary-scan register, driven onto the pins while `extest`; `ibi` says that in-band interrupts are
enabled on I3C, `ibis` counts those raised, and `mwl` is its maximum write length. -/
structure Rve where
  held : List Event := []
  log : List OobRec := []
  logged : Nat := 0
  crier : Option Crier := none
  images : List (List Byte) := []
  crierGen : Nat := 0
  linkSets : SMap LinkSet := []
  rx : SMap CrierRx := []
  swaps : List Swap := []
  fw : Option FwUpdate := none
  recal : List Nat := []
  domReset : Option (Nat × Bool) := none
  domPhase : Nat := 0
  reset : Nat := 0
  resetLink : Bool := false
  fatal : Option Nat := none
  fatalDue : Bool := false
  t0 : Nat := 0
  pw : Power := {}
  straps : Nat := 0
  up : Bool := false
  away : Bool := false
  version : Nat := 0
  inReset : Bool := false
  dozeStep : Nat := 0
  dozed : List Nat := []
  mctp : List Nat := []
  waiting : List (Nat × OobAsk) := []
  halted : List Nat := []
  oob : List OobMsg := []
  evtTo : Option Nat := none
  pldm : Nat := 0
  staged : List Nat := []
  flash : SMap Byte := []
  jtag : List (List Byte) := []
  scan : List Byte := []
  extest : Bool := false
  ibi : Bool := true
  ibis : Nat := 0
  mwl : Nat := 69
  pps : Nat := 0
  deriving DecidableEq, Repr

/-- The Sluice (13_sluice.md R422-R433): the committed settings by offset, the deficits of the G and X buckets, and of the present window
the bytes served, the requests served while overdue and, by stack, the steps that were in force before the present one; keys as Machine/Sluice.lean
names them. -/
structure Slu where
  act : SMap Word := []
  g : SMap Nat := []
  x : SMap Nat := []
  served : SMap Nat := []
  excess : SMap Nat := []
  steps : SMap (List Nat) := []
  deriving DecidableEq, Repr

/-- The whole state of the hub. `mem` holds the bytes of HBM, the Cellar banks and the scratchpads by cell address
(Machine/Operands.lean), a byte that nothing has written reading 0; `poison` lists the poisoned 128-byte lines.
`time` is bell time in ns. `fmtTable` is the active table of custom formats (06_number_formats.md
R179), a slot that is not valid being 0. `free` is the model's own counter of free values. `pending` is the queue of commands. -/
structure State where
  regs : SMap Word := []
  mem : List Host.Cell := []
  poison : List Nat := []
  time : Nat := 0
  free : Nat := 0
  com : Commons := {}
  roll : Roll := {}
  hbm : Hbm := {}
  ledger : Ledger := {}
  hep : Hep := {}
  stw : Stw := {}
  slu : Slu := {}
  tiles : SMap Tile := []
  mill : Mill := {}
  xlt : Xlt := {}
  movers : SMap (List MovJob) := []
  movSeq : Nat := 0
  vst : Vst := {}
  rve : Rve := {}
  fmtTable : List Word := []
  sites : SMap Site := []
  fab : Fabric := {}
  evq : List Event := []
  pending : List Instr := []
  deriving DecidableEq, Repr

/-- The hub right after a cold reset, before boot step 1: every register at its reset value, every domain OFF, memory
with nothing listed. -/
def State.reset : State := {}

end Sys2Proof.Machine
end

