-- ==== Sys2Proof/Machine/Ops.lean ====
section
/-!
DEFINITION. Machine/Ops.lean: the named operations over registers, memory, events and network interfaces.
-/

namespace Sys2Proof.Machine

/-- The outcome of every command: the spec names no stop of the hub. -/
abbrev Res := Host.Outcome State Fault Refusal

/-! ### Registers -/

/-- The stored value of a register. -/
def State.reg (s : State) (r : RegDef) (i : Nat) : Word := SMap.getD s.regs (r.off i) (r.resetAt i)

/-- Store a register's value. -/
def State.setReg (s : State) (r : RegDef) (i : Nat) (v : Word) : State :=
  { s with regs := SMap.set (r.resetAt i) s.regs (r.off i) v }

/-- Return a register to its reset value. -/
def State.resetReg (s : State) (r : RegDef) (i : Nat) : State := { s with regs := SMap.del s.regs (r.off i) }

/-- Read a field. -/
def State.rd (s : State) (f : RF) (i : Nat := 0) : Nat := bitsOf (s.reg f.reg i) f.hi f.lo

/-- Write a field. -/
def State.wr (s : State) (f : RF) (i x : Nat) : State :=
  s.setReg f.reg i (setBits (s.reg f.reg i) f.hi f.lo x)

/-- The largest value of a field. -/
def RF.top (f : RF) : Nat := 2 ^ (f.hi - f.lo + 1) - 1

/-- Raise a counting field by `n`, saturating. -/
def State.inc (s : State) (f : RF) (i n : Nat) : State := s.wr f i (satAdd (s.rd f i) n f.top)

/-- Read a one-bit field. -/
def State.flag (s : State) (f : RF) (i : Nat := 0) : Bool := s.rd f i = 1

/-! ### Bytes and memory -/

/-- The number that bytes spell, lowest first (00_scope.md R4). -/
def leNat : List Byte → Nat
  | [] => 0
  | b :: l => b.toNat + 256 * leNat l

/-- The lowest `k` bytes of a number, lowest first. -/
def natLe : Nat → Nat → List Byte
  | 0, _ => []
  | k + 1, n => BitVec.ofNat 8 n :: natLe k (n / 256)

/-- The canonical form of memory: cells strictly rising, and none listed that holds what an unlisted cell reads as (log entry 3). -/
def Memory.wf (m : List Host.Cell) : Bool := SMap.wf 0 m

/-- The byte of memory at a cell; a byte that nothing has written reads 0 (log entry 3). -/
def State.byte (s : State) (a : Nat) : Byte := SMap.getD s.mem a 0

/-- Write a byte of memory. -/
def State.setByte (s : State) (a : Nat) (b : Byte) : State := { s with mem := SMap.set 0 s.mem a b }

/-- Read `n` bytes. -/
def State.bytes (s : State) (a n : Nat) : List Byte := (List.range n).map (fun k => s.byte (a + k))

/-- Write bytes from `a` up. -/
def State.setBytes (s : State) (a : Nat) : List Byte → State
  | [] => s
  | b :: l => (s.setByte a b).setBytes (a + 1) l

/-- Write the bytes whose enables are set, bit 0 of `mask` for the byte at `a`. -/
def State.setMasked (s : State) (a mask : Nat) : List Byte → State
  | [] => s
  | b :: l => (if mask % 2 = 1 then s.setByte a b else s).setMasked (a + 1) (mask / 2) l

/-- The 128-byte lines that `n` bytes from `a` touch. -/
def linesOf (a n : Nat) : List Nat := (List.range ((a + n + 127) / 128 - a / 128)).map (a / 128 + ·)

/-- Whether any of the bytes is stored poisoned (01_architecture.md R28). -/
def State.poisoned (s : State) (a n : Nat) : Bool := (linesOf a n).any (fun l => s.poison.contains l)

/-- Mark a line poisoned. -/
def State.poisonLine (s : State) (l : Nat) : State := { s with poison := insertNat s.poison l }

/-- Clear a line's poison: a full, unpoisoned write replaced it. -/
def State.unpoisonLine (s : State) (l : Nat) : State := { s with poison := eraseNat s.poison l }

/-- Bytes of zeros. -/
def zeros (n : Nat) : List Byte := List.replicate n 0

/-- Exclusive or of two byte lists. -/
def xorBytes : List Byte → List Byte → List Byte
  | a :: l, b :: m => (a ^^^ b) :: xorBytes l m
  | [], m => m
  | l, [] => l

/-- Remove every memory entry and poison mark of the cells `lo` up to `hi`, so that they read 0. -/
def State.zeroRange (s : State) (lo hi : Nat) : State :=
  { s with
    mem := s.mem.filter (fun e => e.1 < lo || hi ≤ e.1)
    poison := s.poison.filter (fun l => l * 128 < lo || hi ≤ l * 128) }

/-- A full-line write with its poison tag (01_architecture.md R28). -/
def State.writeLine (s : State) (l : Nat) (d : List Byte) (poison : Bool) : State :=
  let s1 := s.setBytes (l * 128) (d.take 128)
  if poison then s1.poisonLine l else s1.unpoisonLine l

/-- A write of part of a granule: the enabled bytes merge, and stored poison stays (01_architecture.md R28). A poisoned
write poisons the line. -/
def State.writePart (s : State) (a mask : Nat) (d : List Byte) (poison : Bool) : State :=
  let s1 := s.setMasked a mask d
  if poison then (linesOf a d.length).foldl State.poisonLine s1 else s1

/-! ### Free values (log entry 4) -/

/-- The next `n` free bytes; the step that uses them advances the counter by `fresh`. -/
def State.freeBytes (s : State) (n : Nat) : List Byte := (List.range n).map (fun k => Config.freeByte (s.free + k))

/-- The next free number. -/
def State.freeNat (s : State) : Nat := Config.freeNat s.free

/-- The next free choice. -/
def State.freeBool (s : State) : Bool := Config.freeBool s.free

/-- Advance the counter of free values. -/
def State.fresh (s : State) (n : Nat := 1) : State := { s with free := s.free + n }

/-! ### Agents and the Roll -/

/-- The ID that means no agent (01_architecture.md R16). -/
def noAgent : Nat := 0x3FE

/-- First logical ID, first physical ID and physical count of each spared kind (01_architecture.md R12, R15). -/
def sparedKinds : List (Nat × Nat × Nat × Nat) :=
  [(0x000, 64, 0x200, 68), (0x040, 24, 0x250, 25), (0x058, 8, 0x269, 9), (0x060, 16, 0x280, 17), (0x0A0, 48, 0x2A0, 52)]

/-- Whether an ID is a logical ID of a spared kind. -/
def isSpared (a : Nat) : Bool := sparedKinds.any (fun k => k.1 ≤ a && a < k.1 + k.2.1)

/-- Whether an ID is a physical ID of a spared kind. -/
def isPhysId (a : Nat) : Bool := sparedKinds.any (fun k => k.2.2.1 ≤ a && a < k.2.2.1 + k.2.2.2)

/-- Whether an ID is allocated to an unspared agent (01_architecture.md R12). -/
def isFixedId (a : Nat) : Bool :=
  (0x070 ≤ a && a ≤ 0x097) || (0x100 ≤ a && a ≤ 0x16F) || a = 0x180 || (0x190 ≤ a && a ≤ 0x194) ||
  (0x1A0 ≤ a && a ≤ 0x1A7) || a = 0x1C0 || a = 0x1C1

/-- The physical agent that carries an ID: through the Roll for a logical ID of a spared kind, itself otherwise
(01_architecture.md R14, R15). -/
def State.physOf (s : State) (a : Nat) : Option Nat :=
  if isSpared a then
    (if s.roll.built && !s.roll.floorplan then (SMap.get? s.roll.map a).filter (· ≠ noAgent) else none)
  else if isPhysId a || isFixedId a then some a
  else none

/-- The agent that unit number `n` of a spared kind names: by its logical ID, and by its physical ID in floor-plan mode (18_bringup.md
R598). -/
def State.unitNo (s : State) (logical phys n : Nat) : Nat := if s.roll.floorplan then phys + n else logical + n

/-- Whether the unit that an item may name cannot serve: VACANT, or failed in floor-plan mode (18_bringup.md R597, R598). -/
def State.unitGone (s : State) (u : Nat) : Bool :=
  if s.roll.floorplan then isPhysId u && s.roll.bad.contains u else s.roll.built && (s.physOf u).isNone

/-- The good physical units of a range of physical IDs, in ascending order. -/
def State.goodUnits (s : State) (phys n : Nat) : List Nat := ((List.range n).map (phys + ·)).filter (fun a => !s.roll.bad.contains a)

/-- The logical ID that a physical agent carries. -/
def State.logicalOf (s : State) (p : Nat) : Option Nat :=
  if isPhysId p then (s.roll.map.find? (fun e => e.2 = p)).map (·.1) else some p

/-! ### Events -/

/-- Raise an event with its severity (19_faults_resets.md R614-R617), naming the agent concerned by its logical ID where
one exists; EVT_RECORD_WRITE writes its record. -/
def State.raise (s : State) (code sev agent : Nat) (arg0 : Nat := 0) (arg1 : Nat := 0) : State :=
  { s with evq := s.evq ++
      [{ code := code, sev := sev, agent := (s.logicalOf agent).getD agent, arg0 := arg0, arg1 := arg1, time := s.time }] }

/-! ### Domains -/

/-- The Stile domain of a physical agent (02_commons.md R57). -/
def agentDom (p : Nat) : Option Nat :=
  if 0x200 ≤ p && p ≤ 0x243 then some (p - 0x200)
  else if 0x250 ≤ p && p ≤ 0x271 then some (0x44 + (p - 0x250))
  else if 0x280 ≤ p && p ≤ 0x290 then some (0x66 + (p - 0x280))
  else if 0x2A0 ≤ p && p ≤ 0x2D3 then some (0x77 + (p - 0x2A0))
  else if 0x070 ≤ p && p ≤ 0x08F then some (0xAB + (p - 0x070) / 4)
  else if 0x090 ≤ p && p ≤ 0x097 then some (0xAB + (p - 0x090))
  else if 0x100 ≤ p && p ≤ 0x13F then some (0xB3 + (p - 0x100) / 8)
  else if 0x140 ≤ p && p ≤ 0x16F then some (0xBB + (p - 0x140))
  else none

/-- The agents of a Stile domain. -/
def domAgents (d : Nat) : List Nat :=
  if d ≤ 0x43 then [0x200 + d]
  else if d ≤ 0x65 then [0x250 + (d - 0x44)]
  else if d ≤ 0x76 then [0x280 + (d - 0x66)]
  else if d ≤ 0xAA then [0x2A0 + (d - 0x77)]
  else if d ≤ 0xB2 then (0x090 + (d - 0xAB)) :: (List.range 4).map (fun q => 0x070 + 4 * (d - 0xAB) + q)
  else if d ≤ 0xBA then (List.range 8).map (fun u => 0x100 + 8 * (d - 0xB3) + u)
  else if d ≤ 0xEA then [0x140 + (d - 0xBB)]
  else []

/-- Whether a domain exists: 0xEB and above do not, nor do stacks, sites and links that the package does not populate
(02_commons.md R61, 01_architecture.md R33). -/
def State.domExists (s : State) (d : Nat) : Bool :=
  if d ≤ 0xAA then true
  else if d ≤ 0xB2 then Nat.testBit (s.rd HUB_CONFIG_STACKS) (d - 0xAB)
  else if d ≤ 0xBA then Nat.testBit (s.rd HUB_CONFIG_SITES) (d - 0xB3)
  else if d ≤ 0xEA then Nat.testBit (s.rd HUB_CONFIG_LINKS) (d - 0xBB)
  else false

/-- Domain states by the numbers of COM_DOMAIN.STATE. -/
def domOpen : Nat := 0
def domDraining : Nat := 1
def domFenced : Nat := 2
def domOff : Nat := 3
def domOpening : Nat := 4

/-- The stored state of a domain; every existing domain is OFF after cold reset (COM_DOMAIN). -/
def State.domSt (s : State) (d : Nat) : Nat := SMap.getD s.com.dom d domOff

/-- Set a domain's state. -/
def State.setDom (s : State) (d st : Nat) : State :=
  { s with com := { s.com with dom := SMap.set domOff s.com.dom d st } }

/-! ### Network interfaces -/

/-- The interface of a physical agent. -/
def State.iface (s : State) (p : Nat) : Iface := SMap.getD s.com.ifaces p {}

/-- Change an interface. -/
def State.updIface (s : State) (p : Nat) (f : Iface → Iface) : State :=
  { s with com := { s.com with ifaces := SMap.upd {} s.com.ifaces p f } }

/-- Whether any agent of a domain is isolated (COM_DOMAIN.ISO). -/
def State.domIso (s : State) (d : Nat) : Bool := (domAgents d).any (fun a => (s.iface a).isolated)

/-- What COM_DOMAIN.STATE reads: 7 no such domain, 5 while an agent is isolated and the power is on. -/
def State.domState (s : State) (d : Nat) : Nat :=
  if !s.domExists d then 7
  else if s.domIso d && s.domSt d ≠ domOff then 5
  else s.domSt d

/-- The state that decides at a physical agent's interface (02_commons.md R58): 5 while the agent itself is isolated,
its domain's state, and OPEN for an agent of no domain. -/
def State.agentState (s : State) (p : Nat) : Nat :=
  if (s.iface p).isolated then 5
  else match agentDom p with
    | none => domOpen
    | some d => if s.domExists d then s.domSt d else 7

/-- Put a packet on the Commons. -/
def State.send (s : State) (p : Pkt) : State := { s with com := { s.com with out := s.com.out ++ [p] } }

/-- Take a packet off the Commons and out of the mesh. -/
def State.take (s : State) (p : Pkt) : State :=
  { s with com := { s.com with out := s.com.out.erase p, mesh := s.com.mesh.eraseP (fun h => h.p = p) } }

/-- The lowest transaction ID that an agent has free. -/
def State.freeTxn (s : State) (a : Nat) : Nat :=
  ((List.range 4096).find? (fun t =>
    (s.iface a).outstanding.all (fun q => q.txn ≠ t) && !(s.iface a).txnHold.contains t)).getD 0

/-- Whether a request is posted: WR, WR_LINE, WR_2LINE (02_commons.md R47), and EVICT_CLEAN, which has no answer
(04_coherence.md R106). -/
def isPosted (p : Pkt) : Bool := p.opc = 0x03 || p.opc = 0x04 || p.opc = 0x05 || p.opc = 0x14

/-- The opcode that answers a request (02_commons.md R47). -/
def answerOpc (p : Pkt) : Nat :=
  if isPosted p then 0x2B
  else if p.opc = 0x02 then 0x2A
  else if p.opc = 0x00 || p.opc = 0x01 || p.opc = 0x08 || p.opc = 0x09 || p.opc = 0x15 then 0x29
  else 0x28

/-- The answer packet to a request: TXN, TENANT and DEADLINE are the request's (02_commons.md R47). -/
def mkAnswer (p : Pkt) (src status : Nat) (data : List Byte) (poison : Bool) : Pkt :=
  { opc := answerOpc p, dst := p.src, src := src, txn := p.txn, status := status, data := data,
    tenant := p.tenant, deadline := p.deadline, stream := p.stream, poison := poison }

/-- Answer a request that agent `d` holds: its inbound entry is freed and its answer leaves. A posted write is answered
only when it fails (02_commons.md R51, R52). -/
def State.answer (s : State) (d : Nat) (p : Pkt) (status : Nat) (data : List Byte := []) (poison : Bool := false) :
    State :=
  let s1 := s.updIface d (fun i => { i with inbound := i.inbound.erase p })
  if isPosted p && status = 0 then s1 else s1.send (mkAnswer p d status data poison)

/-- An answer that never entered an inbound table: by the sender's own interface, or by the destination's interface on
the agent's behalf (02_commons.md R36). -/
def State.refuse (s : State) (d : Nat) (p : Pkt) (status : Nat) : State :=
  if p.opc = 0x14 then s else s.send (mkAnswer p d status [] false)

/-! ### Commons status codes (02_commons.md R56, 04_coherence.md R108, 05_hbm.md R143) -/

def stOk : Nat := 0x00
def stDecodeError : Nat := 0x01
def stDenied : Nat := 0x02
def stDomainDown : Nat := 0x03
def stTargetDead : Nat := 0x04
def stTimeout : Nat := 0x05
def stUnsupported : Nat := 0x06
def stWbPending : Nat := 0x20
def stSnpMiss : Nat := 0x21
def stSealedRo : Nat := 0x22
def stMemPoison : Nat := 0x80
def stGranPoison : Nat := 0x81
def stStackLost : Nat := 0x82
def stGranBusy : Nat := 0x83

end Sys2Proof.Machine
end

