-- ==== Sys2Proof/Machine/Atomics.lean ====
section
/-!
DEFINITION. Machine/Atomics.lean: the atomic operations (04_coherence.md R124, 03_memory_model.md R89).
-/

namespace Sys2Proof.Machine

/-- Two's complement reading of a pattern of `w` bits. -/
def sgn (w x : Nat) : Int := if 2 ^ (w - 1) ≤ x % 2 ^ w then ((x % 2 ^ w : Nat) : Int) - 2 ^ w else ((x % 2 ^ w : Nat) : Int)

/-- The new value of an atomic of `w` bits, none for a reserved operation (R124). -/
def atomNew (aop w old a b : Nat) : Option Nat :=
  match aop with
  | 0x0 => some a
  | 0x1 => some ((old + a) % 2 ^ w)
  | 0x2 => some (old &&& a)
  | 0x3 => some (old ||| a)
  | 0x4 => some (old ^^^ a)
  | 0x5 => some (if sgn w a < sgn w old then a else old)
  | 0x6 => some (if sgn w old < sgn w a then a else old)
  | 0x7 => some (min old a)
  | 0x8 => some (max old a)
  | 0x9 => some (if old = b then a else old)
  | 0xA =>
    let f := if w = 32 then fp32 else fp64
    some (f.convert .rne false 0 (addVal .rne (f.decode old) (f.decode a)).1).1
  | _ => none

/-- The fields of an atomic's payload: operation, size in bytes, operand A, operand B (R124). `mask` holds payload
bytes 15:8. -/
def atomOp (p : Pkt) : Nat := p.mask % 256
def atomSize (p : Pkt) : Nat := p.mask / 256 % 256
def atomA (p : Pkt) : Nat := leNat (p.data.take 8) % 2 ^ (8 * atomSize p)
def atomB (p : Pkt) : Nat := leNat ((p.data.drop 8).take 8) % 2 ^ (8 * atomSize p)

/-- Whether an atomic is well formed: a defined operation, size 4 or 8, a naturally aligned location (R124). -/
def atomOk (p : Pkt) : Bool :=
  decide (atomOp p ≤ 0xA) && (atomSize p = 4 || atomSize p = 8) && decide (p.addr % atomSize p = 0)

/-- Perform an atomic at a cell: the old value, its poison, and the state after. Where the old value is stored poisoned
nothing is written (03_memory_model.md R89). -/
def State.atomAt (s : State) (a : Nat) (p : Pkt) : Nat × Bool × State :=
  let n := atomSize p
  let old := leNat (s.bytes a n)
  if s.poisoned a n then (old, true, s)
  else match atomNew (atomOp p) (8 * n) old (atomA p) (atomB p) with
    | some v => (old, false, s.setBytes a (natLe n v))
    | none => (old, false, s)

end Sys2Proof.Machine
end

