-- ==== Sys2Proof/Machine/Operands.lean ====
section
/-!
DEFINITION. Machine/Operands.lean: how an address names its destination: the address map (01_architecture.md R17-R24),
the pseudo-channel hash (05_hbm.md R138), the spaces each agent may address (03_memory_model.md R69, R70) and the
interface that serves a register (01_architecture.md R666).
-/

namespace Sys2Proof.Machine

/-- The populated stacks in rising order; rank r is the r-th of them (05_hbm.md R137). -/
def State.populated (s : State) : List Nat := (List.range 8).filter (fun m => Nat.testBit (s.rd HUB_CONFIG_STACKS) m)

/-- log2 of the number of populated stacks, for 1, 2, 4 and 8 (05_hbm.md R137). -/
def log2Stacks (n : Nat) : Nat := if 8 ≤ n then 3 else if 4 ≤ n then 2 else if 2 ≤ n then 1 else 0

/-- Fold `x` into `p` bits by exclusive or, lowest part first (05_hbm.md R138). -/
def foldBits (p : Nat) : Nat → Nat → Nat
  | 0, _ => 0
  | k + 1, x => (x % 2 ^ p) ^^^ foldBits p k (x / 2 ^ p)

/-- Where an HPA of the HBM range lies: rank, pseudo-channel within the stack and LINE (05_hbm.md R138). -/
structure HbmLoc where
  rank : Nat
  pc : Nat
  line : Nat
  deriving DecidableEq, Repr

/-- The pseudo-channel hash with `n` = log2 of the stacks (05_hbm.md R138). -/
def hbmLoc (n hpa : Nat) : HbmLoc :=
  let p := 6 + n
  let g := hpa / 256
  let l := g / 2 ^ p
  let f := foldBits p 8 l
  let c := (g ^^^ f) % 2 ^ p
  let pc := c % 64
  { rank := c / 64, pc := pc, line := (l * 16 + pc % 16) * 2 + hpa / 128 % 2 }

/-- The location of an HPA in this hub. -/
def State.loc (s : State) (hpa : Nat) : HbmLoc := hbmLoc (log2Stacks s.populated.length) hpa

/-- The stack position of an HPA. -/
def State.stackOf (s : State) (hpa : Nat) : Nat := s.populated.getD (s.loc hpa).rank 0

/-- The home of an HPA: Hh with h = 4m + pc / 16 (05_hbm.md R138). -/
def State.homeOf (s : State) (hpa : Nat) : Nat := 4 * s.stackOf hpa + (s.loc hpa).pc / 16

/-- The snoop-filter set of an HPA's line: LINE[13:0] XOR LINE[27:14] (04_coherence.md R111). -/
def State.setOf (s : State) (hpa : Nat) : Nat :=
  ((s.loc hpa).line % 2 ^ 14) ^^^ ((s.loc hpa).line / 2 ^ 14 % 2 ^ 14)

/-- Installed capacity in bytes (01_architecture.md R34). -/
def State.hbmBytes (s : State) : Nat := s.rd HUB_HBM_SIZE_TOTAL_GIB * 2 ^ 30

/-- This hub's number. -/
def State.hubNo (s : State) : Nat := s.rd HUB_NUMBER_HUB

/-- The regions of the address map (01_architecture.md R17, R18, R20). -/
inductive Space where
  | hbm (hpa : Nat)
  | cellar (bank off : Nat)
  | scratch (tile off : Nat)
  | site (site : Nat)
  | csr (off : Nat)
  | remote (hub : Nat)
  | nowhere
  deriving DecidableEq, Repr

/-- The space of an HPA. The HBM range counts as inside the map while TOTAL_GIB is 0 (R20). In floor-plan mode 52
physical banks and 68 physical tiles are addressed (18_bringup.md R598). -/
def State.spaceOfHpa (s : State) (hpa : Nat) : Space :=
  if hpa < 0x8000000000 then
    if s.hbmBytes = 0 || hpa < s.hbmBytes then .hbm hpa else .nowhere
  else if 0x10000000000 ≤ hpa && hpa < 0x10000000000 + (if s.roll.floorplan then 52 else 48) * 0x800000 then
    .cellar ((hpa - 0x10000000000) / 0x800000) (hpa % 0x800000)
  else if 0x20000000000 ≤ hpa && hpa < 0x20000000000 + (if s.roll.floorplan then 68 else 64) * 0x1000000 then
    (if hpa % 0x1000000 < 0x200000 then .scratch ((hpa - 0x20000000000) / 0x1000000) (hpa % 0x1000000) else .nowhere)
  else if 0x40000000000 ≤ hpa && hpa < 0x40000000000 + 8 * 0x10000000000 then
    .site ((hpa - 0x40000000000) / 0x10000000000)
  else if 0xF0000000000 ≤ hpa && hpa < 0xF0010000000 then .csr (hpa - 0xF0000000000)
  else .nowhere

/-- The space of a global address (01_architecture.md R17). -/
def State.spaceOf (s : State) (addr : Nat) : Space :=
  if addr / 2 ^ 48 % 2 ^ 16 = s.hubNo then s.spaceOfHpa (addr % 2 ^ 48) else .remote (addr / 2 ^ 48 % 2 ^ 16)

/-- The kinds of agents that 03_memory_model.md R69 tells apart. -/
inductive AgentKind where
  | tile | mover | mill | site (n : Nat) | steward | host | link | home | stackCtl | xlt | keeper | bank | other
  deriving DecidableEq, Repr

/-- The kind of a physical agent. -/
def kindOf (p : Nat) : AgentKind :=
  if 0x200 ≤ p && p ≤ 0x243 then .tile
  else if 0x250 ≤ p && p ≤ 0x271 then .mover
  else if 0x280 ≤ p && p ≤ 0x290 then .mill
  else if 0x2A0 ≤ p && p ≤ 0x2D3 then .bank
  else if 0x070 ≤ p && p ≤ 0x08F then .home
  else if 0x090 ≤ p && p ≤ 0x097 then .stackCtl
  else if 0x100 ≤ p && p ≤ 0x13F then .site ((p - 0x100) / 8)
  else if 0x140 ≤ p && p ≤ 0x16F then .link
  else if p = 0x180 then .host
  else if 0x190 ≤ p && p ≤ 0x194 then .steward
  else if 0x1A0 ≤ p && p ≤ 0x1A7 then .xlt
  else if p = 0x1C0 || p = 0x1C1 then .keeper
  else .other

/-- The table of 03_memory_model.md R69. The row of the Loom control core is the tile's, its own scratchpad being
reached without the Commons. CSR space follows R22, not this table (R70). -/
def mayAddress (k : AgentKind) (sp : Space) : Bool :=
  match k, sp with
  | _, .csr _ => true
  | _, .nowhere => true
  | .tile, .hbm _ => true
  | .tile, .site _ => true
  | .tile, .remote _ => true
  | .mover, _ => true
  | .mill, _ => true
  | .site _, .hbm _ => true
  | .site _, .cellar _ _ => true
  | .site n, .site m => n ≠ m
  | .site _, .remote _ => true
  | .steward, _ => true
  | .host, .hbm _ => true
  | .link, .hbm _ => true
  | .link, .cellar _ _ => true
  | .home, .hbm _ => true
  | .stackCtl, .hbm _ => true
  | .xlt, .hbm _ => true
  | .keeper, .hbm _ => true
  | .keeper, .cellar _ _ => true
  | .keeper, .scratch _ _ => true
  | _, _ => false

/-- The interface that serves a register access, none for an offset in a reserved range (01_architecture.md R24,
R666). -/
def State.csrServer (s : State) (off : Nat) : Option Nat :=
  if off < 0x0100000 then some 0x1C1
  else if off < 0x0200000 then some 0x190
  else if off < 0x0300000 then some 0x1C1
  else if off < 0x0400000 then some 0x1A0
  else if off < 0x0800000 then some 0x1C1
  else if off < 0x0C00000 then
    let t := (off - 0x0800000) / 0x10000
    if s.roll.floorplan then some (0x200 + t) else some ((s.physOf t).getD 0x1C1)
  else if 0x0C30000 ≤ off && off < 0x0C40000 then some 0x1C1
  else if off < 0x0E00000 then some (0x090 + (off - 0x0C00000) / 0x40000)
  else if off < 0x1000000 then none
  else if off < 0x1800000 then some (0x100 + 8 * ((off - 0x1000000) / 0x100000))
  else if 0x1808000 ≤ off && off < 0x1810000 then some 0x1C1
  else if off < 0x1B00000 then some (0x140 + (off - 0x1800000) / 0x10000)
  else if off < 0x1B40000 then (if s.roll.floorplan then some (0x240 + (off - 0x1B00000) / 0x10000) else none)
  else if off < 0x1C00000 then none
  else if off < 0x1D00000 then some 0x1C1
  else if off < 0x1E00000 then some 0x180
  else if off < 0x1F00000 then some 0x1C0
  else if off < 0x2000000 then some 0x1C1
  else if off < 0x4000000 then none
  else if off < 0x8000000 then some 0x190
  else none

/-- Where a request goes: an answer by the sender's own interface, or a physical agent. -/
inductive Route where
  | answer (status : Nat)
  | toAgent (agent : Nat)
  deriving DecidableEq, Repr

/-- The physical unit that carries a logical ID in the Roll copy of an interface (01_architecture.md R12, 02_commons.md R65): while an update is
under way, the interfaces that have taken it hold the new entry and the others the old one. -/
def State.rollAt (s : State) (src a : Nat) : Option Nat :=
  match s.rve.swaps with
  | w :: _ => if w.sent && w.logical = a && w.took.contains src then w.spare else s.physOf a
  | [] => s.physOf a

/-- The route from an agent to a logical ID of a spared kind: DECODE_ERROR in floor-plan mode, DOMAIN_DOWN before the Roll is built, TARGET_DEAD where
the unit is VACANT (01_architecture.md R14, 18_bringup.md R597, R598). -/
def State.routeLogical (s : State) (src a : Nat) : Route :=
  if s.roll.floorplan then .answer stDecodeError
  else if !s.roll.built then .answer stDomainDown
  else match s.rollAt src a with
    | some p => .toAgent p
    | none => .answer stTargetDead

/-- The anchor that LNK_ANCHOR names for a remote hub, to which requests go: entry h[7:0] XOR h[15:8] (15_fabric_links.md R488). -/
def State.namedAnchor (s : State) (hub : Nat) : Nat :=
  let k := (hub % 256) ^^^ (hub / 256 % 256)
  0x140 + s.rd LNK_ANCHOR_LINK (k / 8) / 256 ^ (k % 8) % 64

/-- The anchor in effect for a remote hub: the one that holds a send context for it, else the one named (R488). -/
def State.anchorOf (s : State) (hub : Nat) : Nat := (SMap.get? s.fab.anchors hub).getD (s.namedAnchor hub)

/-- The route of a request by a physical agent to a global address. Before HUB_NUMBER locks, another hub is unreachable
(01_architecture.md R32). -/
def State.route (s : State) (src addr : Nat) : Route :=
  let sp := s.spaceOf addr
  if !mayAddress (kindOf src) sp then .answer stDecodeError
  else match sp with
    | .nowhere => .answer stDecodeError
    | .remote h => if s.flag HUB_NUMBER_LOCKED then .toAgent (s.namedAnchor h) else .answer 0x40
    | .hbm hpa => if s.hbmBytes = 0 then .answer stDomainDown else .toAgent (0x070 + s.homeOf hpa)
    | .cellar b _ =>
      if s.roll.floorplan then (if s.roll.bad.contains (0x2A0 + b) then .answer stTargetDead else .toAgent (0x2A0 + b))
      else s.routeLogical src (0x0A0 + b)
    | .scratch t _ =>
      if s.roll.floorplan then (if s.roll.bad.contains (0x200 + t) then .answer stTargetDead else .toAgent (0x200 + t))
      else s.routeLogical src t
    | .site n => .toAgent (0x100 + 8 * n + addr / 128 % 8)
    | .csr off => match s.csrServer off with
      | some a => .toAgent a
      | none => .answer stOk

/-- The cell in `mem` of an HPA: an HBM byte at its HPA, a Cellar byte by physical bank, a scratchpad byte by physical
tile, so that a spare that takes over a logical unit brings its own bytes (18_bringup.md R594). -/
def State.cell (s : State) (addr : Nat) : Option Nat :=
  match s.spaceOf addr with
  | .hbm hpa => some hpa
  | .cellar b off =>
    if s.roll.floorplan then some (0x10000000000 + b * 0x800000 + off)
    else (s.physOf (0x0A0 + b)).map (fun p => 0x10000000000 + (p - 0x2A0) * 0x800000 + off)
  | .scratch t off =>
    if s.roll.floorplan then some (0x20000000000 + t * 0x1000000 + off)
    else (s.physOf t).map (fun p => 0x20000000000 + (p - 0x200) * 0x1000000 + off)
  | _ => none

/-- First cell of the scratchpad of physical tile `t`. -/
def scratchCell (t : Nat) : Nat := 0x20000000000 + t * 0x1000000

/-- First cell of physical Cellar bank `b`. -/
def cellarCell (b : Nat) : Nat := 0x10000000000 + b * 0x800000

end Sys2Proof.Machine
end

