-- ==== Sys2Proof/Machine/Sealing.lean ====
section
/-!
DEFINITION. Machine/Sealing.lean: who may read sealed data: Granary blocks and confined pools (17_security.md
R541-R543, R565, R572, R573), and the Ledger's refusal records (R581).
-/

namespace Sys2Proof.Machine

/-- The poison pattern at `n` bytes from address `a` on: every 8-byte word is 0x7FC0_0000_7FC0_0000 (17_security.md R543). -/
def poisonAt (a n : Nat) : List Byte := (List.range n).map (fun k =>
  if (a + k) % 4 = 2 then 0xC0 else if (a + k) % 4 = 3 then 0x7F else 0)

/-- The poison pattern, `n` bytes of it from an aligned address. -/
def poisonPattern (n : Nat) : List Byte := poisonAt 0 n

/-- The Granary block of an HPA: HPA[47:26] (05_hbm.md R144). -/
def blockOf (hpa : Nat) : Nat := hpa / 2 ^ 26

/-- Whether a block lies in the Granary of HBM_GRAN_CFG (05_hbm.md R144). -/
def State.inGranary (s : State) (b : Nat) : Bool :=
  decide (s.rd HBM_GRAN_CFG_FIRST ≤ b) && decide (b < s.rd HBM_GRAN_CFG_FIRST + s.rd HBM_GRAN_CFG_COUNT)

/-- A Granary block. -/
def State.gblock (s : State) (b : Nat) : GBlock := SMap.getD s.hbm.gran b {}

/-- Change a Granary block. -/
def State.updBlock (s : State) (b : Nat) (f : GBlock → GBlock) : State :=
  { s with hbm := { s.hbm with gran := SMap.upd {} s.hbm.gran b f } }

/-- The segment of an HPA in its block, 7 holding parity (05_hbm.md R144). -/
def segmentOf (hpa : Nat) : Nat := hpa / 2 ^ 23 % 8

/-- The 2 MiB page of an HPA within its block (05_hbm.md R144). -/
def pageInBlock (hpa : Nat) : Nat := hpa / 2 ^ 21 % 32

/-- The model whose blocks hold block `b` (17_security.md R565). -/
def State.modelOf (s : State) (b : Nat) : Option Nat :=
  (List.range 32).find? (fun e => decide (s.rd VST_MODEL_STATE e ≠ 0) && decide (s.rd VST_MODEL_FIRST e ≤ b) &&
    decide (b < s.rd VST_MODEL_FIRST e + s.rd VST_MODEL_COUNT e))

/-- Whether model `e` is mapped into tenant `t` (17_security.md R565). -/
def State.mapped (s : State) (t e : Nat) : Bool := Nat.testBit (s.rd VST_TENANT_MODELS t) e

/-- Whether a tenant is sealed (17_security.md R569). -/
def State.sealedTenant (s : State) (t : Nat) : Bool := s.flag VST_TENANT_SEALED t

/-- Bytes of a pool. -/
def State.poolBytes (s : State) (p : Nat) : Nat :=
  s.rd STW_POOL_CFG_COUNT p * 2 ^ s.rd STW_POOL_CFG_MAXORD p * 65536

/-- First HPA of a pool. -/
def State.poolBase (s : State) (p : Nat) : Nat := s.rd STW_POOL_CFG_BASE p * 65536

/-- The pool that is not EMPTY and holds an HPA (12_steward_resources.md R390). -/
def State.poolOf (s : State) (hpa : Nat) : Option Nat :=
  (List.range 32).find? (fun p => decide (s.rd STW_POOL_CFG_STATE p ≠ 0) && decide (s.poolBase p ≤ hpa) &&
    decide (hpa < s.poolBase p + s.poolBytes p))

/-- The sealed tenant whose confined pool holds an HPA (17_security.md R573). -/
def State.confined (s : State) (hpa : Nat) : Option Nat :=
  match s.poolOf hpa with
  | some p => if s.sealedTenant (s.rd STW_POOL_CFG_TENANT p) then some (s.rd STW_POOL_CFG_TENANT p) else none
  | none => none

/-- Whether site `n` holds the sealed-access right for tenant `t` (14_sites.md SITE_SEAL). -/
def State.siteRight (s : State) (n t : Nat) : Bool :=
  decide (1 ≤ t) && Nat.testBit (s.rd SITE_SEAL_RIGHTS n) (t - 1)

/-- Whether the sender's interface stamps SEALED: never for tenant 0 (01_architecture.md R26); for a tile of the sealed
tenant that owns it, for movers and the Steward acting for an item of a sealed tenant, and for a site that holds the
right (17_security.md R542, R572). -/
def State.stampSealed (s : State) (src t : Nat) : Bool :=
  decide (t ≠ 0) &&
  match kindOf src with
  | .site n => s.siteRight n t
  | .tile => s.sealedTenant t && decide (s.rd LOOM_STAT_OWNER (src - 0x200) = t)
  | .mover => s.sealedTenant t
  | .steward => s.sealedTenant t
  | _ => false

/-- The reserve region of the Steward (12_steward_resources.md R388): its base, 0 bytes where it is not in use. -/
def State.inReserve (s : State) (hpa : Nat) : Bool :=
  s.flag STW_RSV_VALID && decide (s.rd STW_RSV_BASE * 2 ^ 28 ≤ hpa) &&
  decide (hpa < s.rd STW_RSV_BASE * 2 ^ 28 + 2 ^ 28)

/-- The directory region of the Vestry (17_security.md R568). -/
def State.inVstDir (s : State) (hpa : Nat) : Bool :=
  decide (28 ≤ s.rd VST_DIR_LOG2SIZE ∧ s.rd VST_DIR_LOG2SIZE ≤ 34) && decide (s.rd VST_DIR_BASE * 2 ^ 28 ≤ hpa) &&
  decide (hpa < s.rd VST_DIR_BASE * 2 ^ 28 + 2 ^ s.rd VST_DIR_LOG2SIZE)

/-- The closed world of a sealed tenant: where its tiles, movers and Steward items may go (17_security.md R572). -/
def State.worldAllows (s : State) (t : Nat) (write : Bool) (addr : Nat) : Bool :=
  match s.spaceOf addr with
  | .hbm hpa =>
    decide (s.confined hpa = some t) ||
    (!write && s.inReserve hpa) ||
    (!write && s.inGranary (blockOf hpa) && (match s.modelOf (blockOf hpa) with
      | some e => s.mapped t e
      | none => false))
  | .cellar _ _ => decide (s.confined (addr % 2 ^ 48) = some t)
  | .scratch n _ => decide (s.rd LOOM_STAT_OWNER (((s.physOf (s.unitNo 0 0x200 n)).getD 0x200) - 0x200) = t)
  | .site n => s.siteRight n t
  | _ => false

/-- Whether the sender's interface refuses a request of a sealed tenant with DENIED (17_security.md R572). The requests of a WEIGHT_CHUNK are
not refused: R563 has them read the staged chunk and the directory, and write the block (log entry 61). -/
def State.worldDenies (s : State) (p : Pkt) (src : Nat) : Bool :=
  p.note ≠ 4 && p.note ≠ 5 &&
  (match kindOf src with
   | .tile => s.stampSealed src p.tenant
   | .mover => s.stampSealed src p.tenant
   | .steward => s.stampSealed src p.tenant
   | _ => false) &&
  !s.worldAllows p.tenant (p.opc ≠ 0x00 && p.opc ≠ 0x01 && p.opc ≠ 0x02) p.addr

/-- The path code of a refusal record (17_security.md R579): 0 BAR2, 1 CXL.mem, 2 a link window, 3 debug, 4 another agent. -/
def refusalPath (p : Pkt) : Nat :=
  match kindOf p.src with
  | .host => if p.note = 1 then 0 else 1
  | .link => 2
  | .keeper => 3
  | _ => 4

/-- The life-cycle state: 0 BLANK, 1 TEST, 2 PRODUCTION, 3 END_OF_LIFE, one above the transitions that are DONE (R548-R550). -/
def State.lcState (s : State) : Nat := ((List.range 3).filter (fun k => Nat.testBit s.vst.otp.fin k)).length

/-- Records that the Ledger's flash region holds, and those of them kept for anchored records (R579, R581, 20_management_power.md R642). -/
def ledgerRoom : Nat := 131072
def ledgerReserve : Nat := 64

/-- Records that no later record may overwrite yet: those that the driver has not exported (R579). -/
def State.ledgerUsed (s : State) : Nat := (s.ledger.nextSeq + 2 ^ 32 - s.rd LDG_PTR_EXPORTED) % 2 ^ 32

/-- Append a Ledger record: before PRODUCTION every record is anchored (R579), and one without an anchor is dropped and counted while flash holds no free
record for it (R581). -/
def State.ledgerPut (s : State) (r0 : LedgerRec) : State :=
  let r := { r0 with anchored := r0.anchored || s.lcState < 2 }
  if !r.anchored && ledgerRoom - ledgerReserve ≤ s.ledgerUsed then s.inc LDG_STAT_DROPPED 0 1
  else
    { s with ledger := { s.ledger with
        sram := s.ledger.sram ++ [{ r with seq := s.ledger.nextSeq, bell := s.time }]
        nextSeq := s.ledger.nextSeq + 1
        sinceCp := s.ledger.sinceCp + 1 } }

/-- A checkpoint and, in PRODUCTION, the two records of its AK-E signature (R579, R581); its ARG is the count of dropped records, its own
SEQ where none was dropped (log entry 62). -/
def State.checkpoint (s : State) : State :=
  let n := s.ledger.nextSeq
  let sig := (Config.akSign n).take 96 ++ List.replicate (96 - (Config.akSign n).length) 0
  let s1 := s.ledgerPut { kind := 7, arg := if s.rd LDG_STAT_DROPPED = 0 then n else s.rd LDG_STAT_DROPPED }
  let s2 := if s.lcState = 2 then (s1.ledgerPut { kind := 8, sig := sig.take 48 }).ledgerPut { kind := 8, sig := sig.drop 48 } else s1
  { s2 with ledger := { s2.ledger with sinceCp := 0 } }

/-- Append a record, with a checkpoint after every 256 records once the signing key exists (R579, R581). -/
def State.ledgerAdd (s : State) (r : LedgerRec) : State :=
  let s1 := s.ledgerPut r
  if 256 ≤ s1.ledger.sinceCp && s1.lcState = 2 then s1.checkpoint else s1

/-- Write a refusal to the Ledger: one record for each path, tenant and 2 MiB page in a second, later refusals raising
its COUNT (17_security.md R581). -/
def State.ledgerRefusal (s0 : State) (path tenant hpa : Nat) : State :=
  let s := s0.inc VST_STAT_REFUSALS 0 1
  let same (r : LedgerRec) : Bool :=
    decide (r.kind = 5 ∧ r.path = path ∧ r.tenant = tenant ∧ r.arg / 2 ^ 21 = hpa / 2 ^ 21 ∧
      r.bell / 1000000000 = s.time / 1000000000)
  if s.ledger.sram.any same then
    { s with ledger := { s.ledger with
        sram := s.ledger.sram.map (fun r => if same r then { r with count := satAdd r.count 1 (2 ^ 32 - 1) } else r) } }
  else s.ledgerAdd { kind := 5, path := path, tenant := tenant, arg := hpa }

/-- What a home or bank answers to a read, before its data: the data itself, the poison pattern, or a status. -/
inductive SealVerdict where
  | data | pattern | granPoison | status (st : Nat)
  deriving DecidableEq, Repr

/-- The verdict on a read of an HBM HPA or Cellar HPA by a request that carries `sealed` for `tenant`: the states of
05_hbm.md R147 and R150, refusals of R146 and R127, and the paths of 17_security.md R542. -/
def State.readVerdict (s : State) (hpa tenant : Nat) (sealed : Bool) : SealVerdict :=
  let b := blockOf hpa
  if decide (hpa < 0x8000000000) && s.inGranary b then
    if segmentOf hpa = 7 then .pattern
    else
      let may : Bool := sealed && (match s.modelOf b with
        | some e => s.mapped tenant e
        | none => false)
      if !may then .pattern
      else
        let g := s.gblock b
        if s.hbm.poisonPages.contains (hpa / 2 ^ 21) then .granPoison
        else if g.st = 3 then .data
        else if g.st = 5 then (if g.page = some (pageInBlock hpa) then .granPoison else .data)
        else .status stGranBusy
  else match s.confined hpa with
    | some t => if sealed && tenant = t then .data else .pattern
    | none => .data

/-- Whether a write of an HBM or Cellar HPA is refused SEALED_RO: a Granary block takes only full-line writes from a
chain mover sealing for the block's tenant, in the states of 05_hbm.md R147; a confined pool takes writes that carry
SEALED for its tenant (17_security.md R573). `sealing` says that the writer is such a chain mover. -/
def State.writeRefused (s : State) (hpa tenant : Nat) (sealed sealing full : Bool) : Bool :=
  let b := blockOf hpa
  if decide (hpa < 0x8000000000) && s.inGranary b then
    let g := s.gblock b
    let mine : Bool := match s.modelOf b with
      | some e => s.mapped tenant e
      | none => false
    !(sealing && mine && full && decide (segmentOf hpa ≠ 7) &&
      (decide (g.st = 1) || (decide (g.st = 5) && decide (g.page = some (pageInBlock hpa)))))
  else match s.confined hpa with
    | some t => !(sealed && tenant = t)
    | none => false

end Sys2Proof.Machine
end

