-- ==== Sys2Proof/Machine/Packets.lean ====
section
/-!
DEFINITION. Machine/Packets.lean: the header, the forms and the networks of packets (02_commons.md R41, R45-R47, R107).
-/

namespace Sys2Proof.Machine

/-- The virtual networks (R41). -/
inductive Net where
  | req | snp | rsp | ctl
  deriving DecidableEq, Repr

/-- Their numbers in round-robin order; CTL goes before them. -/
def Net.no : Net → Nat
  | .req => 0
  | .snp => 1
  | .rsp => 2
  | .ctl => 3

/-- The network of an opcode (R47). -/
def netOf (opc : Nat) : Net :=
  if opc < 0x20 then .req else if opc < 0x28 then .snp else if opc < 0x30 then .rsp else .ctl

/-- The forms of packets (R46); responses have none. -/
inductive Form where
  | line | address | plain
  deriving DecidableEq, Repr

/-- The form of an opcode (R47, 04_coherence.md R106). -/
def formOf (opc : Nat) : Form :=
  if opc = 0x01 || opc = 0x02 || opc = 0x04 || opc = 0x05 || opc = 0x07 || (0x10 ≤ opc && opc ≤ 0x14) || (0x20 ≤ opc && opc ≤ 0x27) then .line
  else if 0x28 ≤ opc && opc ≤ 0x2F then .plain
  else .address

/-- The flits of an opcode (R47). -/
def flitsOf (opc : Nat) : Nat := if opc = 0x05 || opc = 0x2A then 2 else 1

/-- The flits of the response to a non-posted request, for which its interface has room before it issues the request (R42). -/
def respFlits (p : Pkt) : Nat := if isPosted p then 0 else if p.opc = 0x02 then 2 else 1

/-- The room of an interface for responses: the whole responses of its 4,096 outstanding requests (R42, R50). -/
def respRoom : Nat := 8192

/-- The room that an interface's outstanding requests have reserved (R42). -/
def Iface.reserved (i : Iface) : Nat := (i.outstanding.map respFlits).foldl (· + ·) 0

/-- Header bits 27:0 (R45, R107): LINE in line form; STATUS and the coherence fields on RSP; reserved in address form. -/
def pktLow (p : Pkt) : BitVec 28 :=
  match formOf p.opc with
  | .line => BitVec.ofNat 28 p.line
  | .plain => BitVec.ofNat 8 p.status ++ BitVec.ofNat 2 p.keep ++ BitVec.ofBool p.near ++ BitVec.ofBool p.withData ++ BitVec.ofNat 16 0
  | .address => 0

/-- The header of a packet (R45). -/
def pktHeader (p : Pkt) : BitVec 96 :=
  BitVec.ofNat 10 p.dst ++ BitVec.ofNat 10 p.src ++ BitVec.ofNat 12 p.txn ++ BitVec.ofNat 6 p.opc ++ BitVec.ofNat 6 p.tenant ++
  BitVec.ofNat 3 p.cls ++ BitVec.ofNat 16 p.deadline ++ BitVec.ofBool p.vol ++ BitVec.ofBool p.noalloc ++ BitVec.ofBool p.poison ++
  BitVec.ofBool p.sealed ++ BitVec.ofBool p.ordered ++ pktLow p

/-- The fields that a header spells (R45, R107). -/
def ofHeader (h : BitVec 96) : Pkt :=
  let opc := bitsOf' h 63 58
  let f := formOf opc
  { dst := bitsOf' h 95 86, src := bitsOf' h 85 76, txn := bitsOf' h 75 64, opc := opc, tenant := bitsOf' h 57 52, cls := bitsOf' h 51 49
    deadline := bitsOf' h 48 33, vol := h.getLsbD 32, noalloc := h.getLsbD 31, poison := h.getLsbD 30, sealed := h.getLsbD 29
    ordered := h.getLsbD 28, line := if f = .line then bitsOf' h 27 0 else 0, status := if f = .plain then bitsOf' h 27 20 else 0
    keep := if f = .plain then bitsOf' h 19 18 else 0, near := f = .plain && h.getLsbD 17, withData := f = .plain && h.getLsbD 16 }
where
  /-- Bits `hi` to `lo`. -/
  bitsOf' (h : BitVec 96) (hi lo : Nat) : Nat := h.toNat / 2 ^ lo % 2 ^ (hi - lo + 1)

/-- The first 80 bytes of an address-form payload (R46): ADDR, MASK or LEN, and the data. The rest is 0. -/
def pktPayload (p : Pkt) : List Byte :=
  let arg := if p.opc = 0x00 then natLe 8 ((p.len - 1) % 256) else if p.opc = 0x08 || p.opc = 0x15 then natLe 8 (p.mask % 65536) else natLe 8 p.mask
  natLe 8 p.addr ++ arg ++ p.data.take 64 ++ zeros (64 - p.data.length)

/-- Whether a request is a flush probe, which carries out a fence and waits for none (03_memory_model.md R85). -/
def isProbe (p : Pkt) : Bool := p.opc = 0x06 && p.mask = 0

/-- Whether a request's flit is malformed, which no agent may send (R46, R47, R66, 03_memory_model.md R77): a read that is not 1 to 128 bytes of
one granule, a write of more than 64 bytes or of none, or two lines of which the first is odd. -/
def malformed (p : Pkt) : Bool :=
  if p.opc = 0x00 then p.len = 0 || 128 < p.addr % 128 + p.len
  else if p.opc = 0x03 || p.opc = 0x06 then
    64 < p.data.length || 128 < p.addr % 128 + p.data.length || (p.opc = 0x03 && p.mask % 2 ^ p.data.length = 0)
  else if p.opc = 0x02 || p.opc = 0x05 then p.addr % 256 ≠ 0
  else false

end Sys2Proof.Machine
end

