-- ==== Sys2Proof/Machine/SiteTx.lean ====
section
/-!
DEFINITION. Machine/SiteTx.lean: what leaves the hub's bumps: messages to site logic with the credits of their slots
(14_sites.md R441-R447), and TLPs on the host bus.
-/

namespace Sys2Proof.Machine

/-! ### Messages to site logic -/

/-- A site. -/
def State.site (s : State) (n : Nat) : Site := SMap.getD s.sites n {}

/-- Change a site. -/
def State.updSite (s : State) (n : Nat) (f : Site → Site) : State :=
  { s with sites := SMap.upd {} s.sites n f }

/-- A slot of a site. -/
def State.slot (s : State) (n u : Nat) : Slot := SMap.getD (s.site n).slots u {}

/-- Change a slot of a site. -/
def State.updSlot (s : State) (n u : Nat) (f : Slot → Slot) : State :=
  s.updSite n (fun x => { x with slots := SMap.upd {} x.slots u f })

/-- The site and slot of a module agent. -/
def siteOf (a : Nat) : Nat := (a - 0x100) / 8
def slotOf (a : Nat) : Nat := (a - 0x100) % 8

/-- The agent of a slot. -/
def moduleAgent (n u : Nat) : Nat := 0x100 + 8 * n + u

/-- Data chunks of a message (R441). -/
def msgLen (m : StlMsg) : Nat := (m.data.length + 15) / 16

/-- The credit class of a hub-to-site type: 0 REQ, 1 SNP, 2 RSP, 3 none (R443). -/
def txClass (typ : Nat) : Nat :=
  if typ = 0x3F then 3 else if 0x28 ≤ typ && typ ≤ 0x2A then 1 else if 0x30 ≤ typ then 0 else 2

/-- Whether a slot holds the credits for a message (R446); the link of a chiplet in CXL mode has none. -/
def Slot.hasCredit (x : Slot) (m : StlMsg) : Bool :=
  x.cxl || match txClass m.typ with
  | 0 => decide (1 ≤ x.reqH) && decide (msgLen m ≤ x.reqD)
  | 1 => decide (1 ≤ x.snpH)
  | 2 => decide (1 ≤ x.rspH) && decide (msgLen m ≤ x.rspD)
  | _ => true

/-- Spend the credits of a message. -/
def Slot.spend (x : Slot) (m : StlMsg) : Slot :=
  if x.cxl then x else match txClass m.typ with
  | 0 => { x with reqH := x.reqH - 1, reqD := x.reqD - msgLen m }
  | 1 => { x with snpH := x.snpH - 1 }
  | 2 => { x with rspH := x.rspH - 1, rspD := x.rspD - msgLen m }
  | _ => x

/-- The posted window write that a W_WR message ends, the one whose last part has its tag, or the flush probe that a W_WRN is. -/
def Slot.reqEnd (x : Slot) (m : StlMsg) : Option Pkt :=
  if m.typ = 0x31 || m.typ = 0x32 then (x.wins.find? (fun w => w.tag = m.tag && w.last && (isPosted w.req || isProbe w.req))).map (·.req)
  else none

/-- Note a message of class REQ whose header credit is to come back. -/
def Slot.noteReq (x : Slot) (m : StlMsg) : Slot :=
  if txClass m.typ = 0 then { x with reqSent := x.reqSent ++ [x.reqEnd m] } else x

/-- The message leaves for site logic; ALT marks the slot of a folded module (R437). -/
def State.siteEmit (s : State) (n u : Nat) (m : StlMsg) : State :=
  let alt := s.rd SITE_MOD_CARRIER (8 * n + u) ≠ u && Nat.testBit (s.rd SITE_STAT_FOLD n) u
  let b := (s.site n).outB + m.data.length
  ((s.updSlot n u (fun x => x.noteReq m)).updSite n (fun x =>
    { x with tx := x.tx ++ [(u, { m with alt := alt })], outB := b % 1024 })).inc SITE_CNT_OUT_KB n (b / 1024)

/-- Site logic has performed a posted window write: its inbound entry frees (02_commons.md R51). -/
def State.postedDone (s : State) (n u : Nat) (o : Option Pkt) : State :=
  match o with
  | some p => if isPosted p then s.updIface (moduleAgent n u) (fun i => { i with inbound := i.inbound.erase p }) else s
  | none => s

/-- Site logic returns `k` REQ headers, in the order of their messages: the posted writes that these end are performed (log entry 8). -/
def State.reqReturned (s : State) (n u k : Nat) : State :=
  (((s.slot n u).reqSent.take k).foldl (fun t o => t.postedDone n u o) s).updSlot n u (fun x => { x with reqSent := x.reqSent.drop k })

/-- Site logic answers a flush probe only after every earlier W_WR of the slot is performed (R450). -/
def State.probeCovers (s : State) (n u : Nat) (p : Pkt) : State :=
  let l := (s.slot n u).reqSent
  if !l.contains (some p) then s
  else
    let k := l.idxOf (some p)
    ((l.take k).foldl (fun t o => t.postedDone n u o) s).updSlot n u (fun x => { x with reqSent := List.replicate k none ++ x.reqSent.drop k })

/-- Site logic has answered a posted window write: its header credit ends nothing any more. -/
def State.postedEnded (s : State) (n u : Nat) (p : Pkt) : State :=
  s.updSlot n u (fun x => { x with reqSent := x.reqSent.map (fun o => if o = some p then none else o) })

/-- Send a message on a slot: it waits behind an earlier one of its class that waits for credit (R446). -/
def State.siteSend (s : State) (n u : Nat) (m : StlMsg) : State :=
  let x := s.slot n u
  if x.waiting.any (fun w => txClass w.typ = txClass m.typ) || !x.hasCredit m then
    s.updSlot n u (fun y => { y with waiting := y.waiting ++ [m] })
  else (s.updSlot n u (fun y => y.spend m)).siteEmit n u m

/-- The first waiting message that its class's credits allow and that waits behind none of its class. -/
def nextWaiting (x : Slot) : List StlMsg → List Nat → Option StlMsg
  | [], _ => none
  | m :: l, stuck =>
    if stuck.contains (txClass m.typ) then nextWaiting x l stuck
    else if x.hasCredit m then some m else nextWaiting x l (txClass m.typ :: stuck)

/-- Send the waiting messages that the credits now allow. -/
def State.siteDrain (n u : Nat) : Nat → State → State
  | 0, s => s
  | k + 1, s =>
    let x := s.slot n u
    match nextWaiting x x.waiting [] with
    | some m =>
      State.siteDrain n u k
        ((s.updSlot n u (fun y => { y.spend m with waiting := y.waiting.erase m })).siteEmit n u m)
    | none => s

/-- The next tag of a slot that no window access or snoop uses. -/
def Slot.freeTag (x : Slot) : Nat :=
  ((List.range 4096).find? (fun k =>
    let t := (x.nextTag + k) % 4096
    x.wins.all (fun w => w.tag ≠ t || isPosted w.req) && x.snps.all (fun w => w.1 ≠ t))).elim 0 (fun k => (x.nextTag + k) % 4096)

/-! ### The host bus -/

/-- Put a TLP on the host bus; it is performed as it is issued (03_memory_model.md R73). -/
def State.hostSend (s : State) (t : HostTlp) : State := { s with hep := { s.hep with bus := s.hep.bus ++ [t] } }

end Sys2Proof.Machine
end

