-- ==== Sys2Proof/Machine/Sluice.lean ====
section
/-!
DEFINITION. Machine/Sluice.lean: partitions, token buckets and the windows of the Sluice's regulators (13_sluice.md R419-R432).
-/

namespace Sys2Proof.Machine

/-! A bucket is kept as its deficit: how far it stands below its depth, in 1/163,840 byte, so that every rate of R423 and R427 refills
it by a whole number each 8 ns. -/

/-- Units in a byte. -/
def sluByte : Nat := 163840

/-- A committed setting (R433). -/
def State.act (s : State) (f : RF) (i : Nat) : Nat := bitsOf (SMap.getD s.slu.act (f.reg.off i) (f.reg.resetAt i)) f.hi f.lo

/-- The partition of a request's tenant and class (R422). -/
def State.partOf (s : State) (p : Pkt) : Nat := s.act SLU_MAP_PART (p.tenant % 64) / 16 ^ (p.cls % 8) % 16

/-- Keys of regulators and what they regulate: home and partition, or port, direction and class. A site's regulator runs in its eight modules, each with
buckets of its own (R428). -/
def homeKey (h p : Nat) : Nat := h * 16 + p
def portKey (k d c : Nat) : Nat := 100000 + (k * 2 + d) * 8 + c
def moduleKey (k u d c : Nat) : Nat := 1000000 * (u + 1) + portKey k d c

/-- The regulator to which a bucket belongs. -/
def baseKey (key : Nat) : Nat := key % 1000000

/-- The depth of a bucket in bytes (R424): BURST_KB 0 acts as 1. -/
def State.sluDepth (s : State) (key : Nat) : Nat :=
  let k := baseKey key
  1024 * max 1 (if k < 100000 then s.act SLU_PART_BURST_KB (k % 16) else s.act SLU_PORT_BURST_KB (k - 100000))

/-- The rate of a home or a port, in units for each 8 ns and step of its MIN and MAX (R423, R427). A home's follows the step cap; a module's is one
eighth of its site's (R428). -/
def State.sluRateAt (s : State) (key step : Nat) : Nat :=
  if baseKey key < 100000 then 512 * (SMap.getD s.hbm.stks (key / 64 % 8) {}).rate * (4 - min 3 step)
  else
    let k := (baseKey key - 100000) / 16
    let bytes := if k < 8 then (match s.rd SITE_STAT_RATE_NOW k with | 0 => 2048 * 8 | 1 => 3072 * 8 | _ => 4096 * 8)
      else if s.rd LNK_CFG_MODE (k - 8) = 0 then 896 else 850
    if 1000000 ≤ key then bytes * 80 else bytes * 640
def State.sluRate (s : State) (key : Nat) : Nat := s.sluRateAt key (s.rd HBM_STAT_STEP (key / 64 % 8))

/-- MIN and MAX of a regulated partition or class. -/
def State.sluMin (s : State) (key : Nat) : Nat :=
  let k := baseKey key
  if k < 100000 then s.act SLU_PART_MIN (k % 16) else s.act SLU_PORT_MIN (k - 100000)
def State.sluMax (s : State) (key : Nat) : Nat :=
  let k := baseKey key
  if k < 100000 then s.act SLU_PART_MAX (k % 16) else min 256 (s.act SLU_PORT_MAX (k - 100000))

/-- The slack of a request in 64 ns (01_architecture.md R27). -/
def State.slack (s : State) (p : Pkt) : Nat := (p.deadline + 65536 - s.time / 64 % 65536) % 65536

/-- Whether a request is overdue (01_architecture.md R27). -/
def State.overdue (s : State) (p : Pkt) : Bool := decide (32768 ≤ s.slack p)

/-- Whether a request is urgent (R419). -/
def State.urgent (s : State) (p : Pkt) : Bool := s.rd SLU_CTL_URGENT ≠ 0 && decide (s.slack p ≤ s.rd SLU_CTL_URGENT)

/-- A number that is smaller for an earlier deadline, overdue ones first. -/
def State.dueKey (s : State) (p : Pkt) : Nat := (s.slack p + 32768) % 65536

/-- Whether a bucket's X stands below zero while its MAX regulates it (R425). -/
def State.exhausted (s : State) (key : Nat) : Bool :=
  decide (s.sluDepth key * sluByte < SMap.getD s.slu.x key 0) && !(baseKey key < 100000 && s.sluMax key = 4096)

/-- Whether the G bucket of a regulator stands above zero. -/
def State.guaranteed (s : State) (key : Nat) : Bool := decide (SMap.getD s.slu.g key 0 < s.sluDepth key * sluByte)

/-- The rank of a request at its regulator (R425, R428): 0 urgent or overdue, 1 within its guarantee, 2 the others. -/
def State.rankOf (s : State) (key : Nat) (p : Pkt) : Nat :=
  if s.urgent p || s.overdue p then 0 else if s.guaranteed key then 1 else 2

/-- The place of a request in the order of R425 and R428, the smallest first: by rank; the first rank by deadline, the others by class and then by
deadline. -/
def State.placeInOrder (s : State) (key : Nat) (p : Pkt) : Nat :=
  match s.rankOf key p with
  | 0 => s.dueKey p
  | r => 65536 * (8 * r + 7 - p.cls % 8) + s.dueKey p

/-- A regulator serves `n` bytes of a request from the buckets `key`: both are drawn on, and the window's counts rise (R424, R429, R430). -/
def State.sluCharge (s : State) (key cls n : Nat) (excess : Bool) : State :=
  let u := n * sluByte
  let ok := if baseKey key < 100000 then key / 16 * 8 + cls % 8 else baseKey key
  let excess' := if excess then SMap.upd 0 s.slu.excess ok (· + 1) else s.slu.excess
  { s with slu := { s.slu with
      g := SMap.upd 0 s.slu.g key (· + u)
      x := SMap.upd 0 s.slu.x key (· + u)
      served := SMap.upd 0 s.slu.served (baseKey key) (· + n)
      excess := excess' } }

/-- An access served by a home: 128 or 256 bytes (R424). -/
def State.chargeHome (s : State) (h : Nat) (p : Pkt) : State :=
  s.sluCharge (homeKey h p.part) p.cls (if p.opc = 0x02 || p.opc = 0x05 then 256 else 128) (s.overdue p)

/-- The buckets at a port for a request of module `u` of a site, or of a link (R427, R428): `d` is 0 for IN, 1 for OUT. -/
def portBucket (k u d : Nat) (p : Pkt) : Nat := if k < 8 then moduleKey k u d (p.cls % 8) else portKey k d (p.cls % 8)

/-- A request passes a port. -/
def State.chargePort (s : State) (k u d : Nat) (p : Pkt) : State :=
  s.sluCharge (portBucket k u d p) p.cls (max p.len p.data.length) (s.overdue p)

/-- Whether no regulator holds a request: writebacks, evictions and flush probes (R421). -/
def unheld (p : Pkt) : Bool := p.opc = 0x13 || p.opc = 0x14 || isProbe p

/-- The inbound entries that a partition holds at a home, and the home's limits (R426): it accepts no more of a partition that holds
ENT_MAX, or ENT_MIN while no shared entry is free. -/
def State.partFull (s : State) (d : Nat) (p : Pkt) : Bool :=
  match kindOf d with
  | .home =>
    let i := s.iface d
    let held (q : Nat) : Nat := (i.inbound.filter (fun r => r.part = q)).length
    let q := s.partOf p
    let m := s.act SLU_PART_ENT_MAX q
    let cap := if m = 0 then 256 else min 256 m
    let reserved : Nat := ((List.range 16).map (fun k => s.act SLU_PART_ENT_MIN k)).foldl (· + ·) 0
    let shared : Nat := ((List.range 16).map (fun k => held k - s.act SLU_PART_ENT_MIN k)).foldl (· + ·) 0
    !unheld p && (decide (cap ≤ held q) || (decide (s.act SLU_PART_ENT_MIN q ≤ held q) && decide (256 - reserved ≤ shared)))
  | _ => false

/-- A regulator whose domain leaves OPEN discards its window and refills its buckets (R432). -/
def State.sluDiscard (s : State) (dom : Nat) : State :=
  let mine (k0 : Nat) : Bool :=
    let key := baseKey k0
    if key < 100000 then dom = 0xAB + key / 64
    else
      let k := (key - 100000) / 16
      if k < 8 then dom = 0xB3 + k else dom = 0xBB + (k - 8)
  let mineOver (key : Nat) : Bool := if key < 100000 then dom = 0xAB + key / 32 else mine key
  { s with slu := { s.slu with
      g := s.slu.g.filter (fun e => !mine e.1)
      x := s.slu.x.filter (fun e => !mine e.1)
      served := s.slu.served.filter (fun e => !mine e.1)
      steps := s.slu.steps.filter (fun e => dom ≠ 0xAB + e.1)
      excess := s.slu.excess.filter (fun e => !mineOver e.1) } }

end Sys2Proof.Machine
end

