-- ==== Sys2Proof/Machine/Home.lean ====
section
/-!
DEFINITION. Machine/Home.lean: the home of a line: its snoop filter, its snoops and its lost-line report (04_coherence.md).
-/

namespace Sys2Proof.Machine

/-! ### Homes and their entries -/

/-- A home. -/
def State.home (s : State) (h : Nat) : Home := SMap.getD s.hbm.homes h {}

/-- Change a home. -/
def State.updHome (s : State) (h : Nat) (f : Home → Home) : State :=
  { s with hbm := { s.hbm with homes := SMap.upd {} s.hbm.homes h f } }

/-- The home of a line. -/
def State.homeOfLine (s : State) (l : Nat) : Nat := s.homeOf (l * 128)

/-- The agent of a home. -/
def homeAgent (h : Nat) : Nat := 0x070 + h

/-- The cache index of a caching agent: its site, 8 for the host, 9 for an agent that does not cache
(04_coherence.md R103). -/
def cacheOf (a : Nat) : Nat := if 0x100 ≤ a && a ≤ 0x13F then (a - 0x100) / 8 else if a = 0x180 then 8 else 9

/-- The agent through which a cache's traffic of a line passes (04_coherence.md R104). -/
def cacheAgent (c l : Nat) : Nat := if c = 8 then 0x180 else 0x100 + 8 * c + l % 8

/-- The caches in a presence vector, in rising agent ID. -/
def cachesOf (pres : Nat) : List Nat := (List.range 9).filter (fun c => Nat.testBit pres c)

/-- A presence vector with one bit set, or cleared. -/
def presSet (pres c : Nat) : Nat := if Nat.testBit pres c then pres else pres + 2 ^ c
def presClear (pres c : Nat) : Nat := if Nat.testBit pres c then pres - 2 ^ c else pres

/-- The entries of a set (04_coherence.md R111). -/
def State.setEntries (s : State) (h set : Nat) : List (Nat × HEntry) :=
  (s.home h).entries.filter (fun e => s.setOf (e.1 * 128) = set)

/-- The ways of a set that entries use or that transactions have reserved for theirs. -/
def State.usedWays (s : State) (h set : Nat) : List Nat :=
  (s.setEntries h set).map (·.2.way) ++
    (s.home h).busy.filterMap (fun e => if s.setOf (e.1 * 128) = set then e.2.way else none)

/-- The lowest free way of a set; a set without one is full. -/
def State.freeWay (s : State) (h set : Nat) : Option Nat := (List.range 16).find? (fun w => !(s.usedWays h set).contains w)

/-- The better victim of two: lower heat, then lower way (04_coherence.md R112). -/
def betterVictim (a b : Nat × HEntry) : Nat × HEntry :=
  if b.2.heat < a.2.heat || (b.2.heat = a.2.heat && b.2.way < a.2.way) then b else a

/-- The best victim of a list. -/
def bestVictim : List (Nat × HEntry) → Option (Nat × HEntry)
  | [] => none
  | e :: l => some (l.foldl betterVictim e)

/-- The heat at or above which an entry is hot; 0 acts as 1 (HBM_HOME_CFG.HOT_MIN). -/
def State.hotMin (s : State) (h : Nat) : Nat := max 1 (s.rd HBM_HOME_CFG_HOT_MIN h)

/-- Set or remove an entry: one with no holder is removed. -/
def putEntry (m : SMap HEntry) (l : Nat) (e : HEntry) : SMap HEntry :=
  if e.pres = 0 then SMap.del m l else SMap.put m l e

/-- Change the entry of a line, if it has one; an entry left without a holder is removed. -/
def mapEntry (m : SMap HEntry) (l : Nat) (f : HEntry → HEntry) : SMap HEntry :=
  match SMap.get? m l with
  | some e => putEntry m l (f e)
  | none => m

/-- Add a lost line to the report of a home and raise LOST_LINE, which names the lost cache's agent (04_coherence.md R123,
R131, R134). -/
def State.lostLine (s : State) (h cause agent l : Nat) : State :=
  let hm := s.home h
  let s1 := if hm.lost.length < 64 then
      s.updHome h (fun x => { x with lost := x.lost ++ [{ cause := cause, agent := agent, hpa := l * 128 }] })
    else s.inc HBM_HOME_LOST_STAT_OVERFLOW h 1
  s1.raise 0x0015 2 agent (l * 128) 0

/-- A cache has lost a line at its home (04_coherence.md R131): an owned line is poisoned and reported, a shared copy is
forgotten. -/
def State.loseLine (s : State) (h cause c l : Nat) : State :=
  match SMap.get? (s.home h).entries l with
  | none => s
  | some e =>
    if !Nat.testBit e.pres c then s
    else
      let s1 := s.updHome h (fun x => { x with
        entries := putEntry x.entries l { e with pres := presClear e.pres c, owned := false } })
      if e.owned then (s1.poisonLine l).lostLine h cause (cacheAgent c l) l else s1

/-- The walk of a home for a lost cache (04_coherence.md R131): every line it held, then its untracked count. The walk is
in progress until FILTER_WALK_DONE. -/
def State.walkLost (s : State) (h cause c : Nat) : State :=
  let s1 := ((s.home h).entries.map (·.1)).foldl (fun t l => t.loseLine h cause c l) s
  s1.updHome h (fun x => { x with untrk := SMap.del x.untrk c, walks := insertNat x.walks c })

/-- A cache is lost at every home. -/
def State.loseCache (s : State) (cause c : Nat) : State :=
  (List.range 32).foldl (fun t h => t.walkLost h cause c) s

/-! ### Snoops -/

/-- Snoop opcodes (04_coherence.md R106). -/
def opSnpShared : Nat := 0x20
def opSnpInv : Nat := 0x21
def opSnpBackInv : Nat := 0x22

/-- Pass a snoop on from its interface: to site logic as SNP_SHARED, SNP_INV or SNP_BACKINV with a tag of the slot
(14_sites.md R443), to the host as BISnpData or BISnpInv (04_coherence.md R128). -/
def State.passSnoop (s : State) (a : Nat) (q : Pkt) : State :=
  if a = 0x180 then s.hostSend (.cxl q.opc 0 (q.addr / 64) 0 [])
  else
    let n := siteOf a
    let u := slotOf a
    let t := (s.slot n u).freeTag
    (s.updSlot n u (fun x => { x with snps := x.snps ++ [(t, q)], nextTag := (t + 1) % 4096 })).siteSend n u
      { typ := q.opc + 8, at_ := 1, tag := t, addr := q.addr }

/-- Send one snoop. An interface whose domain is FENCED, OFF or OPENING, or whose agent is isolated, answers it with a
miss that carries DOMAIN_DOWN or TARGET_DEAD (02_commons.md R63). -/
def State.sendSnoop (s : State) (h kind c l : Nat) : State :=
  let a := cacheAgent c l
  let q : Pkt := { opc := kind, dst := a, src := homeAgent h, addr := l * 128 }
  let s1 := s.inc HBM_HOME_CNT0_SNOOPS h 1
  let st := s1.agentState a
  if st = domOpen || st = domDraining then (s1.updIface a (fun i => { i with snoops := i.snoops ++ [q] })).passSnoop a q
  else
    s1.send { opc := 0x2D, dst := homeAgent h, src := a, addr := l * 128,
              status := if st = 5 then stTargetDead else stDomainDown }

/-- Send snoops to several caches, in ascending agent ID (04_coherence.md R118). -/
def State.sendSnoops (s : State) (h kind l : Nat) (cs : List Nat) : State :=
  cs.foldl (fun t c => t.sendSnoop h kind c l) s

/-- The caches that an R115 broadcast for a request reaches: every caching agent whose domain is OPEN or DRAINING, the host where HOST_CACHE was 1
as the request arrived (R135), never the requester `req`. -/
def State.broadcastTo (s : State) (p : Pkt) (req : Nat) : List Nat :=
  (List.range 9).filter (fun c =>
    decide (c ≠ req) &&
    (if c = 8 then p.hostc
     else s.domState (0xB3 + c) = domOpen || s.domState (0xB3 + c) = domDraining))

/-! ### What a request needs -/

/-- Whether a request takes ownership or invalidates: RD_UNIQUE, CLAIM, ATOM_P, ATOM and every write. -/
def invalidates (p : Pkt) : Bool :=
  p.opc = 0x11 || p.opc = 0x12 || p.opc = 0x15 || p.opc = 0x08 || (0x03 ≤ p.opc && p.opc ≤ 0x07)

/-- Whether the home decides an ATOM_P near (04_coherence.md R126), by ATOM_MODE and the predictor as just updated. -/
def State.atomNear (s : State) (h : Nat) (ctr : Nat) : Bool :=
  match s.rd HBM_HOME_CFG_ATOM_MODE h with
  | 1 => false
  | 2 => true
  | _ => decide (ctr < 2)

/-- Whether a request asks for a granted state with an entry: RD_UNIQUE, CLAIM, a near ATOM_P. -/
def wantsOwner (p : Pkt) : Bool := p.opc = 0x11 || p.opc = 0x12 || (p.opc = 0x15 && p.near)

/-- The lines of a request: one, or the two of a RD_2LINE or WR_2LINE (02_commons.md R46). -/
def linesOfReq (p : Pkt) : List Nat :=
  let l := p.addr % 2 ^ 48 / 128
  if p.opc = 0x02 || p.opc = 0x05 then [l / 2 * 2, l / 2 * 2 + 1] else [l]

/-- The cache that a request does not snoop: the requester's own (R667). A volatile request is served at the home past the requester's cache too
(03_memory_model.md R78; log entry 130). -/
def ownCache (p : Pkt) : Nat := if p.vol && p.opc ≤ 0x08 then 9 else cacheOf p.src

/-- The caches to snoop for a request and the snoop's kind (04_coherence.md R115, R116, R118, R667). -/
def State.snoopTargets (s : State) (h l : Nat) (p : Pkt) : List Nat × Nat :=
  let req := ownCache p
  match SMap.get? (s.home h).entries l with
  | some e =>
    if invalidates p then ((cachesOf e.pres).filter (· ≠ req), opSnpInv)
    else if e.owned then ((cachesOf e.pres).filter (· ≠ req), opSnpShared)
    else ([], opSnpShared)
  | none =>
    if invalidates p && decide (0 < SMap.getD (s.home h).ovf (s.setOf (l * 128)) 0) then (s.broadcastTo p req, opSnpInv)
    else ([], opSnpInv)

/-- How a request that must be tracked finds its way. -/
inductive WayResult where
  | hit                      -- the line has an entry
  | free (way : Nat)
  | victim (line way : Nat)
  | untracked                -- R113: every entry of the full set is hot
  | wait                     -- R114: every entry that could serve is busy
  deriving DecidableEq, Repr

/-- Choose the way for a line (04_coherence.md R112-R114). `own` says that the request needs ownership. The choice reads
the heats as the allocation finds them; R111's halving follows it (log entry 6). A way that a transaction has reserved is neither hot nor free. -/
def State.chooseWay (s : State) (h l : Nat) (own : Bool) : WayResult :=
  let hm := s.home h
  let set := s.setOf (l * 128)
  match SMap.get? hm.entries l with
  | some _ => .hit
  | none =>
    match s.freeWay h set with
    | some w => .free w
    | none =>
      let es := s.setEntries h set
      let idle := es.filter (fun e => (SMap.get? hm.busy e.1).isNone)
      let reserved := hm.busy.any (fun e => s.setOf (e.1 * 128) = set && e.2.way.isSome && (SMap.get? hm.entries e.1).isNone)
      match bestVictim (idle.filter (fun e => e.2.heat < s.hotMin h)) with
      | some v => .victim v.1 v.2.way
      | none =>
        if own then (match bestVictim idle with | some v => .victim v.1 v.2.way | none => .wait)
        else if es.all (fun e => s.hotMin h ≤ e.2.heat) && !reserved then .untracked else .wait

/-- Halve the heat of every entry of a set that an allocation found full (04_coherence.md R111). -/
def State.halveSet (s : State) (h set : Nat) : State :=
  if (s.freeWay h set).isSome then s
  else s.updHome h (fun x => { x with
    entries := x.entries.map (fun e => if s.setOf (e.1 * 128) = set then (e.1, { e.2 with heat := e.2.heat / 2 }) else e) })

/-! ### Completing a transaction -/

/-- Record what a line's transaction waits for. -/
def State.setBusy (s : State) (h l : Nat) (t : HTxn) : State :=
  s.updHome h (fun x => { x with busy := SMap.put x.busy l t })

/-- Release a busy line (04_coherence.md R117); LINE_WAITER_SERVED takes up the next request for it. -/
def State.release (s : State) (h l : Nat) : State := s.updHome h (fun x => { x with busy := SMap.del x.busy l })

/-- A GRANT (04_coherence.md R107). -/
def grantPkt (h : Nat) (p : Pkt) (keep status : Nat) (withData : Bool) (data : List Byte) (poison : Bool) : Pkt :=
  { opc := 0x2C, dst := p.src, src := homeAgent h, txn := p.txn, status := status, addr := p.addr, data := data,
    tenant := p.tenant, deadline := p.deadline, stream := p.stream, poison := poison, keep := keep,
    near := p.near, withData := withData }

/-- Send a request's answer packet and free its inbound entry. -/
def State.reply (s : State) (d : Nat) (p q : Pkt) : State :=
  (s.updIface d (fun i => { i with inbound := i.inbound.erase p })).send q

/-- Give the requester its state in the filter: `owned` for E and M. A new entry takes the way that the transaction has reserved, with heat 0 (log
entry 131). -/
def State.grantEntry (s : State) (h l c : Nat) (owned : Bool) : State :=
  let way := ((SMap.get? (s.home h).busy l).bind (·.way)).getD 0
  s.updHome h (fun x => { x with entries := match SMap.get? x.entries l with
    | some e => SMap.put x.entries l (if owned then { e with owned := true, pres := 2 ^ c } else { e with owned := false, pres := presSet e.pres c })
    | none => SMap.put x.entries l { owned := owned, pres := 2 ^ c, heat := 0, way := way } })

/-- Grant S without an entry: the set's overflow count and the requester's untracked count rise
(04_coherence.md R113). -/
def State.grantUntracked (s : State) (h l c : Nat) : State :=
  s.updHome h (fun x => { x with
    ovf := SMap.upd 0 x.ovf (s.setOf (l * 128)) (· + 1)
    untrk := SMap.upd 0 x.untrk c (· + 1) })

/-- Lower the overflow count of a line's set and a cache's untracked count (04_coherence.md R113). -/
def State.dropUntracked (s : State) (h l c : Nat) : State :=
  s.updHome h (fun x => { x with
    ovf := SMap.upd 0 x.ovf (s.setOf (l * 128)) (· - 1)
    untrk := SMap.upd 0 x.untrk c (· - 1) })

/-- Leave every cache in I for a line. -/
def State.dropEntry (s : State) (h l : Nat) : State := s.updHome h (fun x => { x with entries := SMap.del x.entries l })

/-- Perform a write at its home: a full line, two lines from an even one, or the enabled bytes of part of one (04_coherence.md R118). -/
def State.performWrite (s : State) (a : Nat) (p : Pkt) : State :=
  if p.opc = 0x04 || p.opc = 0x07 then s.writeLine (a / 128) p.data p.poison
  else if p.opc = 0x05 then
    (s.writeLine (a / 256 * 2) (p.data.take 128) p.poison).writeLine (a / 256 * 2 + 1) (p.data.drop 128) p.poison
  else s.writePart a p.mask p.data p.poison

/-- Whether a stack is lost (05_hbm.md R164). -/
def State.stackLost (s : State) (m : Nat) : Bool := (SMap.getD s.hbm.stks m {}).lost

/-- Whether a line of HBM outside the Granary lies on a lost stack, which takes no access (05_hbm.md R164, R165). -/
def State.lineLost (s : State) (l : Nat) : Bool := s.stackLost (s.stackOf (l * 128)) && !s.inGranary (blockOf (l * 128))

/-- Whether a coherent request comes from an agent and through a module that R103 and R104 allow. -/
def coherentOk (p : Pkt) : Bool :=
  let c := cacheOf p.src
  if c < 8 then decide (p.src = cacheAgent c (p.addr % 2 ^ 48 / 128)) else decide (c = 8)

/-- Answer a coherent request with a status and no state: no CMP_ACK follows, and the line is not busy for it (log entry 132). -/
def State.grantRefused (s : State) (h : Nat) (p : Pkt) (status : Nat) (data : List Byte) (poison : Bool) : State :=
  s.reply (homeAgent h) p (grantPkt h p 0 status (!data.isEmpty) data poison)

/-- Answer a request at the home with a status: coherent requests by GRANT I, others by their response. -/
def State.homeStatus (s : State) (h : Nat) (p : Pkt) (status : Nat) : State :=
  if 0x10 ≤ p.opc && p.opc ≤ 0x15 then s.grantRefused h p status [] false
  else s.answer (homeAgent h) p status

end Sys2Proof.Machine
end

