-- ==== Sys2Proof/Machine/Ecc.lean ====
section
/-!
DEFINITION. Machine/Ecc.lean: what the outer code makes of reads of DRAM, the Granary's reconstruction and poisoned pages, scrubbed rows, and
the loss of a stack (05_hbm.md R140-R154, R164, R165).
-/

namespace Sys2Proof.Machine

/-- Change a stack. -/
def State.updStack (s : State) (m : Nat) (f : Stack → Stack) : State :=
  { s with hbm := { s.hbm with stks := SMap.upd {} s.hbm.stks m f } }

/-- A stack. -/
def State.stack (s : State) (m : Nat) : Stack := SMap.getD s.hbm.stks m {}

/-! ### Logs and loss -/

/-- Log an HBM error at the stack of its granule: the latest event overwrites (HBM_ERR_LOG). -/
def State.logHbm (s : State) (kind hpa : Nat) : State :=
  let m := s.stackOf hpa
  ((((s.wr HBM_ERR_LOG_VALID m 1).wr HBM_ERR_LOG_KIND m kind).wr HBM_ERR_LOG_PC m (s.loc hpa).pc).wr HBM_ERR_LOG_HPA m
    (hpa / 256))

/-- Count an uncorrectable event of a stack, of this scrub period too (R164). -/
def State.countUe (s : State) (m : Nat) : State :=
  (s.inc HBM_ERR_UE m 1).updStack m (fun x => { x with ueHere := x.ueHere + 1 })

/-- A stack is lost (R164): STATE reads LOST and STACK_LOST is raised, once. -/
def State.loseStack (s : State) (m cause : Nat) : State :=
  if s.stackLost m then s
  else ((s.updStack m (fun x => { x with lost := true })).wr HBM_STAT_STATE m 4).raise 0x0013 3 (0x090 + m) m cause

/-- 16 uncorrectable events within one scrub period lose the stack (R164). -/
def State.checkUe (s : State) (m : Nat) : State :=
  if 16 ≤ (s.stack m).ueHere then s.loseStack m 3 else s

/-- The stacks on which uncorrectable events may have reached that count. -/
def State.checkUes (s : State) : State := (List.range 8).foldl State.checkUe s

/-! ### Poisoned pages (R150) -/

/-- Enter a page in HBM_GPOIS, or count its overflow. -/
def State.enterGpois (s : State) (page : Nat) : State :=
  if s.hbm.gpois.length < 256 then { s with hbm := { s.hbm with gpois := s.hbm.gpois ++ [(page, false)] } }
  else s.inc HBM_GPOIS_STAT_OVERFLOW 0 1

/-- The Steward passes the Granary-poison event to every tenant that maps the model: one event that names each (log entry 133). -/
def State.tellMappers (s : State) (hpa e : Nat) : State :=
  { s with evq := s.evq ++ (((List.range 64).filter (fun t => s.mapped t e)).map (fun t =>
      { code := 0x0011, sev := 2, agent := 0x190, tenant := t, arg0 := hpa, arg1 := e, time := s.time })) }

/-- Mark a Granary page POISONED, once: the page is entered, its event raised, and passed on. -/
def State.poisonPage (s : State) (page : Nat) : State :=
  if s.hbm.poisonPages.contains page then s
  else
    let hpa := page * 2 ^ 21
    let e := (s.modelOf (blockOf hpa)).getD 0
    let s1 := ({ s with hbm := { s.hbm with poisonPages := insertNat s.hbm.poisonPages page } }).enterGpois page
    let s2 := s1.raise 0x0011 2 (homeAgent (s.homeOf hpa)) hpa e
    if (s.modelOf (blockOf hpa)).isSome then s2.tellMappers hpa e else s2

/-! ### Stripes (R145, R149) -/

/-- The HPA of stripe member `seg` of an HPA. -/
def memberOf (hpa seg : Nat) : Nat := hpa - segmentOf hpa * 2 ^ 23 + seg * 2 ^ 23

/-- The exclusive or of the seven other members of a granule. -/
def State.rebuilt (s : State) (g : Nat) : List Byte :=
  ((List.range 8).filter (· ≠ segmentOf g)).foldl (fun d k => xorBytes d (s.bytes (memberOf g k) 256)) (zeros 256)

/-- The other members of a granule that are unreadable: those that the read finds uncorrectable, and those on lost stacks (R150, R165). -/
def State.badMembers (s : State) (g : Nat) (c : CodeRead) : List Nat :=
  (List.range 8).filter (fun k => k ≠ segmentOf g && (c.bad.contains k || s.stackLost (s.stackOf (memberOf g k))))

/-- Whether a line transaction keeps a member read of a granule waiting (R119, R149). -/
def State.membersBusy (s : State) (g : Nat) : Bool :=
  ((List.range 8).filter (· ≠ segmentOf g)).any (fun k =>
    let a := memberOf g k
    let hm := s.home (s.homeOf a)
    (SMap.get? hm.busy (a / 128)).isSome || (SMap.get? hm.busy (a / 128 + 1)).isSome)

/-- Whether a block holds readable weights: SEALED or RESTORING. -/
def State.holdsWeights (s : State) (b : Nat) : Bool := s.inGranary b && ((s.gblock b).st = 3 || (s.gblock b).st = 5)

/-- Count the uncorrectable members on stacks in service (R164). -/
def State.countMembers (s : State) (g : Nat) (bad : List Nat) : State :=
  bad.foldl (fun t k =>
    let m := t.stackOf (memberOf g k)
    if t.stackLost m then t else t.countUe m) s

/-- Poison the pages of uncorrectable data members of a stripe (R150). -/
def State.poisonMembers (s : State) (g : Nat) (bad : List Nat) : State :=
  ((bad.filter (· < 7)).map (fun k => memberOf g k / 2 ^ 21)).foldl State.poisonPage s

/-! ### Reads -/

/-- What the outer code makes of a sector (R141). -/
inductive CodeVerdict where
  | clean | corrected | uncorrectable | miscorrected | accepted
  deriving DecidableEq, Repr

/-- The verdict on a sector by HBM_CFG.RS_MODE: CORR2 corrects two symbol errors and detects or miscorrects more; CORR1 corrects one, detects up to
three, and beyond that detects, miscorrects or accepts. -/
def codeVerdict (corr1 : Bool) (r : SectorRead) : CodeVerdict :=
  if r.errs = 0 then .clean
  else if corr1 then
    (if r.errs = 1 then .corrected else if r.errs ≤ 3 || r.found = 0 then .uncorrectable else if r.found = 1 then .miscorrected else .accepted)
  else if r.errs ≤ 2 then .corrected
  else if r.found = 0 then .uncorrectable else .miscorrected

/-- The verdicts on the sectors of a read of `n` bytes. -/
def verdicts (corr1 : Bool) (c : CodeRead) (n : Nat) : List CodeVerdict :=
  (List.range (n / 64)).map (fun k => codeVerdict corr1 (c.sectors.getD k {}))

/-- Whether the data of a sector is not what was stored. -/
def CodeVerdict.wrong (v : CodeVerdict) : Bool := v = .miscorrected || v = .accepted

/-- The data of a read: a sector that the code gets wrong holds free bytes. -/
def State.sectorData (s : State) (vs : List CodeVerdict) (data : List Byte) : List Byte :=
  data.zipIdx.map (fun (b, k) => if (vs.getD (k / 64) .clean).wrong then Config.freeByte (s.free + k) else b)

/-- A granule that holds weights, or parity, has an uncorrectable sector: it is rebuilt, or its stripe has lost two members (R149, R150). -/
def State.granuleUe (s : State) (g l n : Nat) (c : CodeRead) : List Byte × Bool × Nat × State :=
  let bad := s.badMembers g c
  let s1 := s.countMembers g bad
  if bad.isEmpty then
    let d := s1.rebuilt g
    let s2 := if s1.stackLost (s1.stackOf g) then s1 else s1.setBytes g d
    ((d.drop (l * 128 - g)).take n, false, stOk, (s2.inc HBM_ERR_RECON (s.stackOf g) 1).logHbm 1 g)
  else
    let s2 := (s1.poisonPage (g / 2 ^ 21)).poisonMembers g bad
    let s3 := s2.logHbm 2 g
    (poisonPattern n, true, stGranPoison, if bad.contains 7 then s3.logHbm 4 (memberOf g 7) else s3)

/-- The scrub finds a parity granule uncorrectable: it is logged, and recomputed from its data members; a data member that is uncorrectable with it
makes its page POISONED where the block holds weights (R150, R152). -/
def State.parityUe (s : State) (g : Nat) (c : CodeRead) : State :=
  let bad := s.badMembers g c
  let s1 := (s.logHbm 4 g).countMembers g bad
  if bad.isEmpty then s1.setBytes g (s1.rebuilt g)
  else if s.holdsWeights (blockOf g) then s1.poisonMembers g bad
  else s1

/-- A line outside sealed weights has an uncorrectable sector: it is poisoned, logged and reported (R142). -/
def State.lineUe (s : State) (scrub : Bool) (l : Nat) : State :=
  ((s.poisonLine l).logHbm (if scrub then 3 else 0) (l * 128)).raise 0x0010 2 (homeAgent (s.homeOf (l * 128))) (l * 128) 0

/-- The result of a read of whole lines from line `l` on: its data, its poison and its status, after what the outer code does (R140-R142, R149,
R150, R165). A Granary member on a lost stack is uncorrectable. A data granule of a Granary block that holds no weights is treated as a line outside
sealed weights (log entry 145). -/
def State.codeRead (s : State) (l : Nat) (data : List Byte) (poison : Bool) (c : CodeRead) (scrub : Bool) :
    List Byte × Bool × Nat × State :=
  let hpa := l * 128
  let m := s.stackOf hpa
  let n := data.length
  let gone := s.stackLost m
  let vs := verdicts (s.flag HBM_CFG_RS_MODE m) c n
  let s0 := (s.inc HBM_ERR_INNER_CE m c.inner).inc HBM_ERR_OUTER_CE m (vs.filter (fun v => v = .corrected || v = .miscorrected)).length
  let d := s0.sectorData vs data
  let s1 := if vs.any CodeVerdict.wrong then s0.fresh n else s0
  let lines := (List.range (n / 128)).filter (fun k => gone || vs.getD (2 * k) .clean = .uncorrectable || vs.getD (2 * k + 1) .clean = .uncorrectable)
  let b := blockOf hpa
  let g := hpa / 256 * 256
  if lines.isEmpty then (d, poison, if poison then stMemPoison else stOk, s1)
  else
    let s2 := if gone then s1 else lines.foldl (fun t _ => t.countUe m) s1
    if s.inGranary b && segmentOf hpa = 7 then (data, true, stMemPoison, s2.parityUe g c)
    else if s.holdsWeights b then s2.granuleUe g l n c
    else (d, true, stMemPoison, lines.foldl (fun t k => t.lineUe scrub (l + k)) s2)

/-- Whether a read looks at the members of its stripe: to rebuild its granule (R149, R152). -/
def State.readsMembers (s : State) (l n : Nat) (c : CodeRead) : Bool :=
  let hpa := l * 128
  let vs := verdicts (s.flag HBM_CFG_RS_MODE (s.stackOf hpa)) c n
  s.inGranary (blockOf hpa) && (s.stackLost (s.stackOf hpa) || vs.contains .uncorrectable) &&
    (segmentOf hpa = 7 || s.holdsWeights (blockOf hpa))

/-- Whether a read must be rebuilt from members of which one is busy: it then waits (R149). -/
def State.readWaits (s : State) (l n : Nat) (c : CodeRead) : Bool := s.readsMembers l n c && s.membersBusy (l * 128 / 256 * 256)

/-- The member reads of a reconstruction, which no regulator holds, draw on the buckets at their homes (13_sluice.md R421, R424). -/
def State.chargeMembers (s : State) (p : Pkt) (g : Nat) : State :=
  ((List.range 8).filter (· ≠ segmentOf g)).foldl (fun t k =>
    t.sluCharge (homeKey (t.homeOf (memberOf g k)) p.part) p.cls 256 (t.overdue p)) s

/-! ### Scrubbing -/

/-- A row needed correction on a scrub pass, which counts once for it (R154): the third pass soft-repairs it and records it for hard repair. -/
def State.scrubRow (s : State) (m row : Nat) : State :=
  if (s.stack m).seen.contains row then s
  else
    let n := SMap.getD (s.stack m).passes row 0 + 1
    let s1 := s.updStack m (fun x => { x with passes := SMap.set 0 x.passes row n, seen := insertNat x.seen row })
    if n = 3 then
      let s2 := (s1.updStack m (fun x => { x with softRows := insertNat x.softRows row })).inc HBM_REPAIR_SOFT_ROWS m 1
      if (s.stack m).pendHard.contains row then s2
      else (s2.updStack m (fun x => { x with pendHard := x.pendHard ++ [row] })).inc HBM_REPAIR_HARD_PEND m 1
    else s1

/-- The scrub of a granule at its home (R152). The scrub of a stack's first granule starts a new pass, and a new scrub period, which R164 counts by
(log entry 10). -/
def State.scrubGranule (s : State) (hpa : Nat) (c : CodeRead) (row : Nat) : State :=
  let g := hpa / 256 * 256
  let m := s.stackOf g
  if s.stackLost m then s
  else
    let s0 := if (s.loc g).line = 0 && (s.loc g).pc = 0 then s.updStack m (fun x => { x with ueHere := 0, seen := [] }) else s
    let (d, _, _, s1) := s0.codeRead (g / 128) (s0.bytes g 256) (s0.poisoned g 256) c true
    let vs := verdicts (s.flag HBM_CFG_RS_MODE m) c 256
    -- a corrected granule is rewritten, as the code has it
    let s1 := if vs.contains .miscorrected && !vs.contains .uncorrectable then s1.setBytes g d else s1
    (if vs.any (fun v => v = .corrected || v = .miscorrected) then s1.scrubRow m row else s1).checkUes

end Sys2Proof.Machine
end

