-- ==== Sys2Proof/Machine/HomeTx.lean ====
section
/-!
DEFINITION. Machine/HomeTx.lean: line transactions at a home, from the arrival of a request to its release (04_coherence.md R111-R127), in the order
that R119 and the Sluice lay down (13_sluice.md R424, R425).
-/

namespace Sys2Proof.Machine

/-! ### Completing a transaction -/

/-- Start the DRAM read whose data answers `p`; HOME_READ_COMPLETE ends it. The value is fixed here
(03_memory_model.md R74). -/
def State.startRead (s : State) (h l n : Nat) (p : Pkt) : State :=
  s.updHome h (fun x => { x with reads := x.reads ++
    [{ line := l, req := p, data := s.bytes (l * 128) n, poison := s.poisoned (l * 128) n }] })

/-- Release the lines of a request. -/
def State.releaseAll (s : State) (h : Nat) (p : Pkt) : State := (linesOfReq p).foldl (fun t l => t.release h l) s

/-- Read the line for a grant of state `keep`; its line stays busy until the CMP_ACK (R117). -/
def State.readGrant (s : State) (h l c keep : Nat) (p : Pkt) : State :=
  (s.startRead h l 128 { p with keep := keep }).setBusy h l { req := p, phase := .data c }

/-- Perform a far atomic (R125). -/
def State.farAtom (s : State) (h l : Nat) (p : Pkt) : State :=
  let (old, bad, s1) := ((s.inc HBM_HOME_CNT2_FAR h 1).dropEntry h l).atomAt (p.addr % 2 ^ 48) p
  (s1.answer (homeAgent h) p (if bad then stMemPoison else stOk) (natLe 8 old) bad).release h l

/-- Complete a RD_SHARED (R113, R114, R116, R127): E only where no other cache may hold the line, never in the Granary (log entry 134). -/
def State.finishShared (s : State) (h l : Nat) (p : Pkt) (t : HTxn) : State :=
  let c := cacheOf p.src
  let granary := s.inGranary (blockOf (p.addr % 2 ^ 48))
  match SMap.get? (s.home h).entries l with
  | some x =>
    if x.owned && decide (x.pres = 2 ^ c) then s.readGrant h l c 2 p
    else (s.grantEntry h l c false).readGrant h l c 1 p
  | none =>
    if t.untracked then (s.grantUntracked h l c).readGrant h l c 1 p
    else if t.excl && !granary then (s.grantEntry h l c true).readGrant h l c 2 p
    else (s.grantEntry h l c false).readGrant h l c 1 p

/-- Complete a request whose snoops are answered (R116-R118, R125). -/
def State.finish (s : State) (h l : Nat) (t : HTxn) : State :=
  let p := t.req
  let d := homeAgent h
  let c := cacheOf p.src
  if (linesOfReq p).any s.lineLost then (s.homeStatus h p stStackLost).releaseAll h p
  else match p.opc with
  | 0x10 => s.finishShared h l p t
  | 0x11 => (s.grantEntry h l c true).readGrant h l c 3 p
  | 0x12 =>
    let had : Bool := match SMap.get? (s.home h).entries l with | some x => Nat.testBit x.pres c && !x.owned | none => false
    let s1 := s.grantEntry h l c true
    if had then (s1.reply d p (grantPkt h p 3 stOk false [] false)).setBusy h l { req := p, phase := .ack c }
    else s1.readGrant h l c 3 p
  | 0x15 => if p.near then ((s.inc HBM_HOME_CNT2_NEAR h 1).grantEntry h l c true).readGrant h l c 3 p else s.farAtom h l p
  | 0x08 => s.farAtom h l p
  | 0x00 => (s.startRead h l 128 p).release h l
  | 0x01 => (s.startRead h l 128 p).release h l
  | 0x02 => (s.startRead h (l / 2 * 2) 256 p).releaseAll h p
  | _ =>
    let s1 := (linesOfReq p).foldl (fun u k => u.dropEntry h k) s
    ((s1.performWrite (p.addr % 2 ^ 48) p).answer d p stOk).releaseAll h p

/-- Complete a request once none of its lines owes a snoop answer. -/
def State.tryFinish (s : State) (h l : Nat) : State :=
  match SMap.get? (s.home h).busy l with
  | some t =>
    if (linesOfReq t.req).all (fun k => match SMap.get? (s.home h).busy k with
      | some u => u.phase = .snoop [] []
      | none => false) then s.finish h l t
    else s
  | none => s

/-- Send the snoops that a request owes for one of its lines. -/
def State.snoopFor (s : State) (h : Nat) (p : Pkt) (l : Nat) : State :=
  let (ts, kind) := s.snoopTargets h l p
  if ts.isEmpty then s
  else
    let s1 := if (SMap.get? (s.home h).entries l).isNone then s.inc HBM_HOME_CNT0_BCAST h 1 else s
    match SMap.get? (s1.home h).busy l with
    | some t => (s1.setBusy h l { t with phase := .snoop ts [] }).sendSnoops h kind l ts
    | none => s1

/-- Go on with a request that needs no way, or has one: its snoops, and its end when it owes none (R116, R118). -/
def State.proceed (s : State) (h l : Nat) (p : Pkt) : State := ((linesOfReq p).foldl (fun u k => u.snoopFor h p k) s).tryFinish h l

/-- Give a line's transaction what the choice of a way brought: a way, a victim to back-invalidate, no entry, or a wait (R112-R114). -/
def State.allot (s : State) (h l : Nat) (t : HTxn) (w : WayResult) : State :=
  let p := t.req
  match w with
  | .free k => (s.setBusy h l { t with phase := .snoop [] [], way := some k }).proceed h l p
  | .untracked => (s.setBusy h l { t with phase := .snoop [] [], untracked := true }).proceed h l p
  | .hit => (s.setBusy h l { t with phase := .snoop [] [] }).proceed h l p
  | .wait => s.setBusy h l { t with phase := .alloc none }
  | .victim v k =>
    let cs := cachesOf ((SMap.get? (s.home h).entries v).getD {}).pres
    let vp : Pkt := { opc := opSnpBackInv, addr := v * 128, src := p.src }
    let s1 := ((s.inc HBM_HOME_CNT1_BACKINV h 1).setBusy h v { req := vp, phase := .backInv cs [] }).setBusy h l
      { t with phase := .alloc (some v), way := some k }
    s1.sendSnoops h opSnpBackInv v cs

/-- Whether a request may be granted only with an entry: ownership (R114), and a site's read of the Granary (14_sites.md R469). -/
def State.mustTrack (s : State) (p : Pkt) : Bool :=
  wantsOwner p || (p.opc = 0x10 && cacheOf p.src < 8 && s.inGranary (blockOf (p.addr % 2 ^ 48)))

/-- Whether a request looks for an entry of its own where it finds none: one that must have it, or RD_SHARED outside broadcast mode (R113, R114, R116). -/
def State.needsEntry (s : State) (p : Pkt) (ovf : Nat) : Bool := s.mustTrack p || (p.opc = 0x10 && decide (ovf = 0))

/-- Serve a request whose lines are free (R111-R118): it raises the heat of the entries that it hits; where it needs an entry it finds its way first,
and a set found full has its heats halved. A RD_SHARED in broadcast mode is no allocation that halves them (log entry 131). -/
def State.serve (s : State) (h : Nat) (p : Pkt) : State :=
  let ls := linesOfReq p
  let l := p.addr % 2 ^ 48 / 128
  let set := s.setOf (l * 128)
  let s1 := s.chargeHome h p
  if ls.any s1.lineLost then s1.homeStatus h p stStackLost
  else
    let s2 := s1.updHome h (fun x => { x with
      entries := ls.foldl (fun m k => mapEntry m k (fun e => { e with heat := satAdd e.heat 1 7 })) x.entries })
    let ovf := SMap.getD (s2.home h).ovf set 0
    let t : HTxn := { req := p, phase := .snoop [] [], excl := decide (ovf = 0) }
    match SMap.get? (s2.home h).entries l with
    | some e => (ls.foldl (fun u k => u.setBusy h k { t with way := if k = l then some e.way else none }) s2).proceed h l p
    | none =>
      if s2.needsEntry p ovf then
        let w := s2.chooseWay h l (s2.mustTrack p)
        (s2.halveSet h set).allot h l t w
      else if p.opc = 0x10 then s2.allot h l t (match s2.freeWay h set with | some k => .free k | none => .untracked)
      else (ls.foldl (fun u k => u.setBusy h k t) s2).proceed h l p

/-! ### What waits at a home (R119, 13_sluice.md R425) -/

/-- The lines that an entry of the waiting list holds. -/
def HWait.lines : HWait → List Nat
  | .req p _ => linesOfReq p
  | .scrub hpa _ _ => [hpa / 256 * 2, hpa / 256 * 2 + 1]
  | .walk l _ => [l]

/-- Whether two requests must be performed in order although their lines differ: both ORDERED, from one source (03_memory_model.md R82). -/
def orderedPair (p q : Pkt) : Bool := p.ordered && q.ordered && p.src = q.src

/-- Whether an entry may go on now: none of its lines is busy or waited for by an earlier one, an earlier ORDERED request of its source is performed,
the Sluice does not hold its partition, and no member of the stripe of a granule to rebuild is busy. -/
def State.mayGo (s : State) (h : Nat) (before : List HWait) (w : HWait) : Bool :=
  let busy := (s.home h).busy
  let own : Bool := match w with
    | .req p _ =>
      !s.exhausted (homeKey h p.part) &&
      !(p.ordered && (before.any (fun b => match b with | .req q _ => orderedPair q p | _ => false) ||
        busy.any (fun e => orderedPair e.2.req p && (match e.2.phase with | .data _ => false | .ack _ => false | _ => true))))
    | .scrub hpa c _ => !s.readWaits (hpa / 256 * 2) 256 c
    | .walk _ _ => true
  own && w.lines.all (fun l => (SMap.get? busy l).isNone && before.all (fun b => !b.lines.contains l))

/-- The entries of a waiting list that may go on now, in order of arrival. -/
def State.mayGoList (s : State) (h : Nat) : List HWait → List HWait → List HWait
  | _, [] => []
  | before, w :: r => (if s.mayGo h before w then [w] else []) ++ s.mayGoList h (before ++ [w]) r

/-- The place of an entry in the order of R425; what no regulator holds goes first. -/
def State.waitPlace (s : State) (h : Nat) : HWait → Nat
  | .req p _ => s.placeInOrder (homeKey h p.part) p + 1
  | _ => 0

/-- The rank of an entry in R425. -/
def State.waitRank (s : State) (h : Nat) : HWait → Nat
  | .req p _ => s.rankOf (homeKey h p.part) p + 1
  | _ => 0

/-- Whether an entry may be passed once more by a later one of its rank. -/
def HWait.passable : HWait → Bool
  | .req _ n => n < 4
  | _ => false

/-- An entry has been passed. -/
def HWait.pass : HWait → HWait
  | .req p n => .req p (n + 1)
  | w => w

/-- The entry that a home serves next (R425): the first of its order, or one of the same rank that hits an open row, which no entry is passed by more
than four times. The spec gives no rows, so which entry hits one is a free choice (log entry 135). -/
def State.nextWait (s : State) (h : Nat) : Option (HWait × State) :=
  let ready := s.mayGoList h [] (s.home h).waiters
  match leastBy (s.waitPlace h) ready with
  | none => none
  | some a =>
    let same := ready.filter (fun w => s.waitRank h w = s.waitRank h a)
    if same.length ≤ 1 then some (a, s)
    else
      let b := same.getD (s.freeNat % same.length) a
      let passed := same.filter (fun w => s.waitPlace h w < s.waitPlace h b)
      if passed.all HWait.passable then
        some (b, (s.updHome h (fun x => { x with waiters := x.waiters.map (fun w => if passed.contains w then w.pass else w) })).fresh)
      else some (a, s.fresh)

/-- Serve one entry of the waiting list. -/
def State.serveWait (s : State) (h : Nat) (w : HWait) : State :=
  let s1 := s.updHome h (fun x => { x with waiters := x.waiters.erase w })
  match w with
  | .req p _ => s1.serve h p
  | .scrub hpa c row => s1.scrubGranule hpa c row
  | .walk l c =>
    match SMap.get? (s1.home h).entries l with
    | some e =>
      if Nat.testBit e.pres c then
        (s1.setBusy h l { req := { opc := opSnpInv, addr := l * 128, src := homeAgent h }, phase := .walk [c] [] }).sendSnoop h opSnpInv c l
      else s1
    | none => s1

/-- Serve what may go on, in order, at most `n` entries, until `stop` holds. -/
def State.pump (h : Nat) (stop : State → Bool) : Nat → State → State
  | 0, s => s
  | n + 1, s =>
    if stop s then s
    else match s.nextWait h with
      | some (w, t) => State.pump h stop n (t.serveWait h w)
      | none => s

/-- Serve everything that may go on at a home. -/
def State.pumpAll (s : State) (h : Nat) : State := s.pump h (fun _ => false) (s.home h).waiters.length

/-- Something arrives at a home: it goes on at once or waits. -/
def State.enterWait (s : State) (h : Nat) (w : HWait) : State :=
  let s1 := s.updHome h (fun x => { x with waiters := x.waiters ++ [w] })
  if s.mayGo h (s.home h).waiters w then s1.serveWait h w else s1

/-! ### Arrival -/

/-- The index of a line's ATOM_P predictor counter (R126). -/
def State.predIdx (s : State) (l : Nat) : Nat :=
  let ln := (s.loc (l * 128)).line
  (ln % 1024) ^^^ (ln / 1024 % 1024)

/-- Update the predictor as an ATOM_P arrives, and mark the packet near or far (R126, R135). -/
def State.predict (s : State) (h l : Nat) (p : Pkt) : State × Pkt :=
  if p.opc ≠ 0x15 then (s, p)
  else
    let i := s.predIdx l
    let ctr := SMap.getD (s.home h).pred i 1
    let others : Bool := match SMap.get? (s.home h).entries l with
      | some e => decide (presClear e.pres (cacheOf p.src) ≠ 0)
      | none => false
    let ctr2 := if others then min 3 (ctr + 1) else ctr - 1
    (s.updHome h (fun x => { x with pred := SMap.set 1 x.pred i ctr2 }), { p with near := s.atomNear h ctr2 })

/-- A request enters a home that may serve it (R119). -/
def State.enter (s : State) (h l : Nat) (p : Pkt) : State :=
  let (s1, q) := s.predict h l p
  let s2 := if q = p then s1 else
    s1.updIface (homeAgent h) (fun i => { i with inbound := i.inbound.map (fun x => if x = p then q else x) })
  s2.enterWait h (.req q 0)

/-- Bytes that a read returns. -/
def readLen (p : Pkt) : Nat := if p.opc = 0x02 then 256 else if p.opc = 0x00 then p.len else 128

/-- Give a refused sealed read the poison pattern and write the refusal to the Ledger (17_security.md R542, R543). -/
def State.patternAnswer (s : State) (h : Nat) (p : Pkt) (status : Nat) : State :=
  let s1 := if status = stMemPoison then s.ledgerRefusal (refusalPath p) p.tenant (p.addr % 2 ^ 48) else s
  if p.opc = 0x10 then s1.grantRefused h p status (poisonPattern 128) true
  else s1.answer (homeAgent h) p status (poisonAt (if p.opc = 0x00 then p.addr else 0) (readLen p)) true

/-- Whether a writer is a chain mover sealing (04_coherence.md R127): a chain mover whose write carries SEALED. -/
def isSealing (p : Pkt) : Bool := decide (0x269 ≤ p.src ∧ p.src ≤ 0x271) && (p.note = 3 || p.note = 5)

/-- Whether a refused write or atomic is written to the Ledger: every one to a parity segment (05_hbm.md R146), and those of the host through
BAR2 (01_architecture.md R23). -/
def State.ledgered (s : State) (p : Pkt) : Bool :=
  let hpa := p.addr % 2 ^ 48
  (s.inGranary (blockOf hpa) && decide (segmentOf hpa = 7)) || (kindOf p.src = .host && p.note = 1)

/-- Refuse a write, an atomic or ownership of sealed memory: SEALED_RO (R127, 05_hbm.md R146, 17_security.md R573). -/
def State.sealedRo (s : State) (h : Nat) (p : Pkt) : State :=
  (if s.ledgered p then s.ledgerRefusal (refusalPath p) p.tenant (p.addr % 2 ^ 48) else s).homeStatus h p stSealedRo

/-- A request delivered to a home (R103, R104, R127, 05_hbm.md R146, R147, R165): refused, or served as a
line transaction. Writes and reads of the stacks that are lost are answered STACK_LOST, but for reads of the Granary. -/
def State.homeRequest (s : State) (p : Pkt) : State :=
  let hpa := p.addr % 2 ^ 48
  let l := hpa / 128
  let h := s.homeOf hpa
  let granary := s.inGranary (blockOf hpa)
  let own := p.opc = 0x11 || p.opc = 0x12 || p.opc = 0x15 || p.opc = 0x08
  let isWr := 0x03 ≤ p.opc && p.opc ≤ 0x07
  if (0x10 ≤ p.opc && p.opc ≤ 0x15) && !coherentOk p then s.answer (homeAgent h) p stUnsupported
  else if (p.opc = 0x08 || p.opc = 0x15) && !atomOk p then s.answer (homeAgent h) p stUnsupported
  else if s.lineLost l then s.homeStatus h p stStackLost
  else if own && (granary || (match s.confined hpa with | some t => !(p.sealed && p.tenant = t) | none => false)) then s.sealedRo h p
  else if isWr && s.writeRefused hpa p.tenant p.sealed (isSealing p) (p.opc = 0x04 || p.opc = 0x05 || p.opc = 0x07) then s.sealedRo h p
  else if isWr && s.stackLost (s.stackOf hpa) then s.homeStatus h p stStackLost
  else if own || isWr then s.enter h l p
  else
    match s.readVerdict hpa p.tenant p.sealed with
    | .pattern => s.patternAnswer h p stMemPoison
    | .granPoison => s.patternAnswer h p stGranPoison
    | .status st => s.homeStatus h p st
    | .data => s.enter h l p

/-! ### The end of a DRAM read -/

/-- Send the data of a completed read on: a GRANT for a coherent request, whose line then waits for the CMP_ACK; a response otherwise. A line that was
lost meanwhile is answered STACK_LOST without a state (05_hbm.md R165). -/
def State.sendRead (s : State) (h : Nat) (p : Pkt) (d : List Byte) (poison : Bool) (status : Nat) : State :=
  let l := p.addr % 2 ^ 48 / 128
  let c := cacheOf p.src
  if 0x10 ≤ p.opc && p.opc ≤ 0x15 then
    let q := { p with keep := 0 }
    if s.lineLost l then
      ((s.updHome h (fun x => { x with entries := mapEntry x.entries l (fun e => { e with owned := false, pres := presClear e.pres c }) })).homeStatus h q
        stStackLost).release h l
    else
      ((s.updIface (homeAgent h) (fun i => { i with inbound := i.inbound.erase q })).send (grantPkt h p p.keep status true d poison)).setBusy h l
        { req := q, phase := .ack c }
  else if s.lineLost l then s.homeStatus h p stStackLost
  else
    let d2 := if p.opc = 0x00 then (d.drop (p.addr % 128)).take p.len else d
    s.answer (homeAgent h) p status d2 poison

/-! ### Snoop answers -/

/-- The line of a transaction that a back-invalidated victim has freed its way for (R112). -/
def State.claimant (s : State) (h v : Nat) : Option Nat := ((s.home h).busy.find? (fun e => e.2.phase = .alloc (some v))).map (·.1)

/-- Serve the allocations of a set again that found every possible victim busy, in order of arrival (R114). -/
def State.retryAlloc (s : State) (h set : Nat) : State :=
  let ps := (s.iface (homeAgent h)).inbound.filter (fun p =>
    let l := p.addr % 2 ^ 48 / 128
    s.setOf (l * 128) = set && (match SMap.get? (s.home h).busy l with | some t => t.req = p && t.phase = .alloc none | none => false))
  ps.foldl (fun u p =>
    let l := p.addr % 2 ^ 48 / 128
    match SMap.get? (u.home h).busy l with
    | some t => if t.phase = .alloc none then u.allot h l t (u.chooseWay h l (u.mustTrack p)) else u
    | none => u) s

/-- Go on with the transaction of a line when it owes no snoop answer any more: a request is completed; a victim's way goes to the request that it was
freed for; the walk of a draining site ends. -/
def State.settle (s : State) (h l : Nat) : State :=
  match SMap.get? (s.home h).busy l with
  | some t =>
    (match t.phase with
     | .snoop [] [] => s.tryFinish h l
     | .backInv [] [] =>
       let s1 := (s.dropEntry h l).release h l
       (match s.claimant h l with
        | some k => (match SMap.get? (s1.home h).busy k with
          | some u => (s1.setBusy h k { u with phase := .snoop [] [] }).proceed h k u.req
          | none => s1)
        | none => s1)
     | .walk [] [] => s.release h l
     | _ => s)
  | none => s

/-- One cache has answered its snoop; `wb` when it answered WB_PENDING (R121). -/
def HPhase.answered (ph : HPhase) (c : Nat) (wb : Bool) : HPhase :=
  let more (wbs : List Nat) : List Nat := if wb then wbs ++ [c] else wbs
  match ph with
  | .snoop ws wbs => .snoop (ws.erase c) (more wbs)
  | .backInv ws wbs => .backInv (ws.erase c) (more wbs)
  | .walk ws wbs => .walk (ws.erase c) (more wbs)
  | x => x

/-- A writeback that was waited for has been applied. -/
def HPhase.wbDone (ph : HPhase) (c : Nat) : HPhase :=
  match ph with
  | .snoop ws wbs => .snoop ws (wbs.erase c)
  | .backInv ws wbs => .backInv ws (wbs.erase c)
  | .walk ws wbs => .walk ws (wbs.erase c)
  | x => x

/-- The caches whose snoop answers a line's transaction owes, and those whose writebacks it waits for. -/
def HPhase.owed : HPhase → List Nat × List Nat
  | .snoop ws wbs => (ws, wbs)
  | .backInv ws wbs => (ws, wbs)
  | .walk ws wbs => (ws, wbs)
  | _ => ([], [])

/-- Whether a line's transaction owes the snoop answer of a cache. -/
def HPhase.owes (ph : HPhase) (c : Nat) : Bool := ph.owed.1.contains c

/-- Whether a line's transaction waits for the writeback of a cache. -/
def HPhase.owesWb (ph : HPhase) (c : Nat) : Bool := ph.owed.2.contains c

/-- Change what a busy line waits for. -/
def State.updBusy (s : State) (h l : Nat) (f : HPhase → HPhase) : State :=
  match SMap.get? (s.home h).busy l with
  | some t => s.setBusy h l { t with phase := f t.phase }
  | none => s

/-- Go on with a line, and with the allocations of its set. -/
def State.goOn (s : State) (h l : Nat) : State := (s.settle h l).retryAlloc h (s.setOf (l * 128))

/-- Write the data of a writeback or of a snoop answer to memory; a lost stack takes no access (05_hbm.md R164). A 64-byte half or partial write of the
host merges (R128). -/
def State.putWb (s : State) (l : Nat) (p : Pkt) : State :=
  if s.lineLost l then s
  else if p.data.length = 128 then s.writeLine l p.data p.poison
  else s.writePart (p.addr % 2 ^ 48) p.mask p.data p.poison

/-- Write a writeback and acknowledge it with GRANT I (R116, R120), STACK_LOST where its stack is lost (05_hbm.md R165). -/
def State.ackWb (s : State) (h l : Nat) (p : Pkt) : State :=
  (s.putWb l p).reply (homeAgent h) p (grantPkt h p 0 (if s.lineLost l then stStackLost else stOk) false [] false)

/-- A cache holds a line no more. -/
def State.clearHolder (s : State) (h l c : Nat) : State :=
  s.updHome h (fun x => { x with entries := mapEntry x.entries l (fun e =>
    { e with pres := presClear e.pres c, owned := if Nat.testBit e.pres c then false else e.owned }) })

/-- Whether the filter names a cache as owner of a line. -/
def State.owns (s : State) (h l c : Nat) : Bool :=
  match SMap.get? (s.home h).entries l with
  | some e => e.owned && Nat.testBit e.pres c
  | none => false

/-- The effect of a snoop answer on the filter entry: the cache keeps S or nothing (R107). -/
def State.snoopKeep (s : State) (h l c keep : Nat) : State :=
  if keep = 1 then s.updHome h (fun x => { x with entries := mapEntry x.entries l (fun e => { e with owned := false }) })
  else s.clearHolder h l c

end Sys2Proof.Machine
end

