-- ==== Sys2Proof/Machine/Walks.lean ====
section
/-!
DEFINITION. Machine/Walks.lean: how the hub's own walks and rings reach local HBM: snooping reads and writes at the home of a line, within one command
where no cache holds the line, else as requests of the home (03_memory_model.md R73-R76, log entry 24).
-/

namespace Sys2Proof.Machine

/-- The stream of the requests of walks, which no item and no queue uses. -/
def walkStream : Nat := 2 ^ 20

/-- The lines of HBM that `n` bytes from `hpa` touch. -/
def State.hbmLines (s : State) (hpa n : Nat) : List Nat :=
  match s.spaceOfHpa (hpa % 2 ^ 48) with
  | .hbm a => linesOf a (max n 1)
  | _ => []

/-- The lines of a range whose latest bytes a cache may hold: owned ones, and those of a transaction in progress. -/
def State.heldLines (s : State) (hpa n : Nat) : List Nat :=
  (s.hbmLines hpa n).filter (fun l =>
    let hm := s.home (s.homeOfLine l)
    (SMap.get? hm.busy l).isSome || ((SMap.get? hm.entries l).map (·.owned)).getD false)

/-- Have a home fetch a line back from its cache: the RD_LINE of a walker, which is at the home already. -/
def State.recall (s : State) (src l : Nat) : State :=
  let h := s.homeOfLine l
  if (s.iface src).outstanding.any (fun q => q.opc = 0x01 && q.stream = walkStream && q.addr % 2 ^ 48 / 128 = l) ||
     decide (256 ≤ (s.iface (homeAgent h)).inbound.length) then s
  else
    let p : Pkt := { opc := 0x01, src := src, dest := homeAgent h, addr := s.hubNo * 2 ^ 48 + l * 128, len := 128, stream := walkStream,
                     txn := s.freeTxn src, deadline := (s.time / 64 + 0x7FFF) % 65536, line := (s.loc (l * 128)).line }
    let s1 := s.updIface src (fun i => { i with outstanding := i.outstanding ++ [p] })
    (s1.updIface (homeAgent h) (fun i => { i with inbound := i.inbound ++ [p] })).enterWait h (.req p 0)

/-- A walker reads `n` bytes from `hpa`: `f` goes on with them at once, or the read waits while the home fetches lines back; the command is then tried
again. -/
def State.walkRead (s : State) (src hpa n : Nat) (f : State → State) : State :=
  let held := s.heldLines hpa n
  if held.isEmpty then f s else held.foldl (fun t l => t.recall src l) s

/-- What a walk's read of local HBM finds: nothing yet, for the home fetches a line back; no answer of the home; or the bytes with their poison. -/
inductive Fetch where
  | wait
  | none
  | data (d : List Byte) (bad : Bool)
  deriving DecidableEq, Repr

/-- A walk of agent `src` reads bytes of local HBM. -/
def State.snoopRead (s : State) (src hpa n : Nat) : Fetch × State :=
  let open_ : Bool := match s.spaceOfHpa hpa with
    | .hbm _ => (s.hbmLines hpa n).all (fun l => decide (s.agentState (homeAgent (s.homeOfLine l)) = domOpen) && !s.lineLost l)
    | _ => false
  let held := s.heldLines hpa n
  if !open_ then (.none, s)
  else if held.isEmpty then (.data (s.bytes hpa n) (s.poisoned hpa n), s)
  else (.wait, held.foldl (fun t l => t.recall src l) s)

/-- Whether an agent's writes of a stream are all performed. -/
def State.written (s : State) (src stream : Nat) : Bool := (s.iface src).outstanding.all (fun p => p.stream ≠ stream)

/-- Whether a line can be written within one command: no cache holds it and nothing waits for it. -/
def State.lineQuiet (s : State) (l : Nat) : Bool :=
  let h := s.homeOfLine l
  let hm := s.home h
  (SMap.get? hm.busy l).isNone && (SMap.get? hm.entries l).isNone && SMap.getD hm.ovf (s.setOf (l * 128)) 0 = 0 &&
    hm.waiters.all (fun w => !w.lines.contains l)

/-- Whether a range of local memory can be written within one command. -/
def State.rangeQuiet (s : State) (hpa n : Nat) : Bool := (s.hbmLines hpa n).all s.lineQuiet

/-- The bytes of a range in one line each. -/
def lineParts (hpa : Nat) (d : List Byte) : List (Nat × List Byte) :=
  (linesOf hpa d.length).map (fun l =>
    let lo := max hpa (l * 128)
    (lo, (d.drop (lo - hpa)).take (min (hpa + d.length) (l * 128 + 128) - lo)))

/-- The writes of at most 64 bytes of a part. -/
def halves (e : Nat × List Byte) : List (Nat × List Byte) :=
  if e.2.length ≤ 64 then [e] else [(e.1, e.2.take 64), (e.1 + 64, e.2.drop 64)]

/-- An agent writes local memory at its home: at once where no cache holds a line of it, else as WRN requests at the home, which are performed once the
copies are gone. `stream` names them. -/
def State.homeWrite (s : State) (src stream hpa : Nat) (d : List Byte) : State :=
  if s.rangeQuiet hpa d.length then
    match s.cell (s.hubNo * 2 ^ 48 + hpa % 2 ^ 48) with
    | some c => s.setBytes c d
    | none => s
  else
    ((lineParts hpa d).flatMap halves).foldl (fun t e =>
      let h := t.homeOf e.1
      let p : Pkt := { opc := 0x06, src := src, dest := homeAgent h, addr := t.hubNo * 2 ^ 48 + e.1 % 2 ^ 48, mask := 2 ^ e.2.length - 1, data := e.2
                       stream := stream, txn := t.freeTxn src, deadline := (t.time / 64 + 0x7FFF) % 65536 }
      let t1 := t.updIface src (fun i => { i with outstanding := i.outstanding ++ [p] })
      (t1.updIface (homeAgent h) (fun i => { i with inbound := i.inbound ++ [p] })).enterWait h (.req p 0)) s

/-- Write one whole line of local HBM at its home (`poison` is cleared): a WRN_LINE there, which an agent has once at a time for a line. -/
def State.homeWriteLine (s : State) (src stream l : Nat) (d : List Byte) : State :=
  let h := s.homeOfLine l
  if s.lineQuiet l then s.writeLine l d false
  else if (s.iface src).outstanding.any (fun q => q.opc = 0x07 && q.stream = stream && q.addr % 2 ^ 48 / 128 = l) then s
  else
    let p : Pkt := { opc := 0x07, src := src, dest := homeAgent h, addr := s.hubNo * 2 ^ 48 + l * 128, data := d, stream := stream
                     txn := s.freeTxn src, deadline := (s.time / 64 + 0x7FFF) % 65536, line := (s.loc (l * 128)).line }
    let s1 := s.updIface src (fun i => { i with outstanding := i.outstanding ++ [p] })
    (s1.updIface (homeAgent h) (fun i => { i with inbound := i.inbound ++ [p] })).enterWait h (.req p 0)

/-- The lines of a range of HBM that a home knows of: those with an entry, in a transaction or waiting. -/
def State.knownLines (s : State) (lo hi : Nat) : List Nat :=
  ((s.hbm.homes.flatMap (fun e => e.2.entries.map (·.1) ++ e.2.busy.map (·.1) ++ e.2.waiters.flatMap (·.lines))).filter
    (fun l => lo ≤ l * 128 && l * 128 < hi)).eraseDups

/-- Zero whole lines of local HBM: at once but for the lines that a home knows of, which are written at their homes. -/
def State.zeroHome (s : State) (lo hi : Nat) : State :=
  let ls := s.knownLines lo hi
  let out (a : Nat) : Bool := a < lo || hi ≤ a || ls.contains (a / 128)
  let s1 : State := { s with mem := s.mem.filter (fun e => out e.1), poison := s.poison.filter (fun l => out (l * 128)) }
  ls.foldl (fun t l => t.homeWriteLine 0x190 walkStream l (zeros 128)) s1

end Sys2Proof.Machine
end

