-- ==== Sys2Proof/Machine/Fates.lean ====
section
/-!
DEFINITION. Machine/Fates.lean: the fate of a work item: its reply, its signal, its interrupt and the fate log
(11_steward_commands.md R361, R368-R379, R382, R385, 16_host_endpoint.md R528, R532, R537, R538).
-/

namespace Sys2Proof.Machine

/-! ### Status codes (11_steward_commands.md R370) -/

def stBadOpcode : Nat := 0xC0
def stParamInvalid : Nat := 0xC1
def stQidMismatch : Nat := 0xC2
def stItemDup : Nat := 0xC3
def stPrivileged : Nat := 0xC4
def stFormatInvalid : Nat := 0xC5
def stKernelError : Nat := 0xC6
def stLoomFault : Nat := 0xC7
def stLoomBudget : Nat := 0xC8
def stVacant : Nat := 0xC9
def stCancelled : Nat := 0xCA
def stDepFailed : Nat := 0xCB
def stEventDenied : Nat := 0xCC
def stWaitTimeout : Nat := 0xCD
def stWeightPoison : Nat := 0xCE
def stHostBlocked : Nat := 0xCF
def stFlrAbandon : Nat := 0xD0
def stNoMemory : Nat := 0xD1
def stQuota : Nat := 0xD2
def stSeqInvalid : Nat := 0xD3

/-- No status: a read waits while a home fetches a line back. -/
def stRetry : Nat := 0x100

/-- Fates (R368). -/
def fateDone : Nat := 0
def fateFailed : Nat := 1
def fateAbandoned : Nat := 2

/-! ### MSI-X -/

/-- Whether mastering is granted: Bus Master Enable set and not D3hot (16_host_endpoint.md R531). -/
def State.mastering (s : State) : Bool := s.hep.bme && !s.hep.d3

/-- Whether the five conditions of 16_host_endpoint.md R528 hold for a vector. -/
def State.msixOpen (s : State) (v : Nat) : Bool :=
  s.hep.msixEn && s.hep.bme && !s.hep.fmask && s.hep.unmasked.contains v && !s.hep.d3

/-- Raise a vector: its message leaves, or its PBA bit is set (16_host_endpoint.md R528). -/
def State.msix (s : State) (v : Nat) : State :=
  if s.msixOpen v then s.hostSend (.msix v)
  else { s with hep := { s.hep with pba := insertNat s.hep.pba v } }

/-- Raise a vector that announces writes of a stream of agent `src`: once they are performed (03_memory_model.md R94). -/
def State.msixAfter (s : State) (src stream v : Nat) : State :=
  if s.written src stream then s.msix v
  else { s with hep := { s.hep with announce := s.hep.announce ++ [(src, stream, v)] } }

/-- Raise the vectors whose writes are performed. -/
def State.announced (s : State) : State :=
  let ready := s.hep.announce.filter (fun e => s.written e.1 e.2.1)
  ready.foldl (fun t e => t.msix e.2.2) { s with hep := { s.hep with announce := s.hep.announce.filter (fun e => !ready.contains e) } }

/-- The stream of the writes of a completion queue's replies. -/
def replyStream (c : Nat) : Nat := walkStream + 1 + c

/-! ### Packets and replies -/

/-- Little-endian field of a packet: bytes `lo` up to `lo + n`. -/
def pktField (b : List Byte) (lo n : Nat) : Nat := leNat ((b.drop lo).take n)

/-- FLAGS bits of an item's packet (R359). -/
def Item.order? (i : Item) : Bool := Nat.testBit (pktField i.pkt 1 1) 0
def Item.irq? (i : Item) : Bool := Nat.testBit (pktField i.pkt 1 1) 1
def Item.restart? (i : Item) : Bool := Nat.testBit (pktField i.pkt 1 1) 2
def Item.wait? (i : Item) : Bool := Nat.testBit (pktField i.pkt 1 1) 3
def Item.signal? (i : Item) : Bool := Nat.testBit (pktField i.pkt 1 1) 4
def Item.opc (i : Item) : Nat := pktField i.pkt 0 1
def Item.cls (i : Item) : Nat := pktField i.pkt 8 1 % 8
def Item.waitEvt (i : Item) : Nat := pktField i.pkt 12 2 % 4096
def Item.sigEvt (i : Item) : Nat := pktField i.pkt 14 2 % 4096
def Item.waitVal (i : Item) : Nat := pktField i.pkt 16 6

/-- Item names: an item is known by its queue and its ID. -/
def Item.is (i : Item) (q id : Nat) : Bool := decide (i.q = q ∧ i.id = id)

/-- The 32 bytes of a status reply (R368). -/
def replyBytes (item q slot fate status unit seq result : Nat) (phase : Bool) : List Byte :=
  natLe 4 item ++ natLe 2 q ++ natLe 2 slot ++ natLe 1 fate ++ natLe 1 status ++ natLe 2 unit ++ natLe 4 seq ++
  natLe 8 result ++ natLe 7 0 ++ natLe 1 (if phase then 128 else 0)

/-- Slots of a ring. -/
def State.cqSize (s : State) (c : Nat) : Nat := 2 ^ s.rd STW_CQBASE_LOG2N c
def State.sqSize (s : State) (q : Nat) : Nat := 2 ^ s.rd STW_QBASE_LOG2N q

/-- Whether a domain access to an HPA in local HBM or the Cellar would be performed. -/
def State.memOpen (s : State) (hpa : Nat) : Bool :=
  match s.route 0x190 (s.hubNo * 2 ^ 48 + hpa) with
  | .toAgent a => decide (s.agentState a = domOpen) && !(kindOf a = .home && s.lineLost (hpa % 2 ^ 48 / 128))
  | _ => false

/-- The cell of a local HPA. -/
def State.cellOf (s : State) (hpa : Nat) : Nat := (s.cell (s.hubNo * 2 ^ 48 + hpa % 2 ^ 48)).getD hpa

/-- Record a Steward error: the first one's cause and queue, and the count (STW_ERR). -/
def State.stwErr (s : State) (cause queue : Nat) (cq : Bool) : State :=
  let s1 := if s.flag STW_ERR_VALID then s.inc STW_ERR_COUNT 0 1
    else ((((s.wr STW_ERR_VALID 0 1).wr STW_ERR_CAUSE 0 cause).wr STW_ERR_QUEUE 0 queue).wr STW_ERR_CQ 0
      (if cq then 1 else 0)).wr STW_ERR_COUNT 0 1
  s1.msix (s.rd STW_CTL_VECTOR)

/-- Records of a queue become HELD when it enters ERROR (16_host_endpoint.md R537). -/
def State.holdRecords (s : State) (f : FateRec → Bool) : State :=
  { s with hep := { s.hep with log := s.hep.log.map (fun r => if f r then { r with held := true } else r) } }

/-- A RUNNING submission queue enters ERROR with its cause; a DRAINING one drains on (R358). -/
def State.enterError (s : State) (q cause : Nat) : State :=
  if s.rd STW_QCFG_STATE q = 1 then
    (((s.wr STW_QCFG_STATE q 3).wr STW_QCFG_ENABLE q 0).wr STW_QSTAT_CAUSE q cause).holdRecords (fun r => r.q = q)
  else s

/-- An error of a submission queue is recorded, the interrupt raised, and the queue enters ERROR (R358). -/
def State.queueError (s : State) (q cause : Nat) : State := (s.stwErr cause q false).enterError q cause

/-- Add a record to the fate log, or count it lost when the log is full, releasing its reserved slot
(16_host_endpoint.md R537, R538). The record has PHASE 0. -/
def State.logFate (s : State) (q cq cause : Nat) (held : Bool) (reply : List Byte) (irq : Bool := false) : State :=
  let n := s.hep.fseq
  let s1 := { s with hep := { s.hep with fseq := (n + 1) % 2 ^ 32 } }
  if s1.hep.log.length < 65536 then
    { s1 with hep := { s1.hep with log := s1.hep.log ++
        [{ reply := reply, q := q, cq := cq, fseq := n, cause := cause, held := held, irq := irq }] } }
  else
    let first := if s1.rd FATE_LOG_STAT_LOST = 0 then s1.wr FATE_LOST_FIRST 0 n else s1
    let s2 := (first.wr FATE_LOST_LAST 0 n).inc FATE_LOG_STAT_LOST 0 1
    let s3 := if q < 1024 then s2.inc FATE_SUM_LOST q 1 else s2
    if q < 1024 then s3.wr STW_CQPTR_RESERVED cq (s3.rd STW_CQPTR_RESERVED cq - 1) else s3

/-- Announce replies: the count since the last interrupt has reached COAL_CNT, or `now` (R385). -/
def State.coalesce (s : State) (c : Nat) (now : Bool) : State :=
  let n := SMap.getD s.stw.cqSince c 0 + 1
  if s.flag STW_CQCFG_IRQ_EN c && (now || decide (max 1 (s.rd STW_CQCFG_COAL_CNT c) ≤ n)) then
    { s with stw := { s.stw with cqSince := SMap.set 0 s.stw.cqSince c 0 } }.msixAfter 0x190 (replyStream c) (s.rd STW_CQCFG_VECTOR c)
  else { s with stw := { s.stw with cqSince := SMap.set 0 s.stw.cqSince c n } }

/-- Write one reply into the next slot of a completion queue and move its tail (R356, R368, R372). -/
def State.pushReply (s : State) (c : Nat) (mk : Nat → Bool → List Byte) : State × Bool :=
  let tail := s.rd STW_CQPTR_TAIL c
  let n := SMap.getD s.stw.cqCount c 0
  let r := mk (n % 2 ^ 32) (s.flag STW_CQPTR_PHASE c)
  let a := s.rd STW_CQBASE_BASE c * 4096 + 32 * tail
  let next := (tail + 1) % s.cqSize c
  let adv (t : State) : State :=
    let t1 := (t.wr STW_CQPTR_TAIL c next).wr STW_CQPTR_RESERVED c (t.rd STW_CQPTR_RESERVED c - 1)
    let t2 := if next = 0 then t1.wr STW_CQPTR_PHASE c (1 - t1.rd STW_CQPTR_PHASE c) else t1
    { t2 with stw := { t2.stw with cqCount := SMap.set 0 t2.stw.cqCount c (n + 1) } }
  if s.flag STW_CQBASE_LOC c then
    (if s.memOpen a then (adv (s.homeWrite 0x190 (replyStream c) a r), true) else (adv s, false))
  else (adv (s.hostSend (.write a r)), true)

/-- A reply that was on its way to its ring in HBM could not be written (R372, R382): it enters the fate log, and its queue ERROR. -/
def State.replyLost (s : State) (c : Nat) (d : List Byte) : State :=
  let q := pktField d 4 2
  (s.logFate q c 2 true (d.take 31 ++ [0])).queueError q 3

/-- Report an item's fate (R369, R372, R382, 16_host_endpoint.md R532): into its completion queue, the mailbox (which MBOX_READY
then makes READY), the generation service, or the fate log. -/
def State.report (s : State) (i : Item) (fate status result : Nat) : State :=
  let mk (seq : Nat) (ph : Bool) := replyBytes i.id i.q i.slot fate status i.unit seq result ph
  if s.hep.flr then s.logFate i.q (s.rd STW_QCFG_CQ i.q) 3 true (mk 0 false)
  else if i.q = 0xFFFE then
    { s with stw := { s.stw with planFates := s.stw.planFates ++ [(i.id, fate, status)], gen := { s.stw.gen with lastFate := s.time } } }
  else if i.q = 0xFFFF then
    { s with stw := { s.stw with mbox := some (mk 0 false, fate, status, i.irq?) } }
  else
    let c := s.rd STW_QCFG_CQ i.q
    if !s.flag STW_CQBASE_LOC c && !s.mastering then s.logFate i.q c (if s.hep.d3 then 1 else 0) false (mk 0 false) i.irq?
    else
      let (s1, ok) := s.pushReply c mk
      if ok then s1.coalesce c i.irq?
      else (s1.logFate i.q c 2 true (mk 0 false)).queueError i.q 3

/-! ### Events -/

/-- Whether a wait for `v` on event `e` is satisfied (R376). -/
def State.evtOk (s : State) (e v : Nat) : Bool :=
  decide ((s.rd STW_EVT_COUNT e + (2 ^ 48 - v % 2 ^ 48)) % 2 ^ 48 < 2 ^ 47) && !s.flag STW_EVT_FAILED e

/-- Whether a tenant may use an event (R374). -/
def State.evtMay (s : State) (e tenant : Nat) : Bool := s.flag STW_EVT_VALID e && s.rd STW_EVT_TENANT e = tenant

/-- Add to an event's count. -/
def State.evtAdd (s : State) (e n : Nat) : State := s.wr STW_EVT_COUNT e ((s.rd STW_EVT_COUNT e + n) % 2 ^ 48)

/-- Remove an item from the items without a fate, and a mailbox or queue's drain that ends with it (R357). -/
def State.dropItem (s : State) (i : Item) : State :=
  { s with stw := { s.stw with
      items := s.stw.items.filter (fun x => !(x.is i.q i.id && x.order = i.order))
      waits := s.stw.waits.filter (fun w => !(w.agent.isNone && w.q = i.q && w.id = i.id &&
        s.stw.items.any (fun x => x.is i.q i.id && x.order = i.order))) } }

/-- Remember that the item of a queue and ID has its fate (R366). -/
def State.noteEnded (s : State) (i : Item) : State :=
  if i.q = 0xFFFE || s.stw.ended.contains (i.q, i.id) then s
  else { s with stw := { s.stw with ended := s.stw.ended ++ [(i.q, i.id)] } }

/-- Fix one item's fate (R361, R369, R377): the item ends, its SIGNAL acts on its event, and its fate is reported. A
SIGNAL on an event that is not valid or not its tenant's does nothing. During a function-level reset every item that has no fate is
ABANDONED (16_host_endpoint.md R536). -/
def State.fixOne (s : State) (i : Item) (fate0 status0 result0 : Nat) (signal : Bool := true) : State :=
  let s1 := (s.dropItem i).noteEnded i
  let fate := if s.hep.flr then fateAbandoned else fate0
  let status := if s.hep.flr then stFlrAbandon else status0
  let result := if s.hep.flr then 0 else result0
  let s2 := if signal && i.signal? && s1.evtMay i.sigEvt i.tenant then
      (if fate = fateDone then s1.evtAdd i.sigEvt 1 else s1.wr STW_EVT_FAILED i.sigEvt 1)
    else s1
  -- replies to a sealed tenant's items carry RESULT 0 but for the opcodes of 17_security.md R573
  let hide := s.sealedTenant i.tenant && !([0x20, 0x22, 0x30, 0x32, 0x28, 0x10].contains i.opc)
  s2.report i fate status (if hide then 0 else result)

/-- The wake EVENT to an agent whose registered wait is satisfied (R378, R380): KIND 1 with the handle. -/
def wakePkt (w : EvWait) (a : Nat) : Pkt :=
  { opc := 0x32, dst := a, src := 0x190,
    data := [1] ++ zeros 23 ++ natLe 8 (w.evt + w.value * 65536) }

/-- Whether a registered wait ends now: satisfied, or for an item failed by FAILED or by VALID cleared (R376, R377). -/
def State.waitEnds (s : State) (w : EvWait) : Bool :=
  s.evtOk w.evt w.value || (w.agent.isNone && (s.flag STW_EVT_FAILED w.evt || !s.flag STW_EVT_VALID w.evt))

/-- End one registered wait. -/
def State.endWait (s : State) (w : EvWait) : State :=
  let s1 := { s with stw := { s.stw with waits := s.stw.waits.erase w } }
  match w.agent with
  | some a => s1.send (wakePkt w a)
  | none =>
    match s1.stw.items.find? (fun i => i.is w.q w.id) with
    | some i =>
      if s.flag STW_EVT_FAILED w.evt || !s.flag STW_EVT_VALID w.evt then s1.fixOne i fateFailed stDepFailed 0
      else s1.fixOne i fateDone 0 (s.rd STW_EVT_COUNT w.evt)
    | none => s1

/-- Re-evaluate every wait in registration order until none ends (R376); each round ends one wait. -/
def State.reevaluate : Nat → State → State
  | 0, s => s
  | n + 1, s =>
    match s.stw.waits.find? s.waitEnds with
    | some w => State.reevaluate n (s.endWait w)
    | none => s

/-- Re-evaluate all registered waits. -/
def State.settleWaits (s : State) : State := s.reevaluate (s.stw.waits.length + 1)

/-- A DRAINING queue whose last fetched item has a fate becomes OFF by QUEUE_DRAINED; here a fate is fixed and every wait
that it satisfies or fails is settled. -/
def State.fixFate (s : State) (i : Item) (fate status result : Nat) (signal : Bool := true) : State :=
  (s.fixOne i fate status result signal).settleWaits

/-- Fail every item that `f` selects. -/
def State.failItems (s : State) (f : Item → Bool) (status : Nat) : State :=
  (s.stw.items.filter f).foldl (fun t i =>
    if t.stw.items.any (fun x => x.order = i.order) then t.fixFate i fateFailed status 0 else t) s

/-- The item of a queue and ID. -/
def State.item (s : State) (q id : Nat) : Option Item := s.stw.items.find? (fun i => i.is q id)

/-- The running item of a unit with an ID (R380). -/
def State.runningItem (s : State) (unit id : Nat) : Option Item :=
  s.stw.items.find? (fun i => i.st = 2 && i.unit = unit && i.id = id)

/-- The completion EVENT of a unit (R380): KIND 0. -/
def completionPkt (src item fate status : Nat) (started : Bool) (result : Nat) : Pkt :=
  { opc := 0x32, dst := 0x190, src := src,
    data := natLe 4 0 ++ natLe 4 item ++ natLe 1 fate ++ natLe 1 status ++ natLe 1 (if started then 1 else 0) ++
      natLe 5 0 ++ natLe 8 result }

end Sys2Proof.Machine
end

