-- ==== Sys2Proof/Machine/Isolate.lean ====
section
/-!
DEFINITION. Machine/Isolate.lean: dead-target isolation (02_commons.md R66, 14_sites.md R462, R472).
-/

namespace Sys2Proof.Machine

/-- The requests at an agent's interface are all answered with a status: inbound entries and those that it had not accepted yet, a posted write
with WFAIL. What a home had begun for them ends with them. -/
def State.answerAll (s : State) (a status : Nat) : State :=
  let i := s.iface a
  let s1 := i.inbound.foldl (fun t p => t.answer a p status) s
  let s2 := (i.blocked.foldl (fun t p => t.refuse a p status) s1).updIface a (fun x => { x with blocked := [], sent := [] })
  if kindOf a = .home then s2.updHome (a - 0x070) (fun x => { x with busy := [], waiters := [], heldWb := [], reads := [] }) else s2

/-- Isolate one agent's interface: every request at it is answered TARGET_DEAD, and every snoop that the agent has not answered with a miss that
carries TARGET_DEAD; then ISOLATED is raised with its trigger (02_commons.md R66). -/
def State.isolateOne (s : State) (a trigger kind : Nat) : State :=
  if (s.iface a).isolated then s
  else
    let s1 := s.answerAll a stTargetDead
    let s2 := (s.iface a).snoops.foldl (fun t q => t.send
      { opc := 0x2D, dst := q.src, src := a, addr := q.addr, status := stTargetDead }) s1
    let s3 := s2.updIface a (fun x => { x with isolated := true, snoops := [] })
    s3.raise 0x0004 3 a trigger kind

/-- All module agents of a site are isolated together; the homes treat its cache as lost, its items end with
TARGET_DEAD as its interfaces answer, and its rights clear (14_sites.md R472, 04_coherence.md R131). The first module
named carries the trigger; the others follow by trigger 5. -/
def State.isolateSite (s : State) (n a trigger kind : Nat) : State :=
  if (s.iface a).isolated then s
  else
    let s1 := s.isolateOne a trigger kind
    let s2 := (((List.range 8).map (fun u => 0x100 + 8 * n + u)).filter (· ≠ a)).foldl
      (fun t m => t.isolateOne m 5 kind) s1
    let s3 := (s2.loseCache 1 n).wr SITE_SEAL_RIGHTS n 0
    let s4 := (s3.wr SITE_STAT_STATE n 7).raise 0x0032 3 a kind 0
    s4.failItems (fun i => i.st = 2 && decide (i.unit = 0x100 + 8 * n)) stTargetDead

/-- Isolate an agent by its physical ID (02_commons.md R66): the Vestry and the Reeve cannot be (R67). Triggers are
numbered as R66 lists them. -/
def State.isolate (s : State) (a trigger : Nat) (kind : Nat := 0) : State :=
  if a = 0x1C0 || a = 0x1C1 then s
  else match kindOf a with
    | .site n => s.isolateSite n a trigger kind
    | _ => s.isolateOne a trigger kind

end Sys2Proof.Machine
end

