-- ==== Sys2Proof/Machine/Mesh.lean ====
section
/-!
DEFINITION. Machine/Mesh.lean: the routers of the Commons: places, paths, buffers, output ports and the order of delivery (02_commons.md
R38-R43, R49).
-/

namespace Sys2Proof.Machine

/-! ### Places and paths -/

/-- A local port of a router (R38). -/
structure Place where
  col : Nat
  row : Nat
  port : Nat
  deriving DecidableEq, Repr

/-- The physical agents in rising order (01_architecture.md R12, R15). -/
def physAgents : List Nat := (List.range 1024).filter (fun a => isPhysId a || isFixedId a)

/-- The place of a physical agent (R38): agents and empty places fill the ports of routers 0 to 95 in the fused order, so that no two share
one. -/
def placeOf (a : Nat) : Place :=
  let k := physAgents.idxOf a
  let key (j : Nat) : Nat := Config.placeKey j
  let r := ((List.range 384).filter (fun j => key j < key k || (key j = key k && j < k))).length
  { col := r / 4 % 8, row := r / 32 % 12, port := r % 4 }

/-- Ports by the numbers of COM_ERR.LAST_PORT: local ports 0 to 3, then north, south, east and west. North is toward the lower row (log entry
129). -/
def north : Nat := 4
def south : Nat := 5
def east : Nat := 6
def west : Nat := 7

/-- The input port at which a packet enters the next router when it leaves by output port `o`. -/
def facing (o : Nat) : Nat := if o = east then west else if o = west then east else if o = north then south else north

/-- The router beyond an output port. -/
def beyond (col row o : Nat) : Nat × Nat :=
  if o = east then (col + 1, row) else if o = west then (col - 1, row) else if o = north then (col, row - 1) else (col, row + 1)

/-- The output port toward a place (R39): along the row to its column, then along the column to its row, then its local port. -/
def outPort (col row : Nat) (d : Place) : Nat :=
  if col < d.col then east else if d.col < col then west else if row < d.row then south else if d.row < row then north else d.port

/-- The routers of a path with the input port at each. -/
def pathFrom (d : Place) : Nat → Nat → Nat → Nat → List (Nat × Nat × Nat)
  | 0, _, _, _ => []
  | n + 1, col, row, port =>
    let o := outPort col row d
    (col, row, port) :: (if o < 4 then [] else pathFrom d n (beyond col row o).1 (beyond col row o).2 (facing o))

/-- The path between two agents (R39): at most 19 routers. -/
def pathOf (a d : Nat) : List (Nat × Nat × Nat) :=
  let p := placeOf a
  pathFrom (placeOf d) 19 p.col p.row p.port

/-! ### Flows -/

/-- The physical agent to which a packet goes: the one that the sender's interface resolved, or the one that its header names. -/
def goalOf (p : Pkt) : Nat := if p.dest = noAgent then p.dst else p.dest

/-- Packets of one source to one destination on one network, which stay in order (R49). -/
def sameFlow (p q : Pkt) : Bool := p.src = q.src && (goalOf p) = (goalOf q) && netOf p.opc = netOf q.opc

/-- Whether no earlier packet of its flow is still on its way. -/
def State.firstOfFlow (s : State) (p : Pkt) : Bool :=
  match s.com.out.find? (sameFlow p) with
  | some q => q = p
  | none => true

/-! ### Routers -/

/-- Where a packet stands in the mesh, if FLIT_RECEIVE has followed it. -/
def State.hopOf (s : State) (p : Pkt) : Option Hop := s.com.mesh.find? (fun h => h.p = p)

/-- The flits that an input buffer holds of a network: it has four slots (R41). -/
def State.bufferUsed (s : State) (col row port : Nat) (n : Net) : Nat :=
  ((s.com.mesh.filter (fun h => h.col = col && h.row = row && h.port = port && netOf h.p.opc = n)).map (fun h => flitsOf h.p.opc)).foldl (· + ·) 0

/-- The packets ready at an output port: the first of each input buffer, in order of arrival, whose path leaves by it. -/
def State.readyAt (s : State) (col row o : Nat) : List Hop :=
  let here := s.com.mesh.filter (fun h => h.col = col && h.row = row)
  here.filter (fun h =>
    outPort col row (placeOf (goalOf h.p)) = o &&
    (match here.find? (fun k => k.port = h.port && netOf k.p.opc = netOf h.p.opc) with
     | some k => k.p = h.p
     | none => false))

/-- The turns of an output port. -/
def State.arbOf (s : State) (col row o : Nat) : Arb := SMap.getD s.com.arb ((row * 8 + col) * 8 + o) {}

/-- The distance of `x` behind `last` in a round of `n`: the smallest goes next. -/
def turnOf (n last x : Nat) : Nat := (x + n - last % n - 1) % n

/-- The packet that an output port serves next (R43): CTL first, then the other networks in round-robin, and within a network the input ports in
round-robin. A packet of two flits moves as one, so both pass the link together. -/
def State.served (s : State) (col row o : Nat) : Option Hop :=
  let a := s.arbOf col row o
  let r := s.readyAt col row o
  let ctl := r.filter (fun h => netOf h.p.opc = .ctl)
  let rest := match leastBy (fun h => turnOf 3 a.net (netOf h.p.opc).no) r with
    | some h => r.filter (fun k => netOf k.p.opc = netOf h.p.opc)
    | none => []
  let l := if ctl.isEmpty then rest else ctl
  leastBy (fun h => turnOf 8 (SMap.getD a.ports (netOf h.p.opc).no 7) h.port) l

/-- An output port has served a packet. -/
def State.noteServed (s : State) (col row o : Nat) (h : Hop) : State :=
  let n := netOf h.p.opc
  let f (a : Arb) : Arb := { net := if n = .ctl then a.net else n.no, ports := SMap.upd 7 a.ports n.no (fun _ => h.port) }
  { s with com := { s.com with arb := SMap.upd {} s.com.arb ((row * 8 + col) * 8 + o) f } }

/-- A packet enters a router's input buffer: the router before it must serve it, and the buffer must have room (R41, R43). A packet that nothing
has followed so far may be met at any router of its path. -/
def State.hop (s : State) (p : Pkt) (col row port : Nat) : State :=
  if 4 < s.bufferUsed col row port (netOf p.opc) + flitsOf p.opc then s
  else
    let here : Hop := { p := p, col := col, row := row, port := port }
    match s.hopOf p with
    | none => { s with com := { s.com with mesh := s.com.mesh ++ [here] } }
    | some h =>
      let o := outPort h.col h.row (placeOf (goalOf p))
      if o < 4 || beyond h.col h.row o ≠ (col, row) || facing o ≠ port || s.served h.col h.row o ≠ some h then s
      else
        let s1 := s.noteServed h.col h.row o h
        { s1 with com := { s1.com with mesh := s1.com.mesh.erase h ++ [here] } }

/-- Whether a packet on the Commons can be delivered now: no earlier one of its flow is on its way (R49), and where FLIT_RECEIVE has followed it, it
stands in the last router of its path and the local port serves it (R43). -/
def State.lands (s : State) (p : Pkt) : Bool :=
  s.firstOfFlow p &&
  (match s.hopOf p with
   | none => true
   | some h => outPort h.col h.row (placeOf (goalOf p)) < 4 && s.served h.col h.row (outPort h.col h.row (placeOf (goalOf p))) = some h)

/-- A packet leaves the Commons at its destination. -/
def State.land (s : State) (p : Pkt) : State :=
  (match s.hopOf p with
   | none => s
   | some h => s.noteServed h.col h.row (outPort h.col h.row (placeOf (goalOf p))) h).take p

/-- Deliver a packet that is on the Commons, once it can be delivered; what is not on the Commons is handled by `other`. -/
def State.delivering (s : State) (p : Pkt) (f : State → State) (other : State) : State :=
  if s.com.out.contains p then (if s.lands p then f (s.land p) else s) else other

end Sys2Proof.Machine
end

