-- ==== Sys2Proof/Machine/Coherence.lean ====
section
/-!
DEFINITION. Machine/Coherence.lean: writebacks, evictions, snoop answers and acknowledgements at a home, and what a misbehaving cache brings on
itself (04_coherence.md R113-R123, R130, R131, R667).
-/

namespace Sys2Proof.Machine

/-- The protocol error of a writeback by a cache that does not own the line: its data is discarded and the module is isolated
(R667). The coherence event is the ISOLATED event that the isolation raises (19_faults_resets.md R617 names no other). -/
def State.wbError (s : State) (h : Nat) (p : Pkt) : State :=
  (s.updIface (homeAgent h) (fun i => { i with inbound := i.inbound.erase p })).isolate p.src 4

/-- Apply a writeback: of the owner, its data is written and acknowledged; of another cache it is an error. -/
def State.applyWb (s : State) (h l : Nat) (p : Pkt) : State :=
  if s.owns h l (cacheOf p.src) then s.ackWb h l p else s.wbError h p

/-- A writeback at its home (R120, R121, R667): held while the snoop answer of its cache is owed, applied at once otherwise. -/
def State.writeback (s : State) (p : Pkt) : State :=
  let l := p.addr % 2 ^ 48 / 128
  let h := s.homeOfLine l
  let c := cacheOf p.src
  let owed : HPhase → Bool := fun ph => ph.owes c
  match SMap.get? (s.home h).busy l with
  | some t =>
    if owed t.phase then s.updHome h (fun x => { x with heldWb := x.heldWb ++ [p] })
    else if !s.owns h l c then s.wbError h p
    else (((s.ackWb h l p).clearHolder h l c).updBusy h l (fun ph => ph.wbDone c)).goOn h l
  | none => if s.owns h l c then (((s.ackWb h l p).clearHolder h l c).retryAlloc h (s.setOf (l * 128))) else s.wbError h p

/-- A clean eviction (R113, R116, R120): no answer. -/
def State.evict (s : State) (p : Pkt) : State :=
  let l := p.addr % 2 ^ 48 / 128
  let h := s.homeOfLine l
  let c := cacheOf p.src
  let s1 := s.updIface (homeAgent h) (fun i => { i with inbound := i.inbound.erase p })
  match SMap.get? (s.home h).entries l with
  | some _ => (s1.clearHolder h l c).retryAlloc h (s.setOf (l * 128))
  | none => if 0 < SMap.getD (s.home h).untrk c 0 then s1.dropUntracked h l c else s1

/-- A cache is lost that a home's snoop has not found: the home walks its filter for it (R131; log entry 136). -/
def State.cacheGone (s : State) (h cause c : Nat) : State :=
  let s1 := s.walkLost h cause c
  ((s1.home h).busy.map (fun e => s1.setOf (e.1 * 128))).eraseDups.foldl (fun t set => t.retryAlloc h set) s1

/-- A snoop answer without data at its home (R107, R113, R121, R131): a writeback that was held for it is applied first; WB_PENDING waits for the
writeback where none was held; DOMAIN_DOWN and TARGET_DEAD lose the cache; anything else settles the cache's state. -/
def State.snoopAnswer (s : State) (h l c status keep : Nat) : State :=
  match SMap.get? (s.home h).busy l with
  | none => s
  | some t =>
    if !t.phase.owes c then s
    else
      let held := (s.home h).heldWb.filter (fun q => cacheOf q.src = c && q.addr % 2 ^ 48 / 128 = l)
      let untracked := (SMap.get? (s.home h).entries l).isNone
      let pending := status = stWbPending
      let s1 := s.updHome h (fun x => { x with heldWb := x.heldWb.filter (fun q => !held.contains q) })
      let s2 := held.foldl (fun u q => u.applyWb h l q) s1
      let s3 :=
        if pending then (if held.isEmpty then s2.inc HBM_HOME_CNT1_WBPEND h 1 else (s2.inc HBM_HOME_CNT1_WBPEND h 1).clearHolder h l c)
        else if status = stDomainDown || status = stTargetDead then s2.cacheGone h (if status = stTargetDead then 1 else 0) c
        else if untracked && status ≠ stSnpMiss then s2.dropUntracked h l c
        else s2.snoopKeep h l c keep
      (s3.updBusy h l (fun ph => ph.answered c (pending && held.isEmpty))).goOn h l

/-- Whether the interface of an agent takes responses: its domain is OPEN or DRAINING and it is not isolated (02_commons.md
R58). -/
def State.takesAnswers (s : State) (a : Nat) : Bool := s.agentState a = domOpen || s.agentState a = domDraining

/-- Count an absorbed packet (COM_ERR.ABSORBED). -/
def State.absorb (s : State) : State := s.inc COM_ERR_ABSORBED 0 1

/-- Count the flits of an absorbed response (02_commons.md R47). -/
def State.absorbRsp (s : State) (p : Pkt) : State := s.inc COM_ERR_ABSORBED 0 (flitsOf p.opc)

/-- A snoop answer of cache agent `p.src` for the line of `p.addr` reaches its home. -/
def State.snoopReply (s : State) (p : Pkt) (withData : Bool) : State :=
  let l := p.addr % 2 ^ 48 / 128
  let h := s.homeOfLine l
  let c := cacheOf p.src
  let s1 := s.updIface p.src (fun i => { i with
    snoops := match i.snoops.find? (fun q => q.addr % 2 ^ 48 / 128 = l) with
      | some q => i.snoops.erase q
      | none => i.snoops })
  if !s.takesAnswers (homeAgent h) then s1.absorb
  else
    let owed : Bool := match SMap.get? (s.home h).busy l with
      | some t => t.phase.owes c
      | none => false
    if !owed then s1
    else
      let s2 := if withData then s1.putWb l p else s1
      s2.snoopAnswer h l c (if withData then stOk else p.status) p.keep

/-- An install acknowledgement at the home (R117): the line is released, or the packet is absorbed. -/
def State.cmpAck (s : State) (p : Pkt) : State :=
  let l := p.addr % 2 ^ 48 / 128
  let h := s.homeOfLine l
  match SMap.get? (s.home h).busy l with
  | some t =>
    if t.phase = .ack (cacheOf p.src) && s.takesAnswers (homeAgent h) then (s.release h l).retryAlloc h (s.setOf (l * 128)) else s.absorb
  | none => s.absorb

end Sys2Proof.Machine
end

