-- ==== Sys2Proof/Machine/Windows.lean ====
section
/-!
DEFINITION. Machine/Windows.lean: window accesses that a module sends to site logic on behalf of a Commons request
(14_sites.md R443-R450), and requests to host memory at the endpoint (16_host_endpoint.md R527, R531).
-/

namespace Sys2Proof.Machine

/-! ### Window accesses -/

/-- The contiguous runs of enabled bytes of a write: (offset, bytes), in ascending order (R444). -/
def maskRuns : Nat → Nat → List Byte → List (Nat × List Byte)
  | _, _, [] => []
  | k, mask, b :: l =>
    let rest := maskRuns (k + 1) (mask / 2) l
    if mask % 2 = 1 then
      (match rest with
       | (o, d) :: r => if mask / 2 % 2 = 1 && o = k + 1 then (k, b :: d) :: r else (k, [b]) :: (o, d) :: r
       | [] => [(k, [b])])
    else rest

/-- The fields that every window message copies from its request. -/
def winMsg (p : Pkt) (typ tag addr aux : Nat) (data : List Byte) : StlMsg :=
  { typ := typ, cls := p.cls, at_ := 1, vol := p.vol, noalloc := p.noalloc, ordered := p.ordered, poison := p.poison,
    tag := tag, deadline := p.deadline, aux := aux, addr := addr, data := data }

/-- Send one window message and remember its tag. -/
def State.winSend (s : State) (n u : Nat) (p : Pkt) (typ addr aux : Nat) (data : List Byte) (last : Bool) : State :=
  let t := (s.slot n u).freeTag
  (s.updSlot n u (fun x => { x with
    wins := x.wins.filter (fun w => w.tag ≠ t) ++ [{ tag := t, req := p, last := last }], nextTag := (t + 1) % 4096 })).siteSend n u
    (winMsg p typ t addr aux data)

/-- Send the parts of a write. -/
def State.winParts (s : State) (n u : Nat) (p : Pkt) (typ : Nat) : List (Nat × List Byte) → State
  | [] => s
  | (o, d) :: r =>
    (s.winSend n u p typ (p.addr % 2 ^ 48 + o) (d.length - 1) d r.isEmpty).winParts n u p typ r

/-- A request passes a module toward site logic (R443, R444, R450, R457): RD, WR, WRN and ATOM become W_RD, W_WR, W_WRN and W_ATOM, a DISPATCH
becomes WORK. A posted write keeps its inbound entry until it is performed (log entry 8). -/
def State.winPass (s : State) (n u : Nat) (p : Pkt) : State :=
  let hpa := p.addr % 2 ^ 48
  if isProbe p then s.winSend n u p 0x32 hpa 0 [] true
  else
    let s1 := s.chargePort n u 1 p
    match p.opc with
    | 0x00 => s1.winSend n u p 0x30 hpa (p.len - 1) [] true
    | 0x03 => s1.winParts n u p 0x31 (maskRuns 0 p.mask p.data)
    | 0x06 => s1.winParts n u p 0x32 (maskRuns 0 p.mask p.data)
    | 0x08 => s1.winSend n u p 0x33 hpa (atomOp p + if atomSize p = 8 then 16 else 0) (p.data.take 16) true
    | _ => s1.winSend n u p 0x34 0 0 (p.data.take 64) true

/-- The requests that a module may pass on now: their class's bucket does not hold them (13_sluice.md R425, R428), and no earlier request of their
source waits there (R420). -/
def State.outReady (s : State) (n u : Nat) : List Nat → List Pkt → List Pkt
  | _, [] => []
  | srcs, p :: r =>
    (if !srcs.contains p.src && (unheld p || !s.exhausted (portBucket n u 1 p)) then [p] else []) ++ s.outReady n u (p.src :: srcs) r

/-- Pass on what waits at a module, in the order of R428, at most `k` requests. -/
def State.outPump (n u : Nat) : Nat → State → State
  | 0, s => s
  | k + 1, s =>
    match leastBy (fun p => if unheld p then 0 else s.placeInOrder (portBucket n u 1 p) p + 1) (s.outReady n u [] (s.slot n u).outHeld) with
    | some p => State.outPump n u k ((s.updSlot n u (fun x => { x with outHeld := x.outHeld.erase p })).winPass n u p)
    | none => s

/-- Let a module pass on what the Sluice does not hold. -/
def State.pumpOut (s : State) (n u : Nat) : State := State.outPump n u (s.slot n u).outHeld.length s

/-- A request for site logic at its module's OUT regulator (13_sluice.md R427, R428). -/
def State.windowAccess (s : State) (a : Nat) (p : Pkt) : State :=
  if p.opc = 0x00 || p.opc = 0x03 || p.opc = 0x06 || p.opc = 0x08 || p.opc = 0x0B then
    (s.updSlot (siteOf a) (slotOf a) (fun x => { x with outHeld := x.outHeld ++ [p] })).pumpOut (siteOf a) (slotOf a)
  else s.answer a p stUnsupported

/-! ### Requests to host memory -/

/-- Status codes of the endpoint (16_host_endpoint.md R527). -/
def stHostCplTimeout : Nat := 0xF0
def stHostUr : Nat := 0xF1
def stHostPoison : Nat := 0xF2

/-- A tag that no outstanding host request uses: 1,024 may be outstanding (R527). -/
def State.hostTag (s : State) : Option Nat :=
  (List.range 1024).find? (fun t => s.hep.outstanding.all (fun r => r.tag ≠ t))

/-- Change the endpoint. -/
def State.updHep (s : State) (f : Hep → Hep) : State := { s with hep := f s.hep }

/-- A hub request to host memory goes out as its TLPs (R518, R527): a read takes a tag and waits for its completion; a write leaves as
one TLP for each run of enabled bytes and is performed as they are issued. A flush probe is answered at once, since every earlier write
has been issued (03_memory_model.md R85). -/
def State.hostIssue (s : State) (p : Pkt) : State :=
  if p.opc = 0x00 then
    match s.hostTag with
    | some t => (s.updHep (fun h => { h with outstanding := h.outstanding ++ [{ tag := t, req := p }] })).hostSend (.read t p.addr p.len)
    | none => s
  else if p.opc = 0x03 || p.opc = 0x06 then
    ((maskRuns 0 p.mask p.data).foldl (fun t r => t.hostSend (.write (p.addr + r.1) r.2 p.poison)) s).answer 0x180 p stOk
  else s.answer 0x180 p stUnsupported

/-- Send the queued requests that a tag has come free for, in order (R94). -/
def State.hostPump : Nat → State → State
  | 0, s => s
  | n + 1, s =>
    match s.hep.queued with
    | p :: r => if p.opc = 0x00 && s.hostTag.isNone then s else State.hostPump n ((s.updHep (fun h => { h with queued := r })).hostIssue p)
    | [] => s

/-- A hub request to host memory at the endpoint (R527, R531): refused while mastering is withdrawn or a function-level reset runs; it
waits in order while every tag is in use. -/
def State.hostAccess (s : State) (p : Pkt) : State :=
  if !s.mastering || s.hep.flr then (s.inc HEP_BME_BLOCKED 0 1).answer 0x180 p stHostBlocked
  else
    let s1 := s.updHep (fun h => { h with queued := h.queued ++ [p] })
    s1.hostPump s1.hep.queued.length

/-- Enter an LTR state: 0 ACTIVE, 1 IDLE, 2 DOZE; each change is reported while LTR Mechanism Enable is set (R529). -/
def State.ltrTo (s : State) (st : Nat) : State :=
  if s.hep.ltrState = st then s
  else
    let s1 := s.updHep (fun h => { h with ltrState := st })
    let lat := if st = 0 then s.rd HEP_LTR_ACTIVE else if st = 1 then s.rd HEP_LTR_IDLE else s.rd HEP_LTR_DOZE
    if s.hep.ltrEn then s1.hostSend (.ltr lat) else s1

/-- The endpoint leaves IDLE when a doorbell arrives or an item exists. -/
def State.ltrActive (s : State) : State := if s.hep.ltrState = 1 then s.ltrTo 0 else s

/-- Requests at the endpoint that are answered HOST_BLOCKED: each is counted (R531). -/
def State.hostBlock (s : State) (ps : List Pkt) : State :=
  ps.foldl (fun t p => (t.inc HEP_BME_BLOCKED 0 1).answer 0x180 p stHostBlocked) s

/-- Answer every outstanding request of the hub with HOST_BLOCKED; its tag stays allocated (R527, R531). -/
def State.hostDead (s : State) : State :=
  (s.hostBlock ((s.hep.outstanding.filter (fun r => !r.dead)).map (·.req))).updHep (fun h =>
    { h with outstanding := h.outstanding.map (fun r => { r with dead := true }) })

/-- Drop the requests that have not left, each answered HOST_BLOCKED (R531). -/
def State.hostDrop (s : State) : State := (s.hostBlock s.hep.queued).updHep (fun h => { h with queued := [] })

end Sys2Proof.Machine
end

