-- ==== Sys2Proof/Machine/Deliver.lean ====
section
/-!
DEFINITION. Machine/Deliver.lean: the way of a request from its agent to its destination (02_commons.md R36, R47-R54,
R58, R65; 01_architecture.md R14-R28; 03_memory_model.md R69-R91).
-/

namespace Sys2Proof.Machine

/-! ### At the destination -/

/-- Wake a parked tile (07_loom_model.md R237): a DISPATCH or scratchpad request does. -/
def State.wakeTile (s : State) (t : Nat) : State :=
  if (SMap.getD s.tiles t {}).parked then
    { s with tiles := SMap.upd {} s.tiles t (fun x => { x with parked := false }) }
  else s

/-- An access to a Cellar bank or a scratchpad at its point of performance (03_memory_model.md R73): `a` is the cell.
Sealed data follows 17_security.md R542, R573; a bank performs atomics, a scratchpad does not (R89). -/
def State.memAccess (s : State) (d : Nat) (p : Pkt) (a : Nat) : State :=
  let hpa := p.addr % 2 ^ 48
  let line := a / 128
  let rdPattern (n : Nat) : State :=
    (s.ledgerRefusal (refusalPath p) p.tenant hpa).answer d p stMemPoison (poisonAt (if p.opc = 0x00 then p.addr else 0) n) true
  let read (lo n : Nat) : State :=
    match s.readVerdict hpa p.tenant p.sealed with
    | .data =>
      let bad := s.poisoned lo n
      s.answer d p (if bad then (if kindOf d = .tile then 0x91 else stMemPoison) else stOk) (s.bytes lo n) bad
    | _ => rdPattern n
  let full := p.opc = 0x04 || p.opc = 0x05 || p.opc = 0x07
  match p.opc with
  | 0x00 => read a p.len
  | 0x01 => read (line * 128) 128
  | 0x02 => read (line / 2 * 256) 256
  | 0x08 =>
    if kindOf d ≠ .bank || !atomOk p then s.answer d p stUnsupported
    else if s.writeRefused hpa p.tenant p.sealed false false then s.answer d p stSealedRo
    else
      let (old, bad, s1) := s.atomAt a p
      s1.answer d p (if bad then stMemPoison else stOk) (natLe 8 old) bad
  | _ =>
    if s.writeRefused hpa p.tenant p.sealed (isSealing p) full then s.answer d p stSealedRo
    else (s.performWrite a p).answer d p stOk

/-- Whether the agent of a kind implements a unit request (R47, R48): work dispatch, events at the Steward, STOP, translation, and Mill messages. -/
def unitOpcode (k : AgentKind) (opc : Nat) : Bool :=
  match k, opc with
  | .tile, 0x0B => true
  | .mover, 0x0B => true
  | .mill, 0x0B => true
  | .site _, 0x0B => true
  | .steward, 0x0C => true
  | .tile, 0x0D => true
  | .mover, 0x0D => true
  | .mill, 0x0D => true
  | .site _, 0x0D => true
  | .xlt, 0x0E => true
  | .mill, 0x0F => true
  | .link, 0x0F => true
  | _, _ => false

/-- A writeback or an eviction at a home (04_coherence.md R103, R104, R120): one that R103 or R104 does not allow is answered UNSUPPORTED. -/
def State.cacheReturn (s : State) (d : Nat) (p : Pkt) : State :=
  if !coherentOk p then s.answer d p stUnsupported
  else if p.opc = 0x13 then (s.chargeHome (d - 0x070) p).writeback p
  else s.evict p

/-- What a destination does with a request that it has accepted. Unit requests (opcodes 0x0B-0x0F) that its agent implements, requests for other
hubs, and flush probes wait in the inbound table for their own commands. What the packet's address means was settled as it entered the Commons
(01_architecture.md R17): `far` for another hub. -/
def State.perform (s : State) (d : Nat) (p : Pkt) : State :=
  if 0x0B ≤ p.opc && p.opc ≤ 0x0F then (if unitOpcode (kindOf d) p.opc then s else s.answer d p stUnsupported)
  else if d = 0x180 then s.hostAccess p
  else if isProbe p then (match kindOf d with | .site _ => s.windowAccess d p | _ => s)
  else if p.far then (if p.opc ≤ 0x08 && formOf p.opc ≠ .line then s else s.answer d p stUnsupported)
  else
    match s.spaceOfHpa (p.addr % 2 ^ 48) with
    | .csr _ => s.answer d p stUnsupported
    | sp =>
      match kindOf d with
      | .home =>
        if p.opc = 0x13 || p.opc = 0x14 then s.cacheReturn d p
        else if p.opc ≤ 0x08 || (0x10 ≤ p.opc && p.opc ≤ 0x12) || p.opc = 0x15 then s.homeRequest p
        else s.answer d p stUnsupported
      | .bank => if p.opc ≤ 0x08 then s.memAccess d p ((s.cell p.addr).getD 0) else s.answer d p stUnsupported
      | .tile =>
        match sp with
        | .scratch _ _ =>
          let s1 := s.wakeTile (d - 0x200)
          if 0x08 < p.opc then s.answer d p stUnsupported
          -- 07_loom_model.md R231: only the owner tenant reaches a scratchpad
          else if s1.rd LOOM_STAT_OWNER (d - 0x200) ≠ p.tenant then s1.answer d p 0x90
          else s1.memAccess d p ((s.cell p.addr).getD 0)
        | _ => s.answer d p stUnsupported
      | .site _ => s.windowAccess d p
      | _ => s.answer d p stUnsupported

/-- Whether a physical unit of a spared kind answers DOMAIN_DOWN to all but the Reeve and the boot sequencer: before Ready (18_bringup.md
R593), and while it carries no logical ID (02_commons.md R65). -/
def State.idleSpare (s : State) (d : Nat) (p : Pkt) : Bool :=
  isPhysId d && p.src ≠ 0x1C1 &&
  (!s.flag BOOT_STAT_READY || (s.roll.built && !s.roll.floorplan && (s.logicalOf d).isNone))

/-- Whether the interface of `d` takes no request now: its inbound table is full, or the Sluice bars the request's partition
(02_commons.md R51, 13_sluice.md R426). -/
def State.inboundFull (s : State) (d : Nat) (p : Pkt) : Bool := 256 ≤ (s.iface d).inbound.length || s.partFull d p

/-- An interface accepts a request: its partition and HOST_CACHE are those of this moment (13_sluice.md R422, 04_coherence.md R135). -/
def State.accept (s : State) (d : Nat) (p : Pkt) : State :=
  let hostc : Bool := kindOf d = .home && s.flag HBM_HOME_CFG_HOST_CACHE (d - 0x070)
  let q := { p with part := if kindOf d = .home then s.partOf p else 0, hostc := hostc }
  (s.updIface d (fun i => { i with inbound := i.inbound ++ [q] })).perform d q

/-- A request reaches its destination's interface (02_commons.md R51, R58): refused by the domain's state, blocked behind the flits that wait there or
while the inbound table takes no more, or accepted. -/
def State.arrive (s : State) (d : Nat) (p : Pkt) : State :=
  let st := s.agentState d
  if st = 5 then s.refuse d p stTargetDead
  else if st ≠ domOpen || s.idleSpare d p then s.refuse d p stDomainDown
  else if !(s.iface d).blocked.isEmpty || s.inboundFull d p then s.updIface d (fun i => { i with blocked := i.blocked ++ [p] })
  else s.accept d p

/-! ### At the sender -/

/-- Whether an agent may reach the CSR space (01_architecture.md R22): the Steward, the Vestry and the Reeve always, others
by their CSR-access bit. -/
def State.csrAllowed (s : State) (src : Nat) : Bool :=
  kindOf src = .steward || src = 0x1C0 || src = 0x1C1 ||
  (let id := (s.logicalOf src).getD src
   Nat.testBit (s.rd COM_CSR_ACC_ALLOW (id / 64)) (id % 64))

/-- Record that a posted write of a stream went to a destination, for its next fence (03_memory_model.md R85). -/
def State.notePosted (s : State) (src stream d : Nat) : State :=
  s.updIface src (fun i => if i.posted.contains (stream, d) then i else { i with posted := i.posted ++ [(stream, d)] })

/-- An answer by the sender's own interface (02_commons.md R36). -/
def State.senderAnswer (s : State) (p : Pkt) (status : Nat) : State := s.refuse p.src p status

/-- The operations that R69 (03_memory_model.md) allows an agent in a space beside the space itself: a control core reads and writes single words
and performs atomics in local HBM only; a site's reads and writes of the Cellar are no atomics. -/
def opAllowed (k : AgentKind) (sp : Space) (p : Pkt) : Bool :=
  let n := if p.opc = 0x00 then p.len else p.data.length
  let word : Bool := (n = 4 || n = 8) && p.addr % n = 0
  match k, sp with
  | .tile, .hbm _ => p.opc = 0x08 || ((p.opc = 0x00 || p.opc = 0x03 || p.opc = 0x06) && word)
  | .tile, .site _ => (p.opc = 0x00 || p.opc = 0x03 || p.opc = 0x06) && word
  | .tile, .remote _ => (p.opc = 0x00 || p.opc = 0x03 || p.opc = 0x06) && word
  | .site _, .cellar _ _ => p.opc ≤ 0x07
  | _, _ => true

/-- Whether an address of host memory lies in a ring of the Steward: a submission, completion or generation ring (03_memory_model.md R69). -/
def State.inHostRing (s : State) (a : Nat) : Bool :=
  (List.range 1024).any (fun q =>
    let b := s.rd STW_QBASE_BASE q * 4096
    !s.flag STW_QBASE_LOC q && decide (b ≤ a) && decide (a < b + 64 * 2 ^ s.rd STW_QBASE_LOG2N q)) ||
  (List.range 1024).any (fun c =>
    let b := s.rd STW_CQBASE_BASE c * 4096
    !s.flag STW_CQBASE_LOC c && decide (b ≤ a) && decide (a < b + 32 * 2 ^ s.rd STW_CQBASE_LOG2N c))

/-- The route of a request: requests to host memory and flush probes name an agent, unit requests name an agent, and memory requests
an address (01_architecture.md R14-R20, 03_memory_model.md R69, R70). -/
def State.routeReq (s : State) (p : Pkt) : Route :=
  if isProbe p then
    (if isPhysId p.dst || isFixedId p.dst then .toAgent p.dst else .answer stDecodeError)
  else if p.dst = 0x180 && p.opc ≤ 0x08 then
    (match kindOf p.src with
     | .mover => .toAgent 0x180
     | .steward => if s.inHostRing p.addr then .toAgent 0x180 else .answer stDecodeError
     | _ => .answer stDecodeError)
  else if 0x0B ≤ p.opc && p.opc ≤ 0x0F then
    (if isSpared p.dst then s.routeLogical p.src p.dst
     else if isFixedId p.dst then .toAgent p.dst
     else if isPhysId p.dst && (s.roll.floorplan || p.src = 0x1C1) then .toAgent p.dst
     else .answer stDecodeError)
  else if !opAllowed (kindOf p.src) (s.spaceOf p.addr) p then .answer stDecodeError
  else s.route p.src p.addr

/-- What an agent executes on a stream: the tenant of the work, its class and deadline, and the number of its item at the Steward. -/
structure Task where
  tenant : Nat
  cls : Nat
  deadline : Nat
  item : Option Nat := none
  deriving DecidableEq, Repr

/-- The task of a request (01_architecture.md R25): of a tile its kernel, or its owner's tenant between kernels; of a mover its queue's running item; of a Mill
slice the collective; of a site the channel; of the Steward the item. Other agents act for the tenant that their own chapter names. -/
def State.taskOf (s : State) (p : Pkt) : Task :=
  let own : Task := { tenant := p.tenant, cls := p.cls, deadline := p.deadline }
  match kindOf p.src with
  | .tile =>
    let t := p.src - 0x200
    (match (SMap.getD s.tiles t {}).run with
     | some r => { tenant := r.tenant, cls := r.cls, deadline := r.deadline, item := some r.item }
     | none => { own with tenant := s.rd LOOM_STAT_OWNER t })
  | .mover =>
    (match SMap.getD s.movers (8 * (p.src - 0x250) + p.stream) [] with
     | j :: _ => { tenant := j.tenant, cls := j.cls, deadline := j.deadline, item := some j.item }
     | [] => { own with tenant := 0 })
  | .mill =>
    (match s.mill.items.find? (fun i => i.seq = p.stream) with
     | some i => { tenant := i.tenant, cls := i.cls, deadline := i.deadline, item := some i.item }
     | none => { own with tenant := 0 })
  | .site n => { own with tenant := s.rd SITE_WQ_TENANT (16 * n + p.stream % 16) }
  | .steward =>
    (match s.stw.items.find? (fun i => i.order + 1 = p.stream) with
     | some i => { own with tenant := i.tenant, cls := i.cls }
     | none => own)
  | .host => { own with tenant := 0 }
  | _ => own

/-- Whether a request's task has no deadline (01_architecture.md R27, 11_steward_commands.md R362): the item that its unit executes has none in its packet, or
its agent executes no item. Sites and links carry the deadlines that they are given; the Steward engine stamps its own. -/
def State.noDeadline (s : State) (p : Pkt) : Bool :=
  match kindOf p.src with
  | .site _ => false
  | .link => false
  | .steward => false
  | _ =>
    match (s.taskOf p).item with
    | some k =>
      let u := (s.logicalOf p.src).getD p.src
      s.stw.items.any (fun i => i.unit = u && i.id = k && pktField i.pkt 10 2 = 0)
    | none => true

/-- The deadline that goes into a request (R27). -/
def State.dueStamp (s : State) (p : Pkt) : Nat :=
  if s.noDeadline p then (s.time / 64 + 0x7FFF) % 65536
  else if isProbe p then (s.taskOf p).deadline
  else p.deadline

/-- LINE of a request to a line-form destination (02_commons.md R46). -/
def State.lineField (s : State) (p : Pkt) : Nat :=
  if formOf p.opc ≠ .line then 0
  else match s.spaceOf p.addr with
    | .hbm hpa => (s.loc hpa).line
    | .cellar _ off => off / 128
    | .scratch _ off => off / 128
    | _ => 0

/-- What the sender's agent and interface set in a request: TENANT and SEALED, the deadline of a task without one, its hub, LINE, and the physical agent that
the Roll and the address map name (01_architecture.md R14, R17, R25-R27, 02_commons.md R46). -/
def State.stamp (s : State) (q : Pkt) : Pkt :=
  let t := (s.taskOf q).tenant
  let toUnit : Bool := (q.dst = 0x180 && q.opc ≤ 0x08) || (0x0B ≤ q.opc && q.opc ≤ 0x0F) || isProbe q
  let far : Bool := match s.spaceOf q.addr with | .remote _ => !toUnit | _ => false
  let a := if formOf q.opc = Form.line then q.addr / 128 * 128 else q.addr
  let c := if isProbe q then (s.taskOf q).cls else q.cls
  let p : Pkt := { q with tenant := t, sealed := s.stampSealed q.src t, far := far, line := s.lineField q, addr := a, cls := c
                          deadline := s.dueStamp q }
  { p with dest := match s.routeReq p with | .toAgent d => d | .answer _ => noAgent }

/-! ### What waits at the sender (02_commons.md R42, R50, R54, 03_memory_model.md R80-R84, 13_sluice.md R420) -/

/-- Whether a fence of a request's stream holds it: one in progress, or one that waits before it. -/
def Iface.fenced (i : Iface) (before : List Held) (p : Pkt) : Bool :=
  !isProbe p && (i.fences.any (fun f => f.1 = p.stream) || before.any (fun h => match h with | .fence st _ => st = p.stream | _ => false))

/-- The issued requests before an entry of the waiting list: those that no fence holds. -/
def Iface.issuedBefore (i : Iface) : List Held → List Held → List Pkt
  | _, [] => []
  | done, .req p :: r => (if i.fenced done p then [] else [p]) ++ i.issuedBefore (done ++ [.req p]) r
  | done, f :: r => i.issuedBefore (done ++ [f]) r

/-- Whether the sender's interface must keep a request back that waits behind `before`: a fence of its stream is pending, its TXN is held or still
outstanding, 4,096 requests are outstanding, the response has no room, or an earlier request to the same destination waits. -/
def State.mustWait (s : State) (before : List Held) (p : Pkt) : Bool :=
  let i := s.iface p.src
  i.fenced before p ||
  (!isPosted p && (i.txnHold.contains p.txn || i.outstanding.any (fun q => q.txn = p.txn) ||
    decide (4096 ≤ i.outstanding.length) || decide (respRoom < i.reserved + respFlits p))) ||
  (i.issuedBefore [] before).any (fun q => (s.stamp q).dest = (s.stamp p).dest)

/-- The requests of a waiting list that may go, each with what waits before it. -/
def State.ready (s : State) : List Held → List Held → List Pkt
  | _, [] => []
  | done, .req p :: r => (if s.mustWait done p then [] else [p]) ++ s.ready (done ++ [.req p]) r
  | done, f :: r => s.ready (done ++ [f]) r

/-- The place of a request in the order of injection (13_sluice.md R420): urgent and overdue ones by deadline, then by class; the earliest of equals goes
first. -/
def State.injectPlace (s : State) (p : Pkt) : Nat :=
  if s.urgent p || s.overdue p then s.dueKey p else 65536 * (8 - p.cls % 8)

/-- A request leaves its interface for the Commons and reaches its destination at once, unless an earlier packet of its flow is still on its way, or
a flush probe or `later` says that it travels: its own command then delivers it (02_commons.md R49). -/
def State.depart (s : State) (p : Pkt) (later : Bool) : State :=
  let s1 := if isPosted p then s.notePosted p.src p.stream p.dest else s
  if later || isProbe p || s.com.out.any (sameFlow p) then s1.send p else s1.arrive p.dest p

/-- Send a request on from the sender's interface: tags are stamped (01_architecture.md R25, R26), the CSR space is guarded (R22), a sealed tenant's
closed world is kept (17_security.md R572), the reserve and directory regions take no writes but their owners'
(12_steward_resources.md R389, 17_security.md R568), and the request goes its way. -/
def State.launchAs (s : State) (q : Pkt) (later : Bool) : State :=
  let p := s.stamp q
  let s1 := if isPosted p then s else s.updIface p.src (fun i => { i with outstanding := i.outstanding ++ [p] })
  let writes := (0x03 ≤ p.opc && p.opc ≤ 0x08) || (0x11 ≤ p.opc && p.opc ≤ 0x13) || p.opc = 0x15
  let toHost := p.dst = 0x180 && p.opc ≤ 0x08
  let memory : Bool := !toHost && !isProbe p && (p.opc ≤ 0x0A || 0x10 ≤ p.opc)
  let hpa := p.addr % 2 ^ 48
  let csr : Bool := memory && (match s.spaceOf p.addr with | .csr _ => true | _ => false)
  if csr && !s.csrAllowed p.src then s1.senderAnswer p stDenied
  -- a register access is served by its interface within CSR_RD and CSR_WR (01_architecture.md R666)
  else if csr && (p.opc = 0x09 || p.opc = 0x0A) then s1
  else match s.routeReq p with
  | .answer st => s1.senderAnswer p st
  | .toAgent _ =>
    let local_ : Bool := memory && (match s.spaceOf p.addr with | .hbm _ => true | _ => false)
    if memory && s.worldDenies p p.src then
      (if local_ && p.opc ≤ 0x02 then s1.ledgerRefusal (refusalPath p) p.tenant hpa else s1).senderAnswer p stDenied
    else if local_ && writes && ((s.inReserve hpa && kindOf p.src ≠ .steward) || (s.inVstDir hpa && p.src ≠ 0x1C0)) then
      s1.senderAnswer p stDenied
    else s1.depart p later

/-- Send a request on. -/
def State.launch (s : State) (q : Pkt) : State := s.launchAs q false

/-- Whether an agent may issue requests (02_commons.md R58): an agent of a FENCED, OFF, OPENING or isolated domain issues
none, nor one of a DRAINING domain that has signalled idle. -/
def State.mayIssue (s : State) (a : Nat) : Bool :=
  s.agentState a = domOpen || (s.agentState a = domDraining && !(s.iface a).idle)

/-- An agent issues a request (02_commons.md R50, R58, R66): a malformed flit isolates it; a request that must wait does so at the interface. -/
def State.issue (s : State) (p : Pkt) : State :=
  if !s.mayIssue p.src then s
  else if malformed p then s.isolate p.src 1
  else
    let before := (s.iface p.src).waiting
    if s.mustWait before p then s.updIface p.src (fun i => { i with waiting := i.waiting ++ [.req p] }) else s.launch p

/-- A request command: a packet on its way reaches its destination; any other is issued. -/
def State.request (s : State) (p : Pkt) : State := s.delivering p (fun t => t.arrive p.dest p) (s.issue p)

/-! ### Fences (03_memory_model.md R84-R88) -/

/-- A flush probe: a WRN with an all-zero MASK, of a stream (R85). -/
def probePkt (agent d stream txn : Nat) : Pkt :=
  { opc := 0x06, dst := d, src := agent, txn := txn, stream := stream, mask := 0 }

/-- The request of an entry of a waiting list. -/
def Held.req? : Held → Option Pkt
  | .req p => some p
  | .fence _ _ => none

/-- Whether a stream has a request in a waiting list. -/
def streamHeld (stream : Nat) (l : List Held) : Bool := l.any (fun h => match h with | .req p => p.stream = stream | _ => false)

/-- Start a fence of a stream: probes to every destination of its posted writes since the last fence; a local fence
probes no anchor (R84, R87, 15_fabric_links.md R495). -/
def State.beginFence (s : State) (agent stream : Nat) (remote : Bool) : State :=
  let isLink (d : Nat) : Bool := kindOf d = .link
  let ds := ((s.iface agent).posted.filter (fun e => e.1 = stream && (remote || !isLink e.2))).map (·.2)
  let s1 := s.updIface agent (fun i => { i with
    posted := i.posted.filter (fun e => !(e.1 = stream && ds.contains e.2))
    fences := i.fences ++ [(stream, remote)] })
  ds.foldl (fun t d => t.issue (probePkt agent d stream (t.freeTxn agent))) s1

/-- The first fence of a waiting list that nothing before it keeps: no request of its stream waits before it, and none of its stream is in progress. -/
def nextFence (i : Iface) : List Held → List Held → Option Held
  | _, [] => none
  | done, .fence st r :: l =>
    if !streamHeld st done && i.fences.all (fun f => f.1 ≠ st) && done.all (fun h => match h with | .fence k _ => k ≠ st | _ => true)
    then some (.fence st r) else nextFence i (done ++ [.fence st r]) l
  | done, h :: l => nextFence i (done ++ [h]) l

/-- Let go what waits at an interface for nothing now: fences start, and requests leave in the order of injection. -/
def State.reissue (a : Nat) : Nat → State → State
  | 0, s => s
  | k + 1, s =>
    let i := s.iface a
    match nextFence i [] i.waiting with
    | some (.fence st r) =>
      State.reissue a k ((s.updIface a (fun x => { x with waiting := x.waiting.erase (.fence st r) })).beginFence a st r)
    | _ =>
      match leastBy s.injectPlace (s.ready [] i.waiting) with
      | some p => State.reissue a k ((s.updIface a (fun x => { x with waiting := x.waiting.erase (.req p) })).launch p)
      | none => s

/-- Release everything that waits at an interface and may now go; an agent that may issue nothing keeps it (R58). -/
def State.releaseWaiting (s : State) (a : Nat) : State := if s.mayIssue a then s.reissue a (2 * (s.iface a).waiting.length) else s

/-- A stream fences (R84): the fence waits behind earlier requests of its stream that wait, and behind its earlier fences. -/
def State.startFence (s : State) (agent stream : Nat) (remote : Bool) : State :=
  let i := s.iface agent
  if streamHeld stream i.waiting || i.fences.any (fun f => f.1 = stream) ||
     i.waiting.any (fun h => match h with | .fence k _ => k = stream | _ => false) then
    s.updIface agent (fun x => { x with waiting := x.waiting ++ [.fence stream remote] })
  else s.beginFence agent stream remote

/-- Whether a fence of a stream is in progress or waits. -/
def State.fencing (s : State) (agent stream : Nat) : Bool :=
  let i := s.iface agent
  i.fences.any (fun f => f.1 = stream) || i.waiting.any (fun h => match h with | .fence k _ => k = stream | _ => false)

/-- Whether the fence of a stream has ended: every earlier local request and probe is answered, remote ones too for
FENCE.REMOTE (R84, R87). Failures count as answers (R88). -/
def State.fenceDone (s : State) (agent stream : Nat) (remote : Bool) : Bool :=
  let i := s.iface agent
  i.outstanding.all (fun p => decide (p.stream ≠ stream) || (!remote && p.far)) &&
  i.waiting.all (fun h => match h with | .req p => decide (p.stream ≠ stream) || !isProbe p | _ => true)

/-- End a fence whose condition holds: later requests may issue (R84). -/
def State.endFence (s : State) (agent stream : Nat) : State :=
  match (s.iface agent).fences.find? (fun f => f.1 = stream) with
  | some f =>
    if s.fenceDone agent stream f.2 then
      (s.updIface agent (fun i => { i with fences := i.fences.erase f })).releaseWaiting agent
    else s
  | none => s

/-- End every fence of an agent that has nothing to wait for. -/
def State.settleFence (s : State) (a : Nat) : State := (s.iface a).fences.foldl (fun u f => u.endFence a f.1) s

end Sys2Proof.Machine
end

