-- ==== Sys2Proof/Machine/Resets.lean ====
section
/-!
DEFINITION. Machine/Resets.lean: which settings return to their defaults on which event (00_scope.md R10), and what a
domain loses with its power.
-/

namespace Sys2Proof.Machine

/-- The Stile domain that owns a stored register, if one does. -/
def regDomain (x : Nat) : Option Nat :=
  if 0x0800000 ≤ x && x < 0x0C00000 then some ((x - 0x0800000) / 0x10000)
  else if 0x1B00000 ≤ x && x < 0x1B40000 then some (0x40 + (x - 0x1B00000) / 0x10000)
  else if 0x0C30000 ≤ x && x < 0x0C40000 then none
  else if 0x0C00000 ≤ x && x < 0x0E00000 then some (0xAB + (x - 0x0C00000) / 0x40000)
  else if 0x1000000 ≤ x && x < 0x1800000 then some (0xB3 + (x - 0x1000000) / 0x100000)
  else if 0x1808000 ≤ x && x < 0x1810000 then none
  else if 0x1800000 ≤ x && x < 0x1B00000 then some (0xBB + (x - 0x1800000) / 0x10000)
  else match MOV_STAT.find x, MOV_BYTES.find x, MILL_SLICE.find x with
    | some d, _, _ => some (0x44 + d)
    | _, some d, _ => some (0x44 + d)
    | _, _, some k => some (0x66 + k)
    | _, _, _ => none

/-- Return the registers that `f` selects, by offset and class, to their reset values. -/
def State.resetRegs (s : State) (f : Nat → Retention → Bool) : State :=
  { s with regs := s.regs.filter (fun e => match findReg e.1 with
      | some (r, _) => !f e.1 r.ret
      | none => true) }

/-- Read-only fields of class volatile that show the state of hardware which a function-level reset leaves running (00_scope.md R9): they return to
default with their class and show that state at once again (log entry 52). What was only measured or set through them stays at its default. -/
def State.showLive (t s : State) : State :=
  let units (u : State) (n : Nat) (f : RF) : State := (List.range n).foldl (fun x k => x.wr f k (s.rd f k)) u
  let t1 := units (units (units t 8 HBM_STAT_STATE) 8 HBM_STAT_STEP) 1 LNK_TIME_STAT_LOCKED
  let t2 := [SITE_STAT_SELFTEST, SITE_STAT_UP, SITE_STAT_FOLD, SITE_STAT_HALF, SITE_STAT_RATE_NOW, SITE_STAT_PROTO_NOW, SITE_STAT_STATE].foldl
    (fun u f => units u 8 f) t1
  let t3 := [LNK_STAT_LANES, LNK_STAT_WIDTH, LNK_STAT_PORTS, LNK_STAT_STATE].foldl (fun u f => units u 48 f) t2
  [PWR_STAT_LIMITER, PWR_STAT_VR_HOT, PWR_STAT_THROTTLE, PWR_STAT_VCORE_MV, STW_STAT_FW_UP].foldl (fun u f => units u 1 f) t3

/-- A function-level reset returns the function and volatile classes to default; the firmware cores keep running. -/
def State.resetFunction (s : State) : State := (s.resetRegs (fun _ c => c = .function || c = .volatile)).showLive s

/-- A warm reset, or a hub reset by the Reeve, keeps only the sticky class. -/
def State.resetWarm (s : State) : State := s.resetRegs (fun _ c => c ≠ .cold)

/-- Mark setting groups as returned to default (19_faults_resets.md R632, R633). -/
def State.grpRet (s : State) (gs : List Nat) : State :=
  s.setReg RVE_GRP_RET 0 (gs.foldl (fun (w : Word) g => w ||| BitVec.ofNat 64 (2 ^ g)) (s.reg RVE_GRP_RET 0))

/-- Mark a domain as having lost its domain class (19_faults_resets.md R633). -/
def State.domRet (s : State) (d : Nat) : State :=
  s.setReg RVE_DOM_RET (d / 64) (s.reg RVE_DOM_RET (d / 64) ||| BitVec.ofNat 64 (2 ^ (d % 64)))

/-- The setting group of class domain that a domain's registers belong to (19_faults_resets.md R632). The share of group 40, Live status, that a domain
loses with them sets no bit: the other domains keep theirs (log entry 19). -/
def domGroup (d : Nat) : List Nat :=
  if d ≤ 0x43 then [32] else if d ≤ 0x65 then [33] else if d ≤ 0x76 then [34]
  else if 0xAB ≤ d && d ≤ 0xB2 then [35] else if 0xB3 ≤ d && d ≤ 0xBA then [36] else []

/-- The registers of a domain that is reset or switched off: classes domain and volatile. -/
def State.resetDomainRegs (s : State) (d : Nat) : State :=
  ((s.resetRegs (fun x c => (c = .domain || c = .volatile) && regDomain x = some d)).domRet d).grpRet (domGroup d)

/-- The contents of a tile's scratchpad or of a Cellar bank are lost with its power; they read as memory that nothing has
written (03_memory_model.md R99; log entry 3). -/
def State.dropContents (s : State) (d : Nat) : State :=
  if d ≤ 0x43 then s.zeroRange (scratchCell d) (scratchCell d + 0x200000)
  else if 0x77 ≤ d && d ≤ 0xAA then s.zeroRange (cellarCell (d - 0x77)) (cellarCell (d - 0x77) + 0x800000)
  else s

/-- A stack's soft repairs hold until it loses power; the rows that they repaired are counted anew (05_hbm.md R154). -/
def State.dropSoft (s : State) (d : Nat) : State :=
  if 0xAB ≤ d && d ≤ 0xB2 then
    (s.updStack (d - 0xAB) (fun x => { x with passes := x.passes.filter (fun e => !x.softRows.contains e.1), softRows := [] })).wr
      HBM_REPAIR_SOFT_ROWS (d - 0xAB) 0
  else s

/-- What the unit of a spared domain holds besides its registers is lost with its power: a tile's core, patterns and vector registers
(07_loom_model.md R231), a mover's queues and micro-TLB, a mover's or Mill slice's image (18_bringup.md R605). -/
def State.dropUnit (s : State) (d : Nat) : State :=
  if d ≤ 0x43 then { s with tiles := SMap.del s.tiles d }
  else if d ≤ 0x65 then
    { s with movers := s.movers.filter (fun e => e.1 / 8 ≠ d - 0x44), xlt := { s.xlt with micro := SMap.del s.xlt.micro (d - 0x44) }
             rve := { s.rve with rx := SMap.del s.rve.rx (0x250 + (d - 0x44)) } }
  else if d ≤ 0x76 then { s with rve := { s.rve with rx := SMap.del s.rve.rx (0x280 + (d - 0x66)) } }
  else s

/-- A link agent loses the contexts that it anchors, and its link what it held; the EPOCHs of the pairs stay (15_fabric_links.md R489; log entry 142). -/
def State.dropLink (s : State) (d : Nat) : State :=
  if 0xBB ≤ d && d ≤ 0xEA then
    let a := 0x140 + (d - 0xBB)
    let mine (h : Nat) : Bool := s.anchorOf h = a
    let ended := s.fab.send.filter (fun e => mine e.1)
    { s with fab := { s.fab with
        links := SMap.upd {} s.fab.links (d - 0xBB) (fun x => { x with
          seq := 0, exp := 0, retry := [], replays := 0, nak := false, credits := [], txq := [], rx := [], paused := [], retrains := 0, locked := false })
        epochs := ended.foldl (fun m e => SMap.set 0 m e.1 e.2.epoch) s.fab.epochs
        send := s.fab.send.filter (fun e => !mine e.1)
        recv := s.fab.recv.filter (fun e => !mine e.1)
        anchors := s.fab.anchors.filter (fun e => !mine e.1)
        orphans := s.fab.orphans.filter (fun x => x.agent ≠ a)
        rspWait := s.fab.rspWait.filter (fun e => !mine e.1) } }
  else s

/-- What a domain loses as its power is switched off; requests that an interface had not accepted are answered DOMAIN_DOWN (02_commons.md R58). -/
def State.powerOff (s : State) (d : Nat) : State :=
  let s0 := (domAgents d).foldl (fun t a => (t.iface a).blocked.foldl (fun u p => u.refuse a p stDomainDown) t) s
  let s1 := ((((s0.resetDomainRegs d).dropContents d).dropUnit d).dropLink d).dropSoft d
  (domAgents d).foldl (fun t a => t.updIface a (fun i =>
    { i with inbound := [], outstanding := [], waiting := [], blocked := [], sent := [], remote := [], snoops := [], posted := [], fences := [],
             answers := [], writeFails := [], idle := false })) s1

end Sys2Proof.Machine
end

