-- ==== Sys2Proof/Machine/Commons.lean ====
section
/-!
DEFINITION. Machine/Commons.lean: the commands of the Commons network, its Stile and its fences (02_commons.md,
03_memory_model.md R84-R88).
-/

namespace Sys2Proof.Machine

/-! ### The stage ring and the routers -/

/-- State of boot step `k`: 0 NOT_RUN, 1 BUSY, 2 DONE, 3 FAILED (BOOT_STAT.STEPS). -/
def State.bootStep (s : State) (k : Nat) : Nat := s.rd BOOT_STAT_STEPS / 4 ^ (k - 1) % 4

/-- Set the state of boot step `k`. -/
def State.setBootStep (s : State) (k v : Nat) : State :=
  s.wr BOOT_STAT_STEPS 0 (s.rd BOOT_STAT_STEPS + v * 4 ^ (k - 1) - s.bootStep k * 4 ^ (k - 1))

/-- Boot step `k` ends DONE or FAILED: GO clears, and BOOT_TIME holds its time (18_bringup.md R585, R587). -/
def State.bootEnd (s : State) (k : Nat) (done : Bool) : State :=
  ((s.setBootStep k (if done then 2 else 3)).wr BOOT_CMD_GO 0 0).wr BOOT_TIME_US k (min (2 ^ 32 - 1) ((s.time - s.rve.t0) / 1000))

/-- Record a boot error (18_bringup.md R609). -/
def State.bootErr (s : State) (k code agent detail : Nat) : State :=
  ((((s.wr BOOT_ERR_VALID 0 1).wr BOOT_ERR_STEP 0 k).wr BOOT_ERR_CODE 0 code).wr BOOT_ERR_AGENT 0 agent).wr BOOT_ERR_DETAIL 0 detail

/-- Boot step `k` ends FAILED. -/
def State.bootFail (s : State) (k code agent detail : Nat) : State := (s.bootErr k code agent detail).bootEnd k false

/-- Step 9 ends once no populated site is in its sequence (18_bringup.md R602). -/
def State.sitesBooted (s : State) : State :=
  if s.bootStep 9 = 1 && (List.range 8).all (fun n => s.domSt (0xB3 + n) ≠ domOpening) then s.bootEnd 9 true else s

/-- The end of a stage-ring window (01_architecture.md R31, HUB_STAGE): a new measurement once the Reeve runs. -/
def execStageWindowEnd (stageFs : Nat) (s : State) : Res :=
  .next (if s.bootStep 4 = 2 then (s.wr HUB_STAGE_STAGE_FS 0 stageFs).wr HUB_STAGE_VALID 0 1 else s)

/-- Record where the latest uncorrectable error was seen (COM_ERR). -/
def State.lastError (s : State) (row col port : Nat) : State :=
  ((s.wr COM_ERR_LAST_ROW 0 row).wr COM_ERR_LAST_COL 0 col).wr COM_ERR_LAST_PORT 0 port

/-- Whether a packet travels on the Commons: one that has been issued, or a broadcast. -/
def State.travels (s : State) (p : Pkt) : Bool := s.com.out.contains p || s.com.casts.any (fun c => c.1 = p)

/-- A request of an agent whose flit a router meets before any command has issued it: it is issued, and travels (R50, R58). -/
def State.putOut (s : State) (p : Pkt) : State :=
  if s.travels p || 0x16 ≤ p.opc || !s.mayIssue p.src || malformed p || s.mustWait (s.iface p.src).waiting p then s
  else s.launchAs p true

/-- The receivers of a broadcast whose copies pass a router's input port: replication takes the path of R39 to each of them (R40). -/
def castPast (col row port : Nat) (l : List Nat) : List Nat := l.filter (fun a => (pathOf 0x1C1 a).contains (col, row, port))

/-- What a payload error does to a packet: its data is poisoned; a broadcast is split where some of its copies are (R44). -/
def State.spoil (s : State) (p : Pkt) (col row port : Nat) : State :=
  let bad : Pkt := { p with poison := true }
  let f (q : Pkt) : Pkt := if q = p then bad else q
  if s.com.out.contains p then
    { s with com := { s.com with out := s.com.out.map f, mesh := s.com.mesh.map (fun h => { h with p := f h.p }) } }
  else
    { s with com := { s.com with casts := s.com.casts.flatMap (fun c =>
        let past := castPast col row port c.2
        if c.1 = p then [(bad, past), (p, c.2.filter (fun a => !past.contains a))].filter (fun e => !e.2.isEmpty) else [c]) } }

/-- A packet is dropped at a router: it leaves the Commons; of a broadcast, the copies beyond that router (R44). Its request stays outstanding, so
that its timeout can end it (R54). -/
def State.dropFlit (s : State) (p : Pkt) (col row port : Nat) : State :=
  if s.com.out.contains p then s.take p
  else
    { s with com := { s.com with casts := (s.com.casts.map (fun c =>
        if c.1 = p then (c.1, c.2.filter (fun a => !(castPast col row port c.2).contains a)) else c)).filter (fun c => !c.2.isEmpty) } }

/-- A router input checks a flit (R39-R44): on the packet's path it enters the input buffer; a payload error poisons the packet, which goes on;
a header error drops it. -/
def execFlitReceive (code : FlitCode) (row col port : Nat) (p : Pkt) (s : State) : Res :=
  let s0 := s.putOut p
  let q := if s.travels p then p else s.stamp p
  let here := s0.com.out.contains q && (pathOf q.src (goalOf q)).contains (col, row, port)
  let met := here || s0.com.casts.any (fun c => c.1 = q)
  let go (t : State) (x : Pkt) : State := if here then t.hop x col row port else t
  .next (match code with
  | .good => go s0 q
  | .single => (go s0 q).inc COM_ERR_CORR 0 1
  | .payloadDouble =>
    let s1 := (s0.inc COM_ERR_PAY_UE 0 1).lastError row col port
    if met then go (s1.spoil q col row port) { q with poison := true } else s1
  | .headerDouble =>
    let s1 := if met then s0.dropFlit q col row port else s0
    let s2 := ((s1.inc COM_ERR_HDR_UE 0 1).wr COM_ERR_HDR_FLAG 0 1).lastError row col port
    s2.raise 0x0001 4 noAgent ((s2.reg COM_ERR 0).toNat / 32 % 1024))

/-- COM_ERR.CLEAR zeroes the counts (R44). -/
def execComErrClear (s : State) : Res :=
  .next ((((s.wr COM_ERR_CORR 0 0).wr COM_ERR_HDR_UE 0 0).wr COM_ERR_PAY_UE 0 0).wr COM_ERR_ABSORBED 0 0)

/-! ### Requests (R47) -/

def execRd (p : Pkt) (s : State) : Res := .next (s.request { p with opc := 0x00 })
def execRdLine (p : Pkt) (s : State) : Res := .next (s.request { p with opc := 0x01, len := 128 })
def execRd2line (p : Pkt) (s : State) : Res := .next (s.request { p with opc := 0x02, len := 256 })
def execWr (p : Pkt) (s : State) : Res := .next (s.request { p with opc := 0x03 })
def execWrLine (p : Pkt) (s : State) : Res := .next (s.request { p with opc := 0x04 })
def execWr2line (p : Pkt) (s : State) : Res := .next (s.request { p with opc := 0x05 })
def execWrn (p : Pkt) (s : State) : Res := .next (s.request { p with opc := 0x06 })
def execWrnLine (p : Pkt) (s : State) : Res := .next (s.request { p with opc := 0x07 })
def execAtom (p : Pkt) (s : State) : Res := .next (s.request { p with opc := 0x08 })

/-- The interface takes up the flit that waits there longest, once it may (R51, R58). -/
def execInboundAcceptResume (agent : Nat) (s : State) : Res :=
  .next (match (s.iface agent).blocked with
  | p :: r =>
    let s1 := s.updIface agent (fun i => { i with blocked := r })
    if s.agentState agent ≠ domOpen then s1.refuse agent p (if s.agentState agent = 5 then stTargetDead else stDomainDown)
    else if s.inboundFull agent p then s
    else s1.accept agent p
  | [] => s)

/-- An inbound entry or a delivered snoop has waited DEAD_US (R53): the agent is isolated, trigger 0 of R66. -/
def execDeadTimeout (agent : Nat) (s : State) : Res :=
  .next (if (s.iface agent).inbound.isEmpty && (s.iface agent).snoops.isEmpty then s else s.isolate agent 0)

/-- The hold of a TXN ends (R54): a request that waits to reuse it goes on. -/
def execTxnHoldEnd (agent txn : Nat) (s : State) : Res :=
  .next ((s.updIface agent (fun i => { i with txnHold := i.txnHold.erase txn })).releaseWaiting agent)

/-! ### The Stile (R57-R65) -/

/-- The end of a Stile command: GO clears and STILE_DONE is raised (R61). -/
def State.stileEnd (s : State) (d op : Nat) : State :=
  (s.wr COM_STILE_CMD_GO 0 0).raise 0x0002 0 noAgent d op

/-- Write the fields of a Stile command, or reject it: GO is 1 (R68), or the domain does not exist or OP is 3 (R61). -/
def State.stileCmd (s : State) (d op : Nat) (f : State → State) : State :=
  if s.flag COM_STILE_CMD_GO then s.wr COM_STILE_CMD_REJECTED 0 1
  else
    let s1 := (s.wr COM_STILE_CMD_DOMAIN 0 d).wr COM_STILE_CMD_OP 0 op
    if op = 3 || !s.domExists d then s1.wr COM_STILE_CMD_REJECTED 0 1
    else f (s1.wr COM_STILE_CMD_GO 0 1)

/-- Send a STILE packet to every interface of a domain. -/
def State.stilePackets (s : State) (d op : Nat) : State :=
  (domAgents d).foldl (fun t a => t.send { opc := 0x30, dst := a, src := 0x1C1, data := natLe 8 op }) s

/-- OPEN or FORCE_OFF ends the wait of a domain whose drain has timed out (R62). -/
def State.unstick (s : State) (d : Nat) : State := { s with com := { s.com with stuck := eraseNat s.com.stuck d } }

/-- Start a unit that is OFF: power comes on, and the domain is OPENING. A DRAINING or FENCED domain returns to OPEN at once (R61). -/
def State.openDom (s : State) (d : Nat) : State :=
  if s.domIso d then s
  else if s.domSt d = domOff then (s.setDom d domOpening).stilePackets d 1
  else if s.domSt d = domDraining || s.domSt d = domFenced then
    ((domAgents d).foldl (fun x a => x.updIface a (fun i => { i with idle := false })) ((s.setDom d domOpen).stilePackets d 1)).unstick d
  else s

/-- An OPEN command (R61, 14_sites.md R465, R467). -/
def execStileOpen (dom : Nat) (s : State) : Res :=
  .next (s.stileCmd dom 1 (fun t =>
    let st := t.domSt dom
    if t.domIso dom || st = domOpen then t.stileEnd dom 1
    else if st = domDraining || st = domFenced then
      let t1 := t.openDom dom
      let t2 := if 0xB3 ≤ dom && dom ≤ 0xBA then
          (t1.updSite (dom - 0xB3) (fun x => { x with
            quiesced := false, side := if x.quiesced then x.side ++ [0x02] else x.side })).wr SITE_STAT_STATE
            (dom - 0xB3) 5
        else t1
      t2.stileEnd dom 1
    else t.openDom dom))

/-- A FORCE_OFF command (R61): its packets isolate every agent of the domain. -/
def State.forceOff (s : State) (d : Nat) : State :=
  let acked := s.com.acked.filter (fun a => agentDom a.1 ≠ some d)
  let s1 : State := { s with com := { s.com with forced := insertNat s.com.forced d, acked := acked } }
  (s1.unstick d).stilePackets d 2

def execStileForceOff (dom : Nat) (s : State) : Res := .next (s.stileCmd dom 2 (fun t => t.forceOff dom))

/-- A command with OP 3, or one that names no domain (R61): GO stays clear and REJECTED is set. -/
def execStileOpReserved (op dom : Nat) (s : State) : Res :=
  .next (if op % 4 = 3 || !s.domExists dom then s.stileCmd dom (op % 4) id else s)

/-- A STILE packet reaches an interface, in every state (R65, R66): FORCE_OFF isolates the agent, with trigger 3. The
interface returns STILE_ACK. -/
def execStile (op agent : Nat) (s : State) : Res :=
  let p : Pkt := { opc := 0x30, dst := agent, src := 0x1C1, data := natLe 8 op }
  .next (s.delivering p (fun t =>
    let t1 := if op = 2 then t.isolate agent 3 else t
    t1.send { opc := 0x31, dst := 0x1C1, src := agent, data := natLe 8 (t1.agentState agent) }) s)

/-- A state report reaches the Stile controller (R58, R61). -/
def State.stileAck (s : State) (agent st : Nat) : State :=
  s.delivering { opc := 0x31, dst := 0x1C1, src := agent, data := natLe 8 st } (fun t =>
    { t with com := { t.com with acked := t.com.acked.filter (fun a => a.1 ≠ agent) ++ [(agent, st)] } }) s

/-- Snoop out every line that a home's filter still marks present for a cache; a line that is busy waits for its turn (04_coherence.md R119, R133). -/
def State.drainWalk (s : State) (c : Nat) : State :=
  (List.range 32).foldl (fun t h =>
    let ls := ((t.home h).entries.filter (fun e => Nat.testBit e.2.pres c)).map (·.1)
    (ls.foldl (fun x l => x.enterWait h (.walk l c)) t).updHome h (fun x => { x with walks := insertNat x.walks c })) s

/-- Whether a link agent anchors an open context (15_fabric_links.md R513). -/
def State.anchors (s : State) (a : Nat) : Bool :=
  kindOf a = .link && (s.fab.send.any (fun e => s.anchorOf e.1 = a) ||
    s.fab.recv.any (fun e => s.anchorOf e.1 = a || e.2.pend.any (fun x => x.agent = a)))

/-- An agent of a DRAINING domain signals that it is idle (R59), a link agent once it anchors no context. Once all modules of a site have,
the homes walk their filters for it (04_coherence.md R133). -/
def execAgentIdle (agent : Nat) (s : State) : Res :=
  match agentDom agent with
  | none => .next s
  | some d =>
    if s.domSt d ≠ domDraining || s.anchors agent then .next s
    else
      let s1 := s.updIface agent (fun i => { i with idle := true })
      let all := (domAgents d).all (fun a => (s1.iface a).idle)
      .next (if all && 0xB3 ≤ d && d ≤ 0xBA then s1.drainWalk (d - 0xB3) else s1)

/-- Whether a cache is held in any home's filter or walked there. -/
def State.cachePresent (s : State) (c : Nat) : Bool :=
  (List.range 32).any (fun h =>
    (s.home h).entries.any (fun e => Nat.testBit e.2.pres c) || (s.home h).walks.contains c ||
    SMap.getD (s.home h).untrk c 0 ≠ 0)

/-- Whether a domain may enter FENCED: the three conditions of R59, the one of a site, and its drain has not timed out (R62). Requests that still wait at an
interface are outstanding too. -/
def State.mayFence (s : State) (d : Nat) : Bool :=
  decide (s.domSt d = domDraining) && !s.com.stuck.contains d &&
  (domAgents d).all (fun a => (s.iface a).idle && (s.iface a).inbound.isEmpty && (s.iface a).outstanding.isEmpty && (s.iface a).waiting.isEmpty) &&
  !(0xB3 ≤ d && d ≤ 0xBA && s.cachePresent (d - 0xB3))

/-- A draining domain enters FENCED (R59); a site is told PWR_DOWN and loses its power enable (14_sites.md R466). -/
def State.domainFenced (s : State) (dom : Nat) : State :=
  if !s.mayFence dom then s
  else
    let s1 := s.setDom dom domFenced
    if 0xB3 ≤ dom && dom ≤ 0xBA then
      s1.updSite (dom - 0xB3) (fun x => { x with side := x.side ++ [0x04], pwren := false })
    else s1

/-- Whether a domain is a stack's. -/
def stackDom (d : Nat) : Bool := 0xAB ≤ d && d ≤ 0xB2

/-- Whether stack domains stay powered while they are FENCED: in doze (05_hbm.md R163), and through the reset of a stack domain
(19_faults_resets.md R630). -/
def State.stacksKept (s : State) : Bool :=
  s.stw.dozing || (match s.rve.domReset with | some (d, _) => stackDom d | none => false)

/-- A switch-off completes (R59, R61): of a FENCED domain, but for a stack closed for doze (05_hbm.md R163), or of a forced
domain whose interfaces have all returned STILE_ACK for the isolation. STILE_DONE names OP 2 for a forced domain, also where AUTO_FORCE has turned a CLOSE
into FORCE_OFF (log entry 137). -/
def State.domainPowerOff (s : State) (dom : Nat) : State :=
  let forced := s.com.forced.contains dom &&
    (domAgents dom).all (fun a => s.com.acked.any (fun k => k.1 = a && k.2 = 5))
  let fenced := s.domSt dom = domFenced && !(stackDom dom && s.stacksKept)
  if !(forced || fenced) then s
  else
    let s1 := ((s.powerOff dom).setDom dom domOff).sluDiscard dom
    let s2 := { s1 with com := { s1.com with forced := eraseNat s1.com.forced dom } }
    let s3 := if 0xB3 ≤ dom && dom ≤ 0xBA then
        (s2.updSite (dom - 0xB3) (fun x => { x with slots := [], cxlq := [], work := [], pwren := false, quiesced := false, step := 0 })).wr
          SITE_STAT_STATE (dom - 0xB3) 1
      else s2
    if s3.flag COM_STILE_CMD_GO && s3.rd COM_STILE_CMD_DOMAIN = dom then
      s3.stileEnd dom (if forced then 2 else 0)
    else if forced then s3.raise 0x0002 0 noAgent dom 2
    else s3

/-- An OPENING domain enters OPEN, or returns to OFF when its start fails (R61). The format table that a unit lacks reaches
it before OPEN (06_number_formats.md R179), so nothing more is held here. A site opens once its sequence has reached step 9 of
14_sites.md R470. -/
def State.domainOpened (s : State) (dom : Nat) (ok : Bool) : State :=
  let site : Bool := decide (0xB3 ≤ dom ∧ dom ≤ 0xBA)
  if s.domSt dom ≠ domOpening || (ok && site && (s.site (dom - 0xB3)).step ≠ 9) then s
  else
    let s0 := s.setDom dom (if ok then domOpen else domOff)
    let s1 := if ok && site then s0.wr SITE_STAT_STATE (dom - 0xB3) 5 else s0
    if s1.flag COM_STILE_CMD_GO && s1.rd COM_STILE_CMD_DOMAIN = dom then s1.stileEnd dom 1 else s1

/-- A drain has lasted DRAIN_US (R62): STUCK, its event, and FORCE_OFF where AUTO_FORCE is 1; otherwise the command ends
and the domain stays DRAINING (log entry 9). DRAIN_US 0 disables the timeout. -/
def execDrainTimeout (dom : Nat) (s : State) : Res :=
  .next (if s.domSt dom ≠ domDraining || s.rd COM_STILE_TMO_DRAIN_US = 0 then s
  else
    let s1 := (s.wr COM_DOMAIN_STUCK dom 1).raise 0x0003 0 noAgent dom
    if s1.flag COM_STILE_TMO_AUTO_FORCE then s1.forceOff dom
    else
      let s2 : State := { s1 with com := { s1.com with stuck := insertNat s1.com.stuck dom } }
      if s2.flag COM_STILE_CMD_GO && s2.rd COM_STILE_CMD_DOMAIN = dom then s2.stileEnd dom 0 else s2)

/-! ### Isolation (R66, R67) -/

/-- COM_ISO_CMD.ISOLATE, trigger 4 of R66. The Vestry and the Reeve are refused. -/
def execIsoIsolate (agent : Nat) (s : State) : Res :=
  let s1 := s.wr COM_ISO_CMD_AGENT 0 agent
  .next (if agent = 0x1C0 || agent = 0x1C1 then s1.wr COM_ISO_CMD_REJECTED 0 1
  else match s.physOf agent with
    | some a => s1.isolate a 4
    | none => s1)

/-- COM_ISO_CMD.RELEASE: only for an agent of a domain that is OFF; all modules of a site are released together (R67). -/
def State.isoRelease (s : State) (agent : Nat) : State :=
  let s1 := s.wr COM_ISO_CMD_AGENT 0 agent
  match s.physOf agent with
  | none => s1
  | some a =>
    match agentDom a with
    | none => s1.wr COM_ISO_CMD_REJECTED 0 1
    | some d =>
      if s.domSt d ≠ domOff then s1.wr COM_ISO_CMD_REJECTED 0 1
      else match kindOf a with
        | .site n => (List.range 8).foldl (fun t u => t.updIface (moduleAgent n u) (fun i => { i with isolated := false })) s1
        | _ => s1.updIface a (fun i => { i with isolated := false })

def execIsoRelease (agent : Nat) (s : State) : Res := .next (s.isoRelease agent)

/-! ### Fences (03_memory_model.md R84-R88) -/

def execFence (agent stream : Nat) (s : State) : Res := .next (s.startFence agent stream false)
def execFenceRemote (agent stream : Nat) (s : State) : Res := .next (s.startFence agent stream true)

/-- A flush probe reaches its destination (R85): it is held in the inbound table until FLUSH_PROBE_ANSWER; site logic answers
the probe of a window (14_sites.md R450) and the endpoint one for host memory. A probe that the destination's interface
refuses counts as answered (R88). -/
def execFlushProbe (p : Pkt) (s : State) : Res := .next (s.request { p with opc := 0x06, mask := 0 })

/-- The destination answers a held probe once no earlier request of its source is left in the inbound table before it
(R85); an anchor also needs PERF to cover the source's remote requests, which `remote` of its interface lists
(15_fabric_links.md R495). -/
def State.probeReady (s : State) (d : Nat) (p : Pkt) : Bool :=
  ((s.iface d).inbound.takeWhile (fun q => q ≠ p)).all (fun q => q.src ≠ p.src) &&
  ((s.iface d).remote.all (fun e => e.1 ≠ p.src))

def execFlushProbeAnswer (agent src txn : Nat) (s : State) : Res :=
  .next (match (s.iface agent).inbound.find? (fun q => isProbe q && q.src = src && q.txn = txn) with
  | some p => if s.probeReady agent p then s.answer agent p stOk else s
  | none => s)

end Sys2Proof.Machine
end

