-- ==== Sys2Proof/Machine/HomeCmds.lean ====
section
/-!
DEFINITION. Machine/HomeCmds.lean: the coherence commands (04_coherence.md); those that may end the scrub of a granule stand in Machine/Loss.lean.
-/

namespace Sys2Proof.Machine

/-! ### Requests of caching agents (R106, R116) -/

def execRdShared (p : Pkt) (s : State) : Res := .next (s.request { p with opc := 0x10 })
def execRdUnique (p : Pkt) (s : State) : Res := .next (s.request { p with opc := 0x11 })
def execClaim (p : Pkt) (s : State) : Res := .next (s.request { p with opc := 0x12 })
def execAtomP (p : Pkt) (s : State) : Res := .next (s.request { p with opc := 0x15 })

/-- A writeback (R120, R121). -/
def execWbDirty (p : Pkt) (s : State) : Res := .next (s.request { p with opc := 0x13 })

/-- A clean eviction (R113, R120): no answer. -/
def execEvictClean (p : Pkt) (s : State) : Res := .next (s.request { p with opc := 0x14 })

/-! ### Snoop answers and acknowledgements -/

/-- An answer or acknowledgement of a caching agent: one on the Commons arrives at its home; one that its agent gives now arrives too, but the interface of
an agent that may send nothing refuses it (02_commons.md R58, R66). -/
def State.fromCache (s : State) (p : Pkt) (f : State → State) : State := s.delivering p f (if s.takesAnswers p.src then f s else s)

def execSnpRsp (p : Pkt) (s : State) : Res :=
  let q := { p with opc := 0x2D }
  .next (s.fromCache q (fun t => t.snoopReply q false))
def execSnpRspData (p : Pkt) (s : State) : Res :=
  let q := { p with opc := 0x2E }
  .next (s.fromCache q (fun t => t.snoopReply q true))

/-- An install acknowledgement at the home (R117). -/
def execCmpAck (p : Pkt) (s : State) : Res :=
  let q := { p with opc := 0x2F }
  .next (s.fromCache q (fun t => t.cmpAck q))

/-- ACK_US without CMP_ACK (R123): the line is released and recorded with ACK_LOST, its cache is lost (R131), and the module is isolated. -/
def execAckTimeout (line : Nat) (s : State) : Res :=
  let h := s.homeOfLine line
  .next (match SMap.get? (s.home h).busy line with
  | some t =>
    (match t.phase with
     | .ack c =>
       let s1 := if s.owns h line c then s else s.lostLine h 2 (cacheAgent c line) line
       let s2 := (s1.release h line).cacheGone h 2 c
       (if c < 8 then s2.isolate (cacheAgent c line) 4 else s2).retryAlloc h (s.setOf (line * 128))
     | _ => s)
  | none => s)

/-- The host has not answered a back-invalidate for BI_TMO_US (R130): BI_TIMEOUT is raised for the line, whether or not the host owned it, and the host's
cache is lost at that home (R131). -/
def execBiTimeout (line : Nat) (s : State) : Res :=
  let h := s.homeOfLine line
  .next (match SMap.get? (s.home h).busy line with
  | some t =>
    if !(t.phase.owes 8 || t.phase.owesWb 8) then s
    else
      let s1 := s.updIface 0x180 (fun i => { i with snoops := i.snoops.filter (fun q => q.addr % 2 ^ 48 / 128 ≠ line) })
      let s2 := if s1.owns h line 8 then s1 else s1.lostLine h 3 0x180 line
      ((s2.cacheGone h 3 8).updBusy h line (fun ph => (ph.answered 8 false).wbDone 8)).goOn h line
  | none => s)

/-- Whether a walk of a home for a cache still has lines before it. -/
def State.walkLeft (s : State) (h c : Nat) : Bool :=
  let hm := s.home h
  hm.waiters.any (fun w => match w with | .walk _ k => k = c | _ => false) ||
  hm.busy.any (fun e => match e.2.phase with | .walk ws wbs => ws.contains c || wbs.contains c | _ => false) ||
  hm.entries.any (fun e => Nat.testBit e.2.pres c)

/-- A filter walk ends once every line of it is done (R132, R133): the cache's untracked count is zero. -/
def execFilterWalkDone (h cache : Nat) (s : State) : Res :=
  .next (if s.walkLeft h cache then s
  else s.updHome h (fun x => { x with walks := eraseNat x.walks cache, untrk := SMap.del x.untrk cache }))

/-- HBM_HOME_LOST_STAT.POP removes the oldest entry (R134). -/
def execLostLinePop (h : Nat) (s : State) : Res := .next (s.updHome h (fun x => { x with lost := x.lost.drop 1 }))

/-- HBM_HOME_CFG.CNT_CLEAR clears the home's counters. -/
def execHomeCntClear (h : Nat) (s : State) : Res :=
  .next (((s.resetReg HBM_HOME_CNT0 h).resetReg HBM_HOME_CNT1 h).resetReg HBM_HOME_CNT2 h)

end Sys2Proof.Machine
end

