-- ==== Sys2Proof/Machine/HbmCmds.lean ====
section
/-!
DEFINITION. Machine/HbmCmds.lean: the commands of the stacks, their controllers and the Granary (05_hbm.md).
-/

namespace Sys2Proof.Machine

/-- The thresholds in force: CAT_C within 100-115, THR_C within 80 and CAT_C - 5 (HBM_CFG). -/
def State.catC (s : State) (m : Nat) : Nat := min 115 (max 100 (s.rd HBM_CFG_CAT_C m))
def State.thrC (s : State) (m : Nat) : Nat := min (s.catC m - 5) (max 80 (s.rd HBM_CFG_THR_C m))

/-- Change the bandwidth step of a stack and announce it (R158); the Sluice's window keeps the step that was in force (13_sluice.md R429). -/
def State.setStep (s : State) (m step : Nat) : State :=
  let old := s.rd HBM_STAT_STEP m
  if old = step then s
  else
    ({ s with slu := { s.slu with steps := SMap.upd [] s.slu.steps m (· ++ [old]) } }.wr HBM_STAT_STEP m step).raise 0x0012 0 (0x090 + m) m step

/-- Set OUT_ENV when the present conditions lie outside the envelope (R162). -/
def State.checkEnv (s : State) (m : Nat) : State :=
  let t := s.rd HBM_STAT_TEMP_C m
  let v := (s.stack m).vddq
  let c := s.rd HBM_TRAIN_LD_NOW m
  if s.rd HBM_TRAIN_T_MIN m ≤ t && t ≤ s.rd HBM_TRAIN_T_MAX m && s.rd HBM_TRAIN_VQ_MIN m ≤ v &&
     v ≤ s.rd HBM_TRAIN_VQ_MAX m && s.rd HBM_TRAIN_LD_MIN m ≤ c && c ≤ s.rd HBM_TRAIN_LD_MAX m then s
  else s.wr HBM_TRAIN_OUT_ENV m 1

/-- 10 ms at or below THR_C - 3 °C: the cap rises one step (R157). -/
def execCapRiseTimer (m : Nat) (s : State) : Res :=
  .next (if s.rd HBM_STAT_STATE m = 3 && s.rd HBM_STAT_TEMP_C m + 3 ≤ s.thrC m then
    s.setStep m (s.rd HBM_STAT_STEP m - 1) else s)

/-- HBM_REPAIR.BURN (R155): idle means boot step 7 running, or the stack's domain FENCED. -/
def execHbmBurn (m : Nat) (s : State) : Res :=
  .next (if !(s.bootStep 7 = 1 || s.domSt (0xAB + m) = domFenced) then s.wr HBM_REPAIR_REJECTED m 1
  else match (s.stack m).pendHard with
    | [] => s
    | row :: r =>
      if (s.stack m).hardLeft = 0 then s
      -- each use of a Tally counter writes an anchored Ledger record before its effect (17_security.md R578; log entry 63)
      else
        let s1 := s.ledgerAdd { kind := 1, anchored := true, arg := 3 + m }
        let s2 := s1.updStack m (fun x => { x with hardLeft := x.hardLeft - 1, pendHard := r, softRows := eraseNat x.softRows row, passes := SMap.del x.passes row })
        s2.wr HBM_REPAIR_HARD_PEND m (s.rd HBM_REPAIR_HARD_PEND m - 1))

/-- HBM_ERR.CLEAR clears the four counts (R140); the count of R164's scrub period goes on (log entry 138). -/
def execHbmErrClear (m : Nat) (s : State) : Res := .next (s.resetReg HBM_ERR m)

/-- The training set in use of a stack (R161). The envelope was widened as it was captured. -/
def State.setInUse (s : State) (m : Nat) : TrainSet :=
  { serial := (s.stack m).serial, rate := (s.stack m).rate, version := 1,
    tMin := s.rd HBM_TRAIN_T_MIN m, tMax := s.rd HBM_TRAIN_T_MAX m,
    vqMin := s.rd HBM_TRAIN_VQ_MIN m, vqMax := s.rd HBM_TRAIN_VQ_MAX m,
    ldMin := s.rd HBM_TRAIN_LD_MIN m, ldMax := s.rd HBM_TRAIN_LD_MAX m,
    laneMap := (s.stack m).laneMap, eq := (s.stack m).eq }

/-- Store the set in use in flash (R161). -/
def State.saveSet (s : State) (m : Nat) : State :=
  s.updStack m (fun x => { x with saved := some (s.setInUse m) })

/-- HBM_TRAIN.SAVE (R161); SAVE clears as the set is in flash. -/
def execHbmTrainSave (m : Nat) (s : State) : Res :=
  .next (if s.rd HBM_STAT_STATE m = 3 then s.saveSet m else s)

/-- A re-centre starts (R162). -/
def execRecentreStart (m : Nat) (s : State) : Res :=
  .next (if s.rd HBM_STAT_STATE m = 3 && s.flag HBM_TRAIN_OUT_ENV m && !(s.stack m).recentring then
    (s.updStack m (fun x => { x with recentring := true })).raise 0x0014 0 (0x090 + m) m
  else s)

/-- A re-centre ends: the envelope takes in the present conditions and OUT_ENV clears (R162). The lane values that it finds are free. -/
def State.endRecentre (s : State) (m : Nat) : State :=
  let t := s.rd HBM_STAT_TEMP_C m
  let v := (s.stack m).vddq
  let c := s.rd HBM_TRAIN_LD_NOW m
  let lo (f : RF) (x : Nat) (u : State) : State := u.wr f m (min (s.rd f m) x)
  let hi (f : RF) (x : Nat) (u : State) : State := u.wr f m (max (s.rd f m) x)
  let s1 := hi HBM_TRAIN_LD_MAX c (lo HBM_TRAIN_LD_MIN c (hi HBM_TRAIN_VQ_MAX v (lo HBM_TRAIN_VQ_MIN v
    (hi HBM_TRAIN_T_MAX t (lo HBM_TRAIN_T_MIN t s)))))
  let eq := (List.range (s.stack m).eq.length).map (fun k => Config.freeNat (s.free + k))
  (((s1.wr HBM_TRAIN_OUT_ENV m 0).inc HBM_TRAIN_RECENTRES m 1).updStack m (fun x => { x with recentring := false, eq := eq })).fresh eq.length

/-- A forced re-centre that ends also ends its RECAL command (19_faults_resets.md R627). -/
def execRecentreEnd (m : Nat) (s : State) : Res :=
  .next (if !(s.stack m).recentring then s
  else if s.rve.recal.contains m then
    ({ s.endRecentre m with rve := { s.rve with recal := eraseNat s.rve.recal m } } : State).wr RVE_SVC_CMD_GO 0 0
  else s.endRecentre m)

/-- The load class of a share of the stack's bandwidth in thousandths (R161). -/
def loadClass (share : Nat) : Nat := if share < 100 then 0 else if share < 400 then 1 else if share < 750 then 2 else 3

/-- A 10 ms window ends with the share of its bandwidth that the stack carried (R161, R162). -/
def execLoadClassWindowEnd (m share : Nat) (s : State) : Res :=
  .next (if s.rd HBM_STAT_STATE m = 3 then (s.wr HBM_TRAIN_LD_NOW m (loadClass share)).checkEnv m else s)

/-! ### The Granary -/

/-- Who may write HBM_GRAN_CFG and HBM_GRAN_CMD (R148): the Vestry and the Steward firmware cores. -/
def granWriter (w : Writer) : Bool :=
  match w with
  | .agent a => a = 0x1C0 || (0x191 ≤ a && a ≤ 0x194)
  | _ => false

/-- End an operation of HBM_GRAN_CMD. -/
def State.granEnd (s : State) (block result : Nat) : State :=
  ((s.wr HBM_GRAN_CMD_GO 0 0).wr HBM_GRAN_CMD_RESULT 0 result).wr HBM_GRAN_CMD_STATE 0 (s.gblock block).st

/-- A write of HBM_GRAN_CMD (R147, R148): rejected, out of range, or carried out by `f`. An OP without a page leaves PAGE as it
was last written. -/
def State.granCmd (s : State) (w : Writer) (op block : Nat) (page? : Option Nat) (f : State → State) : State :=
  if !granWriter w || s.flag HBM_GRAN_CMD_GO then s.wr HBM_GRAN_CMD_REJECTED 0 1
  else
    let page := page?.getD (s.rd HBM_GRAN_CMD_PAGE)
    let s1 := ((s.wr HBM_GRAN_CMD_OP 0 op).wr HBM_GRAN_CMD_BLOCK 0 block).wr HBM_GRAN_CMD_PAGE 0 page
    if 6 ≤ op then s1
    else if !s.inGranary block || (4 ≤ op && 28 ≤ page) then (s1.granEnd block 2)
    else f s1

def execGranQuery (w : Writer) (block : Nat) (s : State) : Res :=
  .next (s.granCmd w 0 block none (fun t => t.granEnd block 0))

def execGranFill (w : Writer) (block : Nat) (s : State) : Res :=
  .next (s.granCmd w 1 block none (fun t =>
    if (t.gblock block).st = 0 then (t.updBlock block (fun b => { b with st := 1 })).granEnd block 0
    else t.granEnd block 1))

/-- SEAL starts the parity pass; GO stays until it ends. -/
def execGranSeal (w : Writer) (block : Nat) (s : State) : Res :=
  .next (s.granCmd w 2 block none (fun t =>
    if (t.gblock block).st = 1 then
      ((t.updBlock block (fun b => { b with st := 2 })).wr HBM_GRAN_CMD_GO 0 1).wr HBM_GRAN_CMD_RESULT 0 0
    else t.granEnd block 1))

/-- RELEASE in every state leads to EMPTY: at once from EMPTY, else through WIPING. -/
def State.releaseBlock (s : State) (block : Nat) : State :=
  if (s.gblock block).st = 0 then s else s.updBlock block (fun b => { b with st := 4, page := none })

def execGranRelease (w : Writer) (block : Nat) (s : State) : Res :=
  .next (s.granCmd w 3 block none (fun t =>
    if (t.gblock block).st = 0 then t.granEnd block 0
    else ((t.releaseBlock block).wr HBM_GRAN_CMD_GO 0 1).wr HBM_GRAN_CMD_RESULT 0 0))

/-- The page number HPA / 2 MiB of a data page of a block. -/
def pageOf (block page : Nat) : Nat := block * 32 + page

/-- The state of the model of a block: SEALED or RESTORING (17_security.md R567). -/
def State.modelState (s : State) (block st : Nat) : State :=
  match s.modelOf block with
  | some e => s.wr VST_MODEL_STATE e st
  | none => s

/-- Begin the restore of a POISONED page (R151). -/
def State.beginRestore (s : State) (block page : Nat) : State :=
  let s1 := (s.updBlock block (fun b => { b with st := 5, page := some page })).modelState block 3
  { s1 with hbm := { s1.hbm with gpois := s.hbm.gpois.map (fun e => if e.1 = pageOf block page then (e.1, true) else e) } }

def execGranRestoreBegin (w : Writer) (block page : Nat) (s : State) : Res :=
  .next (s.granCmd w 4 block (some page) (fun t =>
    if (t.gblock block).st ≠ 3 then t.granEnd block 1
    else if !t.hbm.poisonPages.contains (pageOf block page) then t.granEnd block 4
    else (t.beginRestore block page).granEnd block 0))

/-- End a restore: the block is SEALED and its parity is recomputed; the model is SEALED once no block of it restores. -/
def State.endRestore (s : State) (block page : Nat) : State :=
  let s1 := s.updBlock block (fun b => { b with st := 3, page := none, restored := insertNat b.restored page })
  match s.modelOf block with
  | some e =>
    if (List.range (s.rd VST_MODEL_COUNT e)).any (fun k => (s1.gblock (s.rd VST_MODEL_FIRST e + k)).st = 5) then s1
    else s1.wr VST_MODEL_STATE e 2
  | none => s1

def execGranRestoreEnd (w : Writer) (block page : Nat) (s : State) : Res :=
  .next (s.granCmd w 5 block (some page) (fun t =>
    if (t.gblock block).st = 5 && (t.gblock block).page = some page then (t.endRestore block page).granEnd block 0
    else t.granEnd block 1))

/-- OP 6-7 has no effect; a writer without the right, or GO at 1, sets REJECTED (R148). -/
def execGranOpNone (w : Writer) (op block : Nat) (s : State) : Res :=
  .next (s.granCmd w (6 + op % 2) block none id)

/-- Write the XOR of the data members into the parity cells of the bytes of block `b` that `f` selects by their offset in
a segment (R145): first the old parity is dropped, then each data byte is folded in. -/
def State.writeParity (s : State) (b : Nat) (f : Nat → Bool) : State :=
  let base := b * 2 ^ 26
  let here := s.mem.filter (fun e => decide (base ≤ e.1) && decide (e.1 < base + 7 * 2 ^ 23) && f (e.1 % 2 ^ 23))
  let cleared := { s with mem := s.mem.filter (fun e =>
    !(decide (base + 7 * 2 ^ 23 ≤ e.1) && decide (e.1 < base + 2 ^ 26) && f (e.1 % 2 ^ 23))) }
  here.foldl (fun t e =>
    let a := base + 7 * 2 ^ 23 + e.1 % 2 ^ 23
    t.setByte a (t.byte a ^^^ e.2)) cleared

/-- End HBM_GRAN_CMD's operation if it is the one on this block. -/
def State.granEndIf (s : State) (block result : Nat) : State :=
  if s.flag HBM_GRAN_CMD_GO && s.rd HBM_GRAN_CMD_BLOCK = block then s.granEnd block result else s

/-- A parity pass ends (R147). -/
def execParityPassEnd (block : Nat) (uncorrectable : Bool) (s : State) : Res :=
  .next (if (s.gblock block).st ≠ 2 then s
  else if uncorrectable then (s.updBlock block (fun b => { b with st := 1 })).granEndIf block 3
  else ((s.writeParity block (fun _ => true)).updBlock block (fun b => { b with st := 3 })).granEndIf block 0)

/-- Drop the POISONED marks and HBM_GPOIS entries of the pages that `f` selects. -/
def State.dropMarks (s : State) (f : Nat → Bool) : State :=
  { s with hbm := { s.hbm with
      poisonPages := s.hbm.poisonPages.filter (fun p => !f p)
      gpois := s.hbm.gpois.filter (fun e => !f e.1) } }

/-- All 64 MiB of a WIPING block are zero: it is EMPTY, without marks (R147). -/
def State.wiped (s : State) (block : Nat) : State :=
  ((s.zeroRange (block * 2 ^ 26) ((block + 1) * 2 ^ 26)).dropMarks (fun p => p / 32 = block)).updBlock block (fun _ => {})

/-- The directory entries of released models whose blocks are all EMPTY are freed (17_security.md R566). -/
def State.freeModels (s : State) : State :=
  (List.range 32).foldl (fun t e =>
    if t.rd VST_MODEL_STATE e = 4 && (List.range (t.rd VST_MODEL_COUNT e)).all (fun k => (t.gblock (t.rd VST_MODEL_FIRST e + k)).st = 0) then
      (let u := (t.resetReg VST_MODEL e).resetReg VST_MODEL_ID e
       { u with vst := { u.vst with models := SMap.del u.vst.models e } })
    else t) s

def execWipeEnd (block : Nat) (s : State) : Res :=
  .next (if (s.gblock block).st ≠ 4 then s else ((s.wiped block).granEndIf block 0).freeModels)

/-- The parity of a restored page's stripes is recomputed (R151): the marks of the poisoned pages of the same stripes go,
but of those that still hold an uncorrectable member. -/
def execRestoreParityEnd (block page : Nat) (stillBad : List Nat) (s : State) : Res :=
  .next (if !(s.gblock block).restored.contains page then s
  else
    let same (p : Nat) : Bool := decide (p / 32 = block) && decide (p % 4 = page % 4) && !stillBad.contains (p % 32)
    ((s.writeParity block (fun o => o / 2 ^ 21 = page % 4)).dropMarks same).updBlock block (fun b =>
      { b with restored := eraseNat b.restored page }))

end Sys2Proof.Machine
end

