-- ==== Sys2Proof/Machine/Links.lean ====
section
/-!
DEFINITION. Machine/Links.lean: the fabric links: the native link layer, the transport between hubs, the inbound windows
and bell time (15_fabric_links.md).
-/

namespace Sys2Proof.Machine

/-! ### Links -/

/-- A link. -/
def State.link (s : State) (l : Nat) : Link := SMap.getD s.fab.links l {}

/-- Change a link. -/
def State.updLink (s : State) (l : Nat) (f : Link → Link) : State :=
  { s with fab := { s.fab with links := SMap.upd {} s.fab.links l f } }

/-- Link states (LNK_STAT.STATE); 0 is off. -/
def lnkTraining : Nat := 1
def lnkUp : Nat := 2
def lnkDown : Nat := 3
def lnkFailed : Nat := 4

/-- A link changes state and LINK_STATE is raised (R512, 19_faults_resets.md R668). -/
def State.setLink (s : State) (l st : Nat) : State :=
  if s.rd LNK_STAT_STATE l = st then s
  else (s.wr LNK_STAT_STATE l st).raise 0x0040 (if st = lnkDown || st = lnkFailed then 3 else 0) (0x140 + l) st

/-- The slice to whose agent collective messages of other hubs go: the lowest that is good. -/
def State.collSlice (s : State) : Nat :=
  if s.roll.floorplan then (s.goodUnits 0x280 17).headD 0x280
  else (((List.range 16).map (0x060 + ·)).find? (fun u => (s.physOf u).isSome)).getD 0x060

/-- The mode in force: 4-7 act as off (LNK_CFG.MODE). -/
def State.linkMode (s : State) (l : Nat) : Nat := if 4 ≤ s.rd LNK_CFG_MODE l then 0 else s.rd LNK_CFG_MODE l

/-- Whether a type travels on the REQ VCs (R491). -/
def isReqType (t : Nat) : Bool := 0x01 ≤ t && t ≤ 0x06

/-- The 16-byte units of a message: header and data (R490). -/
def msgUnits (m : XMsg) : Nat := 2 + (m.data.length + 15) / 16

/-- Credits at training: full receive buffers (R481). -/
def fullCredits : SMap Nat := [(0, 4096), (1, 4096), (2, 4096), (3, 4096), (4, 256)]

/-- The IP address of a hub (R484): the IPv6 prefix with its number, or PFX4 with it. -/
def State.ipOf (s : State) (hub : Nat) : Nat :=
  if s.flag LNK_XP_CFG_IPV6 then (s.rd LNK_IP_PFX0_V6_HI * 2 ^ 48 + s.rd LNK_IP_PFX1_V6_LO) * 2 ^ 16 + hub % 2 ^ 16
  else s.rd LNK_IP_PFX1_PFX4 * 2 ^ 16 + hub % 2 ^ 16

/-- The UDP source port of a pair's next packet (R483). -/
def State.udpSource (s : State) (src dst : Nat) : Nat :=
  0xC000 + (crc32c (natLe 2 src ++ natLe 2 dst) % 16384 + SMap.getD s.fab.rots dst 0) % 16384

/-- The frame that a port sends to a hub with messages or as a congestion notification (R483, R484). -/
def State.frameTo (s : State) (l port hub cls opcode : Nat) (ms : List XMsg) : SentFrame :=
  let k := 2 * l + port
  let tagged := s.flag LNK_ETH_MAC_VLAN_EN k
  { port := port, dmac := s.rd LNK_ETH_GW_GW k, smac := s.rd LNK_ETH_MAC_MAC k, pcp := if tagged then some cls else none
    vid := if tagged then some (s.rd LNK_ETH_GW_VID k) else none, v6 := s.flag LNK_XP_CFG_IPV6, sip := s.ipOf s.hubNo, dip := s.ipOf hub, dscp := 8 * cls, udpSrc := s.udpSource s.hubNo hub
    opcode := opcode, psn := (ms.head?.map (·.psn)).getD 0, msgs := ms }

/-- A frame leaves, and the pair's rotation advances. -/
def State.sendFrame (s : State) (l hub : Nat) (f : SentFrame) : State :=
  let s1 : State := { s with fab := { s.fab with rots := SMap.upd 0 s.fab.rots hub (fun r => (r + 1) % 16) } }
  s1.updLink l (fun x => { x with tx := x.tx ++ [.frame f] })

/-- A message as the port regulators see it (13_sluice.md R427). -/
def portReq (m : XMsg) : Pkt :=
  { opc := 0x00, src := m.srcAgent, cls := m.cls, deadline := m.deadline, len := if m.typ = 0x01 then m.size + 1 else 0, data := m.data }

/-- The port on which a message of a class leaves an Ethernet link: the lowest that is up and does not pause its priority (R485, R511; log entry 142). -/
def State.portFor (s : State) (l cls : Nat) : Option Nat :=
  [0, 1].find? (fun p => Nat.testBit (s.rd LNK_STAT_PORTS l) p && !(s.link l).paused.contains (8 * p + cls % 8))

/-- The send rate of a pair in millionths of the link rate (R486). -/
def State.rateOf (s : State) (hub : Nat) : Nat := SMap.getD s.fab.rates hub 1000000

/-- A pair whose rate is below the full one sends its next frame once this one has passed at that rate (R486): `n` bytes at a share of 106.25 bytes
a nanosecond, or of 53.125 on a port of 400 Gb/s (R475). -/
def State.paceAfter (s : State) (l hub n : Nat) : State :=
  let r := s.rateOf hub
  if r = 0 || 1000000 ≤ r then s
  else
    let d := if s.linkMode l = 3 then 53125 else 106250
    { s with fab := { s.fab with pace := SMap.put s.fab.pace hub (s.time + n * 1000000000 / (r * d)) } }

/-- Send messages on a link that is UP: in native mode one as a flit of its own within the credits of its VC and the retry buffer of 1,024 flits (log
entry 12), in Ethernet mode messages of one pair and stream as a frame. The OUT regulator is charged for requests. -/
def State.linkEmit (s : State) (l vc : Nat) (m : XMsg) (more : List XMsg) : State :=
  let s0 := (m :: more).foldl (fun t q => if isReqType q.typ then t.chargePort (8 + l) 0 1 (portReq q) else t) s
  if s.linkMode l = 1 then
    s0.updLink l (fun x =>
      let f : LinkFlit := { seq := x.seq, ack := (x.exp + 4095) % 4096, nak := x.nak, msgs := [(vc, m)] }
      { x with
        seq := (x.seq + 1) % 4096, retry := x.retry ++ [f], tx := x.tx ++ [.flit f], nak := false,
        credits := SMap.upd 0 x.credits vc (· - msgUnits m) })
  else
    (s0.sendFrame l m.dstHub (s0.frameTo l ((s.portFor l m.cls).getD 0) m.dstHub m.cls 0xC0 (m :: more))).paceAfter l m.dstHub
      (16 * ((m :: more).map msgUnits).foldl (· + ·) 0)

/-- Whether the OUT regulator of a link holds a message. -/
def State.outHolds (s : State) (l : Nat) (m : XMsg) : Bool := isReqType m.typ && s.exhausted (portBucket (8 + l) 0 1 (portReq m))

/-- Whether a link can send a message now: native credits and retry buffer, or a port without pause of its priority and the rate of the pair (R480, R481,
R485, R486). -/
def State.linkReady (s : State) (l vc : Nat) (m : XMsg) : Bool :=
  s.rd LNK_STAT_STATE l = lnkUp && !s.outHolds l m &&
  (if s.linkMode l = 1 then decide ((s.link l).retry.length < 1024) && decide (msgUnits m ≤ SMap.getD (s.link l).credits vc 0)
   else (s.portFor l m.cls).isSome && s.rateOf m.dstHub ≠ 0 && decide (SMap.getD s.fab.pace m.dstHub 0 ≤ s.time))

/-- The message that a VC of a link sends next: responses in order, requests in the order of their regulator (13_sluice.md R428). -/
def State.nextOf (s : State) (l vc : Nat) : Option XMsg :=
  let ms := ((s.link l).txq.filter (fun e => e.1 = vc)).map (·.2)
  if vc < 2 then leastBy (fun m => s.placeInOrder (portBucket (8 + l) 0 1 (portReq m)) (portReq m)) (ms.filter (fun m => !s.outHolds l m))
  else ms.head?

/-- The message that a link sends next. -/
def State.linkNext (s : State) (l : Nat) : Option (Nat × XMsg) :=
  [2, 3, 0, 1].findSome? (fun vc => match s.nextOf l vc with
    | some m => if s.linkReady l vc m then some (vc, m) else none
    | none => none)

/-- Whether a message may follow another in one frame (R483): of the same pair, stream and class, with the next PSN. -/
def follows (m q : XMsg) : Bool :=
  m.typ < 0x20 && q.typ < 0x20 && isReqType m.typ = isReqType q.typ && q.dstHub = m.dstHub && q.srcHub = m.srcHub && q.epoch = m.epoch &&
  q.cls = m.cls && q.psn = (m.psn + 1) % 2 ^ 24

/-- The queued messages that go with `last` in its frame, at most `k` of them and `room` units (R483: at most 4,096 bytes). -/
def State.packed (s : State) (l vc : Nat) : Nat → Nat → XMsg → List XMsg
  | 0, _, _ => []
  | k + 1, room, last =>
    match (s.link l).txq.find? (fun e => e.1 = vc && follows last e.2 && !s.outHolds l e.2) with
    | some e => if msgUnits e.2 ≤ room then e.2 :: s.packed l vc k (room - msgUnits e.2) e.2 else []
    | none => []

/-- Send the queued messages that the link now admits. -/
def State.linkDrain (l : Nat) : Nat → State → State
  | 0, s => s
  | k + 1, s =>
    match s.linkNext l with
    | some (vc, m) =>
      let more := if s.linkMode l = 1 then [] else s.packed l vc (s.link l).txq.length (256 - msgUnits m) m
      let s1 := s.updLink l (fun x => { x with txq := (m :: more).foldl (fun q e => q.erase (vc, e)) x.txq })
      State.linkDrain l k (s1.linkEmit l vc m more)
    | none => s

/-- Drain a link's queue. -/
def State.drainLink (s : State) (l : Nat) : State := s.linkDrain l (s.link l).txq.length

/-- Queue a message for egress on a link (R479, R481). -/
def State.linkPush (s : State) (l vc : Nat) (m : XMsg) : State := (s.updLink l (fun x => { x with txq := x.txq ++ [(vc, m)] })).drainLink l

/-- A link starts to retrain: traffic is held (R510, R512). -/
def State.retrainLink (s : State) (l : Nat) : State := (s.setLink l lnkTraining).updLink l (fun x => { x with locked := false })

/-- Replay every flit after ACK (R480): sixteen replays in a row without progress retrain the link. -/
def State.replay (s : State) (l : Nat) : State :=
  let s1 := (s.inc LNK_ERR_REPLAYS l 1).updLink l (fun x => { x with
    tx := x.tx ++ x.retry.map LinkTx.flit, replays := x.replays + 1 })
  if 16 ≤ (s1.link l).replays then (s1.retrainLink l).updLink l (fun x => { x with replays := 0 }) else s1

/-- Whether a flit lies at or before `ack` in SEQ order (R478: 12-bit numbers). -/
def seqAcked (ack q : Nat) : Bool := (ack + 4096 - q) % 4096 < 2048

/-- Apply ACK, NAK and credits of a received flit. -/
def State.linkAck (s : State) (l : Nat) (f : LinkFlit) : State :=
  let rest := (s.link l).retry.filter (fun q => !seqAcked f.ack q.seq)
  let progress := rest.length < (s.link l).retry.length
  let s1 := s.updLink l (fun x => { x with
    retry := rest, replays := if progress then 0 else x.replays,
    credits := SMap.upd 0 x.credits f.cvc (· + f.cred) })
  if f.nak then s1.replay l else s1.drainLink l

/-- An idle flit toward the peer, with ACK, NAK and the credits that a buffer returns as it drains (R479, R481). -/
def State.linkIdle (s : State) (l vc cred : Nat) : State :=
  s.updLink l (fun x => { x with
    tx := x.tx ++ [.flit { idle := true, seq := (x.seq + 4095) % 4096, ack := (x.exp + 4095) % 4096, nak := x.nak,
                           cvc := vc, cred := cred }],
    nak := false })

/-- The types of R491. -/
def xmsgTypes : List Nat := [0x01, 0x02, 0x03, 0x04, 0x05, 0x06, 0x10, 0x11, 0x12, 0x20, 0x21, 0x22]

/-- Whether a message has a type of R491 and a LEN that the type admits. -/
def xmsgOk (m : XMsg) : Bool :=
  xmsgTypes.contains m.typ &&
  (match m.typ with
   | 0x02 => 1 ≤ m.data.length && m.data.length ≤ 128
   | 0x03 => 1 ≤ m.data.length && m.data.length ≤ 128
   | 0x04 => m.data.length = 16
   | 0x05 => 1 ≤ m.data.length && m.data.length ≤ 128
   | 0x11 => 1 ≤ m.data.length && m.data.length ≤ 128
   | _ => m.data.isEmpty)

/-- Messages enter a link's receive buffer. One for this hub that R491 does not admit is discarded and counted, and its space returns (R481). -/
def State.rxAdd (s : State) (l : Nat) (es : List (Nat × XMsg)) : State :=
  es.foldl (fun t e =>
    if e.2.dstHub = s.hubNo && !xmsgOk e.2 then
      let t1 := t.inc LNK_ERR_MALFORMED l 1
      if s.linkMode l = 1 then t1.linkIdle l e.1 (msgUnits e.2) else t1
    else t.updLink l (fun x => { x with rx := x.rx ++ [e] })) s

/-- A native flit reaches a link (R477-R481). -/
def execLinkFlitReceive (l : Nat) (f : LinkFlit) (s : State) : Res :=
  .next (if s.rd LNK_STAT_STATE l ≠ lnkUp || s.linkMode l ≠ 1 || !(s.link l).locked then s
  else
    let s1 := (s.inc LNK_ERR_FEC_CORR l f.corrected).inc LNK_ERR_FEC_UNCORR l f.uncorrected
    if f.failed then
      (s1.updLink l (fun x => { x with nak := true })).linkIdle l 0 0
    else if 5 ≤ f.cvc then s1.retrainLink l
    else
      let s2 := s1.linkAck l f
      if f.idle then s2
      else if f.seq = (s2.link l).exp then
        ((s2.updLink l (fun x => { x with exp := (x.exp + 1) % 4096 })).rxAdd l f.msgs).linkIdle l 0 0
      else (s2.updLink l (fun x => { x with nak := true })).linkIdle l 0 0)

/-- ACK has not advanced for 2 µs (R480). -/
def execLinkReplayTimeout (l : Nat) (s : State) : Res :=
  .next (if (s.link l).retry.isEmpty || s.rd LNK_STAT_STATE l ≠ lnkUp then s else s.replay l)

/-- A receiver gains or loses the markers (R477). -/
def execMarkerLock (l : Nat) (gained : Bool) (s : State) : Res :=
  .next (s.updLink l (fun x => { x with locked := gained }))

/-! ### Routes and contexts -/

/-- The links of a hub's route that are UP (R498, R499). -/
def State.upLinks (s : State) (hub : Nat) : List Nat :=
  match SMap.get? s.fab.routes hub with
  | none => []
  | some k => (List.range 48).filter (fun l => Nat.testBit (s.rd LNK_SET_LINKS k) l && s.rd LNK_STAT_STATE l = lnkUp)

/-- Bytes queued for egress on a link. -/
def State.queuedUnits (s : State) (l : Nat) : Nat := ((s.link l).txq.map (fun e => msgUnits e.2)).foldl (· + ·) 0

/-- The link with the fewest bytes queued, the lowest number among equals (R498). -/
def State.chooseLink (s : State) (hub : Nat) : Option Nat :=
  (s.upLinks hub).foldl (fun b l => match b with
    | none => some l
    | some k => if s.queuedUnits l < s.queuedUnits k then some l else some k) none

/-- Put a message on the fabric over a link of its route; a message without one, or of an anchor that is isolated, stays with its sender (R492, 02_commons.md
R66). -/
def State.transmit (s : State) (m : XMsg) : State :=
  match s.chooseLink m.dstHub with
  | some l => if (s.iface (s.anchorOf m.dstHub)).isolated then s else s.linkPush l (if isReqType m.typ then 0 else 2) m
  | none => s

/-- A pair's contexts. -/
def State.sendCtx (s : State) (hub : Nat) : Option SendCtx := SMap.get? s.fab.send hub
def State.recvCtx (s : State) (hub : Nat) : Option RecvCtx := SMap.get? s.fab.recv hub
def State.putSend (s : State) (hub : Nat) (c : SendCtx) : State := { s with fab := { s.fab with send := SMap.put s.fab.send hub c } }
def State.putRecv (s : State) (hub : Nat) (c : RecvCtx) : State := { s with fab := { s.fab with recv := SMap.put s.fab.recv hub c } }

/-- Free a send context, keeping its EPOCH (R489). -/
def State.freeSend (s : State) (hub : Nat) : State :=
  match s.sendCtx hub with
  | some c => { s with fab := { s.fab with
      send := SMap.del s.fab.send hub, anchors := SMap.del s.fab.anchors hub, epochs := SMap.set 0 s.fab.epochs hub c.epoch } }
  | none => s

/-- Contexts that one anchor holds. -/
def State.sendCount (s : State) (a : Nat) : Nat := (s.fab.send.filter (fun e => s.anchorOf e.1 = a)).length
def State.recvCount (s : State) (a : Nat) : Nat := (s.fab.recv.filter (fun e => s.anchorOf e.1 = a)).length

/-- Send one message of an open context, the first with OPEN: its PSN and EPOCH are set, and a copy is kept until ACK covers it (R489, R492). -/
def State.ctxSend (s : State) (hub : Nat) (c : SendCtx) (m : XMsg) (first : Bool := false) : State :=
  let req := isReqType m.typ
  let m1 := { m with
    psn := if req then c.reqPsn else c.rspPsn, epoch := c.epoch, opens := first, dstHub := hub, srcHub := s.hubNo }
  let c1 := if req then { c with reqPsn := (c.reqPsn + 1) % 2 ^ 24, unReq := c.unReq ++ [m1] }
    else { c with rspPsn := (c.rspPsn + 1) % 2 ^ 24, unRsp := c.unRsp ++ [m1] }
  (s.putSend hub c1).transmit m1

/-- Bytes of the sequenced messages that an anchor keeps until ACK covers them (R492). -/
def State.keptBytes (s : State) (a : Nat) : Nat :=
  ((s.fab.send.filter (fun e => s.anchorOf e.1 = a)).map (fun e => ((e.2.unReq ++ e.2.unRsp).map (fun m => 16 * msgUnits m)).foldl (· + ·) 0)).foldl (· + ·) 0

/-- Whether a context may send a message now: at most 1,024 of a stream are unacknowledged, and the anchor keeps at most 2 MiB (R492). -/
def State.ctxRoom (s : State) (hub : Nat) (c : SendCtx) (m : XMsg) : Bool :=
  decide ((if isReqType m.typ then c.unReq.length else c.unRsp.length) < 1024) &&
  decide (s.keptBytes (s.anchorOf hub) + 16 * msgUnits m ≤ 2 ^ 21)

/-- Open a send context with EPOCH one above the last (R489). -/
def State.openSend (s : State) (hub : Nat) (m : XMsg) : State :=
  ({ s with fab := { s.fab with anchors := SMap.put s.fab.anchors hub (s.anchorOf hub) } } : State).ctxSend hub
    { epoch := (SMap.getD s.fab.epochs hub 0 + 1) % 256 } m true

/-- Hand a message to the transport of a pair: a context is opened where there is none, a message beyond the limits waits, and so does a response for which
no send context is free (R489, R492; log entry 142). -/
def State.xpSend (s : State) (hub : Nat) (m : XMsg) : State :=
  match s.sendCtx hub with
  | none => if 128 ≤ s.sendCount (s.anchorOf hub) then { s with fab := { s.fab with rspWait := s.fab.rspWait ++ [(hub, m)] } } else s.openSend hub m
  | some c => if !s.ctxRoom hub c m || !c.waiting.isEmpty then s.putSend hub { c with waiting := c.waiting ++ [m] } else s.ctxSend hub c m

/-- Send the waiting messages of a context that its limits now allow. -/
def State.ctxDrain (hub : Nat) : Nat → State → State
  | 0, s => s
  | k + 1, s =>
    match s.sendCtx hub with
    | some c =>
      (match c.waiting with
       | m :: r => if s.ctxRoom hub c m then State.ctxDrain hub k (s.ctxSend hub { c with waiting := r } m) else s
       | [] => s)
    | none => s

/-- An anchor has room again: its contexts send what waits, the one of `hub` first, and waiting responses open contexts that are free. -/
def State.drainPairs (s : State) (hub : Nat) : State :=
  let waiting (t : State) (h : Nat) : Nat := ((t.sendCtx h).map (fun c => c.waiting.length)).getD 0
  let s1 := (hub :: (s.fab.send.map (·.1)).filter (· ≠ hub)).foldl (fun t h => State.ctxDrain h (waiting t h) t) s
  s1.fab.rspWait.foldl (fun t e => t.xpSend e.1 e.2) { s1 with fab := { s1.fab with rspWait := [] } }

/-- Send an unsequenced message. -/
def State.xpPlain (s : State) (hub typ addr epoch : Nat) : State :=
  s.transmit { typ := typ, dstHub := hub, srcHub := s.hubNo, addr := addr, epoch := epoch }

/-- ACK of a receive context: request and response PSNs received through (R491, R492). -/
def State.sendAck (s : State) (hub : Nat) : State :=
  match s.recvCtx hub with
  | some c =>
    (s.putRecv hub { c with due := 0 }).xpPlain hub 0x20
      ((c.expReq + 2 ^ 24 - 1) % 2 ^ 24 + (c.expRsp + 2 ^ 24 - 1) % 2 ^ 24 * 2 ^ 32) c.epoch
  | none => s

/-! ### Requests to another hub -/

/-- The transport message of a Commons request, for one run of a write's bytes (R490, R491). -/
def xmsgOf (p : Pkt) (off : Nat) (data : List Byte) : XMsg :=
  let base : XMsg := { srcAgent := p.src, txn := p.txn, cls := p.cls, vol := p.vol, noalloc := p.noalloc,
                       ordered := p.ordered, poison := p.poison, deadline := p.deadline, addr := p.addr + off, data := data }
  match p.opc with
  | 0x00 => { base with typ := 0x01, size := p.len - 1, data := [] }
  | 0x01 => { base with typ := 0x01, size := 127, data := [] }
  | 0x03 => { base with typ := 0x02, size := data.length - 1 }
  | 0x04 => { base with typ := 0x02, size := 127 }
  | 0x08 => { base with typ := 0x04, aop := atomOp p + (if atomSize p = 8 then 16 else 0) }
  | _ => { base with typ := 0x03, size := data.length - 1 }

/-- The byte runs of a request's data. -/
def dataRuns (p : Pkt) : List (Nat × List Byte) :=
  if p.opc = 0x03 || p.opc = 0x06 then maskRuns 0 p.mask p.data
  else if p.opc = 0x08 then [(0, p.data.take 16)]
  else if p.opc = 0x04 || p.opc = 0x07 then [(0, p.data)]
  else [(0, [])]

/-- The hub that a request is for. -/
def hubOf (p : Pkt) : Nat := p.addr / 2 ^ 48 % 2 ^ 16

/-- Whether a request of an inbound table has not been sent on. -/
def Iface.unsent (i : Iface) (p : Pkt) : Bool := decide (i.sent.countP (fun f => f.req = p) < i.inbound.countP (fun q => q = p))

/-- The anchor of a pair sends a request that it holds (R488, R489, R498, R499): unreachable where the route has no link
UP; waiting in the inbound table while another anchor holds a send context for the hub, no send context is free, or an earlier request of its source for
the hub waits (03_memory_model.md R83). The anchor remembers every request until a PERF covers it (R495), and a posted write keeps its inbound entry until
then (02_commons.md R51). A Mill message (opcode 0x0F) travels as COLL segments (R497); bit k of
its mask says that its 128-byte granule k is poisoned. -/
def State.anchorSend (s : State) (a : Nat) (p : Pkt) : State :=
  let hub := hubOf p
  let i := s.iface a
  let behind := (i.inbound.takeWhile (fun q => q ≠ p)).any (fun q => q.src = p.src && hubOf q = hub && !isProbe q && i.unsent q)
  if s.anchorOf hub ≠ a || behind || !i.unsent p then s
  else if (s.upLinks hub).isEmpty || hub = s.hubNo then s.answer a p 0x40
  else if (s.sendCtx hub).isNone && 128 ≤ s.sendCount a then s
  else if p.opc = 0x0F then
    let n := p.data.length
    let segs := (List.range ((n + 127) / 128)).map (fun k =>
      ({ typ := 0x05, srcAgent := p.src, txn := p.txn, cls := p.cls, deadline := p.deadline,
         addr := 128 * k + n * 2 ^ 32, data := (p.data.drop (128 * k)).take 128, poison := Nat.testBit p.mask k } : XMsg))
    (segs.foldl (fun t m => t.xpSend hub m) s).answer a p stOk
  else
    let runs := dataRuns p
    let (psns, s1) := runs.foldl (fun (acc : List Nat × State) r =>
      let c := ((acc.2.sendCtx hub).map (fun x => (x.reqPsn + x.waiting.countP (fun m => isReqType m.typ)) % 2 ^ 24)).getD 0
      (acc.1 ++ [hub * 2 ^ 24 + c], acc.2.xpSend hub (xmsgOf p r.1 r.2))) (([] : List Nat), s)
    s1.updIface a (fun x => { x with remote := x.remote ++ psns.map (fun k => (p.src, k)),
                                     sent := x.sent ++ [{ req := p, psns := psns, left := runs.length }] })

/-- ANCHOR_SEND: the anchor sends the request `p` of its inbound table; a request not there reaches it first (R488). -/
def execAnchorSend (p : Pkt) (s : State) : Res :=
  .next (if (s.iface p.dest).inbound.contains p then s.anchorSend p.dest p
  else
    let s1 := s.request p
    let a := s.namedAnchor (hubOf p)
    match (s1.iface a).inbound.find? (fun q => q.opc = p.opc && q.src = p.src && q.txn = p.txn && (s1.iface a).unsent q) with
    | some q => s1.anchorSend a q
    | none => s1)

/-! ### Receiving at the anchor -/

/-- Whether `x` lies below `y` in PSN order (24 bits). -/
def psnBefore (x y : Nat) : Bool := x ≠ y && (y + 2 ^ 24 - x) % 2 ^ 24 < 2 ^ 23

/-- The window that maps a request: OPEN in its generation and holding its whole range (R502, R503). -/
def State.windowOf (s : State) (hpa n : Nat) : Option (Nat × WinMap) :=
  s.fab.wins.find? (fun e =>
    let lo := bitsOf e.2.inw 39 8 * 65536
    bitsOf e.2.inw 63 63 = 1 && lo ≤ hpa && hpa + n ≤ lo + 2 ^ bitsOf e.2.inw 62 57)

/-- The highest request PSN through which every request is performed or failed (R494). -/
def RecvCtx.performed (c : RecvCtx) : Nat :=
  (c.pend.foldl (fun b x => if psnBefore x.psn b then x.psn else b) c.expReq + 2 ^ 24 - 1) % 2 ^ 24

/-- Whether a PERF of a pair waits to leave. -/
def State.perfWaits (s : State) (hub : Nat) : Bool :=
  s.fab.links.any (fun e => e.2.txq.any (fun q => q.2.typ = 0x21 && q.2.dstHub = hub && q.2.srcHub = s.hubNo))

/-- The PSN of the last response handed to the transport of a pair, sent or waiting (R494). -/
def State.rspThrough (s : State) (hub : Nat) : Nat :=
  let n := match s.sendCtx hub with
    | some c => c.rspPsn + c.waiting.countP (fun m => !isReqType m.typ)
    | none => s.fab.rspWait.countP (fun e => e.1 = hub)
  (n + 2 ^ 24 - 1) % 2 ^ 24

/-- Send PERF when it has advanced, while no earlier one waits to leave (R494). -/
def State.sendPerf (s : State) (hub : Nat) : State :=
  match s.recvCtx hub with
  | some c =>
    if c.performed = c.perfSent || s.perfWaits hub || (s.chooseLink hub).isNone then s
    else (s.putRecv hub { c with perfSent := c.performed }).xpPlain hub 0x21 (c.performed + s.rspThrough hub * 2 ^ 32) c.epoch
  | none => s

/-- Send the response of a remote request (R493). A posted write answers only when it fails, a Mill message not at all. -/
def State.xpRespond (s : State) (hub : Nat) (m : XMsg) (status : Nat) (data : List Byte) (poison : Bool) : State :=
  if m.typ = 0x05 then s
  else if m.typ = 0x02 then
    (if status = 0 then s else s.xpSend hub { typ := 0x12, srcAgent := m.srcAgent, txn := m.txn, status := status })
  else if m.typ = 0x03 || data.isEmpty then
    s.xpSend hub { typ := 0x10, srcAgent := m.srcAgent, txn := m.txn, status := status }
  else s.xpSend hub
    { typ := 0x11, srcAgent := m.srcAgent, txn := m.txn, status := status, data := data, poison := poison }

/-- Count a request that no window holds at the range of a window (LNK_WIN_CTL.REFUSED): the first whose registers give a range that holds it. -/
def State.countClosed (s : State) (hpa : Nat) : State :=
  match (List.range 64).find? (fun w =>
    let lo := s.rd LNK_WIN_IN_IN_BASE w * 65536
    16 ≤ s.rd LNK_WIN_IN_LOG2SIZE w && lo ≤ hpa && hpa < lo + 2 ^ s.rd LNK_WIN_IN_LOG2SIZE w) with
  | some w => s.inc LNK_WIN_CTL_REFUSED w 1
  | none => s

/-- Issue a delivered remote request into the Commons through its window (R493, R502-R505), as the agent of link ingress
and as the stream of its remote source. -/
def State.xpIssue (s : State) (hub : Nat) (m : XMsg) : State :=
  let a := s.anchorOf hub
  let hpa := m.addr % 2 ^ 48
  let n := if m.typ = 0x04 then (if m.aop / 16 % 2 = 1 then 8 else 4) else m.size + 1
  match s.windowOf hpa n with
  | none => ((s.countClosed hpa).xpRespond hub m 0x41 [] false).sendPerf hub
  | some (w, x) =>
    let perm := bitsOf x.tgt 63 61
    let need := if m.typ = 0x01 then 2 else if m.typ = 0x04 then 0 else 1
    let srcOk := bitsOf x.inw 56 56 = 1 || bitsOf x.inw 55 40 = hub
    if !srcOk || !Nat.testBit perm need then
      ((s.inc LNK_WIN_CTL_REFUSED w 1).xpRespond hub m 0x42 [] false).sendPerf hub
    else
      let lo := bitsOf x.inw 39 8 * 65536
      let dst := bitsOf x.tgt 47 16 * 65536 + (hpa - lo)
      let part (o k : Nat) (d : List Byte) : Pkt := {
        opc := if m.typ = 0x01 then (if k = 128 && dst % 128 = 0 then 0x01 else 0x00)
               else if m.typ = 0x04 then 0x08
               else if k = 128 then 0x07 else 0x06,
        src := a, addr := s.hubNo * 2 ^ 48 + dst + o, len := k,
        mask := if m.typ = 0x04 then m.aop % 16 + (if m.aop / 16 % 2 = 1 then 8 else 4) * 256 else 2 ^ k - 1,
        data := d, tenant := bitsOf x.tgt 59 54, cls := m.cls, deadline := m.deadline, vol := m.vol, noalloc := m.noalloc,
        ordered := m.ordered, poison := m.poison, stream := hub * 1024 + m.srcAgent }
      let d := (m.data ++ zeros (n - m.data.length)).take n
      -- a write of 65 to 127 bytes goes in address form, as two packets (02_commons.md R46)
      let parts := if m.typ = 0x04 then [part 0 n m.data]
        else if (m.typ = 0x02 || m.typ = 0x03) && 64 < n && n < 128 then [part 0 64 (d.take 64), part 64 (n - 64) (d.drop 64)]
        else [part 0 n d]
      let g := s.rd LNK_WIN_CTL_GEN w
      parts.foldl (fun u p =>
        let t := u.freeTxn a
        let c := (u.recvCtx hub).getD {}
        (u.putRecv hub { c with pend := c.pend ++ [{ txn := t, psn := m.psn, orig := m, win := w, gen := g, agent := a }] }).issue
          { p with txn := t }) s

/-- Deliver an answer to a request of this hub that the remote hub has sent (R492): to the agent that issued it, once every message of the request is
answered, with the first status that failed it; a posted write fails once. -/
def State.xpAnswer (s : State) (hub : Nat) (m : XMsg) : State :=
  let a := s.anchorOf hub
  match (s.iface a).sent.find? (fun f => f.req.src = m.srcAgent && f.req.txn = m.txn && hubOf f.req = hub && (isPosted f.req = (m.typ = 0x12)) &&
      (!isPosted f.req || f.status = 0)) with
  | none => s
  | some f =>
    if isPosted f.req then
      (s.updIface a (fun i => { i with sent := i.sent.map (fun x => if x = f then { f with status := m.status } else x) })).answer a f.req m.status
    else
      let g : FarReq := { f with left := f.left - 1, status := if f.status = stOk then m.status else f.status }
      if g.left = 0 then
        (s.updIface a (fun i => { i with sent := i.sent.erase f })).answer a f.req g.status
          (m.data.take (if f.req.opc = 0x08 then 8 else f.req.len)) m.poison
      else s.updIface a (fun i => { i with sent := i.sent.map (fun x => if x = f then g else x) })

/-- One COLL segment (R497): it must continue its run; the last segment delivers the whole Mill message to the Mill. -/
def State.xpColl (s : State) (hub : Nat) (m : XMsg) : State :=
  let c := (s.recvCtx hub).getD {}
  let off := m.addr % 2 ^ 32
  let total := m.addr / 2 ^ 32 % 2 ^ 32
  let start := off = 0
  let bad := (if start then 0 else c.collBad) + (if m.poison then 2 ^ (off / 128) else 0)
  if !(off % 128 = 0 && (start || (off = c.coll.length && total = c.collLen && 0 < c.coll.length)) && off < total) then
    (s.putRecv hub { c with coll := [], collLen := 0 }).inc LNK_ERR_MALFORMED (s.anchorOf hub - 0x140) 1
  else
    let buf := ((if start then [] else c.coll) ++ m.data).take total
    if total ≤ buf.length then
      let a := s.anchorOf hub
      let t := s.freeTxn a
      (s.putRecv hub { c with coll := [], collLen := 0, pend := c.pend ++ [{ txn := t, psn := m.psn, orig := m, win := 64, agent := a }] }).issue
        { opc := 0x0F, dst := s.collSlice, src := a, addr := hub * 2 ^ 48, cls := m.cls, deadline := m.deadline, data := buf, mask := bad, txn := t }
    else s.putRecv hub { c with coll := buf, collLen := total, collBad := bad }

/-- A PERF covers the requests of a pair through a PSN (R494, R495): the anchor forgets them, and the posted writes of which every message is covered
are performed, and leave its inbound table (02_commons.md R51). -/
def Iface.covered (i : Iface) (hub psn : Nat) : Iface :=
  let remote := i.remote.filter (fun r => !(r.2 / 2 ^ 24 = hub && !psnBefore psn (r.2 % 2 ^ 24)))
  let ended := i.sent.filter (fun f => isPosted f.req && f.psns.all (fun k => remote.all (fun r => r.2 ≠ k)))
  { i with remote := remote, sent := i.sent.filter (fun f => !ended.contains f)
           inbound := ended.foldl (fun l f => if f.status = 0 then l.erase f.req else l) i.inbound }

/-- Apply the PERFs whose response PSN has been delivered through (R494). -/
def State.applyPerfs (s : State) (hub : Nat) : State :=
  match s.sendCtx hub with
  | none => s
  | some c =>
    let exp := ((s.recvCtx hub).map (·.expRsp)).getD 0
    let ready := c.perfs.filter (fun e => psnBefore e.2 exp)
    let s1 := s.putSend hub { c with perfs := c.perfs.filter (fun e => !psnBefore e.2 exp) }
    ready.foldl (fun t e => t.updIface (t.anchorOf hub) (fun i => i.covered hub e.1)) s1

/-- A receive context goes (R489): the requests that it has issued go on, and their answers leave unless `silent`. -/
def State.dropRecv (s : State) (hub : Nat) (silent : Bool) : State :=
  let p := ((s.recvCtx hub).map (·.pend)).getD []
  { s with fab := { s.fab with recv := SMap.del s.fab.recv hub, orphans := s.fab.orphans ++ p.map (fun x => { x with hub := hub, silent := silent }) } }

/-- Deliver one sequenced message in order. -/
def State.xpDeliver (s : State) (hub : Nat) (m : XMsg) : State :=
  match m.typ with
  | 0x05 => (s.xpColl hub m).sendPerf hub
  | 0x06 => ((s.sendAck hub).applyPerfs hub).dropRecv hub false
  | 0x10 => s.xpAnswer hub m
  | 0x11 => s.xpAnswer hub m
  | 0x12 => s.xpAnswer hub m
  | _ => s.xpIssue hub m

/-- Deliver the held messages that are next in their streams, counting each toward the next ACK (R492). -/
def State.xpPump (hub : Nat) : Nat → State → State
  | 0, s => s
  | k + 1, s =>
    match s.recvCtx hub with
    | none => s
    | some c =>
      match c.held.find? (fun m => if isReqType m.typ then m.psn = c.expReq else m.psn = c.expRsp) with
      | none => s
      | some m =>
        let c1 := { c with
          held := c.held.erase m, due := c.due + 1,
          expReq := if isReqType m.typ then (c.expReq + 1) % 2 ^ 24 else c.expReq,
          expRsp := if isReqType m.typ then c.expRsp else (c.expRsp + 1) % 2 ^ 24 }
        let s1 := ((s.putRecv hub c1).xpDeliver hub m).applyPerfs hub
        let s2 := match s1.recvCtx hub with
          | some c2 => if 16 ≤ c2.due then s1.sendAck hub else s1
          | none => s1
        State.xpPump hub k s2

/-- The link that has received a message which is not yet handled. -/
def State.rxLink (s : State) (m : XMsg) : Option Nat := (List.range 48).find? (fun l => (s.link l).rx.any (fun e => e.2 = m))

/-- Take a message off the receive buffer that holds it, whose native link returns its credits (R481). -/
def State.takeRx (s : State) (m : XMsg) : State :=
  match s.rxLink m with
  | none => s
  | some l =>
    match (s.link l).rx.find? (fun e => e.2 = m) with
    | none => s
    | some e =>
      let s1 := s.updLink l (fun x => { x with rx := x.rx.erase e })
      if s.linkMode l = 1 && s.rd LNK_STAT_STATE l = lnkUp then s1.linkIdle l e.1 (msgUnits m) else s1

/-- Whether the IN regulator of the link that received a message holds it (13_sluice.md R427, R428): its class waits, or another request in the receive
buffer goes first. -/
def State.inHolds (s : State) (m : XMsg) : Bool :=
  match s.rxLink m with
  | none => false
  | some l =>
    let key (q : XMsg) : Nat := portBucket (8 + l) 0 0 (portReq q)
    let free := ((s.link l).rx.map (·.2)).filter (fun q => isReqType q.typ && !s.exhausted (key q))
    isReqType m.typ && leastBy (fun q => s.placeInOrder (key q) (portReq q)) free ≠ some m

/-- A message passes from its link into the hub: what the IN regulator holds stays where it is. -/
def State.ingress (s : State) (m : XMsg) (f : State → State) : State :=
  if s.inHolds m then s
  else
    let s1 := match s.rxLink m with
      | some l => if isReqType m.typ then s.chargePort (8 + l) 0 0 (portReq m) else s
      | none => s
    f (s1.takeRx m)

/-- Whether an anchor takes messages of the transport: its domain is OPEN, or DRAINING and the agent has not signalled idle (02_commons.md R58, R59). -/
def State.anchorLives (s : State) (a : Nat) : Bool :=
  s.agentState a = domOpen || (s.agentState a = domDraining && !(s.iface a).idle)

/-- A sequenced message reaches the receiving anchor (R489, R492): OPEN makes or replaces the context, BUSY answers it where
none is free; another EPOCH, or a PSN beyond the window, is discarded; a duplicate is acknowledged again. -/
def State.xpReceive (s : State) (m : XMsg) : State := s.ingress m (fun s0 =>
  let hub := m.srcHub
  let a := s0.anchorOf hub
  if m.dstHub ≠ s.hubNo then s0
  else if !xmsgOk m then s0.inc LNK_ERR_MALFORMED (a - 0x140) 1
  else if !s0.anchorLives a then s0
  else
    let old := s0.recvCtx hub
    let fresh := m.opens && (match old with | some c => c.epoch ≠ m.epoch | none => true)
    if fresh && old.isNone && 128 ≤ s0.recvCount a then s0.xpPlain hub 0x22 0 m.epoch
    else
      let s1 := if fresh then (s0.dropRecv hub true).putRecv hub { epoch := m.epoch, perfSent := 2 ^ 24 - 1 } else s0
      match s1.recvCtx hub with
      | none => s1
      | some c =>
        if c.epoch ≠ m.epoch then s1
        else
          let exp := if isReqType m.typ then c.expReq else c.expRsp
          if psnBefore m.psn exp then s1.sendAck hub
          else if 1024 ≤ (m.psn + 2 ^ 24 - exp) % 2 ^ 24 then s1
          else if c.held.any (fun q => isReqType q.typ = isReqType m.typ && q.psn = m.psn) then s1
          else State.xpPump hub (c.held.length + 1) (s1.putRecv hub { c with held := c.held ++ [m] }))

def execXpRd (m : XMsg) (s : State) : Res := .next (s.xpReceive { m with typ := 0x01 })
def execXpWr (m : XMsg) (s : State) : Res := .next (s.xpReceive { m with typ := 0x02 })
def execXpWrn (m : XMsg) (s : State) : Res := .next (s.xpReceive { m with typ := 0x03 })
def execXpAtom (m : XMsg) (s : State) : Res := .next (s.xpReceive { m with typ := 0x04 })
def execXpColl (m : XMsg) (s : State) : Res := .next (s.xpReceive { m with typ := 0x05 })
def execXpClose (m : XMsg) (s : State) : Res := .next (s.xpReceive { m with typ := 0x06 })
def execXpRsp (m : XMsg) (s : State) : Res := .next (s.xpReceive { m with typ := 0x10 })
def execXpRspData (m : XMsg) (s : State) : Res := .next (s.xpReceive { m with typ := 0x11 })
def execXpWfail (m : XMsg) (s : State) : Res := .next (s.xpReceive { m with typ := 0x12 })

/-- OLD_BUSY clears once no request mapped under the previous generation of a window is left (R505). -/
def State.clearOld (s : State) (x : XPend) : State :=
  let same (y : XPend) : Bool := y.win = x.win && y.gen = x.gen
  if x.win < 64 && x.gen ≠ s.rd LNK_WIN_CTL_GEN x.win && !s.fab.recv.any (fun e => e.2.pend.any same) && !s.fab.orphans.any same then
    s.wr LNK_WIN_CTL_OLD_BUSY x.win 0
  else s

/-- A Commons answer to a request that an anchor issued for a remote hub (R493, R494): once every part is answered the response leaves, and the request
counts as performed or failed. -/
def State.linkAnswer (s : State) (a : Nat) (p : Pkt) : State :=
  let mine (x : XPend) : Bool := x.txn = p.txn && x.agent = a
  let ended (l : List XPend) (x : XPend) : Nat × List XPend :=
    let st := if x.bad = 0 then p.status else x.bad
    (st, (l.erase x).map (fun y => if y.psn = x.psn && y.hub = x.hub && y.bad = 0 then { y with bad := st } else y))
  match s.fab.recv.findSome? (fun e => (e.2.pend.find? mine).map (fun x => (e.1, e.2, x))) with
  | some (hub, c, x) =>
    let (st, rest) := ended c.pend x
    let s1 := s.putRecv hub { c with pend := rest }
    (if rest.any (fun y => y.psn = x.psn) then s1 else (s1.xpRespond hub x.orig st p.data p.poison).sendPerf hub).clearOld x
  | none =>
    match s.fab.orphans.find? mine with
    | some x =>
      let (st, rest) := ended s.fab.orphans x
      let s1 : State := { s with fab := { s.fab with orphans := rest } }
      (if x.silent || rest.any (fun y => y.psn = x.psn && y.hub = x.hub) then s1 else s1.xpRespond x.hub x.orig st p.data p.poison).clearOld x
    | none => s

/-- An ACK frees what it covers (R492); the ACK of a CLOSE frees the context (R489). -/
def execXpAck (m : XMsg) (s : State) : Res :=
  let hub := m.srcHub
  let s0 := s.takeRx m
  .next (match s0.sendCtx hub with
  | none => s0
  | some c =>
    if c.epoch ≠ m.epoch || !s0.anchorLives (s0.anchorOf hub) then s0
    else
      let q := m.addr % 2 ^ 24
      let r := m.addr / 2 ^ 32 % 2 ^ 24
      let unReq := c.unReq.filter (fun x => psnBefore q x.psn)
      let unRsp := c.unRsp.filter (fun x => psnBefore r x.psn)
      let moved := unReq.length < c.unReq.length || unRsp.length < c.unRsp.length
      let c1 := { c with unReq := unReq, unRsp := unRsp, resends := if moved then 0 else c.resends, busy := false }
      let s1 := s0.putSend hub c1
      (if c.closing && unReq.isEmpty && unRsp.isEmpty then s1.freeSend hub else s1).drainPairs hub)

/-- A PERF is applied once the response stream has been delivered through the PSN that it carries (R494). It is a message of the context whose requests it
covers, and names its EPOCH (log entry 142). -/
def execXpPerf (m : XMsg) (s : State) : Res :=
  let hub := m.srcHub
  let s0 := s.takeRx m
  .next (match s0.sendCtx hub with
  | some c =>
    if c.epoch ≠ m.epoch || !s0.anchorLives (s0.anchorOf hub) then s0
    else (s0.putSend hub { c with perfs := c.perfs ++ [(m.addr % 2 ^ 24, m.addr / 2 ^ 32 % 2 ^ 24)] }).applyPerfs hub
  | none => s0)

/-- A BUSY makes the sender repeat its OPEN (R489). -/
def execXpBusy (m : XMsg) (s : State) : Res :=
  let s0 := s.takeRx m
  .next (match s0.sendCtx m.srcHub with
  | some c => if c.epoch = m.epoch then s0.putSend m.srcHub { c with busy := true } else s0
  | none => s0)

/-- 1 µs after the oldest unacknowledged delivery (R492). -/
def execXpAckTimer (hub : Nat) (s : State) : Res :=
  .next (match s.recvCtx hub with
  | some c => if 0 < c.due then s.sendAck hub else s
  | none => s)

/-- A request of a lost pair ends (R492): it is answered HUB_UNREACHABLE, but a posted write that the remote hub has acknowledged only leaves. -/
def State.loseFar (s : State) (a : Nat) (c : SendCtx) (p : Pkt) : State :=
  let acked := isPosted p && !(s.iface a).unsent p &&
    (c.unReq ++ c.waiting).all (fun m => !(m.typ = 0x02 && m.srcAgent = p.src && m.txn = p.txn))
  if acked then s.updIface a (fun i => { i with inbound := i.inbound.erase p }) else s.answer a p 0x40

/-- A pair is lost (R492): what awaits it is answered HUB_UNREACHABLE, and its send context frees. `tell` informs the
Mill (09_mill.md R300). -/
def State.losePair (s : State) (hub : Nat) (tell : State → State) : State :=
  let a := s.anchorOf hub
  match s.sendCtx hub with
  | none => s
  | some c =>
    let held := (s.iface a).inbound.filter (fun p => hubOf p = hub && p.opc ≤ 0x08 && !isProbe p)
    let s1 := held.foldl (fun t p => t.loseFar a c p) s
    let s3 := s1.updIface a (fun i => { i with
      remote := i.remote.filter (fun r => r.2 / 2 ^ 24 ≠ hub), sent := i.sent.filter (fun f => hubOf f.req ≠ hub) })
    let s4 := ((s3.freeSend hub).inc LNK_XP_STAT_LOST 0 1).drainPairs hub
    (tell s4).raise 0x0041 3 a hub

/-- Resend a stream from its oldest unacknowledged message, over any link of the route (R492). -/
def State.resend (s : State) (hub : Nat) (c : SendCtx) : State :=
  let ms := c.unReq ++ c.unRsp
  (ms.foldl (fun t m => t.transmit m) (s.putSend hub { c with resends := c.resends + 1 })).inc LNK_XP_STAT_RESENDS 0
    ms.length

/-- A context whose messages are all acknowledged has been idle for IDLE_US: it sends CLOSE (R489). A context is not idle while a request of the pair
awaits its answer or a PERF (log entry 142). -/
def execXpIdleClose (hub : Nat) (s : State) : Res :=
  .next (match s.sendCtx hub with
  | some c =>
    let i := s.iface (s.anchorOf hub)
    let open_ := i.sent.any (fun f => hubOf f.req = hub) || i.remote.any (fun r => r.2 / 2 ^ 24 = hub)
    if c.unReq.isEmpty && c.unRsp.isEmpty && c.waiting.isEmpty && !c.closing && !open_ then
      s.ctxSend hub { c with closing := true } { typ := 0x06 }
    else s
  | none => s)

/-- A message for another hub crosses from its ingress link to its egress link, on the hop-1 VC of its class (R482,
R500). -/
def execIntermediateForward (l vc : Nat) (m : XMsg) (s : State) : Res :=
  .next (if m.dstHub = s.hubNo then s
  else s.ingress m (fun s0 =>
    if vc = 1 || vc = 3 then s0.inc LNK_ERR_HOP l 1
    else match s0.chooseLink m.dstHub with
      | some k => s0.linkPush k (if isReqType m.typ then 1 else 3) m
      | none => s0.inc LNK_ERR_NOROUTE l 1))

/-! ### Ethernet -/

/-- A CNP halves its pair's rate. -/
def State.halveRate (s : State) (hub : Nat) : State :=
  { s with fab := { s.fab with rates := SMap.upd 1000000 s.fab.rates hub (· / 2) } }

/-- Bytes that the receive buffer of a class holds at an Ethernet link (R485). -/
def State.classBytes (s : State) (l cls : Nat) : Nat :=
  (((s.link l).rx.filter (fun e => e.2.cls % 8 = cls)).map (fun e => 16 * msgUnits e.2)).foldl (· + ·) 0

/-- The bytes of a frame in the buffer of a class. -/
def frameBytes (f : EthFrame) (cls : Nat) : Nat := ((f.msgs.filter (fun m => m.cls % 8 = cls)).map (fun m => 16 * msgUnits m)).foldl (· + ·) 0

/-- The classes of a frame's messages. -/
def frameClasses (f : EthFrame) : List Nat := (f.msgs.map (fun m => m.cls % 8)).eraseDups

/-- Whether PFC is enabled on a priority of a port. -/
def State.pfcOn (s : State) (l port cls : Nat) : Bool := Nat.testBit (s.rd LNK_ETH_MAC_PFC (2 * l + port)) cls

/-- The messages of a frame enter the receive buffers of their classes (R485): without PFC a full buffer discards the frame; with it, the port sends a pause
for a priority whose buffer is full. The size of a buffer is a free value (log entry 139). -/
def State.bufferFrame (s : State) (l port : Nat) (f : EthFrame) : Option State :=
  let full (c : Nat) : Bool := decide (Config.ethBuffer < s.classBytes l c + frameBytes f c)
  if (frameClasses f).any (fun c => full c && !s.pfcOn l port c) then none
  else
    let s1 := s.rxAdd l (f.msgs.map (fun m => (0, m)))
    some (((frameClasses f).filter (fun c => s.pfcOn l port c && decide (Config.ethBuffer ≤ s1.classBytes l c))).foldl
      (fun t c => t.updLink l (fun x => { x with tx := x.tx ++ [.pause port c] })) s1)

/-- A frame is checked (R484-R487): a pause holds the priorities that it names, where PFC is enabled on them, until the next one; a CE mark answers with a
CNP at most once per 50 µs. -/
def execEthFrameReceive (l port : Nat) (f : EthFrame) (s : State) : Res :=
  .next (if s.rd LNK_STAT_STATE l ≠ lnkUp || s.linkMode l < 2 then s
  else match f.pfc with
  | some mask =>
    let held := ((List.range 8).filter (fun c => Nat.testBit mask c && s.pfcOn l port c)).map (fun c => 8 * port + c)
    (s.updLink l (fun x => { x with paused := x.paused.filter (fun k => k / 8 ≠ port) ++ held })).drainLink l
  | none =>
    if f.mac ≠ s.rd LNK_ETH_MAC_MAC (2 * l + port) || f.v6 ≠ s.flag LNK_XP_CFG_IPV6 || f.ip ≠ s.ipOf s.hubNo || f.udp ≠ 4791 ||
        !(f.opcode = 0xC0 || f.opcode = 0x81) then s.inc LNK_ERR_FOREIGN l 1
    else if f.opcode = 0x81 then s.halveRate f.srcHub
    else match s.bufferFrame l port f with
    | none => s
    | some s1 =>
      let due := match SMap.get? s.fab.cnps f.srcHub with | some t => decide (t + 50000 ≤ s.time) | none => true
      if f.ce && due then
        let s2 : State := { s1 with fab := { s1.fab with cnps := SMap.put s1.fab.cnps f.srcHub s.time } }
        s2.sendFrame l f.srcHub (s2.frameTo l port f.srcHub 0 0x81 [])
      else s1)

/-- A CNP halves the pair's send rate (R486). -/
def execEthCnp (hub : Nat) (s : State) : Res := .next (s.halveRate hub)

/-- 55 µs without a CNP: 5 % of the link rate more, up to the full rate (R486). -/
def execEthRateRise (hub : Nat) (s : State) : Res :=
  .next { s with fab := { s.fab with rates := SMap.upd 1000000 s.fab.rates hub (fun x => min 1000000 (x + 50000)) } }

/-! ### Bell time -/

/-- Every SYNC_US, each end of an UP link sends TIME: its own time and the times of the last TIME received (R507). -/
def execTimeSyncTimer (s : State) : Res :=
  let up := (List.range 48).filter (fun l => s.rd LNK_STAT_STATE l = lnkUp && s.linkMode l = 1)
  .next (if s.rd LNK_TIME_CFG_MODE ≠ 1 then s
  else up.foldl (fun t l => t.updLink l (fun x => { x with tx := x.tx ++ [.time s.time x.t1 x.t2] })) s)

/-- A signed value in the low `w` bits. -/
def twos (w : Nat) (x : Int) : Nat := (x % (2 ^ w : Int)).toNat

/-- Saturate to a signed range of `w` bits. -/
def satInt (w : Nat) (x : Int) : Int := max (-(2 ^ (w - 1) : Int)) (min (2 ^ (w - 1) - 1 : Int) x)

/-- A new offset from the time source (R506-R509): recorded; LOCKED follows sixteen small offsets in a row and clears above
1 µs; bell time steps forward where ALLOW_STEP admits it and is slewed otherwise. The slewing rate is the servo's own
(log entry 13: a free value within ±500 ppm). -/
def State.timeOffset (s : State) (off : Int) : State :=
  let small := off.natAbs ≤ 100
  let n := if small then s.fab.goodOffsets + 1 else 0
  let was := s.flag LNK_TIME_STAT_LOCKED
  let now := if 1000 < off.natAbs then false else (was || decide (16 ≤ n))
  let s1 := ({ s with fab := { s.fab with goodOffsets := n } }).wr LNK_TIME_STAT_OFFSET_NS 0 (twos 32 (satInt 32 off))
  let rate : Int := (s1.freeNat % 1000001 : Nat) - 500000
  let s2 := ((s1.fresh).wr LNK_TIME_STAT_RATE_PPB 0 (twos 24 rate)).wr LNK_TIME_STAT_LOCKED 0 (if now then 1 else 0)
  let s3 := if s2.flag LNK_TIME_CFG_ALLOW_STEP && off < 0 && s2.rd LNK_TIME_CFG_STEP_NS < off.natAbs then
      { s2 with time := s2.time + off.natAbs } else s2
  if now ≠ was then s3.raise 0x0042 0 (0x140 + s.rd LNK_TIME_CFG_UPLINK) (if now then 1 else 0) else s3

/-- A TIME message reaches a link (R507): `t1` its transmit time, `r1` and `r2` the transmit and receive times of the last
TIME that the peer received, 0 and 0 where it has received none, which gives no offset (log entry 13). The follower computes its offset on its uplink;
the reference does not. -/
def execLinkTimeMsg (l t1 r1 r2 : Nat) (s : State) : Res :=
  let t2 := s.time
  let s1 := s.updLink l (fun x => { x with t1 := t1, t2 := t2 })
  .next (if s.rd LNK_STAT_STATE l ≠ lnkUp || s.linkMode l ≠ 1 then s
  else if r1 = 0 && r2 = 0 then s1
  else if s.rd LNK_TIME_CFG_MODE = 1 && !s.flag LNK_TIME_CFG_GM && s.rd LNK_TIME_CFG_UPLINK = l then
    s1.timeOffset ((((t2 : Int) - t1) - ((r2 : Int) - r1)) / 2)
  else s1)

/-- A PTP event frame is timestamped; the Reeve's state machines end an exchange with an offset (R508), which steers the
servo as a native offset does. A frame that ends no exchange has none. -/
def execPtpFrame (l port : Nat) (offset : Option Int) (s : State) : Res :=
  .next (if s.rd LNK_TIME_CFG_MODE = 2 && s.rd LNK_TIME_CFG_UPLINK = l && s.rd LNK_TIME_CFG_PORT = port && 2 ≤ s.linkMode l &&
      Nat.testBit (s.rd LNK_STAT_PORTS l) port then
    (match offset with
     | some o => s.timeOffset o
     | none => s)
  else s)

/-! ### Lanes, training and registers -/

/-- The width that good lanes allow: x4, x2 on lanes 0-1 or 2-3, x1 on any lane (R510). -/
def widthOf (lanes : Nat) : Option Nat :=
  if lanes % 16 = 15 then some 2
  else if lanes % 4 = 3 || lanes / 4 % 4 = 3 then some 1
  else if lanes % 16 = 0 then none else some 0

/-- The lanes in service at that width: at x2 the lower pair where both are good, at x1 the lowest good lane (log entry 142). -/
def lanesInUse (lanes : Nat) : Nat :=
  if lanes % 16 = 15 then 15
  else if lanes % 4 = 3 then 3
  else if lanes / 4 % 4 = 3 then 12
  else (((List.range 4).find? (fun i => Nat.testBit lanes i)).map (2 ^ ·)).getD 0

/-- The Ethernet ports that good lanes allow: one on four lanes, or port 0 on lanes 0-1 and port 1 on lanes 2-3 (R475, R511). -/
def portsOf (mode lanes : Nat) : Nat :=
  if mode = 2 then (if lanes % 16 = 15 then 1 else 0)
  else (if lanes % 4 = 3 then 1 else 0) + (if lanes / 4 % 4 = 3 then 2 else 0)

/-- A link leaves service (R512): its flits are lost, and the transport recovers them. A PERF that had not left is sent anew (R494). -/
def State.linkLost (s : State) (l st : Nat) : State :=
  let perfs := ((s.link l).txq.filter (fun e => e.2.typ = 0x21 && e.2.srcHub = s.hubNo)).map (fun e => e.2.dstHub)
  let s1 := perfs.foldl (fun t h => match t.recvCtx h with | some c => t.putRecv h { c with perfSent := 2 ^ 24 } | none => t) s
  let s2 := (s1.setLink l st).updLink l (fun x => { x with
    retry := [], txq := [], credits := [], seq := 0, exp := 0, locked := false, nak := false })
  if st = lnkDown && s.rd LNK_STAT_STATE l ≠ lnkDown then s2.inc LNK_ERR_DOWNS l 1 else s2

/-- A failing lane (R510, R511): a native link retrains without it, an Ethernet port on it goes down. -/
def execLinkLaneFail (l lane : Nat) (s : State) : Res :=
  let lanes := s.rd LNK_STAT_LANES l
  let left := if Nat.testBit lanes lane then lanes - 2 ^ lane else lanes
  let s1 := s.wr LNK_STAT_LANES l left
  .next (if s.rd LNK_STAT_STATE l ≠ lnkUp then s
  else if s.linkMode l = 1 then s1.retrainLink l
  else
    let ports := s.rd LNK_STAT_PORTS l &&& portsOf (s.linkMode l) left
    let s2 := s1.wr LNK_STAT_PORTS l ports
    if ports = 0 then s2.linkLost l lnkDown else s2)

/-- A training or retrain ends (R510-R512): UP at the width its good lanes allow, or DOWN below WIDTH_MIN. A link that comes UP replays its retry
buffer. -/
def State.trainEnd (s : State) (l : Nat) (ok : Bool) (lanes : Nat) (failed : Nat) : State :=
  let native := s.linkMode l = 1
  let wmin := min 2 (s.rd LNK_CFG_WIDTH_MIN l)
  let ports := if native then 0 else portsOf (s.linkMode l) lanes
  let good : Bool := ok && (if native then (match widthOf lanes with | some w => decide (wmin ≤ w) | none => false) else ports ≠ 0)
  if good then
    let s1 := ((s.wr LNK_STAT_LANES l (if native then lanesInUse lanes else lanes % 16)).wr LNK_STAT_WIDTH l
      (if native then (widthOf lanes).getD 0 else 0)).wr LNK_STAT_PORTS l ports
    let s2 := (s1.setLink l lnkUp).updLink l (fun x => { x with
      locked := true, replays := 0, retrains := 0,
      credits := if x.credits.isEmpty then fullCredits else x.credits,
      tx := x.tx ++ x.retry.map LinkTx.flit })
    s2.drainLink l
  else s.linkLost l failed

def execLinkTrainingEnd (l : Nat) (ok : Bool) (lanes : Nat) (s : State) : Res :=
  .next (if s.rd LNK_STAT_STATE l = lnkTraining then s.trainEnd l ok lanes lnkDown else s)

/-- 10 ms after a link went DOWN (R512): it retrains, up to RETRAIN_MAX times. -/
def execLinkRetrainTimer (l : Nat) (s : State) : Res :=
  .next (if s.rd LNK_STAT_STATE l = lnkDown && (s.link l).retrains < s.rd LNK_CFG_RETRAIN_MAX l then
    (s.updLink l (fun x => { x with retrains := x.retrains + 1 })).retrainLink l
  else s)

/-- LNK_CFG.RETRAIN retrains a DOWN link (R512). -/
def execLinkRetrain (l : Nat) (s : State) : Res :=
  .next (if s.rd LNK_STAT_STATE l = lnkDown then
    ((s.updLink l (fun x => { x with retrains := 0 })).wr LNK_CFG_RETRAIN l 0).retrainLink l
  else s)

/-- LNK_ERR.CLEAR clears every count. -/
def execLnkErrClear (l : Nat) (s : State) : Res := .next (s.resetReg LNK_ERR l)

/-- LNK_RT_ACC.WRITE writes an entry; later messages use it (R501). -/
def execRouteWrite (idx : Nat) (valid : Bool) (set : Nat) (s : State) : Res :=
  let s1 := ((s.wr LNK_RT_ACC_IDX 0 idx).wr LNK_RT_ACC_VALID 0 (if valid then 1 else 0)).wr LNK_RT_ACC_SET 0 set
  let routes := if valid then SMap.put s1.fab.routes idx set else SMap.del s1.fab.routes idx
  .next { s1 with fab := { s1.fab with routes := routes } }

/-- Whether a shadow is a lawful window (R502). -/
def State.winLawful (s : State) (w : Nat) : Bool :=
  let k := s.rd LNK_WIN_IN_LOG2SIZE w
  let lo := s.rd LNK_WIN_IN_IN_BASE w * 65536
  let tgt := s.rd LNK_WIN_TGT_TARGET w * 65536
  decide (16 ≤ k ∧ k ≤ 39) && decide (lo % 2 ^ k = 0) && decide (tgt % 2 ^ k = 0) &&
  (decide (tgt + 2 ^ k ≤ s.hbmBytes) ||
   (decide (0x10000000000 ≤ tgt) && decide (tgt + 2 ^ k ≤ 0x10000000000 + 48 * 0x800000)))

/-- Whether a shadow's incoming range overlaps another OPEN window's. -/
def State.winOverlaps (s : State) (w : Nat) : Bool :=
  let lo := s.rd LNK_WIN_IN_IN_BASE w * 65536
  let hi := lo + 2 ^ s.rd LNK_WIN_IN_LOG2SIZE w
  s.fab.wins.any (fun e =>
    let a := bitsOf e.2.inw 39 8 * 65536
    decide (e.1 ≠ w) && bitsOf e.2.inw 63 63 = 1 && decide (a < hi) && decide (lo < a + 2 ^ bitsOf e.2.inw 62 57))

/-- LNK_WIN_CTL.COMMIT (R504, R505). -/
def execWindowCommit (w : Nat) (s : State) : Res :=
  let valid := s.flag LNK_WIN_IN_VALID w
  .next (if s.flag LNK_WIN_CTL_OLD_BUSY w || (valid && (!s.winLawful w || s.winOverlaps w)) then
    s.wr LNK_WIN_CTL_REJECTED w 1
  else
    let g := s.rd LNK_WIN_CTL_GEN w
    let busy := s.fab.recv.any (fun e => e.2.pend.any (fun x => x.win = w && x.gen = g))
    let wins := if valid then SMap.put s.fab.wins w { inw := s.reg LNK_WIN_IN w, tgt := s.reg LNK_WIN_TGT w }
      else SMap.del s.fab.wins w
    let s1 : State := { s with fab := { s.fab with wins := wins } }
    ((s1.wr LNK_WIN_CTL_GEN w ((g + 1) % 65536)).wr LNK_WIN_CTL_OPEN w (if valid then 1 else 0)).wr
      LNK_WIN_CTL_OLD_BUSY w (if busy then 1 else 0))

end Sys2Proof.Machine
end

