-- ==== Sys2Proof/Machine/Events.lean ====
section
/-!
DEFINITION. Machine/Events.lean: event records, the event ring and the out-of-band event log (19_faults_resets.md R614-R617, R668,
20_management_power.md R640, R647).
-/

namespace Sys2Proof.Machine

/-- Change what the Reeve holds. -/
def State.updRve (s : State) (f : Rve → Rve) : State := { s with rve := f s.rve }

/-- Whether the Reeve does not act: it restarts on a new image, or is halted. -/
def State.reeveAway (s : State) : Bool := s.rve.away || s.rve.halted.contains 0x1C1

/-- Who may write the registers of the Reeve (R637, 20_management_power.md R664): the driver, the Steward firmware cores, and the Reeve,
as which the management bus acts (20_management_power.md R641). -/
def rveWriter (w : Writer) : Bool :=
  match w with
  | .driver => true
  | .agent a => (0x191 ≤ a && a ≤ 0x194) || a = 0x1C1
  | .oob => true

/-- The first 31 bytes of an event record (R615). -/
def Event.head (e : Event) : List Byte :=
  natLe 8 e.time ++ natLe 2 e.code ++ natLe 2 (e.agent % 1024) ++ natLe 1 (e.sev % 8) ++ natLe 1 (e.tenant % 64) ++ zeros 2 ++
  natLe 8 e.arg0 ++ natLe 7 e.arg1

/-- The record with its last byte. -/
def Event.record (e : Event) (last : Nat) : List Byte := e.head ++ natLe 1 last

/-- The Reeve has a packet to send on the management bus: on I3C it raises an in-band interrupt for it, where those are enabled and the hub has
its dynamic address (20_management_power.md R638). -/
def State.oobPut (s : State) (m : OobMsg) : State :=
  let irq : Bool := decide (s.rve.straps % 2 = 1) && s.rve.ibi && decide (s.rd RVE_OOB_DYN_ADDR ≠ 0)
  s.updRve (fun r => { r with oob := r.oob ++ [m], ibis := if irq then r.ibis + 1 else r.ibis })

/-- A record enters the out-of-band log, which holds the latest 65,536; one of SEV 3 or 4 is written to flash at once (R647). It is sent
to the PLDM event receiver when its SEV reaches RVE_OOB.EVT_SEV (R640). -/
def State.oobLog (s : State) (e : Event) : State :=
  let n := s.rve.logged
  let s1 := s.updRve (fun r => { r with
    log := (r.log ++ [({ ev := e, pass := n / 65536 % 256, saved := decide (3 ≤ e.sev) } : OobRec)]).drop (if 65536 ≤ r.log.length then 1 else 0)
    logged := n + 1 })
  match s1.rve.evtTo with
  | some dest =>
    if s1.rd RVE_OOB_EVT_SEV ≤ e.sev then
      s1.oobPut { dest := dest, code := 0, data := 0xF0 :: e.record (128 * s1.rd RVE_EVT_PTR_PHASE) }
    else s1
  | none => s1

/-- Whether the event ring takes a record now (R614, R616). -/
def State.evtRoom (s : State) : Bool :=
  let n := s.rd RVE_EVT_RING_LOG2N
  4 ≤ n && n ≤ 16 && (s.rd RVE_EVT_PTR_TAIL + 1) % 2 ^ n ≠ s.rd RVE_EVT_PTR_HEAD &&
  (if s.flag RVE_EVT_RING_LOC then s.memOpen (s.rd RVE_EVT_RING_BASE * 4096) else s.mastering && !s.hep.flr)

/-- Write one record into the ring, then raise its MSI-X (R614). -/
def State.evtPut (s : State) (e : Event) : State :=
  let n := s.rd RVE_EVT_RING_LOG2N
  let tail := s.rd RVE_EVT_PTR_TAIL
  let ph := s.rd RVE_EVT_PTR_PHASE
  let a := s.rd RVE_EVT_RING_BASE * 4096 + 32 * tail
  let next := (tail + 1) % 2 ^ n
  let r := e.record (128 * ph)
  let s1 := if s.flag RVE_EVT_RING_LOC then s.homeWrite 0x1C1 walkStream a r else s.hostSend (.write a r)
  ((s1.wr RVE_EVT_PTR_TAIL 0 next).wr RVE_EVT_PTR_PHASE 0 (if next = 0 then 1 - ph else ph)).msixAfter 0x1C1 walkStream (s.rd RVE_EVT_CFG_VECTOR)

/-- Write the waiting records while the ring has room, then one EVT_LOST record (R616). -/
def State.evtFlush : Nat → State → State
  | 0, s => s
  | k + 1, s =>
    if !s.evtRoom then s
    else match s.rve.held with
      | e :: r => State.evtFlush k ((s.updRve (fun x => { x with held := r })).evtPut e)
      | [] =>
        if s.rd RVE_EVT_STAT_LOST = 0 then s
        else
          let e : Event := { code := 0x0070, sev := 0, arg0 := s.rd RVE_EVT_STAT_LOST, time := s.time }
          ((s.wr RVE_EVT_STAT_LOST 0 0).oobLog e).evtPut e

/-- Write what waits. -/
def State.evtDrain (s : State) : State := s.evtFlush (s.rve.held.length + 1)

/-- The Reeve handles one event: it enters the out-of-band log, and the ring unless it is filtered, waits or is lost (R614, R616). -/
def State.evtHandle (s : State) (e : Event) : State :=
  let s1 := s.oobLog e
  if e.sev < s.rd RVE_EVT_CFG_SEV_MIN && e.code ≠ 0x0070 then s1.inc RVE_EVT_STAT_FILTERED 0 1
  else if s1.rve.held.isEmpty && s1.rd RVE_EVT_STAT_LOST = 0 && s1.evtRoom then s1.evtPut e
  else if s1.rve.held.length < 256 then (s1.updRve (fun r => { r with held := r.held ++ [e] })).evtDrain
  else s1.inc RVE_EVT_STAT_LOST 0 1

end Sys2Proof.Machine
end

