-- ==== Sys2Proof/Machine/LoomSpecial.lean ====
section
/-!
DEFINITION. Machine/LoomSpecial.lean: the special functions of the lanes (08_loom_isa.md R258-R260). The exact value is
computed to about 2^-400 in fixed point; which of the FP32 values within the bound of R258 a unit answers is a free value,
one for every function and input (log entry 21).
-/

namespace Sys2Proof.Machine

/-- Fixed point with 512 fraction bits: one, pi, ln 2 and 2 / sqrt pi. -/
def fixOne : Nat := 2 ^ 512
def fixPi : Nat := 0x3243F6A8885A308D313198A2E03707344A4093822299F31D0082EFA98EC4E6C89452821E638D01377BE5466CF34E90C6CC0AC29B7C97C50DD3F84D5B5B5470917
def fixLn2 : Nat := 0xB17217F7D1CF79ABC9E3B39803F2F6AF40F343267298B62D8A0D175B8BAAFA2BE7B876206DEBAC98559552FB4AFA1B10ED2EAE35C138214427573B291169B825
def fixErf : Nat := 0x120DD750429B6D11AE3A914FED7FD8688281341D7587CEA2E7342B06199CC416180EB39F0B24E1E2281806C12D98F35D77A3E9DDC91C394F0E9EEDF0EFFFD84A2

/-- Sum of a power series from term `k` on: each next term is the last times `x` / 2^512 / `d k`, with the sign `sg`. -/
def seriesGo (x : Nat) (sg : Int) (d : Nat → Nat) : Nat → Nat → Nat → Int → Int → Int
  | 0, _, _, _, acc => acc
  | n + 1, k, term, s, acc =>
    let nt := term * x / fixOne / d k
    seriesGo x sg d n (k + 1) nt (s * sg) (acc + s * (nt : Int))

/-- e^r for r in [0, ln 2). -/
def fixExp (r : Nat) : Nat := (seriesGo r 1 (fun k => k) 110 1 fixOne 1 fixOne).toNat

/-- e^x of a fixed-point number: a mantissa over 2^512 and a power of two. -/
def expParts (x : Int) : Nat × Int :=
  let k := x / (fixLn2 : Int)
  (fixExp (x - k * (fixLn2 : Int)).toNat, k)

/-- Sum of z^(2j+1) / (2j+1): the inverse hyperbolic tangent of z up to 1/3. -/
def atanhGo (z2 : Nat) : Nat → Nat → Nat → Nat → Nat
  | 0, _, _, acc => acc
  | n + 1, j, p, acc => atanhGo z2 n (j + 1) (p * z2 / fixOne) (acc + p / (2 * j + 1))

/-- ln of a positive value n * 2^e, in fixed point. -/
def fixLn (n : Nat) (e : Int) : Int :=
  let g := Nat.log2 n
  let m := n * 2 ^ (512 - g)
  let z := (m - fixOne) * fixOne / (m + fixOne)
  (e + (g : Int)) * (fixLn2 : Int) + 2 * (atanhGo (z * z / fixOne) 170 0 z 0 : Int)

/-- Sine of a fixed-point angle below 2 pi: alternating series from the first term on. -/
def fixSin (r : Nat) : Int :=
  seriesGo (r * r / fixOne) (-1) (fun k => 2 * k * (2 * k + 1)) 130 1 r (-1) r
/-- Cosine of a fixed-point angle below 2 pi. -/
def fixCos (r : Nat) : Int :=
  seriesGo (r * r / fixOne) (-1) (fun k => (2 * k - 1) * (2 * k)) 130 1 fixOne (-1) fixOne

/-- Sum of (-1)^j x^(2j+1) / (j! (2j+1)). -/
def erfGo (x2 : Nat) : Nat → Nat → Nat → Int → Int → Int
  | 0, _, _, _, acc => acc
  | n + 1, j, p, s, acc =>
    erfGo x2 n (j + 1) (p * x2 / fixOne / (j + 1)) (-s) (acc + s * ((p / (2 * j + 1) : Nat) : Int))

/-- A value beyond every FP32 magnitude, one below every one, and one just below 1. -/
def hugeVal : Val := .fin false 1 1 300
def tinyVal : Val := .fin false 1 1 (-300)
def nearOne (neg : Bool) : Val := .fin neg (fixOne - 1) 1 (-512)

/-- The value of a special function at the finite value (-1)^neg * n * 2^e with n > 0: exact where `exact` is answered,
and close to the true value otherwise. -/
def specialAt (op : Nat) (neg : Bool) (n : Nat) (e : Int) : Val × Bool :=
  let xf : Nat := ratNum n (e + 512)          -- |a| in fixed point; e is at least -149
  let xi : Int := signed neg xf
  let big : Bool := decide (256 * fixOne ≤ xf)
  let pow2 : Bool := decide (2 ^ Nat.log2 n = n)
  match op with
  | 0x30 => (.fin neg 1 n (-e), pow2)
  | 0x31 =>
    (if neg then .nan else (sqrtVal (.fin false 1 n (-e))).1, neg || (pow2 && decide ((e + (Nat.log2 n : Int)) % 2 = 0)))
  | 0x34 =>
    if big then (if neg then tinyVal else hugeVal, false)
    else let (m, k) := expParts xi; (.fin false m 1 (k - 512), false)
  | 0x35 =>
    if big then (if neg then tinyVal else hugeVal, false)
    else
      let k := xi / (fixOne : Int)
      let f := (xi - k * (fixOne : Int)).toNat
      if f = 0 then (.fin false 1 1 k, true) else (.fin false (fixExp (f * fixLn2 / fixOne)) 1 (k - 512), false)
  | 0x36 =>
    if neg then (.nan, true)
    else if xf = fixOne then (.fin false 0 1 0, true) else (valOfInt (fixLn n e) (-512) false, false)
  | 0x37 =>
    if neg then (.nan, true)
    else if pow2 then (valOfInt (e + (Nat.log2 n : Int)) 0 false, true)
    else (valOfInt (fixLn n e * (fixOne : Int) / (fixLn2 : Int)) (-512) false, false)
  | 0x38 =>
    if decide (64 * fixOne ≤ xf) then (nearOne neg, false)
    else
      let (m, k) := expParts (2 * (xf : Int))
      let ex := m * 2 ^ k.toNat
      (.fin neg (ex - fixOne) (ex + fixOne) 0, false)
  | 0x39 =>
    if big then (if neg then tinyVal else nearOne false, false)
    else
      let (m, k) := expParts (xf : Int)
      let ex := m * 2 ^ k.toNat
      (.fin false (if neg then fixOne else ex) (ex + fixOne) 0, false)
  | 0x3A => (valOfInt (signed neg 1 * fixSin (xf % (2 * fixPi))) (-512) neg, false)
  | 0x3B => (valOfInt (fixCos (xf % (2 * fixPi))) (-512) false, false)
  | 0x3C =>
    if decide (8 * fixOne ≤ xf) then (nearOne neg, false)
    else
      let v := erfGo (xf * xf / fixOne) 500 0 xf 1 0
      (valOfInt (signed neg 1 * (v * (fixErf : Int) / (fixOne : Int))) (-512) neg, false)
  | _ => (.nan, true)

/-- The bound of R258 in ulps, 2 for the functions with a wider bound. -/
def specialUlps (op : Nat) : Nat := if op = 0x30 || op = 0x31 || op = 0x35 || op = 0x37 then 1 else 2

/-- Positions on the line of FP32 magnitudes: pattern `f` stands at f * 2^64, and a value between two patterns stands
between them in proportion. -/
def posUnit : Nat := 2 ^ 64

/-- The position of a magnitude whose pattern toward zero is `f`. -/
def magPos (f num den : Nat) (e : Int) : Nat :=
  let ex := f / 2 ^ 23
  let m := if ex = 0 then f else f % 2 ^ 23 + 2 ^ 23
  let d : Int := e + 150 - (max ex 1 : Nat)
  f * posUnit + (posUnit * (ratNum num d - m * ratDen den d)) / ratDen den d

/-- The lowest position from which a result above pattern `j` is within `b` ulps: `b` ulps of the pattern after `j` below it. -/
def stepLow (b j : Nat) : Nat :=
  let m := (j + 1) % 2 ^ 23
  if b ≤ m || (j + 1) / 2 ^ 23 ≤ 1 then (j + 1 - b) * posUnit else (j + 1 - m - 2 * (b - m)) * posUnit

/-- The highest position to which pattern `j` is within `b` of its ulps. -/
def stepHigh (b j : Nat) : Nat :=
  let room := 2 ^ 23 - j % 2 ^ 23
  if b ≤ room || j / 2 ^ 23 = 0 then (j + b) * posUnit else (j + room) * posUnit + (b - room) * (posUnit / 2)

/-- The position from which function `op` answers more than pattern `j`: a free value within the bound of R258. One such
position for every pattern makes the function monotonic (R260); every monotonic function within the bound has them. -/
def stepAt (op : Nat) (neg : Bool) (j : Nat) : Nat :=
  let b := specialUlps op
  stepLow b j + Config.special op (j + (if neg then 2 ^ 31 else 0)) % (stepHigh b j - stepLow b j + 1)

/-- The pattern that a monotonic function answers for a magnitude at position `q` just above pattern `f`: the first whose
step lies above `q`. -/
def specialPick (op : Nat) (neg : Bool) (f q : Nat) : Nat :=
  (((List.range 7).map (fun k => f - 1 + k)).find? (fun j => decide (q < stepAt op neg j))).getD (f + 1)

/-- The result at the exact case of VEXP and VSIGM bounds the results beside it (R260): 1 and 0.5. -/
def specialClamp (op f g : Nat) : Nat :=
  let at0 (x : Nat) : Nat := if f < x then min g x else max g x
  if op = 0x34 then at0 0x3F800000 else if op = 0x39 then at0 0x3F000000 else g

/-- An FP32 pattern within the bound of a value that is not exactly representable, with its flags. VSIN and VCOS answer the
magnitude toward zero or a neighbour within the bound, by the free value of the function and input; the other functions the
pattern that their steps give (R260; log entry 21). -/
def specialRound (op inp : Nat) (v : Val) : Nat × Nat :=
  let (p, fl) := fp32.convert .rne false 0 v
  if fl &&& fOF ≠ 0 then (p, fl)
  else
    let (f, _) := fp32.convert .rtz false 0 v.abs
    let sign : Nat := if v.isNeg then 2 ^ 31 else 0
    if op = 0x3A || op = 0x3B then
      let c := Config.special op inp
      if c / 4 % 2 = 1 then
        -- within 2^-24 absolute
        let d : Val := valOfInt (((c / 8 % 2 ^ 33 : Nat) : Int) - 2 ^ 32) (-57) false
        ((fp32.convert .rne false 0 (addVal .rne v d).1).1, fl ||| fNX)
      else (sign + min ((f + c % 4) - 1) 0x7F7FFFFF, fl ||| fNX)
    else
      match v with
      | .fin neg num den e =>
        (sign + min (specialClamp op f (specialPick op neg f (magPos f num den e))) 0x7F7FFFFF, fl ||| fNX)
      | _ => (sign + f, fl ||| fNX)

/-- A special function but VSQRT and VDIV, of an FP32 value given with its pattern: the FP32 pattern and the flags (R258). -/
def specialFn (op inp : Nat) (a : Val) : Nat × Nat :=
  let nan : Nat := 0x7FC00000
  match a with
  | .nan => (nan, 0)
  | .inf neg =>
    match op with
    | 0x30 => (if neg then 0x80000000 else 0, 0)
    | 0x31 => if neg then (nan, fNV) else (0, 0)
    | 0x34 => (if neg then 0 else 0x7F800000, 0)
    | 0x35 => (if neg then 0 else 0x7F800000, 0)
    | 0x36 => if neg then (nan, fNV) else (0x7F800000, 0)
    | 0x37 => if neg then (nan, fNV) else (0x7F800000, 0)
    | 0x38 => (if neg then 0xBF800000 else 0x3F800000, 0)
    | 0x39 => (if neg then 0 else 0x3F800000, 0)
    | 0x3C => (if neg then 0xBF800000 else 0x3F800000, 0)
    | _ => (nan, fNV)
  | .fin neg n _ e =>
    if n = 0 then
      let z := if neg then 0x80000000 else 0
      match op with
      | 0x30 => (0x7F800000 + z, fDZ)
      | 0x31 => (0x7F800000 + z, fDZ)
      | 0x34 => (0x3F800000, 0)
      | 0x35 => (0x3F800000, 0)
      | 0x36 => (0xFF800000, fDZ)
      | 0x37 => (0xFF800000, fDZ)
      | 0x39 => (0x3F000000, 0)
      | 0x3B => (0x3F800000, 0)
      | _ => (z, 0)
    else
      match specialAt op neg n e with
      | (.nan, _) => (nan, fNV)
      | (v, true) => fp32.convert .rne false 0 v
      | (v, false) => specialRound op inp v

/-! ### GELU and SILU (10_data_movers.md R323, R324) -/

/-- The square root of 2 / pi, with 512 fraction bits. -/
def fixGelu : Nat := 0xCC42299EA1B284687E59E2805D5C717FA7053E60A24E0DB1808E369004C73A5D3BF158AA88FA7B6E47EBA75766E9D11BD6284EF2E17C2A264F1D32688BE119FF

/-- x times the logistic function of y, both in fixed point. -/
def fixGate (x : Int) (y : Int) : Val :=
  let a := y.natAbs
  if decide (256 * fixOne ≤ a) then (if y < 0 then .fin (decide (x < 0)) 1 1 (-300) else valOfInt x (-512) false)
  else
    let (m, k) := expParts (a : Int)
    let ex := m * 2 ^ k.toNat
    .fin (decide (x < 0)) (x.natAbs * (if y < 0 then fixOne else ex)) (ex + fixOne) (-512)

/-- GELU in its tanh form (op 0) or SILU (op 1) of an FP32 pattern: within 4 ulp by a free value (log entry 21); the result at
minus infinity is free. -/
def gateFn (op inp : Nat) : Nat × Nat :=
  match fp32.decode inp with
  | .nan => (0x7FC00000, 0)
  | .inf neg => (if neg then Config.special (0x100 + op) inp % 2 ^ 32 else 0x7F800000, 0)
  | .fin neg n _ e =>
    if n = 0 then (inp, 0)
    else
      let x : Int := signed neg (ratNum n (e + 512))
      let o : Int := fixOne
      let y : Int := if op = 1 then x
        else 2 * ((x + x * x / o * x / o * 44715 / 1000000) * (fixGelu : Int) / o)
      let v := fixGate x y
      let (f, _) := fp32.convert .rtz false 0 v.abs
      ((if neg then 2 ^ 31 else 0) + min (f + Config.special (0x100 + op) inp % 8 - 3) 0x7F7FFFFF, fNX)

end Sys2Proof.Machine
end

