-- ==== Sys2Proof/Machine/LoomCore.lean ====
section
/-!
DEFINITION. Machine/LoomCore.lean: the control core of a Loom tile (07_loom_model.md R197-R202, R210-R214, R230-R237):
its registers and memory, traps, global accesses, launch and end of kernels. Tiles are named by physical number.
-/

namespace Sys2Proof.Machine

/-! ### Tiles and their registers -/

/-- A physical tile. -/
def State.tile (s : State) (t : Nat) : Tile := SMap.getD s.tiles t {}

/-- Change a tile. -/
def State.updTile (s : State) (t : Nat) (f : Tile → Tile) : State := { s with tiles := SMap.upd {} s.tiles t f }

/-- The agent of a physical tile. -/
def tileAgent (t : Nat) : Nat := 0x200 + t

/-- The logical number of a tile, its physical number in floor-plan mode (R270). -/
def State.tileNo (s : State) (t : Nat) : Nat :=
  if s.roll.floorplan then t else (s.logicalOf (tileAgent t)).getD t

/-- The global address of a tile's scratchpad (R198, R233). -/
def State.padBase (s : State) (t : Nat) : Nat := s.hubNo * 2 ^ 48 + 0x20000000000 + s.tileNo t * 0x1000000

/-- Bytes of a scratchpad. -/
def padBytes : Nat := 0x200000

/-- The scratchpad offset of `n` bytes at an address, none for a global access (R198). -/
def State.padOff (s : State) (t addr n : Nat) : Option Nat :=
  if s.padBase t ≤ addr && addr + n ≤ s.padBase t + padBytes then some (addr - s.padBase t) else none

/-- An integer register; x0 reads 0. -/
def Tile.xr (x : Tile) (r : Nat) : Nat := if r % 32 = 0 then 0 else SMap.getD x.x (r % 32) 0

/-- Write an integer register; writes to x0 are discarded. -/
def Tile.setX (x : Tile) (r v : Nat) : Tile :=
  if r % 32 = 0 then x else { x with x := SMap.set 0 x.x (r % 32) (v % 2 ^ 64) }

/-- Write a register and pass an instruction of `len` bytes. -/
def State.retire (s : State) (t rd v len : Nat) : State :=
  s.updTile t (fun x => { x.setX rd v with pc := (x.pc + len) % 2 ^ 64 })

/-- Pass an instruction of `len` bytes. -/
def State.advance (s : State) (t len : Nat) : State := s.updTile t (fun x => { x with pc := (x.pc + len) % 2 ^ 64 })

/-- Sign-extend the low `k` bits to 64. -/
def sx (k n : Nat) : Nat := if 2 ^ (k - 1) ≤ n % 2 ^ k then n % 2 ^ k + 2 ^ 64 - 2 ^ k else n % 2 ^ k

/-! ### The end of a kernel and traps -/

/-- The scratchpad offset that a trap reports (R212). -/
def State.offOf (s : State) (t addr : Nat) : Nat := (addr + 2 ^ 64 - s.padBase t % 2 ^ 64) % 2 ^ 32

/-- A kernel has ended (R234, R214, R200): the registers that tell of it, and its completion EVENT. `keep` holds a fate that
R214 and R200 do not replace: the kernel was stopped from outside. What is left in the vector queue is discarded (log entry 22). -/
def State.endKernel (s : State) (t fate status result lastEnd mcause off : Nat) (started keep : Bool) : State :=
  let x := s.tile t
  match x.run with
  | none => s
  | some r =>
    let po := x.poisonSeen && !keep
    let ge := x.errValid && !keep && !po
    let fate2 := if po || ge then fateFailed else fate
    let st2 := if po then stMemPoison else if ge then x.errStatus else status
    let s1 := s.updTile t (fun y => { y with run := none, wait := none, vtrap := none, vq := [], resv := none })
    let s2 := (((((((s1.wr LOOM_LAST_ITEM t r.item).wr LOOM_LAST_MCAUSE t mcause).wr LOOM_LAST_VALID t 1).wr
      LOOM_LAST_POISON t (if po then 1 else 0)).wr LOOM_LAST_LGERR t (if ge then 1 else 0)).wr LOOM_LAST_OFFSET t off).wr
      LOOM_RESULT_RESULT t result).wr LOOM_STAT_LAST_END t lastEnd
    (s2.inc LOOM_CNT_KERNELS t 1).send (completionPkt (tileAgent t) r.item fate2 st2 started result)

/-! ### Fences and the end of a kernel -/

/-- Start a fence of the core, and let it end at once where nothing is outstanding. -/
def State.coreFence (s : State) (t : Nat) (remote : Bool) : State :=
  (s.startFence (tileAgent t) 0 remote).settleFence (tileAgent t)

/-- Wait for the core's fence where it is still pending. -/
def State.awaitFence (s : State) (t : Nat) : State :=
  if s.fencing (tileAgent t) 0 then s.updTile t (fun x => { x with wait := some .fence }) else s

/-- End a kernel whose core has nothing outstanding and no fence pending; otherwise it goes on ending (R234, R236). -/
def State.tryEnd (s : State) (t : Nat) : State :=
  match (s.tile t).wait with
  | some (.ending fate status result lastEnd mcause off) =>
    let i := s.iface (tileAgent t)
    if i.fences.isEmpty && i.outstanding.isEmpty && i.waiting.isEmpty then
      s.endKernel t fate status result lastEnd mcause off true (status = stDomainDown || status = stCancelled)
    else s
  | _ => s

/-- The kernel of a tile ends, once every write that it made is performed: the core halts, its queue is discarded, and it fences (R236,
03_memory_model.md R93). A kernel that is ending already ends as it began to. -/
def State.finishKernel (s : State) (t fate status result lastEnd mcause off : Nat) : State :=
  match (s.tile t).run, (s.tile t).wait with
  | none, _ => s
  | _, some (.ending _ _ _ _ _ _) => s
  | _, _ =>
    ((s.updTile t (fun x => { x with wait := some (.ending fate status result lastEnd mcause off), vtrap := none, vq := [] })).coreFence
      t true).tryEnd t

/-- Stop a kernel (R236): the core halts, queued vector instructions are discarded, and the kernel ends once its outstanding requests are
answered. -/
def State.stopKernel (s : State) (t status lastEnd : Nat) : State :=
  s.finishKernel t fateFailed status 0 lastEnd 0 (s.offOf t (s.tile t).pc % 2 ^ 21)

/-! ### Traps -/

/-- Take a trap (R211, R212): into the handler, or the end of the kernel with LOOM_FAULT while mtvec is 0 or an earlier trap
is open. `lane` says that lvepc names the trapping instruction. -/
def State.trap (s : State) (t cause epc tval : Nat) (lane : Bool := false) : State :=
  let s1 := s.inc LOOM_CNT_TRAPS t 1
  let x := s1.tile t
  let off := if lane then x.lvepc else s.offOf t epc
  if x.mtvec = 0 || x.inTrap then
    s1.finishKernel t fateFailed stLoomFault (cause % 256 * 2 ^ 56 + off) 2 cause (off % 2 ^ 21)
  else
    s1.updTile t (fun y => { y with
      mepc := epc, mcause := cause, mtval := tval, inTrap := true, vtrap := none
      pc := y.mtvec / 4 * 4
      mstatus := (if y.mstatus / 8 % 2 = 1 then 0x80 else 0) })

/-- Whether the core takes its next instruction: a kernel runs, waits for nothing, and is not halted (17_security.md R553). -/
def Tile.ready (x : Tile) : Bool := x.run.isSome && x.wait.isNone && !x.halted

/-- One instruction of the core, `len` bytes long, at its boundary: a pending vector trap is taken first (R211); then the fetch is checked
(R199). -/
def State.core (s : State) (t len : Nat) (f : State → State) : State :=
  let x := s.tile t
  if !x.ready then s
  else match x.vtrap with
    | some c => s.trap t c x.pc 0 true
    | none => if (s.padOff t x.pc len).isNone then s.trap t 1 x.pc x.pc else f s

/-! ### Launch (R230-R233) -/

/-- Decode a launch record. -/
def launchOf (d : List Byte) : Launch :=
  let b (lo n : Nat) : Nat := leNat ((d.drop lo).take n)
  { item := b 0 4, tenant := b 4 1 % 64, cls := b 5 1 % 8, rm := b 5 1 / 16 % 8, sat := b 5 1 / 128 = 1, deadline := b 6 2,
    entry := b 8 4, args := b 12 4, arg1 := b 16 8, seed := b 24 8, budget := b 32 4, claim := b 36 1 % 2 = 1,
    park := b 36 1 / 2 % 2 = 1, persist := b 36 1 / 4 % 2 = 1, restart := b 36 1 / 8 % 2 = 1 }

/-- Whether a record is well formed, LAUNCH_INVALID otherwise (R232). -/
def launchOk (d : List Byte) : Bool :=
  let b (lo n : Nat) : Nat := leNat ((d.drop lo).take n)
  let r := launchOf d
  decide (b 4 1 < 64 ∧ b 5 1 / 8 % 2 = 0 ∧ r.rm ≤ 4 ∧ b 36 1 < 16 ∧ b 37 27 = 0 ∧ r.entry % 2 = 0 ∧ r.entry < padBytes ∧
    r.args < padBytes) && !(r.claim && r.park) && !(r.claim && r.persist) && !(r.park && r.persist)

/-- Answer a DISPATCH at a tile: accepted, or refused with its code (R230-R233, R237). -/
def State.tileDispatch (s0 : State) (d : Nat) (p : Pkt) : State :=
  let t := d - 0x200
  let s := s0.wakeTile t
  let x := s.tile t
  let r := launchOf p.data
  let busy := x.run.isSome || !x.launches.isEmpty || x.claim.isSome || x.park.isSome
  let full := decide (2 ≤ x.launches.length + (if x.run.isSome then 1 else 0)) || x.claim.isSome || x.park.isSome
  if !launchOk p.data then s.answer d p 0x93
  else if r.claim then
    (if busy then s.answer d p 0x92 else (s.updTile t (fun y => { y with claim := some r })).answer d p stOk)
  else if r.tenant ≠ s.rd LOOM_STAT_OWNER t then s.answer d p 0x90
  else if r.park then
    (if busy then s.answer d p 0x92 else (s.updTile t (fun y => { y with park := some r })).answer d p stOk)
  else if full then s.answer d p 0x92
  else (s.updTile t (fun y => { y with launches := y.launches ++ [r] })).answer d p stOk

/-- The state in which a kernel begins (R233, 08_loom_isa.md R269); vector registers, masks, accumulators and pattern slots
keep their contents. -/
def State.startKernel (s : State) (t : Nat) (r : Launch) : State :=
  let base := s.padBase t
  let s1 := s.updTile t (fun y => { y with
    pc := base + r.entry
    x := (((({} : Tile).setX 10 (base + r.args)).setX 11 r.arg1).setX 12 base |>.setX 13 r.item).x
    mtvec := 0, resv := none, lrm := r.rm, lseed := r.seed, lsridx := 0, lflags := 0, ltrapen := 0
    errValid := false, errCount := 0, errStatus := 0, vl := 0, lvepc := 0, trapRun := false, trapDetail := 0
    trapIter := 0, trapUop := 0, lvdisc := 0, runOff := [], fmtGen := s.rd MOV_FMT_CTL_GEN, fmts := s.fmtTable
    inTrap := false, poisonSeen := false, vtrap := none, vq := [], wait := none, run := some r, launches := y.launches.erase r })
  s1.wr LOOM_STAT_ITEM t r.item

/-- Write zero to a tile's scratchpad, vector, mask and accumulator registers and pattern slots, and clear its poison marks
(R231). -/
def State.wipeTile (s : State) (t : Nat) : State :=
  (s.zeroRange (scratchCell t) (scratchCell t + padBytes)).updTile t (fun y => { y with
    v := [], vp := [], vm := [], acc := [], progs := [] })

/-- The volatile settings of a tile at their defaults, as park leaves them (R237, 00_scope.md R10). -/
def Tile.volatileReset (y : Tile) : Tile :=
  { ({} : Tile) with v := y.v, vp := y.vp, vm := y.vm, acc := y.acc, progs := y.progs, nextPosted := y.nextPosted }

/-! ### Global accesses (R200, 03_memory_model.md R81) -/

/-- Record an error status in lgerr. -/
def Tile.recordErr (x : Tile) (status : Nat) : Tile :=
  if x.errValid then { x with errCount := satAdd x.errCount 1 0xFFFF }
  else { x with errValid := true, errCount := 1, errStatus := status }

/-- The request of a control core for its running kernel. -/
def State.corePkt (s : State) (t : Nat) (p : Pkt) : Pkt :=
  let r := ((s.tile t).run).getD {}
  { p with src := tileAgent t, tenant := r.tenant, cls := r.cls, deadline := r.deadline, vol := true,
           txn := s.freeTxn (tileAgent t) }

/-- Issue a non-posted request and wait for its answer. -/
def State.coreIssue (s : State) (t : Nat) (p : Pkt) (w : Nat → CoreWait) : State :=
  let q := s.corePkt t p
  (s.updTile t (fun x => { x with wait := some (w q.txn) })).issue q

/-- Whether a global address is another hub's. -/
def State.remoteAddr (s : State) (addr : Nat) : Bool := addr / 2 ^ 48 % 2 ^ 16 ≠ s.hubNo

/-- Whether a global address lies in the CSR space, which takes CSR_RD and CSR_WR (01_architecture.md R22, 02_commons.md R47). -/
def State.csrAddr (s : State) (addr : Nat) : Bool := match s.spaceOf addr with | .csr _ => true | _ => false

/-- A scalar load of `size` bytes at `addr` (R198, R200, R210, R214). -/
def State.coreLoad (s : State) (t rd addr size len : Nat) (uns : Bool) : State :=
  let pc := (s.tile t).pc
  match s.padOff t addr size with
  | some o =>
    let c := scratchCell t + o
    if s.poisoned c size then (s.updTile t (fun x => { x with trapDetail := 0x30 })).trap t 27 pc addr
    else
      let v := leNat (s.bytes c size)
      s.retire t rd (if uns then v else sx (8 * size) v) len
  | none =>
    if size < 4 then s.trap t 5 pc addr
    else if addr % size ≠ 0 then s.trap t 4 pc addr
    else s.coreIssue t { opc := if s.csrAddr addr then 0x09 else 0x00, addr := addr, len := size } (fun x => .glob x addr rd size len uns false false)

/-- A scalar store (R198, R200, 03_memory_model.md R81): to the own scratchpad, non-posted to this hub, posted to another. -/
def State.coreStore (s : State) (t val addr size len : Nat) : State :=
  let pc := (s.tile t).pc
  let d := natLe size val
  match s.padOff t addr size with
  | some o => (s.writePart (scratchCell t + o) (2 ^ size - 1) d false).advance t len
  | none =>
    if size < 4 then s.trap t 7 pc addr
    else if addr % size ≠ 0 then s.trap t 6 pc addr
    else if s.remoteAddr addr then
      let q := { s.corePkt t { opc := 0x03, addr := addr, mask := 2 ^ size - 1, data := d } with
        txn := (s.tile t).nextPosted }
      ((s.updTile t (fun x => { x with nextPosted := (x.nextPosted + 1) % 4096 })).issue q).advance t len
    else s.coreIssue t { opc := if s.csrAddr addr then 0x0A else 0x06, addr := addr, mask := 2 ^ size - 1, data := d }
      (fun x => .glob x addr 0 size len false true false)

/-- An AMO by its ATOM operation (R200, 03_memory_model.md R89, R90): in the own scratchpad at once, elsewhere as ATOM. -/
def State.coreAmo (s : State) (t aop rd addr val size len : Nat) (aq rl : Bool) : State :=
  let pc := (s.tile t).pc
  if addr % size ≠ 0 then s.trap t 6 pc addr
  else match s.padOff t addr size with
    | some o =>
      let c := scratchCell t + o
      if s.poisoned c size then (s.updTile t (fun x => { x with trapDetail := 0x30 })).trap t 27 pc addr
      else
        let old := leNat (s.bytes c size)
        let new := (atomNew aop (8 * size) old (val % 2 ^ (8 * size)) 0).getD old
        (s.setBytes c (natLe size new)).retire t rd (sx (8 * size) old) len
    | none =>
      let s1 := if rl then s.coreFence t false else s
      s1.coreIssue t { opc := 0x08, addr := addr, len := size, mask := aop + 256 * size,
                       data := natLe 8 (val % 2 ^ (8 * size)) ++ zeros 8 }
        (fun x => .glob x addr rd size len false true (aq && rl))

/-- LR (03_memory_model.md R91): a reservation in the own scratchpad, a volatile load elsewhere. -/
def State.coreLr (s : State) (t rd addr size len : Nat) : State :=
  if addr % size ≠ 0 then s.trap t 4 (s.tile t).pc addr
  else match s.padOff t addr size with
    | some o => (s.coreLoad t rd addr size len false).updTile t (fun x => { x with resv := some o })
    | none => s.coreLoad t rd addr size len false

/-- SC (03_memory_model.md R91): under the reservation in the own scratchpad; elsewhere nothing is written and 1 returned. -/
def State.coreSc (s : State) (t rd addr val size len : Nat) : State :=
  if addr % size ≠ 0 then s.trap t 6 (s.tile t).pc addr
  else match s.padOff t addr size with
    | some o =>
      let ok : Bool := decide ((s.tile t).resv = some o)
      let s1 := s.updTile t (fun x => { x with resv := none })
      if ok then (s1.writePart (scratchCell t + o) (2 ^ size - 1) (natLe size val) false).retire t rd 0 len
      else s1.retire t rd 1 len
    | none => s.retire t rd 1 len

/-! ### Answers -/

/-- The answer `p` of a global request `r` reaches its core (R200, R262, 11_steward_commands.md R378). An error is recorded also while the kernel
ends. -/
def State.coreAnswer (s : State) (t : Nat) (r p : Pkt) : State :=
  let pc := (s.tile t).pc
  match (s.tile t).wait with
  | some (.glob txn addr rd size len uns store fence) =>
    if txn ≠ p.txn then s
    else
      let s1 := s.updTile t (fun x => { x with wait := none })
      if p.status = stOk then
        let v := leNat (p.data.take size)
        let s2 := s1.retire t rd (if uns then v else sx (8 * size) v) len
        if fence then (s2.coreFence t false).awaitFence t else s2
      else (s1.updTile t (fun x => x.recordErr p.status)).trap t (if store then 7 else 5) pc addr
  | some (.reg txn rd len limit) =>
    if txn ≠ p.txn then s
    else if p.status ≠ stOk then
      ((s.updTile t (fun x => { x.recordErr p.status with wait := none }))).trap t 5 pc 0
    else if leNat (p.data.take 1) = 1 then
      (((s.updTile t (fun x => { x with wait := none })).retire t rd 0 len).coreFence t false).awaitFence t
    else if (s.tile t).vtrap.isSome then (s.updTile t (fun x => { x with wait := none })).retire t rd 2 len
    else s.updTile t (fun x => { x with wait := some (.event rd len limit) })
  | _ => (if p.status = stOk || isProbe r then s else s.updTile t (fun x => x.recordErr p.status)).tryEnd t

/-- A fence of the core has ended. -/
def State.coreFenced (s : State) (t : Nat) : State :=
  match (s.tile t).wait with
  | some .fence => if s.fencing (tileAgent t) 0 then s else s.updTile t (fun x => { x with wait := none })
  | _ => s.tryEnd t

/-- A write failure of a posted remote store: recorded, with no trap (R200). -/
def State.coreWfail (s : State) (t status : Nat) : State := s.updTile t (fun x => x.recordErr status)

end Sys2Proof.Machine
end

