-- ==== Sys2Proof/Machine/LoomScalar.lean ====
section
/-!
DEFINITION. Machine/LoomScalar.lean: the RV64IMAC and Zicsr instructions of the control core (07_loom_model.md R197,
08_loom_isa.md R240, R269, R270). The base instruction set is the RISC-V one that R197 names (log entry 20).
-/

namespace Sys2Proof.Machine

/-! ### Arithmetic -/

/-- The signed reading of a `w`-bit number is `sgn` of Machine/Atomics.lean; a number modulo 2^64 from an integer. -/
def ofInt64 (i : Int) : Nat := (i % 2 ^ 64).toNat

/-- Signed division of RISC-V, rounding toward zero; by zero it gives -1. -/
def divS (w a b : Nat) : Int := if b % 2 ^ w = 0 then -1 else (sgn w a).tdiv (sgn w b)
/-- Signed remainder; by zero it gives the dividend. -/
def remS (w a b : Nat) : Int := if b % 2 ^ w = 0 then sgn w a else (sgn w a).tmod (sgn w b)
/-- Unsigned division and remainder. -/
def divU (w a b : Nat) : Nat := if b % 2 ^ w = 0 then 2 ^ w - 1 else a % 2 ^ w / (b % 2 ^ w)
def remU (w a b : Nat) : Nat := if b % 2 ^ w = 0 then a % 2 ^ w else a % 2 ^ w % (b % 2 ^ w)

/-- The register operations by funct7 class (0 base, 0x20 alternate, 1 multiply) and funct3, on `w`-bit operands; none for
an undefined combination. The 32-bit forms exist for the operations that RV64 has. -/
def aluOp (w f7 f3 a b : Nat) : Option Nat :=
  let sh := b % w
  let m := 2 ^ w
  let fin (n : Nat) : Option Nat := some (if w = 64 then n % m else sx w n)
  match f7, f3 with
  | 0x00, 0 => fin (a + b)
  | 0x20, 0 => fin (a + m - b % m)
  | 0x00, 1 => fin (a * 2 ^ sh)
  | 0x00, 2 => if w = 64 then some (if sgn 64 a < sgn 64 b then 1 else 0) else none
  | 0x00, 3 => if w = 64 then some (if a < b then 1 else 0) else none
  | 0x00, 4 => if w = 64 then some (a ^^^ b) else none
  | 0x00, 5 => fin (a % m / 2 ^ sh)
  | 0x20, 5 => fin (ofInt64 (sgn w a / 2 ^ sh))
  | 0x00, 6 => if w = 64 then some (a ||| b) else none
  | 0x00, 7 => if w = 64 then some (a &&& b) else none
  | 0x01, 0 => fin (a * b)
  | 0x01, 1 => if w = 64 then some (ofInt64 (sgn 64 a * sgn 64 b / 2 ^ 64)) else none
  | 0x01, 2 => if w = 64 then some (ofInt64 (sgn 64 a * (b : Int) / 2 ^ 64)) else none
  | 0x01, 3 => if w = 64 then some (a * b / 2 ^ 64) else none
  | 0x01, 4 => fin (ofInt64 (divS w a b))
  | 0x01, 5 => fin (divU w a b)
  | 0x01, 6 => fin (ofInt64 (remS w a b))
  | 0x01, 7 => fin (remU w a b)
  | _, _ => none

/-- The condition of a branch by funct3. -/
def branchIf (f3 a b : Nat) : Option Bool :=
  match f3 with
  | 0 => some (a = b)
  | 1 => some (a ≠ b)
  | 4 => some (sgn 64 a < sgn 64 b)
  | 5 => some (sgn 64 b ≤ sgn 64 a)
  | 6 => some (a < b)
  | 7 => some (b ≤ a)
  | _ => none

/-! ### CSRs -/

/-- The word of lvrun. -/
def Tile.lvrun (x : Tile) : Nat :=
  (if x.trapRun then 1 else 0) + x.trapDetail % 256 * 2 ^ 16 + x.trapIter % 2 ^ 25 * 2 ^ 26 + x.trapUop % 64 * 2 ^ 51

/-- Whether R270 covers a CSR number: a standard machine CSR. -/
def isMachineCsr (c : Nat) : Bool := (0x300 ≤ c && c < 0x400) || (0xB00 ≤ c && c < 0xC00) || (0xF00 ≤ c && c < 0xF20)

/-- Read a CSR; none for one that the core does not have. -/
def State.csrRead (s : State) (t c : Nat) : Option Nat :=
  let x := s.tile t
  match c with
  | 0x300 => some (x.mstatus % 2 ^ 64 / 0x2000 * 0x2000 + 0x1800 + x.mstatus % 0x800)
  | 0x305 => some x.mtvec
  | 0x340 => some x.mscratch
  | 0x341 => some x.mepc
  | 0x342 => some x.mcause
  | 0x343 => some x.mtval
  | 0x344 => some x.mip
  | 0xC01 => some (s.time % 2 ^ 64)
  | 0xF14 => some (s.tileNo t)
  | 0x7C0 => some x.lrm
  | 0x7C1 => some x.lseed
  | 0x7C2 => some x.lsridx
  | 0x7C3 => some x.lflags
  | 0x7C4 => some x.ltrapen
  | 0x7C5 => some ((if x.errValid then 2 ^ 63 else 0) + x.errCount * 2 ^ 32 + x.errStatus)
  | 0xFC0 => some x.vl
  | 0xFC1 => some x.lvepc
  | 0xFC2 => some x.lvrun
  | 0xFC3 => some x.lvdisc
  | 0xFC4 => some (s.rd LOOM_STAT_OWNER t * 2 ^ 48 + x.vq.length * 2 ^ 32 + (if x.poisonSeen then 256 else 0) + (if x.inTrap then 1 else 0))
  | 0xFC5 => some x.fmtGen
  | 0xFC6 => some (x.runOff.getD 0 0)
  | 0xFC7 => some (x.runOff.getD 1 0)
  | 0xFC8 => some (x.runOff.getD 2 0)
  | 0xFC9 => some (x.runOff.getD 3 0)
  | c => if isMachineCsr c then some 0 else none

/-- Write a CSR; none where the write is illegal: a read-only CSR (R269). The other machine CSRs ignore writes (R270). -/
def State.csrWrite (s : State) (t c v : Nat) : Option State :=
  let up (f : Tile → Tile) : Option State := some (s.updTile t f)
  match c with
  | 0x300 => up (fun x => { x with mstatus := v })
  | 0x305 => up (fun x => { x with mtvec := v })
  | 0x340 => up (fun x => { x with mscratch := v })
  | 0x341 => up (fun x => { x with mepc := v / 2 * 2 })
  | 0x342 => up (fun x => { x with mcause := v })
  | 0x343 => up (fun x => { x with mtval := v })
  | 0x344 => up (fun x => { x with mip := v })
  | 0x7C0 => up (fun x => if v % 8 ≤ 4 then { x with lrm := v % 8 } else x)
  | 0x7C1 => up (fun x => { x with lseed := v })
  | 0x7C2 => up (fun x => { x with lsridx := v })
  | 0x7C3 => up (fun x => { x with lflags := v % 64 })
  | 0x7C4 => up (fun x => { x with ltrapen := v % 64 })
  | 0x7C5 => up (fun x => if 2 ^ 63 ≤ v % 2 ^ 64 then { x with errValid := false, errCount := 0, errStatus := 0 } else x)
  | 0xC01 => none
  | 0xF14 => none
  | c => if isMachineCsr c then some s else none

/-! ### Instructions of 32 bits -/

/-- Fields of a 32-bit word. -/
def wBits (w hi lo : Nat) : Nat := w / 2 ^ lo % 2 ^ (hi - lo + 1)
def immI (w : Nat) : Nat := sx 12 (wBits w 31 20)
def immS (w : Nat) : Nat := sx 12 (wBits w 31 25 * 32 + wBits w 11 7)
def immB (w : Nat) : Nat :=
  sx 13 (wBits w 31 31 * 4096 + wBits w 7 7 * 2048 + wBits w 30 25 * 32 + wBits w 11 8 * 2)
def immU (w : Nat) : Nat := sx 32 (wBits w 31 12 * 4096)
def immJ (w : Nat) : Nat :=
  sx 21 (wBits w 31 31 * 2 ^ 20 + wBits w 19 12 * 4096 + wBits w 20 20 * 2048 + wBits w 30 21 * 2)

/-- Sum modulo 2^64. -/
def add64 (a b : Nat) : Nat := (a + b) % 2 ^ 64

/-- Go to an address and write the link. -/
def State.jump (s : State) (t rd link target : Nat) : State :=
  s.updTile t (fun x => { x.setX rd link with pc := target / 2 * 2 % 2 ^ 64 })

/-- The ATOM operation of an AMO's funct5 (04_coherence.md R124). -/
def amoOf (f5 : Nat) : Option Nat :=
  match f5 with
  | 0x01 => some 0
  | 0x00 => some 1
  | 0x0C => some 2
  | 0x08 => some 3
  | 0x04 => some 4
  | 0x10 => some 5
  | 0x14 => some 6
  | 0x18 => some 7
  | 0x1C => some 8
  | _ => none

/-- A Zicsr instruction. -/
def State.csrOp (s : State) (t w len : Nat) : State :=
  let x := s.tile t
  let c := wBits w 31 20
  let f3 := wBits w 14 12
  let r1 := wBits w 19 15
  let src := if 4 ≤ f3 then r1 else x.xr r1
  let op := f3 % 4
  match s.csrRead t c with
  | none => s.trap t 2 x.pc w
  | some old =>
    let new := match op with
      | 1 => src
      | 2 => old ||| src
      | _ => old &&& (2 ^ 64 - 1 - src)
    -- a set or clear of VALID in lgerr with no bits named writes nothing
    if op ≠ 1 && r1 = 0 then s.retire t (wBits w 11 7) old len
    else match s.csrWrite t c new with
      | none => s.trap t 2 x.pc w
      | some s1 => s1.retire t (wBits w 11 7) old len

/-- Return from a trap handler (R212). -/
def State.mret (s : State) (t : Nat) : State :=
  s.updTile t (fun x => { x with
    pc := x.mepc, inTrap := false
    mstatus := x.mstatus / 256 * 256 + 0x80 + (if x.mstatus / 128 % 2 = 1 then 8 else 0) })

/-- One instruction of RV64IMA and Zicsr, given as its 32-bit form; `len` is 2 where a compressed form stands for it. -/
def State.rv (s : State) (t w len : Nat) : State :=
  let x := s.tile t
  let rd := wBits w 11 7
  let f3 := wBits w 14 12
  let f7 := wBits w 31 25
  let a := x.xr (wBits w 19 15)
  let b := x.xr (wBits w 24 20)
  let ill := s.trap t 2 x.pc w
  match w % 128 with
  | 0x37 => s.retire t rd (immU w) len
  | 0x17 => s.retire t rd (add64 x.pc (immU w)) len
  | 0x6F => s.jump t rd (add64 x.pc len) (add64 x.pc (immJ w))
  | 0x67 => if f3 = 0 then s.jump t rd (add64 x.pc len) (add64 a (immI w)) else ill
  | 0x63 =>
    match branchIf f3 a b with
    | some true => s.jump t 0 0 (add64 x.pc (immB w))
    | some false => s.advance t len
    | none => ill
  | 0x03 => if f3 = 7 then ill else s.coreLoad t rd (add64 a (immI w)) (2 ^ (f3 % 4)) len (4 ≤ f3)
  | 0x23 => if 4 ≤ f3 then ill else s.coreStore t b (add64 a (immS w)) (2 ^ f3) len
  | 0x13 =>
    let r := match f3 with
      | 1 => if wBits w 31 26 = 0 then aluOp 64 0 1 a (wBits w 25 20) else none
      | 5 => if wBits w 31 26 = 0 then aluOp 64 0 5 a (wBits w 25 20)
             else if wBits w 31 26 = 0x10 then aluOp 64 0x20 5 a (wBits w 25 20) else none
      | _ => aluOp 64 0 f3 a (immI w)
    match r with
    | some v => s.retire t rd v len
    | none => ill
  | 0x1B =>
    let r := match f3 with
      | 0 => aluOp 32 0 0 a (immI w)
      | 1 => if f7 = 0 then aluOp 32 0 1 a (wBits w 24 20) else none
      | 5 => if f7 = 0 || f7 = 0x20 then aluOp 32 f7 5 a (wBits w 24 20) else none
      | _ => none
    match r with
    | some v => s.retire t rd v len
    | none => ill
  | 0x33 =>
    match aluOp 64 f7 f3 a b with
    | some v => s.retire t rd v len
    | none => ill
  | 0x3B =>
    match aluOp 32 f7 f3 a b with
    | some v => s.retire t rd v len
    | none => ill
  | 0x0F =>
    if f3 = 0 then ((s.advance t len).coreFence t false).awaitFence t
    else if f3 = 1 then s.advance t len else ill
  | 0x73 =>
    if f3 = 0 then
      (if w = 0x00000073 then s.trap t 11 x.pc 0
       else if w = 0x00100073 then s.trap t 3 x.pc 0
       else if w = 0x30200073 then s.mret t
       else if w = 0x10500073 then s.advance t len
       else ill)
    else if f3 = 4 then ill
    else s.csrOp t w len
  | 0x2F =>
    let size := if f3 = 2 then 4 else 8
    let aq : Bool := wBits w 26 26 = 1
    let rl : Bool := wBits w 25 25 = 1
    if f3 ≠ 2 && f3 ≠ 3 then ill
    else if f7 / 4 = 0x02 then (if wBits w 24 20 = 0 then s.coreLr t rd a size len else ill)
    else if f7 / 4 = 0x03 then s.coreSc t rd a b size len
    else match amoOf (f7 / 4) with
      | some aop => s.coreAmo t aop rd a b size len aq rl
      | none => ill
  | _ => ill

/-! ### Compressed instructions -/

/-- Build 32-bit words. -/
def mkR (op f3 f7 rd r1 r2 : Nat) : Nat := op + rd * 2 ^ 7 + f3 * 2 ^ 12 + r1 * 2 ^ 15 + r2 * 2 ^ 20 + f7 * 2 ^ 25
def mkI (op f3 rd r1 imm : Nat) : Nat := op + rd * 2 ^ 7 + f3 * 2 ^ 12 + r1 * 2 ^ 15 + imm % 4096 * 2 ^ 20
def mkS (op f3 r1 r2 imm : Nat) : Nat :=
  op + imm % 32 * 2 ^ 7 + f3 * 2 ^ 12 + r1 * 2 ^ 15 + r2 * 2 ^ 20 + imm % 4096 / 32 * 2 ^ 25
def mkB (f3 r1 r2 imm : Nat) : Nat :=
  0x63 + (imm / 2048 % 2) * 2 ^ 7 + (imm / 2 % 16) * 2 ^ 8 + f3 * 2 ^ 12 + r1 * 2 ^ 15 + r2 * 2 ^ 20 +
    (imm / 32 % 64) * 2 ^ 25 + (imm / 4096 % 2) * 2 ^ 31
def mkJ (rd imm : Nat) : Nat :=
  0x6F + rd * 2 ^ 7 + (imm / 4096 % 256) * 2 ^ 12 + (imm / 2048 % 2) * 2 ^ 20 + (imm / 2 % 1024) * 2 ^ 21 +
    (imm / 2 ^ 20 % 2) * 2 ^ 31

/-- The 32-bit form of a compressed instruction; none for a reserved one or one of the floating-point extensions. -/
def expandC (h : Nat) : Option Nat :=
  let f3 := wBits h 15 13
  let rd := wBits h 11 7
  let rs2 := wBits h 6 2
  let rdc := 8 + wBits h 4 2
  let r1c := 8 + wBits h 9 7
  let imm6 := sx 6 (wBits h 12 12 * 32 + wBits h 6 2)
  let sh := wBits h 12 12 * 32 + wBits h 6 2
  let lwI := wBits h 5 5 * 64 + wBits h 12 10 * 8 + wBits h 6 6 * 4
  let ldI := wBits h 6 5 * 64 + wBits h 12 10 * 8
  match h % 4, f3 with
  | 0, 0 =>
    let i := wBits h 10 7 * 64 + wBits h 12 11 * 16 + wBits h 5 5 * 8 + wBits h 6 6 * 4
    if i = 0 then none else some (mkI 0x13 0 rdc 2 i)
  | 0, 2 => some (mkI 0x03 2 rdc r1c lwI)
  | 0, 3 => some (mkI 0x03 3 rdc r1c ldI)
  | 0, 6 => some (mkS 0x23 2 r1c rdc lwI)
  | 0, 7 => some (mkS 0x23 3 r1c rdc ldI)
  | 1, 0 => some (mkI 0x13 0 rd rd imm6)
  | 1, 1 => if rd = 0 then none else some (mkI 0x1B 0 rd rd imm6)
  | 1, 2 => some (mkI 0x13 0 rd 0 imm6)
  | 1, 3 =>
    if rd = 2 then
      let i := sx 10 (wBits h 12 12 * 512 + wBits h 4 3 * 128 + wBits h 5 5 * 64 + wBits h 2 2 * 32 + wBits h 6 6 * 16)
      if i = 0 then none else some (mkI 0x13 0 2 2 i)
    else if imm6 = 0 then none
    else some (0x37 + rd * 2 ^ 7 + imm6 % 2 ^ 20 * 2 ^ 12)
  | 1, 4 =>
    match wBits h 11 10 with
    | 0 => some (mkI 0x13 5 r1c r1c sh)
    | 1 => some (mkI 0x13 5 r1c r1c (0x400 + sh))
    | 2 => some (mkI 0x13 7 r1c r1c imm6)
    | _ =>
      match wBits h 12 12, wBits h 6 5 with
      | 0, 0 => some (mkR 0x33 0 0x20 r1c r1c rdc)
      | 0, 1 => some (mkR 0x33 4 0 r1c r1c rdc)
      | 0, 2 => some (mkR 0x33 6 0 r1c r1c rdc)
      | 0, 3 => some (mkR 0x33 7 0 r1c r1c rdc)
      | 1, 0 => some (mkR 0x3B 0 0x20 r1c r1c rdc)
      | 1, 1 => some (mkR 0x3B 0 0 r1c r1c rdc)
      | _, _ => none
  | 1, 5 =>
    some (mkJ 0 (sx 12 (wBits h 12 12 * 2048 + wBits h 8 8 * 1024 + wBits h 10 9 * 256 + wBits h 6 6 * 128 +
      wBits h 7 7 * 64 + wBits h 2 2 * 32 + wBits h 11 11 * 16 + wBits h 5 3 * 2)))
  | 1, _ =>
    some (mkB (f3 - 6) r1c 0 (sx 9 (wBits h 12 12 * 256 + wBits h 6 5 * 64 + wBits h 2 2 * 32 + wBits h 11 10 * 8 +
      wBits h 4 3 * 2)))
  | 2, 0 => some (mkI 0x13 1 rd rd sh)
  | 2, 2 => if rd = 0 then none else
    some (mkI 0x03 2 rd 2 (wBits h 3 2 * 64 + wBits h 12 12 * 32 + wBits h 6 4 * 4))
  | 2, 3 => if rd = 0 then none else
    some (mkI 0x03 3 rd 2 (wBits h 4 2 * 64 + wBits h 12 12 * 32 + wBits h 6 5 * 8))
  | 2, 4 =>
    if wBits h 12 12 = 0 then
      (if rs2 = 0 then (if rd = 0 then none else some (mkI 0x67 0 0 rd 0)) else some (mkR 0x33 0 0 rd 0 rs2))
    else if rs2 = 0 then (if rd = 0 then some 0x00100073 else some (mkI 0x67 0 1 rd 0))
    else some (mkR 0x33 0 0 rd rd rs2)
  | 2, 6 => some (mkS 0x23 2 2 rs2 (wBits h 8 7 * 64 + wBits h 12 9 * 4))
  | 2, 7 => some (mkS 0x23 3 2 rs2 (wBits h 9 7 * 64 + wBits h 12 10 * 8))
  | _, _ => none

end Sys2Proof.Machine
end

