-- ==== Sys2Proof/Machine/LoomVec.lean ====
section
/-!
DEFINITION. Machine/LoomVec.lean: the vector unit of a Loom tile: the checks of every vector instruction
(08_loom_isa.md R242-R246, R263), element-wise operations, permutes, reductions, and vector loads and stores
(08_loom_isa.md R249-R260, 07_loom_model.md R203-R223).
-/

namespace Sys2Proof.Machine

/-! ### What each operation uses (R251) -/

/-- Format classes of FS (R245). -/
inductive FCls where
  | zero | flt | int | fltInt | all | arg
  deriving DecidableEq, Repr

/-- Rules of FD (R251). -/
inductive FRule where
  | zero | same | eq | all | fp32 | flt
  deriving DecidableEq, Repr

/-- The operands of an operation: the vector or integer registers used; whether S, N1, RM and SAT have a meaning; which
fields name masks and accumulators; whether VMK and KZ must be 0 (R246). -/
structure OpInfo where
  fs : FCls := .zero
  fd : FRule := .zero
  v1 : Bool := true
  v2 : Bool := false
  v3 : Bool := false
  s : Bool := false
  n1 : Bool := false
  rm : Bool := false
  sat : Bool := false
  md : Bool := false
  m12 : Bool := false
  m3 : Bool := false
  ad : Bool := false
  a1 : Bool := false
  noMask : Bool := false
  deriving DecidableEq, Repr

/-- The operations of R251; none for an undefined OP. -/
def opInfo (op : Nat) : Option OpInfo :=
  if op ≤ 0x02 then some { fs := .fltInt, fd := .same, v2 := true, s := true, n1 := true, rm := true, sat := true }
  else if op ≤ 0x06 then
    some { fs := .fltInt, fd := .same, v2 := true, v3 := true, s := true, n1 := true, rm := true, sat := true }
  else if op ≤ 0x08 then some { fs := .fltInt, fd := .eq, v2 := true, s := true, n1 := true }
  else if op ≤ 0x0A then some { fs := .fltInt, fd := .eq, n1 := true, sat := true }
  else if op = 0x0B then some { fs := .all, fd := .eq, v2 := true, v3 := true, m3 := true }
  else if 0x10 ≤ op && op ≤ 0x16 then some { fs := .int, fd := .eq, v2 := true, s := true }
  else if 0x20 ≤ op && op ≤ 0x23 then some { fs := .fltInt, v2 := true, s := true, md := true }
  else if op = 0x24 then some { fs := .flt, v2 := true, s := true, md := true }
  else if op = 0x28 then some { fs := .all, fd := .all, v2 := true, rm := true, sat := true }
  else if op = 0x33 then some { fs := .flt, fd := .flt, v2 := true, s := true, n1 := true, rm := true, sat := true }
  else if 0x30 ≤ op && op ≤ 0x3C then some { fs := .flt, fd := .flt, n1 := true, rm := true, sat := true }
  else if op = 0x3D then some { fd := .fp32 }
  else if 0x40 ≤ op && op ≤ 0x42 then some { fs := .all, fd := .eq, v2 := true }
  else if op = 0x43 then some { fs := .all, fd := .eq }
  else if op = 0x44 then some { fd := .all, v1 := false, v2 := true }
  else if op = 0x45 then some { fs := .all, v2 := true, noMask := true }
  else if op = 0x50 || op = 0x51 then some { fs := .all, fd := .all, v2 := true, v3 := true, rm := true, sat := true }
  else if op = 0x52 || op = 0x53 then some { fs := .all, fd := .all, v2 := true, rm := true, sat := true }
  else if op = 0x54 || op = 0x55 then some { md := true }
  else if op = 0x58 || op = 0x59 then some { fs := .flt, ad := true }
  else if op = 0x5A || (0x5F ≤ op && op ≤ 0x61) then some { fs := .int, ad := true }
  else if 0x5B ≤ op && op ≤ 0x5E then some { fs := .arg, ad := true }
  else if op = 0x62 then some { fd := .all, rm := true, sat := true, a1 := true, noMask := true }
  else if 0x68 ≤ op && op ≤ 0x6B then some { v2 := true, md := true, m12 := true }
  else if op = 0x6C || op = 0x6D then some { m12 := true, noMask := true }
  else none

/-- Whether a code is in a class (R245); a custom code counts whether or not its slot is valid. -/
def FCls.ok (c : FCls) (code : Nat) : Bool :=
  let flt : Bool := decide (code ≤ 0x09)
  let int : Bool := decide (0x0B ≤ code ∧ code ≤ 0x0E)
  match c with
  | .zero => decide (code = 0)
  | .flt => flt
  | .int => int
  | .fltInt => flt || int
  | .all => decide (code ≠ 0x0F)
  | .arg => decide (code < 0x0F)

/-- The width of the lane part of a format (06_number_formats.md R168). -/
def lanePart (w : Nat) : Nat := if w ≤ 4 then 4 else if w ≤ 8 then 8 else if w ≤ 16 then 16 else 32

/-- A format of the table that the kernel captured at its launch. -/
def Tile.fmt (x : Tile) (code : Nat) : Option FmtInfo := fmtOf x.fmts code

/-- The element format of a code. -/
def Tile.elt (x : Tile) (code : Nat) : Fmt := ((x.fmt code).map (·.elt)).getD fp32

/-- The lane part of a code. -/
def Tile.lw (x : Tile) (code : Nat) : Nat := lanePart (x.elt code).width

/-! ### The values that an instruction works on -/

/-- The rounding mode of an instruction. -/
def VCtx.mode (c : VCtx) (rm : Nat) : RM := (rmOf ((rmOf .rne c.lrm).getD .rne) rm).getD .rne

/-- Whether an instruction rounds under RSR (R208). -/
def usesRsr (lrm : Nat) (info : OpInfo) (f : VOp) : Bool := info.rm && (f.rm = 4 || (f.rm = 7 && lrm = 4))

/-- A vector register and its lane poison. -/
def Tile.vreg (x : Tile) (r : Nat) : Nat := SMap.getD x.v r 0
def Tile.vpois (x : Tile) (r : Nat) : Nat := SMap.getD x.vp r 0

/-- A mask register; vm0 reads all ones (07_loom_model.md R195). -/
def Tile.mask (x : Tile) (r : Nat) : Nat := if r = 0 then 2 ^ 1024 - 1 else SMap.getD x.vm r 0

/-- Element `i` of a register whose lane parts are `lw` wide, cut to `w` bits. -/
def eltOf (v lw w i : Nat) : Nat := v / 2 ^ (lw * i) % 2 ^ w

/-- Whether the lane slot of element `i` is poisoned. -/
def lanePois (vp lw i : Nat) : Bool := Nat.testBit vp (lw * i / 32)

/-- Whether element `i` is active (R207). -/
def Tile.active (x : Tile) (f : VOp) (vl i : Nat) : Bool := decide (i < vl) && Nat.testBit (x.mask f.vmk) i

/-- What an instruction writes to element `i`: nothing, or a pattern with the poison of its sources. -/
abbrev EltOut := Option (Nat × Bool)

/-- Replace `lw` bits of a register. -/
def putElt (v lw i p : Nat) : Nat :=
  v / 2 ^ (lw * (i + 1)) * 2 ^ (lw * (i + 1)) + p % 2 ^ lw * 2 ^ (lw * i) + v % 2 ^ (lw * i)

/-- Write the elements of a vector register from 0 up, and the poison of its lane slots (R203, R206, R207, R214). -/
def Tile.putVec (x : Tile) (vd lw : Nat) (outs : List EltOut) : Tile :=
  let v := (outs.zipIdx).foldl (fun v (o, i) => match o with | some (p, _) => putElt v lw i p | none => v) (x.vreg vd)
  let per := 32 / lw
  let old := x.vpois vd
  let pois (l : Nat) : Bool := (List.range per).any (fun k => match outs.getD (l * per + k) none with
    | some (_, b) => b
    | none => Nat.testBit old l)
  let vp := (List.range 128).foldl (fun m l => m + (if pois l then 2 ^ l else 0)) 0
  { x with v := SMap.set 0 x.v vd v, vp := SMap.set 0 x.vp vd vp }

/-- Write a mask register (R206): bits 0 to vl - 1, 0 above; writes to vm0 are ignored. -/
def Tile.putMask (x : Tile) (md vl : Nat) (f : Nat → Option Bool) : Tile :=
  if md = 0 then x
  else
    let old := x.mask md
    let m := (List.range vl).foldl (fun m i =>
      m + (if (match f i with | some b => b | none => Nat.testBit old i) then 2 ^ i else 0)) 0
    { x with vm := SMap.set 0 x.vm md m }

/-- The outputs of an element-wise instruction: the active elements, and the others kept or zeroed (R207). -/
def Tile.outs (x : Tile) (f : VOp) (vl : Nat) (g : Nat → EltOut) : List EltOut :=
  (List.range vl).map (fun i => if x.active f vl i then g i else if f.kz then some (0, false) else none)

/-! ### Element-wise arithmetic (R249, R252) -/

/-- Reduce an exact integer into `w` bits: wrapped, or clamped with SAT (R249). -/
def reduceInt (w : Nat) (sat : Bool) (i : Int) : Nat × Nat :=
  let hi : Int := 2 ^ (w - 1) - 1
  let lo : Int := -(2 ^ (w - 1))
  if sat && i > hi then (hi.toNat, fSAT)
  else if sat && i < lo then (2 ^ (w - 1), fSAT)
  else ((i % 2 ^ w).toNat, 0)

/-- Order of values with -0 below +0 (R252). -/
def ltVal (a b : Val) : Bool :=
  match cmpVal a b with
  | some .lt => true
  | some .eq => a.isZero && b.isZero && a.isNeg && !b.isNeg
  | _ => false

/-- One element of an arithmetic, logic or VSEL-free operation: patterns of a, b and c, their formats, the target, the
mode, SAT and the random word: the pattern and the flags. -/
def eltArith (op : Nat) (fs fd : Fmt) (isInt : Bool) (rm : RM) (sat : Bool) (r a b c : Nat) (n1 : Bool) : Nat × Nat :=
  if isInt then
    let w := fs.width
    let (a1, fn) := if n1 then reduceInt w sat (-(sgn w a)) else (a, 0)
    let x := sgn w a1
    let y := sgn w b
    let z := sgn fd.width c
    let fin (i : Int) (st : Bool) : Nat × Nat := let (p, fl) := reduceInt fd.width st i; (p, fl ||| fn)
    let sh := b % w
    match op with
    | 0x00 => fin (x + y) sat
    | 0x01 => fin (x - y) sat
    | 0x02 => fin (x * y) sat
    | 0x03 => fin (x * y + z) sat
    | 0x04 => fin (x * y - z) sat
    | 0x05 => fin (z - x * y) sat
    | 0x06 => fin (-(x * y) - z) sat
    | 0x07 => (if y < x then b else a1, fn)
    | 0x08 => (if x < y then b else a1, fn)
    | 0x09 => fin (if x < 0 then -x else x) sat
    | 0x0A => fin (-x) sat
    | 0x10 => (a &&& b, 0)
    | 0x11 => (a ||| b, 0)
    | 0x12 => (a ^^^ b, 0)
    | 0x13 => (a * 2 ^ sh % 2 ^ w, 0)
    | 0x14 => (a / 2 ^ sh, 0)
    | 0x15 => fin (x / 2 ^ sh) false
    | _ => fin (x * y / 2 ^ w) false
  else
    let sgnBit := 2 ^ (fs.width - 1)
    let a1 := if n1 then a ^^^ sgnBit else a
    let x := fs.decode a1
    let y := fs.decode b
    let z := fd.decode c
    let fin (v : Val × Nat) : Nat × Nat := let (p, fl) := fd.convert rm sat r v.1; (p, fl ||| v.2)
    let fma (neg sub : Bool) : Nat × Nat :=
      let (p, f1) := mulVal x y
      let (q, f2) := addVal rm (if neg then p.neg else p) (if sub then z.neg else z)
      fin (q, f1 ||| f2)
    let nan : Nat × Nat := (fs.nanResult.1, 0)
    match op with
    | 0x00 => fin (addVal rm x y)
    | 0x01 => fin (addVal rm x y.neg)
    | 0x02 => fin (mulVal x y)
    | 0x03 => fma false false
    | 0x04 => fma false true
    | 0x05 => fma true false
    | 0x06 => fma true true
    | 0x07 => if x.isNan || y.isNan then nan else (if ltVal y x then b else a1, 0)
    | 0x08 => if x.isNan || y.isNan then nan else (if ltVal x y then b else a1, 0)
    | 0x09 => if x.isNan then nan else (a1 % sgnBit, 0)
    | _ => if x.isNan then nan else (a1 ^^^ sgnBit, 0)

/-- One element of a compare: the bit and the flags (R251, R252). -/
def eltCmp (op : Nat) (fs : Fmt) (isInt : Bool) (a b : Nat) : Bool × Nat :=
  let c : Option Ordering := if isInt then some (compare (sgn fs.width a) (sgn fs.width b)) else cmpVal (fs.decode a) (fs.decode b)
  match op with
  | 0x20 => (c = some .eq, 0)
  | 0x21 => (c ≠ some .eq, 0)
  | 0x22 => (c = some .lt, flagIf c.isNone fNV)
  | 0x23 => (c = some .lt || c = some .eq, flagIf c.isNone fNV)
  | _ => (c.isNone, 0)

/-- One element of a special function, rounded into FD (R258, R259). -/
def eltSpecial (op : Nat) (fs fd : Fmt) (rm : RM) (sat : Bool) (r a b : Nat) (n1 : Bool) : Nat × Nat :=
  let a1 := if n1 then a ^^^ 2 ^ (fs.width - 1) else a
  let x := fs.decode a1
  match op with
  | 0x32 => let (v, f1) := sqrtVal x; let (p, f2) := fd.convert rm sat r v; (p, f1 ||| f2)
  | 0x33 => let (v, f1) := divVal x (fs.decode b); let (p, f2) := fd.convert rm sat r v; (p, f1 ||| f2)
  | _ =>
    let (p, f1) := specialFn op (fp32.convert .rne false 0 x).1 x
    if fd = fp32 then
      -- an overflow follows R184 under SAT
      (if sat && f1 &&& fOF ≠ 0 then (fp32.maxPat (decide (2 ^ 31 ≤ p)), f1 ||| fSAT) else (p, f1))
    else let (q, f2) := fd.convert rm sat r (fp32.decode p); (q, f1 ||| f2)

/-! ### Memory geometry (R172, R174, R253, R254) -/

/-- Bit `k` of the bit string that starts at byte `base`; byte offsets are numbers modulo 2^64 (R253). -/
def strBit (base k : Nat) : Nat := 8 * ((base + k / 8) % 2 ^ 64) + k % 8

/-- The bit position of element `i` of a vector in memory, `stride` bytes apart where that is not 0. Element 0 lies at `base`, also where an inline
scale stands before its block (R253, 07_loom_model.md R226). -/
def eltBit (fi : FmtInfo) (base stride i : Nat) : Nat :=
  let w := fi.elt.width
  if stride ≠ 0 then 8 * ((base + i * stride) % 2 ^ 64)
  else if fi.block ≠ 0 && fi.place ≠ 0 then
    let eb := (w * fi.block + 7) / 8
    strBit (base + i / fi.block * (eb + fi.scale.bytes)) (w * (i % fi.block))
  else strBit base (w * i)

/-- The offset of the scale of block `b`: in the separate array at `scale`, or inline, before its block's elements or after them. -/
def scaleOff (fi : FmtInfo) (base scale b : Nat) : Nat :=
  let sb := fi.scale.bytes
  if fi.place = 0 then (scale + b * sb) % 2 ^ 64
  else
    let eb := (fi.elt.width * fi.block + 7) / 8
    (base + b * (eb + sb) + (if fi.place = 2 then eb else 2 ^ 64 - sb)) % 2 ^ 64

/-- A field of memory: first bit, width in bits. -/
abbrev BitSpan := Nat × Nat

/-- First and last byte of a span. -/
def spanLo (b : BitSpan) : Nat := b.1 / 8
def spanHi (b : BitSpan) : Nat := (b.1 + b.2 - 1) / 8

/-- Whether two codes name one pattern layout: the same code, or an MX code and its element's code (R254). -/
def sameCode (a b : Nat) : Bool :=
  a = b || (a = 0x05 && b = 0x03) || (a = 0x03 && b = 0x05) || (a = 0x06 && b = 0x04) || (a = 0x04 && b = 0x06)

/-- Read a span of a tile's scratchpad. -/
def State.readSpan (s : State) (t : Nat) (b : BitSpan) : Nat :=
  let lo := spanLo b
  leNat (s.bytes (scratchCell t + lo) (spanHi b + 1 - lo)) / 2 ^ (b.1 % 8) % 2 ^ b.2

/-- Write a span. -/
def State.writeSpan (s : State) (t : Nat) (b : BitSpan) (v : Nat) : State :=
  let lo := spanLo b
  let n := spanHi b + 1 - lo
  let old := leNat (s.bytes (scratchCell t + lo) n)
  let sh := b.1 % 8
  let new := old / 2 ^ (sh + b.2) * 2 ^ (sh + b.2) + v % 2 ^ b.2 * 2 ^ sh + old % 2 ^ sh
  s.setBytes (scratchCell t + lo) (natLe n new)

/-- Whether a granule that a span touches is marked (R214). -/
def State.spanPois (s : State) (t : Nat) (b : BitSpan) : Bool :=
  s.poisoned (scratchCell t + spanLo b) (spanHi b + 1 - spanLo b)

/-- Perform the writes of a vector store, oldest first, so that a later element stays (R255), and settle the marks of the
granules: one that receives a byte from a poisoned lane slot is marked, one that is fully written without is cleared
(R214). -/
def State.storeSpans (s : State) (t : Nat) (ws : List (BitSpan × Nat × Bool)) : State :=
  let s1 := ws.foldl (fun u w => u.writeSpan t w.1 w.2.1) s
  let gs := (ws.foldl (fun l w => (List.range (spanHi w.1 / 128 + 1 - spanLo w.1 / 128)).foldl
    (fun m k => insertNat m (spanLo w.1 / 128 + k)) l) [])
  gs.foldl (fun u g =>
    let mine := ws.filter (fun w => spanLo w.1 / 128 ≤ g && g ≤ spanHi w.1 / 128)
    let bit (k : Nat) : Bool := mine.any (fun w => w.1.1 ≤ k && k < w.1.1 + w.1.2)
    let byte (k : Nat) : Bool := mine.any (fun w => w.1.1 ≤ 8 * k && 8 * k + 8 ≤ w.1.1 + w.1.2)
    let full := (List.range 128).all (fun k => byte (128 * g + k) || (List.range 8).all (fun b => bit (8 * (128 * g + k) + b)))
    let line := scratchCell t / 128 + g
    if mine.any (fun w => w.2.2) then u.poisonLine line
    else if full then u.unpoisonLine line
    else u) s1

/-- The lane steps of a vector access: the most distinct granules in one of the 16 banks, at least 1 (R215, R216). -/
def bankSteps (spans : List BitSpan) : Nat :=
  let gs := spans.foldl (fun l b => (List.range (spanHi b / 128 + 1 - spanLo b / 128)).foldl
    (fun m k => insertNat m (spanLo b / 128 + k)) l) []
  (List.range 16).foldl (fun m k => max m (gs.filter (fun g => g % 16 = k)).length) 1

/-! ### Reductions (R219-R223) -/

/-- Combine neighbours of a balanced tree; an absent input passes the other on (R220). -/
def pairUp (f : Nat → Nat → Nat × Nat) : List (Option Nat) → List (Option Nat) × Nat
  | a :: b :: l =>
    let (rest, fl) := pairUp f l
    match a, b with
    | some x, some y => let (p, g) := f x y; (some p :: rest, fl ||| g)
    | some x, none => (some x :: rest, fl)
    | none, y => (y :: rest, fl)
  | l => (l, 0)

/-- Reduce a list by levels. -/
def treeUp (f : Nat → Nat → Nat × Nat) : Nat → List (Option Nat) → Option Nat × Nat
  | 0, l => (l.headD none, 0)
  | n + 1, l => let (m, f1) := pairUp f l; let (r, f2) := treeUp f n m; (r, f1 ||| f2)

/-- FP32 addition with RNE. -/
def addFp32 (a b : Nat) : Nat × Nat :=
  let (v, f1) := addVal .rne (fp32.decode a) (fp32.decode b)
  let (p, f2) := fp32.convert .rne false 0 v
  (p, f1 ||| f2)

/-- Value of a MAX, MIN, ARGMAX or ARGMIN input: integers as exact values. -/
def argVal (elt : Fmt) (p : Nat) : Val := elt.decode p

/-- Fold one value with an index into a MAX (3), MIN (4), ARGMAX (5) or ARGMIN (6) accumulator (R222): of equal values, and of NaNs, the lower index
wins. -/
def Accum.step (elt : Fmt) (x : Accum) (p idx : Nat) : Accum :=
  let v := argVal elt p
  let cur := argVal elt x.val
  let nan := elt.nanResult.1
  let put : Accum := { x with any := true, val := if v.isNan then nan else p, idx := idx }
  if !x.any then put
  else if x.op ≤ 4 then
    (if cur.isNan then x else if v.isNan then put
     else if (if x.op = 3 then ltVal cur v else ltVal v cur) then put else x)
  else
    (if v.isNan then (if cur.isNan && decide (idx < x.idx) then put else x) else if cur.isNan then put
     else if cmpVal cur v = some (if x.op = 5 then .lt else .gt) then put
     else if cmpVal cur v = some .eq && decide (idx < x.idx) then put else x)

/-- Fold a 64-bit integer into an IADD, AND, OR or XOR accumulator. -/
def Accum.int (x : Accum) (v : Nat) : Accum :=
  let cur := if x.any then x.val else if x.op = 7 then 2 ^ 64 - 1 else 0
  let n := match x.op with
    | 2 => (cur + v) % 2 ^ 64
    | 7 => cur &&& v
    | 8 => cur ||| v
    | _ => cur ^^^ v
  { x with any := true, val := n }

/-- What an accumulator reads as under a mode: FP32 for ADD and EXACT, 64 bits for the integer operations, the pattern of
its format otherwise (R219, R221, R261). -/
def Accum.read (x : Accum) (elt : Fmt) (rm : RM) (r : Nat) : Nat × Nat :=
  match x.op with
  | 0 => (if x.any then x.val else 0, 0)
  | 1 => let (v, f1) := x.sum.value rm; let (p, f2) := fp32.convert rm false r v; (p, f1 ||| f2)
  | 2 => (if x.any then x.val else 0, 0)
  | 7 => (if x.any then x.val else 2 ^ 64 - 1, 0)
  | 8 => (if x.any then x.val else 0, 0)
  | 9 => (if x.any then x.val else 0, 0)
  | _ => (if x.any then x.val else elt.nanResult.1, 0)

/-- The index that an ARGMAX or ARGMIN accumulator reads as. -/
def Accum.readIdx (x : Accum) : Nat := if x.any then x.idx else 2 ^ 64 - 1

/-- Fold a vector: the patterns of its elements, absent where inactive (R219-R222): the accumulator and the flags. -/
def Accum.fold (x : Accum) (elt : Fmt) (es : List (Option Nat)) (vlmax : Nat) : Accum × Nat :=
  let vl := es.length
  let conv (p : Nat) : Nat := (fp32.convert .rne false 0 (elt.decode p)).1
  let out : Accum × Nat :=
    match x.op with
    | 0 =>
      let (r, fl) := treeUp addFp32 (Nat.log2 vlmax) ((es.map (fun o => o.map conv)) ++ List.replicate (vlmax - vl) none)
      match r with
      | none => (x, fl)
      | some p => if x.any then (let (q, g) := addFp32 x.val p; ({ x with val := q }, fl ||| g)) else ({ x with any := true, val := p }, fl)
    | 1 =>
      let sum := es.foldl (fun a o => match o with | some p => a.term (conv p) | none => a) x.sum
      ({ x with any := true, sum := sum },
        flagIf ((sum.ovf && !x.sum.ovf) || (sum.pinf && sum.ninf && !(x.sum.pinf && x.sum.ninf))) fNV)
    | 3 => ((es.zipIdx).foldl (fun a (o, i) => match o with | some p => a.step elt p (x.fed + i) | none => a) x, 0)
    | 4 => ((es.zipIdx).foldl (fun a (o, i) => match o with | some p => a.step elt p (x.fed + i) | none => a) x, 0)
    | 5 => ((es.zipIdx).foldl (fun a (o, i) => match o with | some p => a.step elt p (x.fed + i) | none => a) x, 0)
    | 6 => ((es.zipIdx).foldl (fun a (o, i) => match o with | some p => a.step elt p (x.fed + i) | none => a) x, 0)
    | _ => (es.foldl (fun a o => match o with | some p => a.int (ofInt64 (sgn elt.width p)) | none => a) x, 0)
  ({ out.1 with fed := x.fed + vl }, out.2)

/-! ### Checks (R263) -/

/-- Why a vector instruction does not run: a custom format whose slot was not valid at launch (R213), or a trap with its
cause and detail code. -/
inductive VStop where
  | badFmt
  | trap (cause detail : Nat)
  deriving DecidableEq, Repr

/-- Illegal with a detail code. -/
def vill (d : Nat) : VStop := .trap 26 d

/-- Whether FS and FD are used by an operation. -/
def OpInfo.fsUsed (i : OpInfo) : Bool := i.fs ≠ .zero
def OpInfo.fdUsed (i : OpInfo) : Bool := i.fd ≠ .zero

/-- The format rules (R245, R251): classes, the FS-FD relation, GRID40; VLDX and VSTX need widths of 8 and more. -/
def Tile.fmtRule (x : Tile) (op : Nat) (i : OpInfo) (f : VOp) : Bool :=
  i.fs.ok f.fs &&
  (match i.fd with
   | .zero => f.fd = 0
   | .same => (f.fs ≤ 0x09 && f.fd ≤ 0x09) || (0x0B ≤ f.fs && FCls.int.ok f.fd)
   | .eq => f.fd = f.fs
   | .all => f.fd ≠ 0x0F
   | .fp32 => f.fd = 0
   | .flt => FCls.flt.ok f.fd) &&
  (!(op = 0x52 || op = 0x53) || (8 ≤ (x.elt f.fs).width && 8 ≤ (x.elt f.fd).width))

/-- The widest register format that an instruction names, 4 where it names none (R205). -/
def Tile.widest (x : Tile) (op : Nat) (i : OpInfo) (f : VOp) : Nat :=
  let a := if i.fsUsed && !(op = 0x50 || op = 0x52) then x.lw f.fs else 4
  let b := if i.fdUsed && !(op = 0x51 || op = 0x53) then x.lw f.fd else 4
  max (max a b) (if op = 0x52 || op = 0x53 then 32 else 4)

/-- Whether a format has blocks. -/
def Tile.isBlock (x : Tile) (code : Nat) : Bool := ((x.fmt code).map (fun i => decide (i.block ≠ 0))).getD false

/-- The checks of details 0x01 to 0x07, 0x09 of VCVT, and 0x0C, in order (R263). `str` says that it is a stream access of a
micro-op, which names no address registers, `kUsed` that a scalar takes the place of VS2, `load` that an image is loaded,
when accumulators are not looked at. -/
def Tile.check (x : Tile) (op : Nat) (f : VOp) (vl x2 : Nat) (str kUsed load : Bool) : Option VStop :=
  match opInfo op with
  | none => some (vill 0x01)
  | some i0 =>
    let i := if str then { i0 with v1 := false, v2 := false, v3 := false } else i0
    let bad (c : Nat) : Bool := 0x10 ≤ c && (x.fmt c).isNone
    let v2 := i.v2 && !kUsed && !(op = 0x28 && !x.isBlock f.fs && !x.isBlock f.fd)
    if (i.fsUsed && bad f.fs) || (i.fdUsed && bad f.fd) then some .badFmt
    else if f.rsv ≠ 0 || (!i.v1 && f.vs1 ≠ 0) || (!v2 && f.vs2 ≠ 0) || (!i.v3 && f.vs3 ≠ 0) || (f.s && !i.s) || (f.n1 && !i.n1)
        || (!i.rm && f.rm ≠ 0) || (!i.sat && f.sat) || (i.noMask && (f.vmk ≠ 0 || f.kz)) then some (vill 0x02)
    else if !x.fmtRule op i f then some (vill 0x03)
    else if 4096 / x.widest op i f < vl then some (vill 0x04)
    else if (i.md && 7 < f.vd) || (i.m12 && (7 < f.vs1 || 7 < f.vs2)) || (i.m3 && 7 < f.vs3) || (i.ad && 3 < f.vd)
        || (i.a1 && 3 < f.vs1) then some (vill 0x05)
    else if i.ad && !load && ((SMap.getD x.acc f.vd {}).op ≠ op - 0x58 || (i.fs = .arg && (SMap.getD x.acc f.vd {}).fmt ≠ f.fs)) then
      some (vill 0x06)
    else if (i.rm && (f.rm = 5 || f.rm = 6)) || (op = 0x62 && f.rm ≠ 7) then some (vill 0x07)
    else if op = 0x28 && (((x.fmt f.fs).map (fun g => decide (g.block ≠ 0 ∧ g.place ≠ 0))).getD false ||
        ((x.fmt f.fd).map (fun g => decide (g.block ≠ 0 ∧ g.place ≠ 0))).getD false) then some (vill 0x09)
    else if op = 0x45 && 4096 / x.lw f.fs ≤ x2 then some (vill 0x0C)
    else none

/-- The alignment, stride and block checks of a memory access (R253, R254), details 0x08 and 0x09, and the bounds check; `blk` says that one of the codes
names a block format. -/
def memCheck (fi : FmtInfo) (base stride : Nat) (indexed blk : Bool) (spans : List BitSpan) : Option VStop :=
  let w := fi.elt.width
  let packedOnly := fi.block ≠ 0 || !(w = 8 || w = 16 || w = 32)
  let size := w / 8
  if !packedOnly && (w = 16 || w = 32) && (base % size ≠ 0 || stride % size ≠ 0 ||
      (indexed && spans.any (fun b => spanLo b % size ≠ 0))) then some (vill 0x08)
  else if (packedOnly && stride ≠ 0) || (indexed && blk) then some (vill 0x09)
  else if spans.any (fun b => padBytes ≤ spanHi b) then some (.trap 25 0x10)
  else none

/-! ### Performing one operation -/

/-- What a vector instruction did: the state, the flags, the lane steps, and an integer register that it writes. -/
structure VOut where
  st : State
  flags : Nat := 0
  steps : Nat := 1
  xw : Option (Nat × Nat) := none

/-- Source b of element `i`: a register's element or the broadcast scalar, and its poison. -/
def Tile.srcB (x : Tile) (f : VOp) (c : VCtx) (i : Nat) : Nat × Bool :=
  let w := (x.elt f.fs).width
  match c.k with
  | some k => (k % 2 ^ w, false)
  | none => if f.s then (c.x2 % 2 ^ w, false)
            else (eltOf (x.vreg f.vs2) (x.lw f.fs) w i, lanePois (x.vpois f.vs2) (x.lw f.fs) i)

/-- Element-wise instructions that write a vector register: arithmetic, logic, VSEL, special functions, VRAND, LBCAST. -/
def Tile.eltwise (x : Tile) (op : Nat) (f : VOp) (c : VCtx) (i : Nat) : (Nat × Bool) × Nat :=
  let fs := x.elt f.fs
  let fd := x.elt f.fd
  let ls := x.lw f.fs
  let ld := x.lw f.fd
  let a := eltOf (x.vreg f.vs1) ls fs.width i
  let pa := lanePois (x.vpois f.vs1) ls i
  let (b, pb) := x.srcB f c i
  let r := rsrWord c.seed (c.sri + i)
  let rm := c.mode f.rm
  let isInt : Bool := decide (0x0B ≤ f.fs)
  if op ≤ 0x0A || (0x10 ≤ op && op ≤ 0x16) then
    let cc := eltOf (x.vreg f.vs3) ld fd.width i
    let three := 0x03 ≤ op && op ≤ 0x06
    let two := !(op = 0x09 || op = 0x0A)
    let (p, fl) := eltArith op fs fd isInt rm f.sat r a b (if three then cc else 0) f.n1
    ((p, pa || (two && pb) || (three && lanePois (x.vpois f.vs3) ld i)), fl)
  else if op = 0x0B then ((if Nat.testBit (x.mask f.vs3) i then a else b, pa || pb), 0)
  else if 0x30 ≤ op && op ≤ 0x3C then
    let (p, fl) := eltSpecial op fs fd rm f.sat r a b f.n1
    ((p, pa || (op = 0x33 && pb)), fl)
  else if op = 0x3D then
    ((((fp32.convert .rne false 0 (.fin false (2 * (rsrWord c.seed (c.x1 + i) / 512) + 1) 1 (-24))).1), false), 0)
  else ((c.x2 % 2 ^ fd.width, false), 0)

/-- Permutes (R256): the outputs for elements 0 to vl - 1. -/
def Tile.permute (x : Tile) (op : Nat) (f : VOp) (c : VCtx) : List EltOut :=
  let lw := x.lw f.fs
  let v := x.vreg f.vs1
  let get (j : Nat) : Nat × Bool := (eltOf v lw lw j, lanePois (x.vpois f.vs1) lw j)
  match op with
  | 0x40 => x.outs f c.vl (fun i =>
      let b := eltOf (x.vreg f.vs2) lw lw i
      let pb := lanePois (x.vpois f.vs2) lw i
      if c.vl ≤ b then some (0, pb) else let (p, q) := get b; some (p, q || pb))
  | 0x41 => x.outs f c.vl (fun i => if c.x2 ≤ i then some (get (i - c.x2)) else none)
  | 0x42 => x.outs f c.vl (fun i => if i + c.x2 < c.vl then some (get (i + c.x2)) else some (0, false))
  | _ =>
    let act := ((List.range c.vl).filter (x.active f c.vl)).map (fun i => some (get i))
    act ++ List.replicate (c.vl - act.length) (if f.kz then some (0, false) else none)

/-- The block-converting form of VCVT and of stores: patterns, scales by block and flags of elements 0 to vl - 1, an inactive
element counting as absent (R254, 06_number_formats.md R174, R175, R178). -/
def toBlocks (fi : FmtInfo) (rm : RM) (sat : Bool) (seed sri : Nat) (xs : List Val) : List Nat × List Nat × Nat :=
  let encs := ((chunk fi.block (xs.length + 1) xs).zipIdx).map (fun (b, k) => encodeBlock fi rm sat seed (sri + k * fi.block) b)
  ((encs.map (·.2.1)).flatten, encs.map (·.1), orFlags (encs.map (·.2.2)))

/-- The zero that an absent element stands as. -/
def absentVal : Val := .fin false 0 1 0

/-- The spans of the scales of `n` elements' blocks that hold an active element, all of them for a target. -/
def scaleSpans (fi : FmtInfo) (base scale n : Nat) (use : Nat → Bool) : List (Nat × BitSpan) :=
  if fi.block = 0 then []
  else ((List.range ((n + fi.block - 1) / fi.block)).filter use).map
    (fun b => (b, (8 * scaleOff fi base scale b, 8 * fi.scale.bytes)))

/-- Whether a block holds an active element. -/
def Tile.blockUsed (x : Tile) (f : VOp) (vl block b : Nat) : Bool :=
  (List.range block).any (fun k => x.active f vl (b * block + k))

/-- VCVT (R254): scales of an MX source are read, and of an MX target written, at the scale offset in VS2. -/
def State.vcvt (s : State) (t : Nat) (f : VOp) (c : VCtx) : VStop ⊕ VOut :=
  let x := s.tile t
  let si := (x.fmt f.fs).getD { elt := fp32 }
  let di := (x.fmt f.fd).getD { elt := fp32 }
  let ls := x.lw f.fs
  let rm := c.mode f.rm
  let sIn := scaleSpans si 0 c.x2 c.vl (x.blockUsed f c.vl si.block)
  let sOut := scaleSpans di 0 c.x2 c.vl (fun _ => true)
  if (sIn ++ sOut).any (fun e => padBytes ≤ spanHi e.2) then .inl (.trap 25 0x10)
  else
    let sc (i : Nat) : BitSpan := (8 * scaleOff si 0 c.x2 (i / si.block), 8 * si.scale.bytes)
    let pin (i : Nat) : Bool := lanePois (x.vpois f.vs1) ls i || (si.block ≠ 0 && s.spanPois t (sc i))
    let val (i : Nat) : Val :=
      let v := si.elt.decode (eltOf (x.vreg f.vs1) ls si.elt.width i)
      if si.block = 0 then v else scaledElt si.scale (s.readSpan t (sc i)) v
    let vals := (List.range c.vl).map (fun i => if x.active f c.vl i then val i else absentVal)
    let seen := si.block ≠ 0 && (List.range c.vl).any (fun i => x.active f c.vl i && s.spanPois t (sc i))
    let mark (u : State) : State := if seen then u.updTile t (fun y => { y with poisonSeen := true }) else u
    if di.block = 0 then
      let rs := (vals.zipIdx).map (fun (v, i) => di.elt.convert rm f.sat (rsrWord c.seed (c.sri + i)) v)
      let outs := x.outs f c.vl (fun i => some ((rs.getD i (0, 0)).1, pin i))
      let fl := orFlags ((rs.zipIdx).map (fun (r, i) => if x.active f c.vl i then r.2 else 0))
      .inr { st := mark (s.updTile t (fun y => y.putVec f.vd (x.lw f.fd) outs)), flags := fl }
    else
      let (ps, scs, fl) := toBlocks di rm f.sat c.seed c.sri vals
      let outs := x.outs f c.vl (fun i => some (ps.getD i 0, pin i))
      let ws := sOut.map (fun e => (e.2, scs.getD e.1 0,
        (List.range di.block).any (fun k => let i := e.1 * di.block + k; x.active f c.vl i && pin i)))
      .inr { st := (mark (s.updTile t (fun y => y.putVec f.vd (x.lw f.fd) outs))).storeSpans t ws, flags := fl, steps := 2 }

/-- A vector load of elements at `bit i` from memory format `si` into register format code `f.fd` (R253, R254). -/
def State.vload (s : State) (t mc : Nat) (f : VOp) (c : VCtx) (base scale stride : Nat)
    (idx : Option (Nat → Nat × Bool)) : VStop ⊕ VOut :=
  let x := s.tile t
  let si := (x.fmt mc).getD { elt := fp32 }
  let move := sameCode mc f.fd
  let w := si.elt.width
  let at_ (i : Nat) : BitSpan := (match idx with | some g => 8 * (g i).1 | none => eltBit si base stride i, w)
  let pidx (i : Nat) : Bool := match idx with | some g => (g i).2 | none => false
  let act := (List.range c.vl).filter (x.active f c.vl)
  let scs := if move then [] else scaleSpans si base scale c.vl (x.blockUsed f c.vl si.block)
  let spans := act.map at_ ++ scs.map (·.2)
  match memCheck si base stride idx.isSome (x.isBlock mc || x.isBlock f.fd) spans with
  | some e => .inl e
  | none =>
    let fd := x.elt f.fd
    let rm := c.mode f.rm
    let sc (i : Nat) : BitSpan := (8 * scaleOff si base scale (i / si.block), 8 * si.scale.bytes)
    let scaled := !move && si.block ≠ 0
    let pois (i : Nat) : Bool := s.spanPois t (at_ i) || (scaled && s.spanPois t (sc i))
    let res (i : Nat) : Nat × Nat :=
      let p := s.readSpan t (at_ i)
      if move then (p, 0)
      else
        let v := si.elt.decode p
        fd.convert rm f.sat (rsrWord c.seed (c.sri + i)) (if scaled then scaledElt si.scale (s.readSpan t (sc i)) v else v)
    let outs := x.outs f c.vl (fun i => some ((res i).1, pois i || pidx i))
    let seen := act.any pois
    .inr { st := s.updTile t (fun y => { y.putVec f.vd (x.lw f.fd) outs with poisonSeen := y.poisonSeen || seen })
           flags := orFlags (act.map (fun i => (res i).2))
           steps := bankSteps spans }

/-- A vector store from register format code `f.fs` to memory format `mc` (R253-R255, 06_number_formats.md R172, R174). -/
def State.vstore (s : State) (t mc rmc : Nat) (sat : Bool) (f : VOp) (c : VCtx) (base scale stride : Nat)
    (idx : Option (Nat → Nat × Bool)) : VStop ⊕ VOut :=
  let x := s.tile t
  let di := (x.fmt mc).getD { elt := fp32 }
  let move := sameCode mc f.fs
  let w := di.elt.width
  let at_ (i : Nat) : BitSpan := (match idx with | some g => 8 * (g i).1 | none => eltBit di base stride i, w)
  let act := (List.range c.vl).filter (x.active f c.vl)
  let block := di.block ≠ 0
  let scs := if move then [] else scaleSpans di base scale c.vl (fun _ => true)
  -- the absent elements of the last block, and the spare bits of the last byte
  let pads : List BitSpan :=
    if block then (List.range ((c.vl + di.block - 1) / di.block * di.block - c.vl)).map (fun k => at_ (c.vl + k))
    else if idx.isNone && stride = 0 && w * c.vl % 8 ≠ 0 && act.contains (c.vl - 1) then
      [(strBit base (w * c.vl), 8 - w * c.vl % 8)]
    else []
  let spans := act.map at_ ++ pads ++ scs.map (·.2)
  match memCheck di base stride idx.isSome (x.isBlock mc || x.isBlock f.fs) spans with
  | some e => .inl e
  | none =>
    let fs := x.elt f.fs
    let ls := x.lw f.fs
    let rm := c.mode rmc
    let pat (i : Nat) : Nat := eltOf (x.vreg f.vd) ls fs.width i
    let pois (i : Nat) : Bool := lanePois (x.vpois f.vd) ls i
    let vals := (List.range c.vl).map (fun i => if x.active f c.vl i then fs.decode (pat i) else absentVal)
    let (ps, scv, fl) : List Nat × List Nat × Nat :=
      if move then ((List.range c.vl).map pat, [], 0)
      else if block then toBlocks di rm sat c.seed c.sri vals
      else
        let rs := (vals.zipIdx).map (fun (v, i) => di.elt.convert rm sat (rsrWord c.seed (c.sri + i)) v)
        (rs.map (·.1), [], orFlags ((rs.zipIdx).map (fun (r, i) => if x.active f c.vl i then r.2 else 0)))
    let ws := act.map (fun i => (at_ i, ps.getD i 0, pois i)) ++ pads.map (fun b => (b, 0, false)) ++
      scs.map (fun e => (e.2, scv.getD e.1 0,
        (List.range di.block).any (fun k => let i := e.1 * di.block + k; x.active f c.vl i && pois i)))
    .inr { st := s.storeSpans t ws, flags := fl, steps := bankSteps spans }

/-- Perform a vector operation whose checks up to 0x07 have passed. -/
def State.vperform (s : State) (t op : Nat) (f : VOp) (c : VCtx) : VStop ⊕ VOut :=
  let x := s.tile t
  let up (g : Tile → Tile) : State := s.updTile t g
  let ls := x.lw f.fs
  let ws := (x.elt f.fs).width
  let ld := x.lw f.fd
  if op ≤ 0x16 || (0x30 ≤ op && op ≤ 0x3D) || op = 0x44 then
    let rs := (List.range c.vl).map (fun i => x.eltwise op f c i)
    let outs := x.outs f c.vl (fun i => some (rs.getD i ((0, false), 0)).1)
    let fl := orFlags ((rs.zipIdx).map (fun (r, i) => if x.active f c.vl i then r.2 else 0))
    .inr { st := up (fun y => y.putVec f.vd ld outs), flags := fl, steps := if 0x30 ≤ op && op ≤ 0x3C then 4 else 1 }
  else if 0x20 ≤ op && op ≤ 0x24 then
    let bit (i : Nat) : Bool × Nat :=
      eltCmp op (x.elt f.fs) (decide (0x0B ≤ f.fs)) (eltOf (x.vreg f.vs1) ls ws i) (x.srcB f c i).1
    .inr { st := up (fun y => y.putMask f.vd c.vl (fun i =>
             if x.active f c.vl i then some (bit i).1 else if f.kz then some false else none))
           flags := orFlags ((List.range c.vl).map (fun i => if x.active f c.vl i then (bit i).2 else 0)) }
  else if op = 0x28 then s.vcvt t f c
  else if 0x40 ≤ op && op ≤ 0x43 then .inr { st := up (fun y => y.putVec f.vd ls (x.permute op f c)), steps := 2 }
  else if op = 0x45 then
    if lanePois (x.vpois f.vs1) ls c.x2 then .inl (.trap 27 0x30)
    else .inr { st := s, steps := 0, xw := some (f.vd, eltOf (x.vreg f.vs1) ls ws c.x2) }
  else if op = 0x50 then s.vload t f.fs f c c.x1 c.x2 c.x3 none
  else if op = 0x51 then s.vstore t f.fd f.rm f.sat f c c.x1 c.x2 c.x3 none
  else if op = 0x52 then
    s.vload t f.fs f c c.x1 0 0 (some (fun i => ((c.x1 + eltOf (x.vreg f.vs2) 32 32 i) % 2 ^ 64, lanePois (x.vpois f.vs2) 32 i)))
  else if op = 0x53 then
    s.vstore t f.fd f.rm f.sat f c c.x1 0 0 (some (fun i => ((c.x1 + eltOf (x.vreg f.vs2) 32 32 i) % 2 ^ 64, false)))
  else if op = 0x54 then
    let act := (List.range c.vl).filter (x.active f c.vl)
    let spans : List BitSpan := act.map (fun i => (strBit c.x1 i, 1))
    if spans.any (fun b => padBytes ≤ spanHi b) then .inl (.trap 25 0x10)
    else
      let seen := spans.any (s.spanPois t)
      .inr { st := up (fun y => { y.putMask f.vd c.vl (fun i =>
               if x.active f c.vl i then some (s.readSpan t (strBit c.x1 i, 1) = 1) else if f.kz then some false else none) with
                 poisonSeen := y.poisonSeen || seen })
             steps := bankSteps spans }
  else if op = 0x55 then
    let act := (List.range c.vl).filter (x.active f c.vl)
    let pads : List BitSpan := if c.vl % 8 ≠ 0 then [(strBit c.x1 c.vl, 8 - c.vl % 8)] else []
    let spans : List BitSpan := act.map (fun i => (strBit c.x1 i, 1)) ++ pads
    if spans.any (fun b => padBytes ≤ spanHi b) then .inl (.trap 25 0x10)
    else
      let m := x.mask f.vd
      .inr { st := s.storeSpans t (act.map (fun i => ((strBit c.x1 i, 1), (if Nat.testBit m i then 1 else 0), false)) ++
               pads.map (fun b => (b, 0, false)))
             steps := bankSteps spans }
  else if 0x58 ≤ op && op ≤ 0x61 then
    let acc := SMap.getD x.acc f.vd {}
    let es := (List.range c.vl).map (fun i => if x.active f c.vl i then some (eltOf (x.vreg f.vs1) ls ws i) else none)
    let (a, fl) := acc.fold (x.elt f.fs) es (4096 / ls)
    let po := (List.range c.vl).any (fun i => x.active f c.vl i && lanePois (x.vpois f.vs1) ls i)
    .inr { st := up (fun y => { y with acc := SMap.set {} y.acc f.vd { a with poison := a.poison || po } }), flags := fl
           steps := if op = 0x59 then 4 else 1 }
  else if op = 0x62 then
    let acc := SMap.getD x.acc f.vs1 {}
    let fmt : Fmt := if acc.op ≤ 1 then fp32 else if 3 ≤ acc.op && acc.op ≤ 6 then x.elt acc.fmt else intFmt 64
    let fd := x.elt f.fd
    let rm := c.mode 7
    let res (i : Nat) : Nat × Nat :=
      let r := rsrWord c.seed (c.sri + i)
      if acc.op = 1 then
        -- an infinite sum is an infinity in FP32, BF16 and FP16 (06_number_formats.md R188)
        let (v, f1) := acc.sum.value rm
        let inf : Bool := match v with | .inf _ => f.fd ≤ 0x02 | _ => false
        let (p, f2) := fd.convert rm (f.sat && !inf) r v
        (p, f1 ||| f2)
      else fd.convert rm f.sat r (fmt.decode (acc.read fmt rm r).1)
    let outs := (List.range c.vl).map (fun i => some ((res i).1, acc.poison))
    .inr { st := up (fun y => y.putVec f.vd ld outs), flags := orFlags ((List.range c.vl).map (fun i => (res i).2)) }
  else if 0x68 ≤ op && op ≤ 0x6B then
    let a := x.mask f.vs1
    let b := x.mask f.vs2
    let bit (i : Nat) : Bool := match op with
      | 0x68 => Nat.testBit a i && Nat.testBit b i
      | 0x69 => Nat.testBit a i || Nat.testBit b i
      | 0x6A => Nat.testBit a i != Nat.testBit b i
      | _ => Nat.testBit a i && !Nat.testBit b i
    .inr { st := up (fun y => y.putMask f.vd c.vl (fun i =>
             if x.active f c.vl i then some (bit i) else if f.kz then some false else none)) }
  else
    let hits := (List.range c.vl).filter (fun i => x.active f c.vl i && Nat.testBit (x.mask f.vs1) i)
    .inr { st := s, steps := 0, xw := some (f.vd, if op = 0x6C then hits.length else (hits.head?).getD (2 ^ 64 - 1)) }

/-! ### One vector instruction at the vector unit -/

/-- The vector unit records a trap and makes it pending (07_loom_model.md R211): every later instruction of the queue is discarded. A core that waits
for an event goes on with 2 (08_loom_isa.md R262). -/
def State.vtrap (s : State) (t cause detail off : Nat) : State :=
  let n := (s.tile t).vq.length
  let s1 := s.updTile t (fun x => { x with
    lvepc := off % 2 ^ 21, trapRun := false, trapDetail := detail, trapIter := 0, trapUop := 0, lvdisc := n, vq := [], vtrap := some cause })
  match (s1.tile t).wait with
  | some (.event rd len _) => (s1.updTile t (fun x => { x with wait := none })).retire t rd 2 len
  | _ => s1

/-- An instruction names a custom format that was not valid at launch: the kernel ends without a trap (R213). -/
def State.endFormat (s : State) (t off : Nat) : State := s.finishKernel t fateFailed stFormatInvalid 0 5 0 (off % 2 ^ 21)

/-- What an instruction captures as it enters the queue (07_loom_model.md R201, R248). -/
def Tile.ctx (x : Tile) (f : VOp) : VCtx :=
  { vl := x.vl, lrm := x.lrm, seed := x.lseed, sri := x.lsridx, x1 := x.xr f.vs1, x2 := x.xr f.vs2, x3 := x.xr f.vs3 }

/-- Count lane steps (LOOM_BUSY). -/
def State.busySteps (s : State) (t n : Nat) : State := s.inc LOOM_BUSY_STEPS t n

/-- Accrue flags, and make VEC_FLAG pending for one that ltrapen enables: the results are written (R209, R211). -/
def State.accrue (s : State) (t flags off : Nat) : State :=
  let s1 := s.updTile t (fun x => { x with lflags := x.lflags ||| flags })
  if flags &&& (s1.tile t).ltrapen ≠ 0 then s1.vtrap t 24 0x20 off else s1

/-- The checks of a V64 instruction and its operation (08_loom_isa.md R242-R263). -/
def State.vdo (s : State) (t op : Nat) (f : VOp) (c : VCtx) : VStop ⊕ VOut :=
  match (s.tile t).check op f c.vl c.x2 false false false with
  | some e => .inl e
  | none => s.vperform t op f c

/-- What a V64 instruction did goes into the state: its integer register, its lane steps and its flags. -/
def VOut.apply (o : VOut) (t off : Nat) : State :=
  let s1 := match o.xw with | some (rd, v) => o.st.updTile t (fun y => y.setX rd v) | none => o.st
  (s1.busySteps t o.steps).accrue t o.flags off

/-- The vector unit performs a V64 instruction of the queue. -/
def State.vexec (s : State) (t off op : Nat) (f : VOp) (c : VCtx) : State :=
  match s.vdo t op f c with
  | .inl .badFmt => s.endFormat t off
  | .inl (.trap cause d) => s.vtrap t cause d off
  | .inr o => o.apply t off

end Sys2Proof.Machine
end

