-- ==== Sys2Proof/Machine/LoomProg.lean ====
section
/-!
DEFINITION. Machine/LoomProg.lean: accumulator instructions and element programs (07_loom_model.md R219-R229,
08_loom_isa.md R261, R264-R268).
-/

namespace Sys2Proof.Machine

/-! ### Queue instructions of 32 bits

Each is performed by the vector unit: `off` is its scratchpad offset, `a` the captured value of x[rs1]. -/

/-- LRRESET (R219): an empty accumulator with its operation and format. -/
def State.lrreset (u : State) (t off rd rs1 rs2 : Nat) : State :=
  let x := u.tile t
  let arg := 3 ≤ rs2 && rs2 ≤ 6
  if arg && 0x10 ≤ rs1 && (x.fmt rs1).isNone then u.endFormat t off
  else if 9 < rs2 || (!arg && rs1 ≠ 0) then u.vtrap t 26 0x02 off
  else if arg && 0x0F ≤ rs1 then u.vtrap t 26 0x03 off
  else if 3 < rd then u.vtrap t 26 0x05 off
  else u.updTile t (fun y => { y with acc := SMap.set {} y.acc rd { op := rs2, fmt := rs1 } })

/-- LRSAVE (R223): the 48-byte record of an accumulator. -/
def State.lrsave (u : State) (t off rd rs2 a : Nat) : State :=
  let x := u.tile t
  let acc := SMap.getD x.acc rd {}
  if rs2 ≠ 0 then u.vtrap t 26 0x02 off
  else if 3 < rd then u.vtrap t 26 0x05 off
  else if a % 16 ≠ 0 then u.vtrap t 26 0x08 off
  else if padBytes < a + 48 then u.vtrap t 25 0x10 off
  else
    let bytes := if acc.op = 1 then acc.sum.toBytes
      else natLe 8 (acc.read (x.elt acc.fmt) .rne 0).1 ++ natLe 8 (if acc.op = 5 || acc.op = 6 then acc.readIdx else 0) ++ zeros 32
    (u.storeSpans t ((bytes.zipIdx).map (fun (b, k) => ((8 * (a + k), 8), b.toNat, acc.poison)))).busySteps t 1

/-- Combine a record's bytes into an accumulator by its operation (R223), and the flags. A NaN that an ADD accumulator takes over becomes the canonical
one (06_number_formats.md R171). -/
def Accum.merge (acc : Accum) (elt : Fmt) (bytes : List Byte) : Accum × Nat :=
  let v := leNat (bytes.take 8)
  if acc.op = 1 then ({ acc with any := true, sum := acc.sum.merge (accOfBytes bytes) }, 0)
  else if acc.op = 0 then
    let w := v % 2 ^ 32
    if acc.any then (let (q, g) := addFp32 acc.val w; ({ acc with val := q }, g))
    else ({ acc with any := true, val := if (fp32.decode w).isNan then fp32.nanResult.1 else w }, 0)
  else if 3 ≤ acc.op && acc.op ≤ 6 then (acc.step elt v (leNat ((bytes.drop 8).take 8)), 0)
  else (acc.int v, 0)

/-- LRMERGE (R223). -/
def State.lrmerge (u : State) (t off rd rs2 a : Nat) : State :=
  let x := u.tile t
  let acc := SMap.getD x.acc rd {}
  if rs2 ≠ 0 then u.vtrap t 26 0x02 off
  else if 3 < rd then u.vtrap t 26 0x05 off
  else if padBytes < a + 48 then u.vtrap t 25 0x10 off
  else
    let po := u.poisoned (scratchCell t + a) 48
    let (m, fl) := acc.merge (x.elt acc.fmt) (u.bytes (scratchCell t + a) 48)
    ((u.updTile t (fun y => { y with
        acc := SMap.set {} y.acc rd { m with poison := m.poison || po }, poisonSeen := y.poisonSeen || po })).busySteps t 1).accrue
      t fl off

/-- What LRD or LRDI does once the vector unit has drained (R223, R261): poisoned data raises POISON_USE (R263); the flags of the rounding accrue
(06_number_formats.md R185, R188). -/
def State.lrread (u : State) (t rd rs1 rs2 : Nat) (index : Bool) : State :=
  let x := u.tile t
  let acc := SMap.getD x.acc rs1 {}
  if rs2 ≠ 0 || 3 < rs1 then u.trap t 2 x.pc (mkR 0x0B 1 (if index then 2 else 1) rd rs1 rs2)
  else if acc.poison then (u.updTile t (fun y => { y with trapDetail := 0x30 })).trap t 27 x.pc 0
  else if index then
    (if acc.op = 5 || acc.op = 6 then u.retire t rd acc.readIdx 4 else (u.retire t rd u.freeNat 4).fresh)
  else
    let (v, fl) := acc.read (x.elt acc.fmt) ((rmOf .rne x.lrm).getD .rne) (rsrWord x.lseed x.lsridx)
    (u.retire t rd v 4).accrue t fl (u.offOf t x.pc)

/-! ### Pattern images (R264-R266) -/

/-- A micro-op word, decoded (R265). -/
structure MicroOp where
  op : Nat
  f : VOp
  sk : Bool
  ksel : Nat
  str : Nat
  deriving DecidableEq, Repr

def microOf (w : Nat) : MicroOp :=
  { op := w % 128
    f := { vd := wBits w 11 7, vs1 := wBits w 16 12, vs2 := wBits w 21 17, vs3 := wBits w 26 22, fd := wBits w 31 27
           fs := wBits w 36 32, rm := wBits w 39 37, sat := wBits w 40 40 = 1, vmk := wBits w 43 41, kz := wBits w 44 44 = 1
           n1 := wBits w 45 45 = 1, rsv := wBits w 63 51 }
    sk := wBits w 48 48 = 1, ksel := wBits w 47 46, str := wBits w 50 49 }

/-- The operations of micro-ops (R266). -/
def microOps (op : Nat) : Bool :=
  op ≤ 0x16 || (0x20 ≤ op && op ≤ 0x24) || op = 0x28 || (0x30 ≤ op && op ≤ 0x3C) || op = 0x40 || op = 0x50 || op = 0x51 ||
  (0x58 ≤ op && op ≤ 0x61) || (0x68 ≤ op && op ≤ 0x6B)

/-- Whether a micro-op is a stream access. -/
def MicroOp.stream (m : MicroOp) : Bool := m.op = 0x50 || m.op = 0x51

/-- Whether a micro-op names a custom format whose slot was not valid when the kernel launched (R213). -/
def Tile.badMicro (x : Tile) (m : MicroOp) : Bool :=
  match opInfo m.op with
  | some i => microOps m.op && ((i.fsUsed && 0x10 ≤ m.f.fs && (x.fmt m.f.fs).isNone) || (i.fdUsed && 0x10 ≤ m.f.fd && (x.fmt m.f.fd).isNone))
  | none => false

/-- The check of a micro-op at LPLOAD (`load`) or as it runs (R266, R267). -/
def Tile.checkMicro (x : Tile) (m : MicroOp) (vl : Nat) (load : Bool) : Option VStop :=
  let i := (opInfo m.op).getD {}
  if !microOps m.op || (!m.stream && m.str ≠ 0) || (!m.sk && m.ksel ≠ 0) || (m.sk && !i.s) ||
      (m.op = 0x50 && m.f.fs ≠ 0) || (m.op = 0x51 && (m.f.fd ≠ 0 || m.f.rm ≠ 0 || m.f.sat)) ||
      (m.op = 0x28 && (x.isBlock m.f.fs || x.isBlock m.f.fd)) then some (vill 0x02)
  else x.check m.op m.f vl 0 m.stream m.sk load

/-- LPLOAD (R224, R264): check an image and copy it into a slot. -/
def State.lpload (u : State) (t off rd rs2 a : Nat) : State :=
  let x := u.tile t
  let head := u.bytes (scratchCell t + a) 8
  let n := (head.headD 0).toNat
  let illegal (k : Nat) : State := (u.vtrap t 26 0x0B off).updTile t (fun y => { y with trapUop := k })
  if rs2 ≠ 0 then u.vtrap t 26 0x02 off
  else if 15 < rd then u.vtrap t 26 0x05 off
  else if a % 8 ≠ 0 then u.vtrap t 26 0x08 off
  else if padBytes < a + 8 || padBytes < a + 8 + 8 * n then u.vtrap t 25 0x10 off
  else if !(1 ≤ n && n ≤ 64) || leNat (head.drop 1) ≠ 1 then illegal 0
  else
    let ws := (List.range n).map (fun k => leNat (u.bytes (scratchCell t + a + 8 + 8 * k) 8))
    if ws.any (fun w => x.badMicro (microOf w)) then u.endFormat t off
    else match (ws.zipIdx).find? (fun (w, _) => (x.checkMicro (microOf w) 0 true).isSome) with
      | some (_, k) => illegal k
      | none =>
        let po := u.poisoned (scratchCell t + a) (8 + 8 * n)
        (u.updTile t (fun y => { y with
          progs := SMap.set [] y.progs rd (ws.map (BitVec.ofNat 64)), poisonSeen := y.poisonSeen || po })).busySteps t 2

/-! ### Runs (R225-R229, R267, R268) -/

/-- A stream entry of a PRD (R226). -/
structure StreamEnt where
  base : Nat
  fmt : Nat
  used : Bool
  rm : Nat
  sat : Bool
  stride : Nat
  scale : Nat
  ok : Bool
  deriving DecidableEq, Repr

def streamOf (b : List Byte) : StreamEnt :=
  let g (lo n : Nat) : Nat := leNat ((b.drop lo).take n)
  { base := g 0 4, fmt := g 4 1 % 32, used := 128 ≤ g 4 1, rm := g 5 1 % 8, sat := g 5 1 / 8 % 2 = 1
    stride := sx 32 (g 8 4), scale := g 12 4, ok := g 4 1 / 32 % 4 = 0 && g 5 1 / 16 = 0 && g 6 2 = 0 }

/-- A pattern run descriptor (R226). -/
structure Prd where
  streams : List StreamEnt
  ks : List Nat
  n : Nat
  ok : Bool
  deriving DecidableEq, Repr

def prdOf (b : List Byte) : Prd :=
  let g (lo n : Nat) : Nat := leNat ((b.drop lo).take n)
  let st := (List.range 4).map (fun k => streamOf ((b.drop (16 * k)).take 16))
  { streams := st, ks := (List.range 4).map (fun k => g (64 + 8 * k) 8), n := g 96 8
    ok := decide (g 96 8 ≤ 2 ^ 32) && decide (g 104 24 = 0) && (st.filter (·.used)).all (·.ok) }

/-- A stream of a PRD. -/
def Prd.stream (p : Prd) (k : Nat) : StreamEnt := p.streams.getD k (streamOf [])

/-- Whether a stream's SCALE is 0 where its format has no separate scales (R226). -/
def Tile.scaleOk (x : Tile) (e : StreamEnt) : Bool :=
  e.scale = 0 || (match x.fmt e.fmt with | some fi => fi.block ≠ 0 && fi.place = 0 | none => false)

/-- Element offset and scale offset of a stream at position `pos` (R227). -/
def StreamEnt.baseAt (e : StreamEnt) (fi : FmtInfo) (pos : Nat) : Nat :=
  if e.stride ≠ 0 then (e.base + pos * e.stride) % 2 ^ 64 else spanLo (eltBit fi e.base 0 pos, 1)
def StreamEnt.scaleAt (e : StreamEnt) (fi : FmtInfo) (pos : Nat) : Nat :=
  if fi.block = 0 then e.scale else e.scale + pos / fi.block * fi.scale.bytes

/-- Whether a micro-op of a run rounds under RSR, by its own RM or its stream's CONV (R268). -/
def MicroOp.rsr (m : MicroOp) (p : Prd) (lrm : Nat) : Bool :=
  if m.op = 0x51 then (let r := (p.stream m.str).rm; r = 4 || (r = 7 && lrm = 4))
  else usesRsr lrm ((opInfo m.op).getD {}) m.f

/-- The widest register format that a pattern names (R225). -/
def Tile.widestProg (x : Tile) (ms : List MicroOp) : Nat :=
  ms.foldl (fun w m => max w (x.widest m.op ((opInfo m.op).getD {}) m.f)) 4

/-- Perform one micro-op at stream position `pos`, `k` micro-ops under RSR standing before it (R267, R268). -/
def State.micro (s : State) (t : Nat) (p : Prd) (m : MicroOp) (c0 : VCtx) (l k pos : Nat) : VStop ⊕ VOut :=
  let x := s.tile t
  let c := { c0 with sri := l + k * p.n + pos, k := if m.sk then some (p.ks.getD m.ksel 0) else none }
  let e := p.stream m.str
  let fi := (x.fmt e.fmt).getD { elt := fp32 }
  match x.checkMicro m c.vl false with
  | some z => .inl z
  | none =>
    if m.op = 0x50 then s.vload t e.fmt m.f c (e.baseAt fi pos) (e.scaleAt fi pos) e.stride none
    else if m.op = 0x51 then s.vstore t e.fmt e.rm e.sat m.f c (e.baseAt fi pos) (e.scaleAt fi pos) e.stride none
    else s.vperform t m.op m.f c

/-- A trap inside a run (R211, R229): lvrun and the stream offsets of the iteration. -/
def State.runTrap (s : State) (t cause detail off : Nat) (p : Prd) (iter uop pos : Nat) : State :=
  let x := s.tile t
  (s.vtrap t cause detail off).updTile t (fun y => { y with
    trapRun := true, trapIter := iter, trapUop := uop
    runOff := p.streams.map (fun e => if e.used then (e.baseAt ((x.fmt e.fmt).getD { elt := fp32 }) pos) % 2 ^ 21 else 0) })

/-- The micro-ops of one iteration, from number `uop` on; the flag says that the run goes on. -/
def State.iterate (t off : Nat) (p : Prd) (c : VCtx) (l iter pos : Nat) : List MicroOp → Nat → Nat → State → State × Bool
  | [], _, _, s => (s, true)
  | m :: ms, uop, k, s =>
    match s.micro t p m c l k pos with
    | .inl .badFmt => (s.endFormat t off, false)
    | .inl (.trap cause d) => (s.runTrap t cause d off p iter uop pos, false)
    | .inr o =>
      let s1 := (o.st.busySteps t o.steps).updTile t (fun y => { y with lflags := y.lflags ||| o.flags })
      if o.flags &&& (s1.tile t).ltrapen ≠ 0 then (s1.runTrap t 24 0x20 off p iter uop pos, false)
      else State.iterate t off p c l iter pos ms (uop + 1) (if m.rsr p c.lrm then k + 1 else k) s1

/-- The iterations of a run; `left` bounds them. -/
def State.runLoop (t off : Nat) (p : Prd) (ms : List MicroOp) (vlmax l : Nat) (c : VCtx) : Nat → Nat → State → State
  | 0, _, s => s
  | left + 1, iter, s =>
    let pos := iter * vlmax
    let vl := min vlmax (p.n - pos)
    match State.iterate t off p { c with vl := vl } l iter pos ms 0 0 s with
    | (s1, true) => State.runLoop t off p ms vlmax l c left (iter + 1) s1
    | (s1, false) => s1

/-- The number of micro-ops of a slot that round under RSR in a run (R268). -/
def Tile.rsrCount (x : Tile) (slot : Nat) (p : Prd) (lrm : Nat) : Nat :=
  ((SMap.getD x.progs slot []).filter (fun w => (microOf w.toNat).rsr p lrm)).length

/-- LPRUN (R225-R229): run the pattern of a slot over the streams of the PRD that was read at entry; `bad` says that it was poisoned. A custom format
that the slot or a stream names and that was not valid at launch ends the kernel first (R213). -/
def State.lprun (u : State) (t off rd rs2 : Nat) (c : VCtx) (prd : List Byte) (bad : Bool) : State :=
  let x := u.tile t
  let ms := (SMap.getD x.progs rd []).map (fun w => microOf w.toNat)
  let p := prdOf prd
  let names := (ms.filter (·.stream)).map (fun m => p.stream m.str)
  let illegal (d k : Nat) : State := u.runTrap t 26 d off p 0 k 0
  if ms.any x.badMicro || names.any (fun e => e.used && 0x10 ≤ e.fmt && (x.fmt e.fmt).isNone) then u.endFormat t off
  else if rs2 ≠ 0 then u.vtrap t 26 0x02 off
  else if 15 < rd then u.vtrap t 26 0x05 off
  else if c.x1 % 128 ≠ 0 then u.vtrap t 26 0x08 off
  else if padBytes < c.x1 + 128 then u.vtrap t 25 0x10 off
  else if ms.isEmpty then illegal 0x0B 0
  else if !p.ok || !(p.streams.filter (·.used)).all x.scaleOk then illegal 0x02 0
  else if names.any (fun e => e.used && e.fmt = 0x0F) then illegal 0x03 0
  else if names.any (fun e => e.used && (e.rm = 5 || e.rm = 6)) then illegal 0x07 0
  else match (ms.zipIdx).find? (fun (m, _) => m.stream && !(p.stream m.str).used) with
    | some (_, k) => illegal 0x0A k
    | none =>
      let vlmax := 4096 / x.widestProg ms
      let u1 := u.updTile t (fun y => { y with poisonSeen := y.poisonSeen || bad })
      State.runLoop t off p ms vlmax c.sri { lrm := c.lrm, seed := c.seed } ((p.n + vlmax - 1) / vlmax) 0 u1

end Sys2Proof.Machine
end

