-- ==== Sys2Proof/Machine/LoomQueue.lean ====
section
/-!
DEFINITION. Machine/LoomQueue.lean: the vector queue of a Loom tile: how an Xloom instruction enters it, when the vector unit performs it, and the
instructions that wait for it (07_loom_model.md R195, R201, R202, R211, R225, 08_loom_isa.md R248, R262, R268).
-/

namespace Sys2Proof.Machine

/-! ### The vector unit -/

/-- Perform an entry that has left the queue. -/
def State.vqPerform (s : State) (t : Nat) (e : VqEntry) : State :=
  match e.ins with
  | .v64 op f => s.vexec t e.off op f e.c
  | .q32 f3 f7 rd rs1 rs2 prd bad =>
    match f3, f7 with
    | 1, 0 => s.lrreset t e.off rd rs1 rs2
    | 1, 3 => s.lrsave t e.off rd rs2 e.c.x1
    | 1, 4 => s.lrmerge t e.off rd rs2 e.c.x1
    | 2, 0 => s.lpload t e.off rd rs2 e.c.x1
    | _, _ => s.lprun t e.off rd rs2 e.c prd bad

/-- The vector unit of a tile performs the oldest entry of its queue (R202). -/
def State.lanesTurn (s : State) (t : Nat) : State :=
  match (s.tile t).vq with
  | e :: r => (s.updTile t (fun x => { x with vq := r })).vqPerform t e
  | [] => s

/-- Perform up to `n` entries. -/
def State.lanesRun (t : Nat) : Nat → State → State
  | 0, s => s
  | n + 1, s => if (s.tile t).vq.isEmpty then s else State.lanesRun t n (s.lanesTurn t)

/-- Wait for every earlier vector instruction (R202); a trap on the way discards the rest (R211). -/
def State.lanesDrain (s : State) (t : Nat) : State := State.lanesRun t (s.tile t).vq.length s

/-- A nanosecond in which nothing is commanded: every vector unit goes on (log entry 22). -/
def State.tickLanes (s : State) : State :=
  s.tiles.foldl (fun u e => u.lanesTurn e.1) { s with time := s.time + 1 }

/-! ### Xloom instructions at the core -/

/-- An Xloom instruction: while the queue is full the core stalls until an entry leaves it (R201); a trap that this raises is taken first. -/
def State.xcore (s : State) (t len : Nat) (f : State → State) : State :=
  s.core t len (fun u => if 16 ≤ (u.tile t).vq.length then (u.lanesTurn t).core t len f else f u)

/-- An instruction that waits for the vector unit completes on the state after any discard (08_loom_isa.md R262). -/
def State.waiting (s : State) (t len : Nat) (f : State → State) : State :=
  s.core t len (fun u => let u1 := u.lanesDrain t; if (u1.tile t).ready then f u1 else u1)

/-- An instruction enters the queue, and the core goes on. -/
def State.enqueue (s : State) (t len : Nat) (e : VqEntry) : State :=
  (s.updTile t (fun x => { x with vq := x.vq ++ [e] })).advance t len

/-- The instruction's offset as R211 records it. -/
def State.insOff (s : State) (t : Nat) : Nat := s.offOf t (s.tile t).pc

/-- lsridx advances in program order (R208, 08_loom_isa.md R248, R268). -/
def State.advanceRsr (s : State) (t n : Nat) : State := s.updTile t (fun x => { x with lsridx := (x.lsridx + n) % 2 ^ 64 })

/-- A V64 instruction that answers into an integer register waits for the vector unit and is precise on poison (08_loom_isa.md R262, R263). -/
def State.vecRead (s : State) (t op : Nat) (f : VOp) : State :=
  s.waiting t 8 (fun u =>
    let x := u.tile t
    let off := u.insOff t
    match u.vdo t op f (x.ctx f) with
    | .inl .badFmt => u.endFormat t off
    | .inl (.trap 27 d) => (u.updTile t (fun y => { y with trapDetail := d })).trap t 27 x.pc 0
    | .inl (.trap cause d) => (u.vtrap t cause d off).advance t 8
    | .inr o => (o.apply t off).advance t 8)

/-- A V64 instruction of the core's program (R201, 08_loom_isa.md R242, R248). -/
def State.vec (s : State) (t op : Nat) (f : VOp) : State :=
  if op = 0x45 || op = 0x6C || op = 0x6D then s.vecRead t op f
  else s.xcore t 8 (fun u =>
    let x := u.tile t
    let c := x.ctx f
    let rsr : Bool := match opInfo op with | some i => usesRsr x.lrm i f | none => false
    (if rsr then u.advanceRsr t c.vl else u).enqueue t 8 { off := u.insOff t, ins := .v64 op f, c := c })

/-- A queue instruction of 32 bits. -/
def State.queue32 (s : State) (t f3 f7 rd rs1 rs2 : Nat) : State :=
  s.xcore t 4 (fun u =>
    let x := u.tile t
    u.enqueue t 4 { off := u.insOff t, ins := .q32 f3 f7 rd rs1 rs2 [] false, c := { x1 := x.xr rs1 } })

/-- Whether an LPLOAD waits in the queue. -/
def Tile.loadQueued (x : Tile) : Bool := x.vq.any (fun e => match e.ins with | .q32 2 0 _ _ _ _ _ => true | _ => false)

/-- LPRUN enters the queue: its PRD is read then (R225), and lsridx advances by what the run will use (08_loom_isa.md R268). An LPLOAD still in the
queue is performed first, since it may give the slot its image (log entry 22). -/
def State.lprunEnter (s : State) (t rd rs1 rs2 : Nat) : State :=
  let enter (u : State) : State :=
    let x := u.tile t
    let a := x.xr rs1
    let readable : Bool := a % 128 = 0 && a + 128 ≤ padBytes
    let prd := if readable then u.bytes (scratchCell t + a) 128 else []
    let p := prdOf prd
    let c : VCtx := { lrm := x.lrm, seed := x.lseed, sri := x.lsridx, x1 := a }
    (u.advanceRsr t (if readable && p.ok then x.rsrCount rd p x.lrm * p.n else 0)).enqueue t 4
      { off := u.insOff t, ins := .q32 2 1 rd rs1 rs2 prd (readable && u.poisoned (scratchCell t + a) 128), c := c }
  s.xcore t 4 (fun u => if (u.tile t).loadQueued then (u.lanesDrain t).core t 4 enter else enter u)

end Sys2Proof.Machine
end

