-- ==== Sys2Proof/Machine/LoomCmds.lean ====
section
/-!
DEFINITION. Machine/LoomCmds.lean: the commands of the Loom tiles (07_loom_model.md, 08_loom_isa.md) and the commit of the
custom-format table (06_number_formats.md R179). A command that is an instruction is one that the control core of the
tile has fetched at its pc (log entry 23); where no kernel runs, or the core waits, nothing happens.
-/

namespace Sys2Proof.Machine

/-! ### Custom formats (06_number_formats.md R176-R180) -/

/-- MOV_FMT_CTL.COMMIT: the shadow becomes the active table, a slot that fails R176 counting as not valid. While a commit is
in progress the write is refused (R180). -/
def execFmtCommit (s : State) : Res :=
  .next (if s.flag MOV_FMT_CTL_COMMIT then s.wr MOV_FMT_CTL_REJECTED 0 1
  else
    let ds := (List.range 16).map (fun k => s.reg MOV_FMT_DESC k)
    let bad := (ds.zipIdx).foldl (fun n (d, k) => n + (if descBits d 63 63 = 1 && !descOk d then 2 ^ k else 0)) 0
    let s1 : State := { s with fmtTable := ds.map (fun d => if descBits d 63 63 = 1 && descOk d then d else 0) }
    ((s1.wr MOV_FMT_CTL_BAD 0 bad).wr MOV_FMT_CTL_GEN 0 ((s.rd MOV_FMT_CTL_GEN + 1) % 65536)).wr MOV_FMT_CTL_COMMIT 0 1)

/-- COMMIT clears once every open unit holds the new table. -/
def execFmtCommitDone (s : State) : Res := .next (s.wr MOV_FMT_CTL_COMMIT 0 0)

/-! ### Launch and end -/

/-- Deliver a unit request (opcodes 0x0B to 0x0F) to its destination and let the unit handle it once it is accepted, as its source and TXN name it there;
a refusal on the way is answered there. -/
def State.deliverUnit (s : State) (p : Pkt) (h : State → Nat → Pkt → State) : State :=
  let d := if p.dest = noAgent then (s.stamp p).dest else p.dest
  let entry (t : State) : Option Pkt := (t.iface d).inbound.find? (fun q => q.opc = p.opc && q.src = p.src && q.txn = p.txn)
  match entry s with
  | some q => h s d q
  | none =>
    let s1 := s.request p
    match entry s1 with
    | some q => h s1 d q
    | none => s1

/-- A DISPATCH reaches a Loom tile (R230-R232). -/
def execLoomDispatch (p : Pkt) (s : State) : Res :=
  .next (s.deliverUnit { p with opc := 0x0B } (fun u d q => if kindOf d = .tile then u.tileDispatch d q else u))

/-- An accepted launch starts, or stays pending behind a running kernel (R233). -/
def execLoomLaunch (tile : Nat) (s : State) : Res :=
  let x := s.tile tile
  .next (match x.run, x.launches with
  | none, r :: _ => s.startKernel tile r
  | _, _ => s)

/-- A CLAIM (R231): the owner is set, after a wipe where the tenant differs, and the item is done. -/
def execLoomClaimRecord (tile : Nat) (s : State) : Res :=
  .next (match (s.tile tile).claim with
  | some r =>
    let s1 := s.updTile tile (fun y => { y with claim := none })
    let s2 := if r.tenant ≠ s.rd LOOM_STAT_OWNER tile then s1.wipeTile tile else s1
    (s2.wr LOOM_STAT_OWNER tile r.tenant).send (completionPkt (tileAgent tile) r.item fateDone 0 true 0)
  | none => s)

/-- A PARK (R237): the tile keeps its scratchpad, registers, slots and owner, its volatile settings return to default, and
the item is done. -/
def execLoomParkRecord (tile : Nat) (s : State) : Res :=
  .next (match (s.tile tile).park with
  | some r =>
    (s.updTile tile (fun y => { y.volatileReset with parked := true })).send
      (completionPkt (tileAgent tile) r.item fateDone 0 true 0)
  | none => s)

/-- BUDGET_US has passed (R235). -/
def execLoomBudgetExpire (tile : Nat) (s : State) : Res :=
  .next (match (s.tile tile).run with
  | some r => if r.budget ≠ 0 && !r.persist then s.stopKernel tile stLoomBudget 3 else s
  | none => s)

/-! ### Core instructions -/

/-- A core instruction of custom-0: the fields it does not use must be 0, or it is illegal (R261). With `waits` it waits for the vector unit. -/
def State.core32 (s : State) (t f3 f7 rd r1 r2 : Nat) (ok waits : Bool) (f : State → State) : State :=
  let g (u : State) : State := if ok then f u else u.trap t 2 (u.tile t).pc (mkR 0x0B f3 f7 rd r1 r2)
  if waits then s.waiting t 4 g else s.xcore t 4 g

/-- LRD and LRDI (R223). -/
def State.lrd (s : State) (t rd rs1 rs2 : Nat) (index : Bool) : State := s.waiting t 4 (fun u => u.lrread t rd rs1 rs2 index)

/-- LSETVL (R205). -/
def State.lsetvl (s : State) (t rd rs1 rs2 ww : Nat) : State :=
  s.core32 t 0 ww rd rs1 rs2 (rs2 = 0 && ww < 4) false (fun u =>
    let vl := min ((u.tile t).xr rs1) (4096 / (4 * 2 ^ ww))
    (u.updTile t (fun x => { x with vl := vl })).retire t rd vl 4)

/-- LVSYNC (R202). -/
def State.lvsync (s : State) (t rd rs1 rs2 : Nat) : State :=
  s.core32 t 3 0 rd rs1 rs2 (rd = 0 && rs1 = 0 && rs2 = 0) true (fun u => u.advance t 4)

/-- An EVT_OP to the Steward engine (11_steward_commands.md R378). -/
def evtOpPkt (op handle : Nat) : Pkt := { opc := 0x0C, dst := 0x190, data := natLe 8 op ++ natLe 8 handle }

/-- LSIGNAL (R202, 03_memory_model.md R92): LVSYNC, FENCE.REMOTE, then the signal. -/
def State.lsignal (s : State) (t rd rs1 rs2 : Nat) : State :=
  s.core32 t 3 2 rd rs1 rs2 (rd = 0 && rs2 = 0) true (fun u =>
    let h := (u.tile t).xr rs1
    (u.coreFence t true).coreIssue t (evtOpPkt 0 h) (fun x => .glob x 0 0 0 4 true true false))

/-- LWAIT (08_loom_isa.md R262): the wait is registered; a vector trap that becomes pending ends it with 2. -/
def State.lwait (s : State) (t rd rs1 rs2 : Nat) : State :=
  s.core32 t 3 3 rd rs1 rs2 true false (fun u =>
    let x := u.tile t
    u.coreIssue t (evtOpPkt 1 (x.xr rs1)) (fun n => .reg n rd 4 (x.xr rs2)))

/-- LEND and LFAIL (R234): behind LVSYNC and FENCE.REMOTE the kernel ends; a vector trap that the wait meets is taken first. -/
def State.lend (s : State) (t rd rs1 rs2 : Nat) (fail : Bool) : State :=
  let f7 := if fail then 5 else 4
  s.core32 t 3 f7 rd rs1 rs2 (rd = 0 && rs2 = 0) true (fun u =>
    u.core t 4 (fun u1 =>
      let v := (u1.tile t).xr rs1
      let off := u1.insOff t % 2 ^ 21
      if fail then u1.finishKernel t fateFailed stKernelError (v % 2 ^ 32) 1 0 off else u1.finishKernel t fateDone 0 v 0 0 off))

/-- The Xloom FENCE.REMOTE instruction (03_memory_model.md R87). -/
def State.xFenceRemote (s : State) (t rd rs1 rs2 : Nat) : State :=
  s.core32 t 3 1 rd rs1 rs2 (rd = 0 && rs1 = 0 && rs2 = 0) false (fun u => ((u.advance t 4).coreFence t true).awaitFence t)

/-- A custom-0 word (R240, R261). -/
def State.custom0 (s : State) (t w : Nat) : State :=
  let rd := wBits w 11 7
  let r1 := wBits w 19 15
  let r2 := wBits w 24 20
  match wBits w 14 12, wBits w 31 25 with
  | 1, 0 => s.queue32 t 1 0 rd r1 r2
  | 1, 1 => s.lrd t rd r1 r2 false
  | 1, 2 => s.lrd t rd r1 r2 true
  | 1, 3 => s.queue32 t 1 3 rd r1 r2
  | 1, 4 => s.queue32 t 1 4 rd r1 r2
  | 2, 0 => s.queue32 t 2 0 rd r1 r2
  | 2, 1 => s.lprunEnter t rd r1 r2
  | 3, 0 => s.lvsync t rd r1 r2
  | 3, 1 => s.xFenceRemote t rd r1 r2
  | 3, 2 => s.lsignal t rd r1 r2
  | 3, 3 => s.lwait t rd r1 r2
  | 3, 4 => s.lend t rd r1 r2 false
  | 3, 5 => s.lend t rd r1 r2 true
  | 0, f7 => if f7 < 4 then s.lsetvl t rd r1 r2 f7 else s.core t 4 (fun u => u.trap t 2 (u.tile t).pc w)
  | _, _ => s.core t 4 (fun u => u.trap t 2 (u.tile t).pc w)

/-- The fields of a V64 word (R243). -/
def vopOf (w : Nat) : VOp :=
  { vd := wBits w 23 19, vs1 := wBits w 28 24, vs2 := wBits w 33 29, vs3 := wBits w 38 34, fd := wBits w 43 39
    fs := wBits w 48 44, rm := wBits w 51 49, sat := wBits w 52 52 = 1, vmk := wBits w 55 53, kz := wBits w 56 56 = 1
    s := wBits w 57 57 = 1, n1 := wBits w 58 58 = 1, rsv := wBits w 63 59 }

/-- Execute one instruction of the core, given as its word: compressed, 32 bits or V64 (R240, R241, 07_loom_model.md R197). A
read of lflags waits on the vector unit (R202). -/
def State.coreWord (s : State) (t w : Nat) : State :=
  let h := w % 2 ^ 16
  let w32 := w % 2 ^ 32
  if w % 4 ≠ 3 then
    s.core t 2 (fun u => match expandC h with
      | some x => u.rv t x 2
      | none => u.trap t 2 (u.tile t).pc h)
  else if w % 128 = 0x3F then
    (if wBits w 11 7 = 0x0B then s.vec t (wBits w 18 12) (vopOf w) else s.core t 8 (fun u => u.trap t 2 (u.tile t).pc w))
  else if w % 32 = 31 then s.core t 2 (fun u => u.trap t 2 (u.tile t).pc w32)
  else if w % 128 = 0x0B then s.custom0 t w32
  else if w % 128 = 0x73 && wBits w 31 20 = 0x7C3 then s.waiting t 4 (fun u => u.rv t w32 4)
  else s.core t 4 (fun u => u.rv t w32 4)

def execScalarInstruction (tile : Nat) (w : Word) (s : State) : Res := .next (s.coreWord tile w.toNat)

/-- MRET (R212). -/
def execMret (tile : Nat) (s : State) : Res := .next (s.core tile 4 (fun u => u.mret tile))

/-- FENCE.I (R199): fetches of the model see the scratchpad as it is. -/
def execFenceI (tile : Nat) (s : State) : Res := .next (s.core tile 4 (fun u => u.advance tile 4))

/-- Scalar accesses by their operands: LW, LD and LWU, SW and SD, the AMOs by ATOM operation, LR and SC. -/
def execGlobalLoad (tile rd rs1 imm size : Nat) (uns : Bool) (s : State) : Res :=
  .next (s.core tile 4 (fun u => u.coreLoad tile rd (add64 ((u.tile tile).xr rs1) (sx 12 imm)) size 4 uns))
def execGlobalStore (tile rs1 rs2 imm size : Nat) (s : State) : Res :=
  .next (s.core tile 4 (fun u =>
    u.coreStore tile ((u.tile tile).xr rs2) (add64 ((u.tile tile).xr rs1) (sx 12 imm)) size 4))
def execGlobalAmo (tile aop rd rs1 rs2 size : Nat) (aq rl : Bool) (s : State) : Res :=
  .next (s.core tile 4 (fun u => u.coreAmo tile aop rd ((u.tile tile).xr rs1) ((u.tile tile).xr rs2) size 4 aq rl))
def execLr (tile rd rs1 size : Nat) (s : State) : Res :=
  .next (s.core tile 4 (fun u => u.coreLr tile rd ((u.tile tile).xr rs1) size 4))
def execSc (tile rd rs1 rs2 size : Nat) (s : State) : Res :=
  .next (s.core tile 4 (fun u => u.coreSc tile rd ((u.tile tile).xr rs1) ((u.tile tile).xr rs2) size 4))

def execLsetvl (tile rd rs1 rs2 ww : Nat) (s : State) : Res := .next (s.lsetvl tile rd rs1 rs2 ww)
def execLvsync (tile rd rs1 rs2 : Nat) (s : State) : Res := .next (s.lvsync tile rd rs1 rs2)
def execLsignal (tile rd rs1 rs2 : Nat) (s : State) : Res := .next (s.lsignal tile rd rs1 rs2)
def execLwait (tile rd rs1 rs2 : Nat) (s : State) : Res := .next (s.lwait tile rd rs1 rs2)

/-- The limit of an LWAIT passes (08_loom_isa.md R262). -/
def execLwaitLimit (tile : Nat) (s : State) : Res :=
  .next (match (s.tile tile).wait with
  | some (.event rd len limit) =>
    if limit = 0 then s else (s.updTile tile (fun x => { x with wait := none })).retire tile rd 1 len
  | _ => s)

def execLend (tile rd rs1 rs2 : Nat) (s : State) : Res := .next (s.lend tile rd rs1 rs2 false)
def execLfail (tile rd rs1 rs2 : Nat) (s : State) : Res := .next (s.lend tile rd rs1 rs2 true)

/-! ### Queue instructions -/

def execLrreset (tile rd rs1 rs2 : Nat) (s : State) : Res := .next (s.queue32 tile 1 0 rd rs1 rs2)
def execLrd (tile rd rs1 rs2 : Nat) (s : State) : Res := .next (s.lrd tile rd rs1 rs2 false)
def execLrdi (tile rd rs1 rs2 : Nat) (s : State) : Res := .next (s.lrd tile rd rs1 rs2 true)
def execLrsave (tile rd rs1 rs2 : Nat) (s : State) : Res := .next (s.queue32 tile 1 3 rd rs1 rs2)
def execLrmerge (tile rd rs1 rs2 : Nat) (s : State) : Res := .next (s.queue32 tile 1 4 rd rs1 rs2)
def execLpload (tile rd rs1 rs2 : Nat) (s : State) : Res := .next (s.queue32 tile 2 0 rd rs1 rs2)
def execLprun (tile rd rs1 rs2 : Nat) (s : State) : Res := .next (s.lprunEnter tile rd rs1 rs2)

/-! ### Vector instructions (R251) -/

def execVadd (tile : Nat) (f : VOp) (s : State) : Res := .next (s.vec tile 0x00 f)
def execVsub (tile : Nat) (f : VOp) (s : State) : Res := .next (s.vec tile 0x01 f)
def execVmul (tile : Nat) (f : VOp) (s : State) : Res := .next (s.vec tile 0x02 f)
def execVfma (tile : Nat) (f : VOp) (s : State) : Res := .next (s.vec tile 0x03 f)
def execVfms (tile : Nat) (f : VOp) (s : State) : Res := .next (s.vec tile 0x04 f)
def execVfnma (tile : Nat) (f : VOp) (s : State) : Res := .next (s.vec tile 0x05 f)
def execVfnms (tile : Nat) (f : VOp) (s : State) : Res := .next (s.vec tile 0x06 f)
def execVmin (tile : Nat) (f : VOp) (s : State) : Res := .next (s.vec tile 0x07 f)
def execVmax (tile : Nat) (f : VOp) (s : State) : Res := .next (s.vec tile 0x08 f)
def execVabs (tile : Nat) (f : VOp) (s : State) : Res := .next (s.vec tile 0x09 f)
def execVneg (tile : Nat) (f : VOp) (s : State) : Res := .next (s.vec tile 0x0A f)
def execVsel (tile : Nat) (f : VOp) (s : State) : Res := .next (s.vec tile 0x0B f)
def execVand (tile : Nat) (f : VOp) (s : State) : Res := .next (s.vec tile 0x10 f)
def execVor (tile : Nat) (f : VOp) (s : State) : Res := .next (s.vec tile 0x11 f)
def execVxor (tile : Nat) (f : VOp) (s : State) : Res := .next (s.vec tile 0x12 f)
def execVsll (tile : Nat) (f : VOp) (s : State) : Res := .next (s.vec tile 0x13 f)
def execVsrl (tile : Nat) (f : VOp) (s : State) : Res := .next (s.vec tile 0x14 f)
def execVsra (tile : Nat) (f : VOp) (s : State) : Res := .next (s.vec tile 0x15 f)
def execVmulh (tile : Nat) (f : VOp) (s : State) : Res := .next (s.vec tile 0x16 f)
def execVcmpeq (tile : Nat) (f : VOp) (s : State) : Res := .next (s.vec tile 0x20 f)
def execVcmpne (tile : Nat) (f : VOp) (s : State) : Res := .next (s.vec tile 0x21 f)
def execVcmplt (tile : Nat) (f : VOp) (s : State) : Res := .next (s.vec tile 0x22 f)
def execVcmple (tile : Nat) (f : VOp) (s : State) : Res := .next (s.vec tile 0x23 f)
def execVcmpun (tile : Nat) (f : VOp) (s : State) : Res := .next (s.vec tile 0x24 f)
def execVcvt (tile : Nat) (f : VOp) (s : State) : Res := .next (s.vec tile 0x28 f)
def execVrcp (tile : Nat) (f : VOp) (s : State) : Res := .next (s.vec tile 0x30 f)
def execVrsqrt (tile : Nat) (f : VOp) (s : State) : Res := .next (s.vec tile 0x31 f)
def execVsqrt (tile : Nat) (f : VOp) (s : State) : Res := .next (s.vec tile 0x32 f)
def execVdiv (tile : Nat) (f : VOp) (s : State) : Res := .next (s.vec tile 0x33 f)
def execVexp (tile : Nat) (f : VOp) (s : State) : Res := .next (s.vec tile 0x34 f)
def execVexp2 (tile : Nat) (f : VOp) (s : State) : Res := .next (s.vec tile 0x35 f)
def execVln (tile : Nat) (f : VOp) (s : State) : Res := .next (s.vec tile 0x36 f)
def execVlog2 (tile : Nat) (f : VOp) (s : State) : Res := .next (s.vec tile 0x37 f)
def execVtanh (tile : Nat) (f : VOp) (s : State) : Res := .next (s.vec tile 0x38 f)
def execVsigm (tile : Nat) (f : VOp) (s : State) : Res := .next (s.vec tile 0x39 f)
def execVsin (tile : Nat) (f : VOp) (s : State) : Res := .next (s.vec tile 0x3A f)
def execVcos (tile : Nat) (f : VOp) (s : State) : Res := .next (s.vec tile 0x3B f)
def execVerf (tile : Nat) (f : VOp) (s : State) : Res := .next (s.vec tile 0x3C f)
def execVrand (tile : Nat) (f : VOp) (s : State) : Res := .next (s.vec tile 0x3D f)
def execVperm (tile : Nat) (f : VOp) (s : State) : Res := .next (s.vec tile 0x40 f)
def execVslideup (tile : Nat) (f : VOp) (s : State) : Res := .next (s.vec tile 0x41 f)
def execVslidedn (tile : Nat) (f : VOp) (s : State) : Res := .next (s.vec tile 0x42 f)
def execVcompress (tile : Nat) (f : VOp) (s : State) : Res := .next (s.vec tile 0x43 f)
def execLbcast (tile : Nat) (f : VOp) (s : State) : Res := .next (s.vec tile 0x44 f)
def execLext (tile : Nat) (f : VOp) (s : State) : Res := .next (s.vec tile 0x45 f)
def execVld (tile : Nat) (f : VOp) (s : State) : Res := .next (s.vec tile 0x50 f)
def execVst (tile : Nat) (f : VOp) (s : State) : Res := .next (s.vec tile 0x51 f)
def execVldx (tile : Nat) (f : VOp) (s : State) : Res := .next (s.vec tile 0x52 f)
def execVstx (tile : Nat) (f : VOp) (s : State) : Res := .next (s.vec tile 0x53 f)
def execVmld (tile : Nat) (f : VOp) (s : State) : Res := .next (s.vec tile 0x54 f)
def execVmst (tile : Nat) (f : VOp) (s : State) : Res := .next (s.vec tile 0x55 f)
def execVredAdd (tile : Nat) (f : VOp) (s : State) : Res := .next (s.vec tile 0x58 f)
def execVredExact (tile : Nat) (f : VOp) (s : State) : Res := .next (s.vec tile 0x59 f)
def execVredIadd (tile : Nat) (f : VOp) (s : State) : Res := .next (s.vec tile 0x5A f)
def execVredMax (tile : Nat) (f : VOp) (s : State) : Res := .next (s.vec tile 0x5B f)
def execVredMin (tile : Nat) (f : VOp) (s : State) : Res := .next (s.vec tile 0x5C f)
def execVredArgmax (tile : Nat) (f : VOp) (s : State) : Res := .next (s.vec tile 0x5D f)
def execVredArgmin (tile : Nat) (f : VOp) (s : State) : Res := .next (s.vec tile 0x5E f)
def execVredAnd (tile : Nat) (f : VOp) (s : State) : Res := .next (s.vec tile 0x5F f)
def execVredOr (tile : Nat) (f : VOp) (s : State) : Res := .next (s.vec tile 0x60 f)
def execVredXor (tile : Nat) (f : VOp) (s : State) : Res := .next (s.vec tile 0x61 f)
def execLrbcast (tile : Nat) (f : VOp) (s : State) : Res := .next (s.vec tile 0x62 f)
def execVmand (tile : Nat) (f : VOp) (s : State) : Res := .next (s.vec tile 0x68 f)
def execVmor (tile : Nat) (f : VOp) (s : State) : Res := .next (s.vec tile 0x69 f)
def execVmxor (tile : Nat) (f : VOp) (s : State) : Res := .next (s.vec tile 0x6A f)
def execVmandn (tile : Nat) (f : VOp) (s : State) : Res := .next (s.vec tile 0x6B f)
def execLmpop (tile : Nat) (f : VOp) (s : State) : Res := .next (s.vec tile 0x6C f)
def execLmfirst (tile : Nat) (f : VOp) (s : State) : Res := .next (s.vec tile 0x6D f)

end Sys2Proof.Machine
end

