-- ==== Sys2Proof/Machine/Dma.lean ====
section
/-!
DEFINITION. Machine/Dma.lean: how movers, Mill slices and the Steward read and write memory: as requests of their own, by
granule (02_commons.md R46, R47, 03_memory_model.md R69), and how the hub's own walks read tables in local HBM.
-/

namespace Sys2Proof.Machine

/-- Whether an address lies in memory that takes line-form requests (02_commons.md R46). -/
def State.lineForm (s : State) (host : Bool) (addr : Nat) : Bool :=
  !host && (match s.spaceOf addr with | .hbm _ => true | .cellar _ _ => true | .scratch _ _ => true | _ => false)

/-- The pieces of `n` bytes from `addr` that lie in one granule each. -/
def granules (addr n : Nat) : List (Nat × Nat) :=
  (linesOf addr n).map (fun l => let lo := max addr (l * 128); (lo, min (addr + n) (l * 128 + 128) - lo))

/-- Read `n` bytes from `addr`, of host memory where `host`: line reads of memory, reads of exactly the bytes elsewhere. `q`
names source, stream and tags. -/
def State.dmaRead (s : State) (q : Pkt) (host : Bool) (addr n : Nat) : State :=
  (granules addr n).foldl (fun t g =>
    let p : Pkt := if t.lineForm host g.1 then { q with opc := 0x01, addr := g.1 / 128 * 128, len := 128 }
      else { q with opc := 0x00, addr := g.1, len := g.2, dst := if host then 0x180 else 0 }
    t.issue { p with txn := t.freeTxn q.src }) s

/-- Write bytes from `addr` up, whole lines as line writes and the rest as writes of at most 64 bytes; `poison` marks bytes.
Posted writes where `posted`. -/
def State.dmaWrite (s : State) (q : Pkt) (host posted : Bool) (addr : Nat) (d : List Byte) (poison : Nat → Bool) : State :=
  (granules addr d.length).foldl (fun t g =>
    let bytes := (d.drop (g.1 - addr)).take g.2
    let bad := (List.range g.2).any (fun k => poison (g.1 - addr + k))
    let put (u : State) (p : Pkt) : State := u.issue { p with txn := if posted then q.txn else u.freeTxn q.src, poison := bad }
    if g.2 = 128 && t.lineForm host g.1 then put t { q with opc := if posted then 0x04 else 0x07, addr := g.1, data := bytes }
    else
      let part (u : State) (o : Nat) : State :=
        let b := (bytes.drop o).take 64
        if b.isEmpty then u
        else put u { q with opc := if posted then 0x03 else 0x06, addr := g.1 + o, mask := 2 ^ b.length - 1, data := b,
                            dst := if host then 0x180 else 0 }
      part (part t 0) 64) s

/-- Whether a stream of an agent has nothing outstanding and nothing waiting. -/
def State.streamIdle (s : State) (a stream : Nat) : Bool :=
  (s.iface a).outstanding.all (fun p => p.stream ≠ stream) && !streamHeld stream (s.iface a).waiting

/-- A byte among the data read, 0 where it was not read. -/
def gotByte (l : List Got) (host : Bool) (a : Nat) : Byte :=
  match l.find? (fun g => g.host = host && g.addr ≤ a && a < g.addr + g.data.length) with
  | some g => g.data.getD (a - g.addr) 0
  | none => 0

/-- Bytes among the data read. -/
def gotBytes (l : List Got) (host : Bool) (a n : Nat) : List Byte := (List.range n).map (fun k => gotByte l host (a + k))

/-- Whether a range has a byte from a poisoned granule. -/
def gotPois (l : List Got) (host : Bool) (a n : Nat) : Bool :=
  l.any (fun g => g.host = host && g.poison && g.addr < a + n && a < g.addr + g.data.length)

/-- Whether every byte of a range has been read. -/
def gotAll (l : List Got) (host : Bool) (a n : Nat) : Bool :=
  (List.range n).all (fun k => l.any (fun g => g.host = host && g.addr ≤ a + k && a + k < g.addr + g.data.length))

end Sys2Proof.Machine
end

