-- ==== Sys2Proof/Machine/MillData.lean ====
section
/-!
DEFINITION. Machine/MillData.lean: the collective descriptor, its checks, how an algorithm cuts a stripe into blocks and
messages, and what each block of a stripe combines to (09_mill.md R274-R291).
-/

namespace Sys2Proof.Machine

/-! ### The descriptor (R287) -/

/-- A decoded collective descriptor. -/
structure Coll where
  kind : Nat
  op : Nat
  algo : Nat
  grid : Bool
  sat : Bool
  rm : Nat
  outAcc : Bool
  fi : Nat
  fo : Nat
  group : Nat
  slices : Nat
  nsrc : Nat
  tag : Nat
  root : Nat
  count : Nat
  src : Nat
  dst : Nat
  chunk : Nat
  seed : Nat
  deriving DecidableEq, Repr

/-- Read the fields of a descriptor; CHUNK in bytes, 0 KiB meaning 64. -/
def collOf (b : List Byte) : Coll :=
  let f (lo n : Nat) : Nat := leNat ((b.drop lo).take n)
  { kind := f 0 1 % 16, op := f 0 1 / 16, algo := f 1 1 % 4, grid := f 1 1 / 4 % 2 = 1, sat := f 1 1 / 8 % 2 = 1,
    rm := f 1 1 / 16 % 8, outAcc := f 1 1 / 128 = 1, fi := f 2 1 % 32, fo := f 3 1 % 32, group := f 4 2 % 256,
    slices := f 6 1, nsrc := f 7 1, tag := f 8 4, root := f 12 4 % 65536, count := f 16 8, src := f 24 8, dst := f 32 8,
    chunk := (if f 40 4 = 0 then 64 else f 40 4) * 1024, seed := f 48 8 }

/-- The reserved bytes and bits of a descriptor are 0. -/
def collReserved (b : List Byte) : Bool :=
  let f (lo n : Nat) : Nat := leNat ((b.drop lo).take n)
  decide (f 2 1 < 32 ∧ f 3 1 < 32 ∧ f 5 1 = 0 ∧ f 14 2 = 0 ∧ f 44 4 = 0 ∧ f 56 72 = 0)

/-- Kinds (R278). -/
def kAllReduce : Nat := 0
def kReduce : Nat := 1
def kReduceScatter : Nat := 2
def kAllGather : Nat := 3
def kBroadcast : Nat := 4
def kBarrier : Nat := 5

/-- Kinds that move words without an operation. -/
def Coll.moves (c : Coll) : Bool := c.kind = kAllGather || c.kind = kBroadcast

/-- Formats that the Mill accepts but GRID40 (06_number_formats.md R167). -/
def millFmt (code : Nat) : Bool := code ≤ 4 || (0x0B ≤ code && code ≤ 0x0D)

/-- An integer format of the Mill. -/
def millInt (code : Nat) : Bool := 0x0B ≤ code && code ≤ 0x0D

/-- The element format of a code. -/
def millElt (code : Nat) : Fmt := ((fmtOf [] code).map (·.elt)).getD fp32

/-- Formats and MODE are those of R279. BARRIER combines nothing and its formats are not read. -/
def Coll.fmtsOk (c : Coll) : Bool :=
  if c.kind = kBarrier then true
  else if c.moves then c.op = 0 && millFmt c.fi && millFmt c.fo && !c.grid && !c.outAcc
  else
    (c.op = 7 || !c.outAcc) && (c.op = 0 || !c.grid) &&
    (match c.op with
     | 0 => if c.grid then c.fi ≤ 2 && c.fo ≤ 2 else c.fi ≤ 4 && c.fo ≤ 4
     | 1 => millInt c.fi && millInt c.fo
     | 2 => millFmt c.fi && c.fo = c.fi
     | 3 => millFmt c.fi && c.fo = c.fi
     | 4 => millInt c.fi && c.fo = c.fi
     | 5 => millInt c.fi && c.fo = c.fi
     | 6 => millInt c.fi && c.fo = c.fi
     | 7 => c.fi = 0 && c.fo ≤ 2
     | _ => false)

/-- The operation may be combined in any order (R279); moving words is. -/
def Coll.orderFree (c : Coll) : Bool := c.moves || c.op ≠ 0 || c.grid

/-- Bytes of a word on the wire (R279). -/
def Coll.wire (c : Coll) : Nat :=
  if c.kind = kBarrier then 0
  else if c.moves then (millElt c.fi).width / 8
  else match c.op with
    | 0 => if c.grid then 5 else 4
    | 1 => 8
    | 7 => 48
    | _ => (millElt c.fi).width / 8

/-- Bytes of a source element and of a DST element. -/
def Coll.inBytes (c : Coll) : Nat := if !c.moves && c.op = 7 then 48 else (millElt c.fi).width / 8
def Coll.outBytes (c : Coll) : Nat := if c.outAcc then 48 else (millElt c.fo).width / 8

/-- Whether this member reads sources: ROOT alone for BROADCAST, none for BARRIER. -/
def Coll.reads (c : Coll) (r : Nat) : Bool := c.kind ≠ kBarrier && (c.kind ≠ kBroadcast || r = c.root)

/-- Whether this member writes DST: ROOT alone for REDUCE, none for BARRIER. -/
def Coll.writes (c : Coll) (r : Nat) : Bool := c.kind ≠ kBarrier && (c.kind ≠ kReduce || r = c.root)

/-- Number of elements of the source vector and of DST, with P members. -/
def Coll.srcCount (c : Coll) (p : Nat) : Nat := if c.kind = kReduceScatter then p * c.count else c.count
def Coll.dstCount (c : Coll) (p : Nat) : Nat := if c.kind = kAllGather then p * c.count else c.count

/-- Smallest `k` with `n ≤ 2^k`. -/
def clog2 (n : Nat) : Nat := ((List.range 20).find? (fun k => n ≤ 2 ^ k)).getD 20

/-! ### The stripe (R274) -/

/-- Elements of one stripe of a range, before the range ends. -/
def Coll.stripeLen (c : Coll) : Nat := (c.count + 32 * c.slices - 1) / (32 * c.slices) * 32

/-- AUTO resolves to an algorithm (R286): 1 RING, 2 TREE, 3 DIRECT. The wire bytes of one stripe are those of stripe 0, in all
its shards. -/
def Coll.algorithm (c : Coll) (p : Nat) : Nat :=
  if c.algo ≠ 0 then c.algo
  else
    let shards := if c.kind = kReduceScatter || c.kind = kAllGather then p else 1
    let b := min c.stripeLen c.count * shards * c.wire
    if c.kind = kReduce || c.kind = kBroadcast || c.kind = kBarrier || b ≤ 2 ^ 18 then 2
    else if p ≤ 8 || (!c.orderFree && p ≤ 64) then 3
    else if c.kind = kAllGather || c.orderFree then 1
    else 2

/-- The table of valid algorithms (R285). -/
def Coll.algoOk (c : Coll) (p : Nat) : Bool :=
  match c.algorithm p with
  | 1 => (c.kind = kAllReduce || c.kind = kReduceScatter) && c.orderFree || c.kind = kAllGather
  | 2 => true
  | _ => c.kind ≠ kBarrier && p ≤ 64

/-- A stripe's staging need (R288). -/
def Coll.staging (c : Coll) (p : Nat) : Nat :=
  2 * c.chunk * (match c.algorithm p with | 1 => 2 | 2 => clog2 p + 1 | _ => p - 1)

/-- Two byte ranges overlap. -/
def overlap (a n b m : Nat) : Bool := 0 < n && 0 < m && a < b + m && b < a + n

/-- What an algorithm needs to know of one stripe at one member: P, the rank, the stripe's elements from `lo` up to `lo + n`,
and the blocks of each shard. -/
structure MillCtx where
  c : Coll
  p : Nat
  r : Nat
  algo : Nat
  lo : Nat
  n : Nat
  nb : Nat
  deriving DecidableEq, Repr

/-- The context of stripe `i`. BARRIER runs on one block without words. -/
def millCtx (c : Coll) (p r i : Nat) : MillCtx :=
  let lo := min (i * c.stripeLen) c.count
  let n := min ((i + 1) * c.stripeLen) c.count - lo
  { c := c, p := p, r := r, algo := c.algorithm p, lo := lo, n := n,
    nb := if c.kind = kBarrier then 1 else (n + 31) / 32 }

/-- REDUCE_SCATTER and ALL_GATHER work on one shard per member. -/
def MillCtx.sharded (x : MillCtx) : Bool := x.c.kind = kReduceScatter || x.c.kind = kAllGather

/-- All blocks of the stripe. -/
def MillCtx.blocks (x : MillCtx) : Nat := if x.sharded then x.p * x.nb else x.nb

/-- Blocks of a segment: a shard, or one of the P pieces of ⌈n / 32P⌉ blocks (R284), or the whole stripe. -/
def MillCtx.segBlocks (x : MillCtx) : Nat :=
  if x.sharded then x.nb
  else if x.algo = 1 || (x.algo = 3 && x.c.kind = kAllReduce) then (x.nb + x.p - 1) / x.p
  else x.nb

/-- The segment of a block. -/
def MillCtx.seg (x : MillCtx) (b : Nat) : Nat := if x.segBlocks = 0 then 0 else b / x.segBlocks

/-- Elements of a block. -/
def MillCtx.blockLen (x : MillCtx) (b : Nat) : Nat := min 32 (x.n - 32 * (b % x.nb))

/-- The index of a block's first element within its shard or vector. -/
def MillCtx.eltIdx (x : MillCtx) (b : Nat) : Nat := x.lo + 32 * (b % x.nb)

/-! ### The algorithms (R284) -/

/-- Relative rank 0: ROOT for REDUCE and BROADCAST, rank 0 otherwise (R280). -/
def MillCtx.root (x : MillCtx) : Nat := if x.c.kind = kReduce || x.c.kind = kBroadcast then x.c.root else 0

/-- Relative rank, and the rank at a relative rank. -/
def MillCtx.v (x : MillCtx) (r : Nat) : Nat := (r + x.p - x.root) % x.p
def MillCtx.un (x : MillCtx) (v : Nat) : Nat := (v + x.root) % x.p

/-- The tree below and above this member. -/
def MillCtx.children (x : MillCtx) : List Nat :=
  ((List.range 17).filter (fun j => x.v x.r % 2 ^ (j + 1) = 0 && x.v x.r + 2 ^ j < x.p)).map (fun j => x.un (x.v x.r + 2 ^ j))
def MillCtx.parent (x : MillCtx) : Option Nat :=
  ((List.range 17).find? (fun j => x.v x.r % 2 ^ (j + 1) = 2 ^ j)).map (fun j => x.un (x.v x.r - 2 ^ j))

/-- Whether relative rank `u` lies in the subtree that the member with relative rank `v` heads. -/
def inSubtree (u v : Nat) : Bool :=
  u = v || ((List.range 17).any (fun j => v % 2 ^ j = 0 && (v = 0 || v % 2 ^ (j + 1) ≠ 0) && v ≤ u && u < v + 2 ^ j)) || v = 0

def MillCtx.others (x : MillCtx) : List Nat := (List.range x.p).filter (· ≠ x.r)
def MillCtx.next (x : MillCtx) : Nat := (x.r + 1) % x.p
def MillCtx.prev (x : MillCtx) : Nat := (x.r + x.p - 1) % x.p

/-- Who holds the total of a block when the reduce pass has ended. -/
def MillCtx.owner (x : MillCtx) (b : Nat) : Nat :=
  match x.algo with
  | 1 => x.seg b
  | 2 => x.root
  | _ => if x.c.kind = kReduce || x.c.kind = kBroadcast then x.c.root else x.seg b

/-- Whether the item has a reduce pass over its words, a spreading pass, and exponents. -/
def MillCtx.reduces (x : MillCtx) : Bool := !x.c.moves || (x.c.kind = kAllGather && x.algo = 2)
def MillCtx.spreads (x : MillCtx) : Bool := x.c.kind ≠ kReduce && !(x.c.kind = kReduceScatter && x.algo ≠ 2)
def MillCtx.exps (x : MillCtx) : Bool := x.c.grid && !x.c.moves && x.c.kind ≠ kBarrier

/-- Passes: 0 partial exponents, 3 agreed exponents, 1 reduce, 2 gather or broadcast. -/
def MillCtx.passes (x : MillCtx) : List Nat :=
  (if x.exps then [0, 3] else []) ++ (if x.reduces then [1] else []) ++ (if x.spreads then [2] else [])

/-- The gather of ALL_GATHER up its tree: a member passes the shards of its subtree. -/
def MillCtx.gathers (x : MillCtx) (pass : Nat) : Bool := x.c.kind = kAllGather && pass = 1

/-- The members to which this one sends a block in a pass. -/
def MillCtx.dsts (x : MillCtx) (pass b : Nat) : List Nat :=
  if x.gathers pass then (if inSubtree (x.v (x.seg b)) (x.v x.r) then x.parent.toList else [])
  else if pass = 0 || pass = 1 then
    match x.algo with
    | 1 => if x.seg b = x.r then [] else [x.next]
    | 2 => x.parent.toList
    | _ => if x.r = x.owner b then [] else [x.owner b]
  else if x.c.kind = kReduceScatter && pass = 2 then
    (if x.r = x.root && x.seg b ≠ x.r then [x.seg b] else [])
  else
    match x.algo with
    | 1 => if x.next = x.owner b then [] else [x.next]
    | 2 => x.children
    | _ => if x.r = x.owner b then x.others else []

/-- The members from which this one receives a block in a pass. -/
def MillCtx.srcs (x : MillCtx) (pass b : Nat) : List Nat :=
  if x.gathers pass then x.children.filter (fun k => inSubtree (x.v (x.seg b)) (x.v k))
  else if pass = 0 || pass = 1 then
    match x.algo with
    | 1 => if x.r = (x.seg b + 1) % x.p then [] else [x.prev]
    | 2 => x.children
    | _ => if x.r = x.owner b then x.others else []
  else if x.c.kind = kReduceScatter && pass = 2 then
    (if x.r ≠ x.root && x.seg b = x.r then [x.root] else [])
  else
    match x.algo with
    | 1 => if x.r = x.owner b then [] else [x.prev]
    | 2 => x.parent.toList
    | _ => if x.r = x.owner b then [] else [x.owner b]

/-- Algorithm peers: every member with which a stripe exchanges messages. -/
def MillCtx.peers (x : MillCtx) : List Nat :=
  let l := match x.algo with
    | 1 => [x.prev, x.next]
    | 2 => x.children ++ x.parent.toList ++
        (if x.c.kind = kReduceScatter then (if x.r = x.root then x.others else [x.root]) else [])
    | _ => if x.c.kind = kReduce || x.c.kind = kBroadcast then (if x.r = x.c.root then x.others else [x.c.root])
           else x.others
  (l.filter (· ≠ x.r)).eraseDups

/-- The runs of blocks that travel in one message of a pass: within one segment and one chunk (R292). -/
def MillCtx.chunks (x : MillCtx) (pass : Nat) : List (Nat × Nat) :=
  let per := if pass = 0 || pass = 3 then x.c.chunk else if x.c.wire = 0 then 1 else max 1 (x.c.chunk / (32 * x.c.wire))
  if x.segBlocks = 0 then []
  else (List.range ((x.blocks + x.segBlocks - 1) / x.segBlocks)).flatMap (fun g =>
    let hi := min x.blocks ((g + 1) * x.segBlocks)
    (List.range ((hi - g * x.segBlocks + per - 1) / per)).map (fun q =>
      (g * x.segBlocks + q * per, min per (hi - g * x.segBlocks - q * per))))

/-- One message that a stripe will send: its pass, the member, the first block and the number of blocks. -/
structure MillMsg where
  pass : Nat
  dst : Nat
  first : Nat
  count : Nat
  deriving DecidableEq, Repr

/-- Every message of a stripe. -/
def MillCtx.plan (x : MillCtx) : List MillMsg :=
  x.passes.flatMap (fun ps => (x.chunks ps).flatMap (fun k => (x.dsts ps k.1).map (fun d => ⟨ps, d, k.1, k.2⟩)))

/-- Every block that a stripe will receive: pass, sender, block. -/
def MillCtx.expected (x : MillCtx) : List (Nat × Nat × Nat) :=
  x.passes.flatMap (fun ps => (List.range x.blocks).flatMap (fun b => (x.srcs ps b).map (fun k => (ps, k, b))))

/-! ### Words -/

/-- The words of a block with their poison, and the flags that making them raised. -/
structure Blk where
  ws : List (Nat × Bool)
  fl : Nat := 0
  deriving DecidableEq, Repr

/-- Combine two words (R279-R282). -/
def Coll.join (c : Coll) (a b : Nat) : Nat × Nat :=
  let e := millElt c.fi
  let ar (op : Nat) : Nat × Nat := eltArith op e e (decide (e.eb = 0)) .rne false 0 a b 0 false
  match c.op with
  | 0 => if c.grid then (gridAdd a b, 0) else addFp32 a b
  | 1 => ((a + b) % 2 ^ 64, 0)
  | 2 => ar 0x08
  | 3 => ar 0x07
  | 4 => (a &&& b, 0)
  | 5 => (a ||| b, 0)
  | 6 => (a ^^^ b, 0)
  | _ => (leNat ((accOfBytes (natLe 48 a)).merge (accOfBytes (natLe 48 b))).toBytes, 0)

/-- Combine two blocks word by word; poison spreads (R283). -/
def Coll.joinBlk (c : Coll) (a b : Blk) : Blk :=
  let l := (a.ws.zip b.ws).map (fun w => (c.join w.1.1 w.2.1, w.1.2 || w.2.2))
  { ws := l.map (fun w => (w.1.1, w.2)), fl := orFlags (a.fl :: b.fl :: l.map (fun w => w.1.2)) }

/-- Combine exponent bytes by maximum (06_number_formats.md R190). -/
def maxBlk (a b : Blk) : Blk := { ws := (a.ws.zip b.ws).map (fun w => (max w.1.1 w.2.1, w.1.2 || w.2.2)) }

/-- Combine neighbours, and a list by levels, as a balanced tree (R280). -/
def pairBlks (f : Blk → Blk → Blk) : List Blk → List Blk
  | a :: b :: l => f a b :: pairBlks f l
  | l => l
def treeBlks (f : Blk → Blk → Blk) : Nat → List Blk → Option Blk
  | 0, l => l.head?
  | n + 1, l => treeBlks f n (pairBlks f l)

/-- The word that a source element contributes (R279-R282), `e` being the block's agreed byte. -/
def Coll.word (c : Coll) (e p : Nat) : Nat × Nat :=
  let f := millElt c.fi
  if c.moves then (p, 0)
  else match c.op with
    | 0 =>
      let (q, fl) := fp32.convert .rne false 0 (f.decode p)
      if c.grid then (let (w, g) := gridEncode e q; (w, fl ||| g)) else (q, fl)
    | 1 => ((sgn f.width p % (2 ^ 64 : Int)).toNat, 0)
    | _ => (p, 0)

/-- Convert a sum whose infinity is a result of its own and no overflow (06_number_formats.md R188, R193): ±∞ whatever SAT
says. -/
def Fmt.convertSum (g : Fmt) (rm : RM) (sat : Bool) (r : Nat) (v : Val) : Nat × Nat :=
  match v with
  | .inf _ => g.convert rm false r v
  | _ => g.convert rm sat r v

/-- The result element of a total (R280-R282): its bytes as a number, and the flags. MAX and MIN answer the canonical NaN for
a NaN (06_number_formats.md R171). -/
def Coll.result (c : Coll) (e idx w : Nat) : Nat × Nat :=
  let f := millElt c.fi
  let g := millElt c.fo
  let rm := (rmOf .rne c.rm).getD .rne
  let r := rsrWord c.seed idx
  if c.moves then (if c.fi = c.fo then (w, 0) else g.convert rm c.sat r (f.decode w))
  else match c.op with
    | 0 => if c.grid then g.convertSum rm c.sat r (gridDecode e w) else g.convert rm c.sat r (fp32.decode w)
    | 1 => reduceInt g.width c.sat (sgn 64 w)
    | 7 =>
      if c.outAcc then (w, 0)
      else
        let (v, f1) := (accOfBytes (natLe 48 w)).value rm
        let (p, f2) := g.convertSum rm c.sat r v
        (p, f1 ||| f2)
    | _ => (if (c.op = 2 || c.op = 3) && f.decode w = .nan then f.nanResult.1 else w, 0)

/-! ### What a stripe knows -/

/-- The blocks that a member can form: its context, the source addresses, the data read, and the blocks received. -/
structure MillView where
  x : MillCtx
  srcs : List Nat
  got : List Got
  rx : List MillRx

/-- A received block. -/
def MillView.rxBlk (m : MillView) (pass src b : Nat) : Option Blk :=
  (m.rx.find? (fun e => e.pass = pass && e.src = src && e.block = b)).map (fun e => { ws := e.ws })

/-- First source element of a block, none where this member contributes nothing to it. -/
def MillView.srcElt (m : MillView) (b : Nat) : Option Nat :=
  let x := m.x
  if !x.c.reads x.r then none
  else if x.c.kind = kReduceScatter then some (b / x.nb * x.c.count + x.eltIdx b)
  else if x.c.kind = kAllGather then (if x.seg b = x.r then some (x.eltIdx b) else none)
  else some (x.eltIdx b)

/-- The source patterns of a block, source by source, none until they have all been read. -/
def MillView.raw (m : MillView) (b : Nat) : Option (List (List (Nat × Bool))) :=
  match m.srcElt b with
  | none => none
  | some e0 =>
    let w := m.x.c.inBytes
    let n := m.x.blockLen b
    if m.srcs.all (fun a => gotAll m.got false (a + e0 * w) (n * w)) then
      some (m.srcs.map (fun a => (List.range n).map (fun k =>
        (leNat (gotBytes m.got false (a + (e0 + k) * w) w), gotPois m.got false (a + (e0 + k) * w) w))))
    else none

/-- This member's exponent byte for a block. -/
def MillView.localExp (m : MillView) (b : Nat) : Option Blk :=
  (m.raw b).map (fun l =>
    let f := millElt m.x.c.fi
    { ws := [(l.foldl (fun v s => max v (gridByte (s.map (fun p => (fp32.convert .rne false 0 (f.decode p.1)).1)))) 0,
              l.any (fun s => s.any (·.2)))] })

/-- The reduction of a block as far as this member takes it (R284): `own` its own contribution, `f` the combination. -/
def MillView.reduced (m : MillView) (pass b : Nat) (own : Option Blk) (f : Blk → Blk → Blk) : Option Blk :=
  let x := m.x
  match x.algo with
  | 1 =>
    (match x.srcs pass b with
     | k :: _ => (m.rxBlk pass k b).bind (fun p => own.map (fun o => f p o))
     | [] => own)
  | 2 => x.children.foldl (fun acc k => acc.bind (fun a => (m.rxBlk pass k b).map (fun p => f a p))) own
  | _ =>
    if x.r ≠ x.owner b then own
    else
      let l := (List.range x.p).map (fun v => if x.un v = x.r then own else m.rxBlk pass (x.un v) b)
      if l.all Option.isSome then treeBlks f 17 (l.filterMap id) else none

/-- The agreed exponent byte of a block, once this member knows it (R281). -/
def MillView.agreed (m : MillView) (b : Nat) : Option Blk :=
  match m.x.srcs 3 b with
  | k :: _ => m.rxBlk 3 k b
  | [] => m.reduced 0 b (m.localExp b) maxBlk

/-- The agreed byte as a number, 0 where the item has none. -/
def MillView.expOf (m : MillView) (b : Nat) : Option Nat :=
  if m.x.exps then (m.agreed b).map (fun e => (e.ws.headD (0, false)).1) else some 0

/-- This member's contribution to a block: its sources combined as a balanced tree over source index (R280). -/
def MillView.own (m : MillView) (b : Nat) : Option Blk :=
  if m.x.c.kind = kBarrier then some { ws := [] }
  else (m.raw b).bind (fun l => (m.expOf b).bind (fun e =>
    treeBlks m.x.c.joinBlk 7 (l.map (fun s =>
      let ws := s.map (fun p => (m.x.c.word e p.1, p.2))
      ({ ws := ws.map (fun w => (w.1.1, w.2)), fl := orFlags (ws.map (fun w => w.1.2)) } : Blk)))))

/-- The partial of a block that this member sends, or the total at its owner. -/
def MillView.partialBlk (m : MillView) (b : Nat) : Option Blk :=
  let x := m.x
  if x.gathers 1 then
    (if x.seg b = x.r then m.own b
     else match x.srcs 1 b with
       | k :: _ => m.rxBlk 1 k b
       | [] => none)
  else if !x.reduces then m.own b
  else m.reduced 1 b (m.own b) x.c.joinBlk

/-- The total of a block, once this member knows it. -/
def MillView.total (m : MillView) (b : Nat) : Option Blk :=
  match (if m.x.spreads then m.x.srcs 2 b else []) with
  | k :: _ => m.rxBlk 2 k b
  | [] => m.partialBlk b

/-- The content of a block in a pass. -/
def MillView.blk (m : MillView) (pass b : Nat) : Option Blk :=
  match pass with
  | 0 => m.reduced 0 b (m.localExp b) maxBlk
  | 3 => m.agreed b
  | 1 => m.partialBlk b
  | _ => m.total b

/-- The wire bytes of a message's blocks, which of them are poisoned, and the flags, once all of its blocks can be formed. -/
def MillView.payload (m : MillView) (g : MillMsg) : Option (List Byte × List Bool × Nat) :=
  let w := if g.pass = 0 || g.pass = 3 then 1 else m.x.c.wire
  let l := (List.range g.count).map (fun k => m.blk g.pass (g.first + k))
  if l.all Option.isSome then
    let bs := l.filterMap id
    let ws := bs.flatMap (·.ws)
    some (ws.flatMap (fun v => natLe w v.1), ws.flatMap (fun v => List.replicate w v.2), orFlags (bs.map (·.fl)))
  else none

/-- The first DST element of a block at this member, none where the member does not write it. -/
def MillView.dstElt (m : MillView) (b : Nat) : Option Nat :=
  let x := m.x
  if !x.c.writes x.r then none
  else if x.c.kind = kReduceScatter then (if x.seg b = x.r then some (x.eltIdx b) else none)
  else if x.c.kind = kAllGather then some (b / x.nb * x.c.count + x.eltIdx b)
  else some (x.eltIdx b)

/-- The bytes that a block writes at DST, their poison and the flags, once its total is known. -/
def MillView.output (m : MillView) (b : Nat) : Option (List Byte × List Bool × Nat) :=
  (m.dstElt b).bind (fun e0 => (m.total b).bind (fun t => (m.expOf b).map (fun e =>
    let w := m.x.c.outBytes
    let l := (t.ws.zipIdx).map (fun (v, k) => (m.x.c.result e (e0 + k) v.1, v.2))
    (l.flatMap (fun v => natLe w v.1.1), l.flatMap (fun v => List.replicate w v.2),
      orFlags (t.fl :: l.map (fun v => v.1.2))))))

end Sys2Proof.Machine
end

