-- ==== Sys2Proof/Machine/Mill.lean ====
section
/-!
DEFINITION. Machine/Mill.lean: the Mill (09_mill.md R272-R307): dispatch, start, the messages between hubs, deadlines, loss and the
end of collective items, and the commit of groups.
-/

namespace Sys2Proof.Machine

/-! ### Items and slices -/

/-- Status codes (R306). -/
def stMemberLost : Nat := 0xA0
def stDescInvalid : Nat := 0xA1
def stDescMismatch : Nat := 0xA2
def stGroupInvalid : Nat := 0xA3
def stGroupDegraded : Nat := 0xA4
def stTagBusy : Nat := 0xA5
def stMillBusy : Nat := 0xA6

/-- The agent of a physical slice. -/
def sliceAgent (k : Nat) : Nat := 0x280 + k

def State.updMill (s : State) (f : Mill → Mill) : State := { s with mill := f s.mill }

/-- The item of a lead slice. -/
def State.millItem (s : State) (slice item : Nat) : Option MillItem :=
  s.mill.items.find? (fun i => i.lead = slice && i.item = item)

/-- An item by its sequence number. -/
def State.millSeq (s : State) (seq : Nat) : Option MillItem := s.mill.items.find? (fun i => i.seq = seq)

def State.updMillItem (s : State) (seq : Nat) (f : MillItem → MillItem) : State :=
  s.updMill (fun m => { m with items := m.items.map (fun i => if i.seq = seq then f i else i) })

def State.updStripe (s : State) (seq i : Nat) (f : MillStripe → MillStripe) : State :=
  s.updMillItem seq (fun it => { it with stripes := it.stripes.mapIdx (fun j x => if j = i then f x else x) })

def MillItem.coll (it : MillItem) : Coll := collOf it.raw

/-- The members of an item's group, and this hub's rank. -/
def State.millMembers (s : State) (it : MillItem) : List Nat := SMap.getD s.mill.groups it.coll.group []
def State.millRank (s : State) (it : MillItem) : Nat := s.rd MILL_GRP_ID_RANK it.coll.group
def State.millCtxOf (s : State) (it : MillItem) (i : Nat) : MillCtx :=
  millCtx it.coll (s.millMembers it).length (s.millRank it) i

/-- The good slices after slice `k` in ascending physical number, counted cyclically from `k` itself (18_bringup.md R598). -/
def State.slicesFrom (s : State) (k : Nat) : List Nat :=
  let l := s.goodUnits 0x280 17
  l.filter (fun a => sliceAgent k ≤ a) ++ l.filter (fun a => a < sliceAgent k)

/-- The logical number of the lead slice, and the physical agent of the slice that runs stripe `i` (R273; 18_bringup.md R598). -/
def State.leadNo (s : State) (it : MillItem) : Nat := (s.logicalOf (sliceAgent it.lead)).getD 0x060 - 0x060
def State.stripeAt (s : State) (it : MillItem) (i : Nat) : Option Nat :=
  if s.roll.floorplan then (s.slicesFrom it.lead)[i]? else s.physOf (0x060 + (s.leadNo it + i) % 16)
def State.stripeAgent (s : State) (it : MillItem) (i : Nat) : Nat := (s.stripeAt it i).getD (sliceAgent it.lead)

/-- A slice that answers for stripe `i` where no item is known. -/
def State.anySlice (s : State) (i : Nat) : Nat :=
  if s.roll.floorplan then (s.slicesFrom 0).getD (i % 16) 0x280 else (s.physOf (0x060 + i % 16)).getD 0x280

/-- Stripes that run: the item has started and has no fate. -/
def MillItem.runs (it : MillItem) : Bool := it.started && it.fate.isNone

/-- Staging in use and stripes running on a physical slice (MILL_SLICE). -/
def State.stripesOn (s : State) (k : Nat) : List MillItem :=
  s.mill.items.flatMap (fun it => if it.runs then
    ((List.range it.stripes.length).filter (fun i => s.stripeAgent it i = sliceAgent k)).map (fun _ => it) else [])
def State.stagingOn (s : State) (k : Nat) : Nat :=
  ((s.stripesOn k).map (fun it => it.coll.staging (s.millMembers it).length)).foldl (· + ·) 0

/-- The descriptor digest: CRC-32C of the matching image (R291). -/
def collImage (b : List Byte) : Nat :=
  let drop (l : List Byte) (lo n : Nat) : List Byte := l.take lo ++ zeros n ++ l.drop (lo + n)
  let b1 := drop (drop (drop (b.take 64) 4 2) 24 8) 32 8
  crc32c (if (collOf b).kind = kBroadcast then drop b1 7 1 else b1)

/-- The request template of one of an item's stripes. -/
def State.millReq (s : State) (it : MillItem) (i : Nat) : Pkt :=
  { src := s.stripeAgent it i, tenant := it.tenant, cls := it.cls, deadline := it.deadline, stream := it.seq }

/-! ### Sending (R292-R294) -/

/-- The bytes of a COLL message. -/
def collBytes (typ stripe phase rank gid tag arg : Nat) (payload : List Byte) : List Byte :=
  natLe 1 typ ++ natLe 1 (stripe + 16 * phase) ++ natLe 2 rank ++ natLe 4 gid ++ natLe 4 tag ++ natLe 4 arg ++ payload

/-- Which 128-byte granules of a message are poisoned, from the poison of its payload bytes. -/
def granPoison (bad : List Bool) : Nat :=
  ((bad.zipIdx).filter (·.1)).foldl (fun m e => m ||| 2 ^ ((e.2 + 16) / 128)) 0

/-- Put a COLL message for a hub on the Commons toward its anchor link. -/
def State.collOut (s : State) (q : Pkt) (hub : Nat) (d : List Byte) (bad : Nat) : State :=
  s.issue { q with opc := 0x0F, dst := s.namedAnchor hub, addr := hub * 2 ^ 48, data := d, mask := bad, txn := s.freeTxn q.src }

/-- Send a COLL message of an item's stripe to a member. -/
def State.collSend (s : State) (it : MillItem) (i rank typ phase arg : Nat) (payload : List Byte) (bad : Nat) : State :=
  let hub := (s.millMembers it).getD rank 0
  let gid := s.rd MILL_GRP_ID_GROUP_ID it.coll.group
  let s1 := s.collOut (s.millReq it i) hub (collBytes typ i phase (s.millRank it) gid it.coll.tag arg payload) bad
  s1.updStripe it.seq i (fun x => { x with sentAt := SMap.put x.sentAt rank s.time })

/-- The payload of a JOIN. -/
def State.joinPayload (s : State) (it : MillItem) : List Byte :=
  natLe 4 (s.rd MILL_GRP_DIGEST_DIGEST it.coll.group) ++ natLe 4 (collImage it.raw)

/-- Send a stripe's JOIN to a peer, granting two chunks. -/
def State.sendJoin (s : State) (it : MillItem) (i rank : Nat) : State :=
  s.collSend it i rank 0x01 0 2 (s.joinPayload it) 0

/-! ### Loss and abort (R300-R304) -/

/-- Mark every valid group with an identifier DEGRADED (R277, R302, R304). -/
def State.degrade (s : State) (gid : Nat) : State :=
  (List.range 256).foldl (fun t g =>
    if t.rd MILL_GRP_CFG_STATE g = 1 && t.rd MILL_GRP_ID_GROUP_ID g = gid then t.wr MILL_GRP_CFG_STATE g 2 else t) s

/-- Send ABORT from stripe `i` to every member but this one and the lost one, and fix the item's fate. -/
def State.millStop (s : State) (it : MillItem) (i lost cause status result : Nat) (sparing : Bool) : State :=
  let me := s.millRank it
  let dest := (List.range (s.millMembers it).length).filter (fun r => r ≠ me && !(sparing && r = lost))
  let s1 := if it.started then dest.foldl (fun t r => t.collSend it i r 0x07 0 (lost + cause * 65536) [] 0) s else s
  s1.updMillItem it.seq (fun x => { x with fate := some (fateFailed, status, result) })

/-- A member is lost to a running item (R302): the item fails with MEMBER_LOST, with DESC_MISMATCH for cause 5. -/
def State.millLoss (s : State) (it : MillItem) (lost cause : Nat) : State :=
  if !it.runs then s
  else
    let g := it.coll.group
    let s1 := s.millStop it 0 lost cause (if cause = 5 then stDescMismatch else stMemberLost) (lost + cause * 65536) true
    (((((s1.degrade (s.rd MILL_GRP_ID_GROUP_ID g)).wr MILL_LOSS_TAG 0 it.coll.tag).wr MILL_LOSS_VALID 0 1).wr MILL_LOSS_CAUSE 0
      cause).wr MILL_LOSS_GROUP 0 g).wr MILL_LOSS_RANK 0 lost

/-- A remote hub is unreachable: lost with cause 2 to every collective that it is a member of (R300). -/
def State.millHubLost (s : State) (hub : Nat) : State :=
  s.mill.items.foldl (fun t it =>
    match (t.millMembers it).findIdx? (· = hub) with
    | some r => (match t.millSeq it.seq with | some x => t.millLoss x r 2 | none => t)
    | none => t) s

/-- An item ends for a reason of this hub: stack lost (3), slice down (4) or cancelled (6) (R301); stripe `i` sends the ABORTs. -/
def State.millEndOwn (s : State) (it : MillItem) (i cause status : Nat) : State :=
  if it.fate.isSome then s else s.millStop it i (s.millRank it) cause status 0 false

/-- The hub retires (R301). -/
def State.millRetire (s : State) : State :=
  s.mill.items.foldl (fun t it => t.millEndOwn it 0 3 0x82) s

/-- A physical slice's domain enters DRAINING (R301): started items with a stripe on it fail; items accepted and not started are
given up at their lead slice with DOMAIN_DOWN. -/
def State.millSliceDown (s : State) (k : Nat) : State :=
  s.mill.items.foldl (fun t it =>
    match (if it.started then (List.range it.stripes.length).find? (fun i => t.stripeAgent it i = sliceAgent k) else none) with
    | some i => t.millEndOwn it i 4 stDomainDown
    | none => if it.lead = k then t.millEndOwn it 0 4 stDomainDown else t) s

/-- STOP reaches a lead slice (R301, 11_steward_commands.md R366). -/
def State.millCancel (s : State) (k item : Nat) : State :=
  match s.millItem k item with
  | some it => s.millEndOwn it 0 6 stCancelled
  | none => s

/-! ### Running a stripe (R281, R284, R289, R293) -/

/-- The source addresses of an item: SRC, or the table that SRC names. -/
def MillItem.sources (it : MillItem) : List Nat :=
  let c := it.coll
  if c.nsrc = 1 then [c.src] else (List.range c.nsrc).map (fun k => leNat (gotBytes it.got false (c.src + 8 * k) 8))

def State.millView (s : State) (it : MillItem) (i : Nat) : MillView :=
  { x := s.millCtxOf it i, srcs := it.sources, got := it.got, rx := ((it.stripes[i]?).map (·.rx)).getD [] }

/-- Read the source elements of stripe `i`. -/
def State.readSources (s : State) (it : MillItem) (i : Nat) : State :=
  let m := s.millView it i
  let w := m.x.c.inBytes
  let shards := if m.x.c.kind = kReduceScatter then List.range m.x.p else [0]
  if !m.x.c.reads m.x.r || m.x.n = 0 then s
  else it.sources.foldl (fun t a => shards.foldl (fun u g =>
    u.dmaRead (s.millReq it i) false (a + (g * m.x.c.count + m.x.lo) * w) (m.x.n * w)) t) s

/-- Send message `k` of a stripe's plan if its blocks are known, its peer has joined and a chunk is granted. -/
def State.pumpMsg (s : State) (seq i : Nat) (g : MillMsg) (k : Nat) : State :=
  match s.millSeq seq with
  | none => s
  | some it =>
    match it.stripes[i]? with
    | none => s
    | some x =>
      let cr := SMap.getD x.credits g.dst 0
      if x.sent.contains k || cr = 0 || !x.joined.contains g.dst then s
      else match (s.millView it i).payload g with
        | none => s
        | some (d, bad, fl) =>
          let exp := g.pass = 0 || g.pass = 3
          let s1 := s.collSend it i g.dst (if exp then 0x02 else 0x03) (if exp then 0 else g.pass) g.first d (granPoison bad)
          (s1.updStripe seq i (fun y => { y with sent := y.sent ++ [k], credits := SMap.put y.credits g.dst (cr - 1) })).updMillItem
            seq (fun y => { y with flags := y.flags ||| fl })

/-- Write block `b` at DST if its total is known. -/
def State.pumpBlock (s : State) (seq i b : Nat) : State :=
  match s.millSeq seq with
  | none => s
  | some it =>
    match it.stripes[i]? with
    | none => s
    | some x =>
      if x.wrote.contains b then s
      else
        let m := s.millView it i
        let c := it.coll
        let done (t : State) : State := t.updStripe seq i (fun y => { y with wrote := y.wrote ++ [b] })
        match m.dstElt b with
        | none =>
          -- nothing to write here: done once this member's part of the block is complete
          if (m.x.passes.all (fun ps => (m.x.srcs ps b).all (fun k => (m.rxBlk ps k b).isSome))) then done s else s
        | some e0 =>
          match m.output b with
          | none => s
          | some (d, bad, fl) =>
            let s1 := s.dmaWrite (s.millReq it i) false false (c.dst + e0 * c.outBytes) d (fun k => bad.getD k false)
            (done s1).updMillItem seq (fun y => { y with flags := y.flags ||| fl, bad := y.bad || bad.any id })

/-- Let every stripe of an item go as far as it can. -/
def State.millPump (s : State) (seq : Nat) : State :=
  match s.millSeq seq with
  | none => s
  | some it =>
    if !it.runs then s
    else (List.range it.stripes.length).foldl (fun t i =>
      let x := t.millCtxOf it i
      let t1 := (x.plan.zipIdx).foldl (fun u (g, k) => u.pumpMsg seq i g k) t
      (List.range x.blocks).foldl (fun u b => u.pumpBlock seq i b) t1) s

/-! ### Dispatch and start (R272, R273, R287-R290) -/

/-- A record is well formed (R273): reserved bytes 0, and DESC in local HBM or the Cellar and aligned. -/
def State.millRecordOk (s : State) (d : List Byte) : Bool :=
  let b (lo n : Nat) : Nat := leNat ((d.drop lo).take n)
  decide (b 4 1 < 64 ∧ b 5 1 < 8 ∧ b 16 48 = 0 ∧ b 8 8 % 128 = 0) &&
  (match s.spaceOf (b 8 8) with | .hbm _ => true | .cellar _ _ => true | _ => false)

/-- The item of a lead slice whose turn it is to start: the first accepted one that has neither started nor a fate (R272). -/
def State.millTurn (s : State) (k : Nat) : Option MillItem :=
  (s.mill.items.filter (fun i => i.lead = k)).find? (fun i => !i.started && i.fate.isNone)

/-- Read the descriptor of the item whose turn it is, once (R287). -/
def State.millFetch (s : State) (k : Nat) : State :=
  match s.millTurn k with
  | some it =>
    if it.fetched then s
    else (s.updMillItem it.seq (fun x => { x with fetched := true })).dmaRead
      { src := sliceAgent k, tenant := it.tenant, cls := it.cls, deadline := it.deadline, stream := it.seq } false it.desc 128
  | none => s

/-- A DISPATCH at a lead slice (R273): accepted, MILL_BUSY with 16 items, or DESC_INVALID. -/
def State.millDispatch (s : State) (d : Nat) (p : Pkt) : State :=
  let k := d - 0x280
  let b (lo n : Nat) : Nat := leNat ((p.data.drop lo).take n)
  if 16 ≤ (s.mill.items.filter (fun i => i.lead = k)).length then s.answer d p stMillBusy
  else if !s.millRecordOk p.data then s.answer d p stDescInvalid
  else
    let it : MillItem := { seq := s.mill.nextSeq, lead := k, item := b 0 4, tenant := b 4 1, cls := b 5 1, deadline := b 6 2,
                           desc := b 8 8 }
    let s1 := s.updMill (fun m => { m with items := m.items ++ [it], nextSeq := m.nextSeq + 1 })
    (s1.answer d p stOk).millFetch k

def execMillDispatch (p : Pkt) (s : State) : Res :=
  .next (s.deliverUnit { p with opc := 0x0B } (fun u d q => if kindOf d = .mill then u.millDispatch d q else u))

/-- A place that a Mill slice may use for data: local memory or a site window (R288, 03_memory_model.md R69). -/
def State.millPlace (s : State) (a n : Nat) : Bool :=
  n = 0 || ((match s.spaceOf a with
    | .hbm _ => true | .cellar _ _ => true | .scratch _ _ => true | .site _ => true | _ => false) &&
   (match s.spaceOf (a + n - 1) with
    | .hbm _ => true | .cellar _ _ => true | .scratch _ _ => true | .site _ => true | _ => false))

/-- The checks of R288 that need no group. -/
def Coll.rangeOk (c : Coll) (raw : List Byte) : Bool :=
  collReserved raw && c.kind ≤ 5 && c.op ≤ 7 && c.rm ≤ 4 && decide (1 ≤ c.slices ∧ c.slices ≤ 16 ∧ c.count ≤ 2 ^ 36) &&
  ([4, 8, 16, 32, 64, 128, 256, 512, 1024].map (· * 1024)).contains c.chunk &&
  (if c.kind = kBarrier then c.nsrc = 0 && c.count = 0
   else if c.kind = kAllGather then c.nsrc = 1
   else if c.kind = kBroadcast then c.nsrc ≤ 64
   else 1 ≤ c.nsrc && c.nsrc ≤ 64) && 
  (c.kind = kBroadcast || ((c.nsrc ≠ 0 || c.src = 0) && (c.nsrc ≤ 1 || c.src % 8 = 0))) && c.fmtsOk

/-- The checks of R288 and R289 that need P, the rank and the source addresses. -/
def State.collOk (s : State) (c : Coll) (p r : Nat) (srcs : List Nat) : Bool :=
  let sb := c.srcCount p * c.inBytes
  let db := c.dstCount p * c.outBytes
  let same := (c.kind = kAllReduce || c.kind = kBroadcast) && c.fi = c.fo && c.inBytes = c.outBytes && c.nsrc ≤ 1
  decide (c.root < p) && c.algoOk p && c.staging p ≤ 2 ^ 22 && (!c.grid || p * c.nsrc ≤ 65536) &&
  (c.kind ≠ kReduceScatter || !c.grid || c.count % 32 = 0) && (c.kind ≠ kBroadcast || r ≠ c.root || c.nsrc = 1) &&
  (!c.writes r || s.millPlace c.dst db) &&
  (!c.reads r || srcs.all (fun a => s.millPlace a sb && (!c.writes r ||
    (a = c.dst && same) || !overlap a sb c.dst db))) &&
  (!c.reads r || c.nsrc ≤ 1 || (s.millPlace c.src (8 * c.nsrc) && (!c.writes r || !overlap c.src (8 * c.nsrc) c.dst db)))

/-- The descriptor of an item as far as it has been read. -/
def MillItem.known (j : MillItem) : Coll := if j.started then j.coll else collOf (gotBytes j.got false j.desc 128)

/-- Whether an item bars another of the same group and tag (R290): it runs, or was accepted earlier and has no fate. -/
def MillItem.bars (it j : MillItem) : Bool :=
  j.seq ≠ it.seq && (j.runs || (j.fate.isNone && j.seq < it.seq && gotAll j.got false j.desc 128))

/-- Why an item cannot start, if it cannot: in the order of R288, R277, R290. -/
def State.startStop (s : State) (it : MillItem) : Option Nat :=
  let c := it.coll
  let g := c.group
  let p := (s.millMembers it).length
  let gid := s.rd MILL_GRP_ID_GROUP_ID g
  if !c.rangeOk it.raw || (s.roll.floorplan && (s.slicesFrom it.lead).length < c.slices) then some stDescInvalid
  else if s.rd MILL_GRP_CFG_STATE g = 2 && s.rd MILL_GRP_CFG_TENANT g = it.tenant then some stGroupDegraded
  else if s.rd MILL_GRP_CFG_STATE g ≠ 1 || s.rd MILL_GRP_CFG_TENANT g ≠ it.tenant then some stGroupInvalid
  else if !s.collOk c p (s.millRank it) it.sources then some stDescInvalid
  else if s.mill.items.any (fun j => it.bars j && j.known.tag = c.tag &&
      s.rd MILL_GRP_ID_GROUP_ID j.known.group = gid) then some stTagBusy
  else if (List.range c.slices).any (fun i =>
      match s.stripeAt it i with
      | some a => decide (s.agentState a ≠ domOpen)
      | none => true) then some stDomainDown
  else none

/-- Whether the staging of every engaged slice holds the item's stripes beside those that run (R272). -/
def State.stagingFits (s : State) (it : MillItem) : Bool :=
  let c := it.coll
  (List.range c.slices).all (fun i =>
    decide (s.stagingOn (s.stripeAgent it i - 0x280) + c.staging (s.millMembers it).length ≤ 2 ^ 22))

/-- A collective of the hub is throttled: some stack's step is not 100 % (R297). -/
def State.throttled (s : State) : Bool := s.populated.any (fun m => s.rd HBM_STAT_STEP m ≠ 0)

/-- LATE_MS as it acts. -/
def State.lateMs (s : State) : Nat := min 50 (max 1 (s.rd MILL_CFG_LATE_MS))

/-- Send LATE from one stripe of a running item to every other member. -/
def State.sendLate (s : State) (it : MillItem) (i : Nat) : State :=
  ((List.range (s.millMembers it).length).filter (· ≠ s.millRank it)).foldl (fun t r =>
    (t.collSend it i r 0x06 0 s.lateMs [] 0).inc MILL_CNT1_LATE_SENT 0 1) s

/-- Refuse a JOIN (R293). -/
def State.nack (s : State) (hub stripe rank gid tag arg : Nat) : State :=
  s.collOut { src := s.anySlice stripe } hub (collBytes 0x08 stripe 0 rank gid tag arg []) 0

/-- A JOIN is matched to a running item (R293): the peer has joined and its chunks are granted, or the digests differ. -/
def State.matchJoin (s : State) (it : MillItem) (j : MillJoin) : State :=
  if j.digest ≠ s.rd MILL_GRP_DIGEST_DIGEST it.coll.group || j.image ≠ collImage it.raw then
    (s.nack j.hub j.stripe (s.millRank it) j.gid j.tag 2).millLoss it j.rank 5
  else
    s.updStripe it.seq j.stripe (fun x => { x with
      joined := if x.joined.contains j.rank then x.joined else x.joined ++ [j.rank]
      credits := SMap.put x.credits j.rank (SMap.getD x.credits j.rank 0 + j.credits) })

/-- A heard peer's progress deadline (R298); one that has passed stays. -/
def State.heard (s : State) (seq rank : Nat) : State :=
  let next := s.time + max 4 (s.rd MILL_CFG_PROGRESS_MS) * 1000000
  s.updMillItem seq (fun x =>
    let d := match SMap.get? x.due rank with
      | some d => if d < s.time then x.due else SMap.put x.due rank (max d next)
      | none => SMap.put x.due rank next
    { x with due := d })

/-- Take the entries of the join table that name an item, and match them. -/
def State.takeJoins (s : State) (seq : Nat) : State :=
  match s.millSeq seq with
  | none => s
  | some it =>
    let mine (j : MillJoin) : Bool := j.gid = s.rd MILL_GRP_ID_GROUP_ID it.coll.group && j.tag = it.coll.tag
    let s1 := s.updMill (fun m => { m with joins := m.joins.filter (fun j => !mine j) })
    (s.mill.joins.filter mine).foldl (fun t j =>
      match t.millSeq seq with
      | some x => if x.runs then (t.matchJoin x j).heard seq j.rank else t
      | none => t) s1

/-- An item starts (R272, R288, R297, R298). The descriptor, and a table of source addresses, must have been read. -/
def State.millStart (s : State) (slice item : Nat) : State :=
  match s.millTurn slice with
  | none => s
  | some it0 =>
    if it0.item ≠ item || !gotAll it0.got false it0.desc 128 then s
    else
      let it := { it0 with raw := gotBytes it0.got false it0.desc 128 }
      let c := it.coll
      let bad (t : State) (st : Nat) : State :=
        (t.updMillItem it.seq (fun _ => { it with fate := some (fateFailed, st, 0) })).millFetch slice
      if gotPois it.got false it.desc 128 then bad s stMemPoison
      else if 2 ≤ c.nsrc && c.rangeOk it.raw && c.reads (s.millRank it) && s.millPlace c.src (8 * c.nsrc) &&
          !gotAll it.got false c.src (8 * c.nsrc) then
        -- the source table first
        if s.streamIdle (sliceAgent slice) it.seq then s.dmaRead (s.millReq it 0) false c.src (8 * c.nsrc) else s
      else match s.startStop it with
        | some st => bad s st
        | none =>
          if !s.stagingFits it then s
          else
            let it2 : MillItem := { it with
              started := true, gen := s.rd MOV_FMT_CTL_GEN, stripes := List.replicate c.slices {}
              startDue := s.time + max 1 (s.rd MILL_CFG_START_MS) * 1000000 }
            let s1 := (s.updMillItem it.seq (fun _ => it2)).millFetch slice
            let s2 := (List.range c.slices).foldl (fun t i =>
              let u := t.readSources it2 i
              (s.millCtxOf it2 i).peers.foldl (fun v r => v.sendJoin it2 i r) u) s1
            let s3 := if s.throttled then (List.range c.slices).foldl (fun t i => t.sendLate it2 i) s2 else s2
            (s3.takeJoins it.seq).millPump it.seq

def execMillItemStart (slice item : Nat) (s : State) : Res := .next (s.millStart slice item)

/-! ### Messages received (R292-R298) -/

/-- A message header. -/
structure CollHdr where
  hub : Nat
  stripe : Nat
  phase : Nat
  rank : Nat
  gid : Nat
  tag : Nat
  arg : Nat
  deriving DecidableEq, Repr

def collHdr (p : Pkt) : CollHdr :=
  let b (lo n : Nat) : Nat := leNat ((p.data.drop lo).take n)
  { hub := p.addr / 2 ^ 48 % 2 ^ 16, stripe := b 1 1 % 16, phase := b 1 1 / 16 % 4, rank := b 2 2, gid := b 4 4, tag := b 8 4,
    arg := b 12 4 }

/-- The running item that a message names. -/
def State.collItem (s : State) (h : CollHdr) : Option MillItem :=
  s.mill.items.find? (fun i => i.runs && i.coll.tag = h.tag && s.rd MILL_GRP_ID_GROUP_ID i.coll.group = h.gid)

/-- A Mill message reaches a slice, which accepts it (15_fabric_links.md R496) and answers its link. -/
def State.collAccept (s : State) (p : Pkt) (f : State → Pkt → State) : State :=
  s.deliverUnit { p with opc := 0x0F } (fun u d q => if kindOf d = .mill then f (u.answer d q stOk) q else u)

/-- A message reaches a stripe of a running item, from the member that its rank names. -/
def State.collRecv (s1 : State) (p : Pkt) (f : State → MillItem → CollHdr → State) : State :=
  let h := collHdr p
  match s1.collItem h with
  | some it =>
    if (s1.millMembers it)[h.rank]? = some h.hub && h.stripe < it.stripes.length then
      (f (s1.heard it.seq h.rank) it h).millPump it.seq
    else s1
  | none => s1

/-- A JOIN (R293). -/
def State.collJoin (s : State) (p : Pkt) : State :=
  let h := collHdr p
  let j : MillJoin := { hub := h.hub, gid := h.gid, tag := h.tag, stripe := h.stripe, rank := h.rank, credits := h.arg,
                        digest := leNat ((p.data.drop 16).take 4), image := leNat ((p.data.drop 20).take 4) }
  match s.collItem h with
  | some it =>
    if (s.millMembers it)[h.rank]? = some h.hub && h.stripe < it.stripes.length then
      s.collRecv p (fun t x _ => t.matchJoin x j)
    else (s.nack h.hub h.stripe (s.millRank it) h.gid h.tag 2).millLoss it h.rank 5
  | none =>
    if 4096 ≤ s.mill.joins.length then s.nack h.hub h.stripe 0 h.gid h.tag 1
    else s.updMill (fun m => { m with joins := m.joins ++ [j] })

def execCollJoin (p : Pkt) (s : State) : Res := .next (s.collAccept p State.collJoin)

/-- The words of a payload, `w` bytes each, with the poison of the granules that they lie in. -/
def payloadWords (p : Pkt) (w n : Nat) : List (Nat × Bool) :=
  (List.range n).map (fun k =>
    let o := 16 + k * w
    (leNat ((p.data.drop o).take w),
     (List.range ((o + w + 127) / 128 - o / 128)).any (fun g => Nat.testBit p.mask (o / 128 + g))))

/-- Blocks of `lens` words each from a list of words. -/
def cutWords : List Nat → List (Nat × Bool) → List (List (Nat × Bool))
  | [], _ => []
  | n :: r, l => l.take n :: cutWords r (l.drop n)

/-- Store received blocks and grant the chunk again (R293). -/
def State.storeBlocks (s : State) (it : MillItem) (h : CollHdr) (es : List MillRx) : State :=
  (s.updStripe it.seq h.stripe (fun x => { x with rx := x.rx ++ es.filter (fun e =>
    !x.rx.any (fun o => o.pass = e.pass && o.src = e.src && o.block = e.block)) })).collSend it h.stripe h.rank 0x04 0 1 [] 0

/-- Exponent bytes (R281): a partial where one is expected from the sender and has not come, the agreed byte otherwise. -/
def execCollExp (p0 : Pkt) (s : State) : Res :=
  .next (s.collAccept p0 (fun u p => u.collRecv p (fun t it h =>
    let x := t.millCtxOf it h.stripe
    let ws := payloadWords p 1 (p.data.length - 16)
    let old := ((it.stripes[h.stripe]?).map (·.rx)).getD []
    t.storeBlocks it h ((ws.zipIdx).map (fun (w, k) =>
      let b := h.arg + k
      let part := (x.srcs 0 b).contains h.rank && !old.any (fun o => o.pass = 0 && o.src = h.rank && o.block = b)
      ({ pass := if part then 0 else 3, src := h.rank, block := b, ws := [w] } : MillRx))))))

/-- A data chunk (R284): whole blocks. BARRIER's chunk has no words. -/
def execCollData (p0 : Pkt) (s : State) : Res :=
  .next (s.collAccept p0 (fun u p => u.collRecv p (fun t it h =>
    let x := t.millCtxOf it h.stripe
    let w := x.c.wire
    let n := if w = 0 then 0 else (p.data.length - 16) / w
    let lens := (List.range x.blocks).map (fun b => x.blockLen b)
    let cut := if w = 0 then [[]] else (cutWords (lens.drop h.arg) (payloadWords p w n)).filter (fun l => !l.isEmpty)
    t.storeBlocks it h ((cut.zipIdx).map (fun (l, k) =>
      ({ pass := h.phase, src := h.rank, block := h.arg + k, ws := l } : MillRx))))))

def execCollCredit (p0 : Pkt) (s : State) : Res :=
  .next (s.collAccept p0 (fun u p => u.collRecv p (fun t it h => t.updStripe it.seq h.stripe (fun x => { x with
    credits := SMap.put x.credits h.rank (SMap.getD x.credits h.rank 0 + h.arg) }))))

def execCollKeep (p0 : Pkt) (s : State) : Res := .next (s.collAccept p0 (fun u p => u.collRecv p (fun t _ _ => t)))

/-- A LATE (R298): every deadline that has not passed becomes the later of itself and now plus ARG, at most 50 ms. -/
def State.collLate (s : State) (p : Pkt) : State :=
  let h := collHdr p
  let s1 := s.inc MILL_CNT1_LATE_RCVD 0 1
  let used := ((s1.collItem h).map (·.lateUsed)).getD 0
  let known := (s1.collItem h).isSome
  if known && used < min 20 (s.rd MILL_CFG_LATE_MAX) then
    let till := s.time + min 50 h.arg * 1000000
    let ext (d : Nat) : Nat := if d < s.time then d else max d till
    (s1.collRecv p (fun t it _ => t.updMillItem it.seq (fun x => { x with
      lateUsed := x.lateUsed + 1, startDue := ext x.startDue
      due := x.due.map (fun e => (e.1, ext e.2)) }))).inc MILL_CNT1_LATE_USED 0 1
  else (s1.collRecv p (fun t _ _ => t)).inc MILL_CNT1_LATE_IGNORED 0 1

def execCollLate (p : Pkt) (s : State) : Res := .next (s.collAccept p State.collLate)

/-- An ABORT (R302-R304): the first one for a running item ends it; in every case the group is DEGRADED. -/
def State.collAbort (s1 : State) (p : Pkt) : State :=
  let h := collHdr p
  let s2 := s1.updMill (fun m => { m with joins := m.joins.filter (fun j => !(j.gid = h.gid && j.tag = h.tag)) })
  match s2.collItem h with
  | some it => s2.millLoss it (h.arg % 65536) (h.arg / 65536 % 256)
  | none => s2.degrade h.gid

def execCollAbort (p : Pkt) (s : State) : Res := .next (s.collAccept p State.collAbort)

/-- A NACK (R293): the JOIN is to be repeated, or the digests differ. -/
def State.collNack (s1 : State) (p : Pkt) : State :=
  let h := collHdr p
  match s1.collItem h with
  | some it =>
    if h.arg = 2 then s1.millLoss it h.rank 5
    else
      let r := ((s1.millMembers it).findIdx? (· = h.hub)).getD h.rank
      s1.updStripe it.seq h.stripe (fun x => { x with retry := if x.retry.contains r then x.retry else x.retry ++ [r] })
  | none => s1

def execCollNack (p : Pkt) (s : State) : Res := .next (s.collAccept p State.collNack)

/-! ### Timers (R293, R294, R297, R300) -/

def execJoinRetryTimer (slice item : Nat) (s : State) : Res :=
  .next (match s.millItem slice item with
  | some it =>
    if !it.runs then s
    else (it.stripes.zipIdx).foldl (fun t (x, i) =>
      x.retry.foldl (fun u r => (u.sendJoin it i r).updStripe it.seq i (fun y => { y with retry := y.retry.erase r })) t) s
  | none => s)

/-- KEEP to each algorithm peer to which nothing was sent for PROGRESS_MS / 4. -/
def execKeepTimer (slice item : Nat) (s : State) : Res :=
  let quiet := max 4 (s.rd MILL_CFG_PROGRESS_MS) * 1000000 / 4
  .next (match s.millItem slice item with
  | some it =>
    if !it.runs then s
    else (it.stripes.zipIdx).foldl (fun t (x, i) =>
      (s.millCtxOf it i).peers.foldl (fun u r =>
        if SMap.getD x.sentAt r 0 + quiet ≤ s.time then u.collSend it i r 0x05 0 0 [] 0 else u) t) s
  | none => s)

/-- LATE while the hub is throttled: from every stripe that runs, and for every collective in the join table to every member of
its group. -/
def execLateTimer (s : State) : Res :=
  .next (if !s.throttled then s
  else
    let s1 := (s.mill.items.filter (·.runs)).foldl (fun t it =>
      (List.range it.stripes.length).foldl (fun u i => u.sendLate it i) t) s
    s.mill.joins.foldl (fun t j =>
      match (List.range 256).find? (fun g => s.rd MILL_GRP_CFG_STATE g = 1 && s.rd MILL_GRP_ID_GROUP_ID g = j.gid) with
      | none => t
      | some g =>
        let me := s.rd MILL_GRP_ID_RANK g
        (((SMap.getD s.mill.groups g []).zipIdx).filter (fun e => e.2 ≠ me)).foldl (fun u (hub, _) =>
          (u.collOut { src := s.anySlice j.stripe } hub
            (collBytes 0x06 j.stripe 0 me j.gid j.tag s.lateMs []) 0).inc MILL_CNT1_LATE_SENT 0 1) t) s1)

/-- The start deadline passes without a peer's JOIN (R300, cause 0). -/
def execMillStartDeadline (slice item rank : Nat) (s : State) : Res :=
  .next (match s.millItem slice item with
  | some it =>
    let missing := (it.stripes.zipIdx).any (fun (x, i) => (s.millCtxOf it i).peers.contains rank && !x.joined.contains rank)
    if it.runs && it.startDue ≤ s.time && missing then s.millLoss it rank 0 else s
  | none => s)

/-- Whether an item awaits a peer: a block of its plan has not come from it. -/
def State.awaits (s : State) (it : MillItem) (rank : Nat) : Bool :=
  (it.stripes.zipIdx).any (fun (x, i) => (s.millCtxOf it i).expected.any (fun e =>
    e.2.1 = rank && !x.rx.any (fun o => o.pass = e.1 && o.src = rank && o.block = e.2.2)))

/-- The progress deadline of an awaited peer passes (R300, cause 1). -/
def execMillProgressDeadline (slice item rank : Nat) (s : State) : Res :=
  .next (match s.millItem slice item with
  | some it =>
    (match SMap.get? it.due rank with
     | some d => if it.runs && d ≤ s.time && s.awaits it rank then s.millLoss it rank 1 else s
     | none => s)
  | none => s)

/-! ### The end of an item (R305) -/

/-- Whether every stripe has joined its peers, sent its plan and written or passed every block. -/
def State.stripesDone (s : State) (it : MillItem) : Bool :=
  (it.stripes.zipIdx).all (fun (x, i) =>
    let c := s.millCtxOf it i
    c.peers.all (fun r => x.joined.contains r) && decide (c.plan.length ≤ x.sent.length) && decide (c.blocks ≤ x.wrote.length))

/-- The agents that hold requests of an item. -/
def State.millAgents (s : State) (it : MillItem) : List Nat :=
  sliceAgent it.lead :: (List.range it.stripes.length).map (fun i => s.stripeAgent it i)

/-- The lead slice reports the fate, after every DST write is performed (R302, R305, 03_memory_model.md R93). -/
def execMillItemEnd (slice item : Nat) (s : State) : Res :=
  .next (match s.millItem slice item with
  | none => s
  | some it =>
    let fate : Option (Nat × Nat × Nat) :=
      match it.fate with
      | some f => some f
      | none =>
        if it.runs && s.stripesDone it then
          let p := (s.millMembers it).length
          some (if it.bad then (fateFailed, stMemPoison, 0)
            else (fateDone, 0, it.flags + it.coll.algorithm p * 256 + (p - 1) % 65536 * 65536))
        else none
    match fate with
    | none => s
    | some (f, st, r) =>
      if (s.millAgents it).all (fun a => s.streamIdle a it.seq) then
        let s1 := s.updMill (fun m => { m with items := m.items.filter (fun x => x.seq ≠ it.seq) })
        ((s1.inc (if f = fateDone then MILL_CNT0_DONE else MILL_CNT0_FAILED) 0 1).send
          (completionPkt (sliceAgent slice) item f st it.started r)).millFetch slice
      else s)

/-- An answer to a request of a Mill slice: data that was read, a Mill message that could not be sent (R300, cause 2), or a
request that failed. Poison is data (R283). -/
def State.millAnswer (s : State) (q p : Pkt) : State :=
  match s.millSeq q.stream with
  | none => s
  | some it =>
    if q.opc = 0x0F then
      (if p.status = stOk then s
       else match (s.millMembers it).findIdx? (· = q.addr / 2 ^ 48 % 2 ^ 16) with
         | some r => s.millLoss it r 2
         | none => s)
    else if p.status ≠ stOk && p.status ≠ stMemPoison && !p.poison then
      (if it.fate.isSome then s
       else s.updMillItem it.seq (fun x => { x with fate := some (fateFailed, p.status, 0) }))
    else if q.opc ≤ 0x02 then
      (s.updMillItem it.seq (fun x => { x with got := x.got ++
        [{ addr := q.addr, data := p.data, poison := p.poison || p.status ≠ stOk }] })).millPump it.seq
    else s

/-! ### Groups (R275-R277, R307) and counters -/

/-- Who may write the MILL_GRP_ registers (R307). -/
def grpWriter (w : Writer) : Bool :=
  match w with
  | .driver => true
  | .agent a => 0x191 ≤ a && a ≤ 0x194
  | .oob => false

/-- Whether an accepted item uses a group. -/
def State.groupUsed (s : State) (g : Nat) : Bool :=
  s.mill.items.any (fun it => it.fate.isNone && (if it.started then it.coll.group = g
    else gotAll it.got false it.desc 128 && (collOf (gotBytes it.got false it.desc 128)).group = g))

/-- Numbers of 16 bits. -/
def halfWords : List Byte → List Nat
  | a :: b :: l => (a.toNat + 256 * b.toNat) :: halfWords l
  | _ => []

/-- COMMIT (R275): the list is read and checked. COMMIT stays set while a line of the list comes back from a cache, and the command that goes on with it
clears it (log entry 26). -/
def execMillGrpCommit (w : Writer) (g : Nat) (s : State) : Res :=
  .next (if !grpWriter w || s.groupUsed g then s.wr MILL_GRP_CFG_REJECTED g 1
  else
    let n := s.rd MILL_GRP_CFG_SIZE g
    match s.snoopRead 0x190 (s.rd MILL_GRP_LIST_BASE g * 128) (2 * n) with
    | (.wait, s1) => s1.wr MILL_GRP_CFG_COMMIT g 1
    | (.none, s1) => (s1.wr MILL_GRP_CFG_COMMIT g 0).wr MILL_GRP_CFG_STATE g 3
    | (.data bytes bad, s0) =>
    let s1 := s0.wr MILL_GRP_CFG_COMMIT g 0
    let l := halfWords bytes
    let valid : Bool := !bad && decide (1 ≤ n ∧ n ≤ 65536) && decide l.Nodup && l.contains s.hubNo
    let s2 := s1.wr MILL_GRP_CFG_STATE g (if valid then 1 else 3)
    let s3 := s2.wr MILL_GRP_DIGEST_DIGEST g (crc32c bytes)
    if valid then (s3.wr MILL_GRP_ID_RANK g (l.findIdx (· = s.hubNo))).updMill (fun m => { m with groups := SMap.put m.groups g l })
    else s3)

def execMillCntClear (s : State) : Res := .next ((s.resetReg MILL_CNT0 0).resetReg MILL_CNT1 0)

end Sys2Proof.Machine
end

