-- ==== Sys2Proof/Machine/Xlt.lean ====
section
/-!
DEFINITION. Machine/Xlt.lean: the translation slices and the fault unit (10_data_movers.md R331-R345): requests, TLBs, walks, faults and
fault records.
-/

namespace Sys2Proof.Machine

/-! ### Entries (R332-R334) -/

/-- A leaf's target. -/
def pteTgt (e : Nat) : Nat := e / 4 % 4
def pteLeaf (e : Nat) : Bool := e / 2 % 2 = 1
def pteW (e : Nat) : Bool := e / 16 % 2 = 1
def pteBusy (e : Nat) : Bool := e / 32 % 2 = 1
def pteNoalloc (e : Nat) : Bool := e / 64 % 2 = 1

/-- log2 of the page that a leaf of a level maps. -/
def levelBits (level : Nat) : Nat := match level with | 0 => 39 | 1 => 30 | 2 => 21 | _ => 16

/-- The index of a VA at a level. -/
def levelIndex (level va : Nat) : Nat :=
  match level with
  | 0 => va / 2 ^ 39 % 512
  | 1 => va / 2 ^ 30 % 512
  | 2 => va / 2 ^ 21 % 512
  | _ => va / 2 ^ 16 % 32

/-- Whether a valid entry read at a level is malformed (R334). -/
def pteMalformed (level e : Nat) : Bool :=
  if pteLeaf e then
    level = 0 || e / 128 % 2 = 1 || pteTgt e = 3 || (pteTgt e = 0 && e / 2 ^ 48 ≠ 0) ||
    (e / 2 ^ 16 % 2 ^ 32) * 2 ^ 16 % 2 ^ levelBits level ≠ 0
  else
    level = 3 || e / 128 % 2 = 1 || e / 2 ^ 48 ≠ 0 || (level ≤ 1 && e / 256 % 16 ≠ 0)

/-- Whether an entry covers a VA. -/
def TlbEnt.covers (t : TlbEnt) (asid va : Nat) : Bool := t.asid = asid && t.base ≤ va && va < t.base + 2 ^ t.bits

/-- The translation of a VA among entries. -/
def findTlb (l : List TlbEnt) (asid va : Nat) : Option TlbEnt := l.find? (fun t => t.covers asid va)

/-- The address that a leaf gives a VA: host memory or not, and the address (R334). -/
def State.target (s : State) (t : TlbEnt) (va : Nat) : Bool × Nat :=
  let a := (t.pte / 2 ^ 16 % 2 ^ 32) * 2 ^ 16 + (va - t.base)
  match pteTgt t.pte with
  | 0 => (false, s.hubNo * 2 ^ 48 + a)
  | 1 => (false, t.pte / 2 ^ 48 * 2 ^ 48 + a)
  | _ => (true, t.pte / 2 ^ 48 * 2 ^ 48 + a)

/-- Keep at most `n` entries, the newest first. -/
def keepNew {α : Type} (n : Nat) (x : α) (l : List α) : List α := (x :: l).take n

/-! ### Slices -/

def State.xslice (s : State) (k : Nat) : XSlice := SMap.getD s.xlt.slices k {}
def State.updXlt (s : State) (f : Xlt → Xlt) : State := { s with xlt := f s.xlt }
def State.updSlice (s : State) (k : Nat) (f : XSlice → XSlice) : State :=
  s.updXlt (fun x => { x with slices := SMap.upd {} x.slices k f })

/-- A context entry (R332) as its reader finds it: not yet, not readable, or V, the root table and the tenant. -/
inductive Ctx where
  | wait
  | bad
  | entry (v : Bool) (root tenant : Nat)
  deriving DecidableEq, Repr

/-- Agent `src` reads a context entry. -/
def State.ctxOf (s : State) (src asid : Nat) : Ctx × State :=
  match s.snoopRead src (s.rd MOV_XLT_CTX_BASE * 65536 + 16 * asid) 16 with
  | (.data b false, t) =>
    let e := leNat (b.take 8)
    (.entry (e % 2 = 1) (e / 4096 % 2 ^ 36 * 4096) (leNat ((b.drop 8).take 1) % 64), t)
  | (.wait, t) => (.wait, t)
  | (_, t) => (.bad, t)

/-- The status code of the translation unit (R351). -/
def stAsidDenied : Nat := 0xB3
def stXltFault : Nat := 0xB4
def stXltTmo : Nat := 0xB5

/-- The data of a translation answer: 16 bytes for each entry, the page's VA with log2 of its size in its low byte, and the
leaf. -/
def xltBytes (l : List TlbEnt) : List Byte := l.flatMap (fun t => natLe 8 (t.base + t.bits) ++ natLe 8 t.pte)

/-- The entries of a translation answer. -/
def xltEnts (asid : Nat) : Nat → List Byte → List TlbEnt
  | 0, _ => []
  | n + 1, d =>
    if d.length < 16 then []
    else
      let v := leNat (d.take 8)
      { asid := asid, base := v / 256 * 256, bits := v % 256, pte := leNat ((d.drop 8).take 8) } :: xltEnts asid n (d.drop 16)

/-- The payload of a translation request: ASID, prefetch, and its pages. -/
def xltPayload (asid : Nat) (prefetch : Bool) (pages : List (Nat × Bool)) : List Byte :=
  natLe 2 asid ++ natLe 2 (if prefetch then 1 else 0) ++ natLe 4 pages.length ++
  pages.flatMap (fun e => natLe 8 (e.1 + if e.2 then 1 else 0))

/-- Decode a translation request. -/
def xreqOf (p : Pkt) : XReq :=
  let n := leNat ((p.data.drop 4).take 4)
  { pkt := p, asid := leNat (p.data.take 2) % 4096, prefetch := leNat ((p.data.drop 2).take 2) % 2 = 1
    pages := (List.range (min n (p.data.length / 8))).map (fun k =>
      let v := leNat ((p.data.drop (8 + 8 * k)).take 8)
      (v / 65536 * 65536 % 2 ^ 48, v % 2 = 1)) }

/-- Send an answer for a request, which leaves the slice. -/
def State.xltAnswer (s : State) (k : Nat) (r : XReq) (status : Nat) (d : List Byte) : State :=
  let s1 := s.updSlice k (fun x => { x with reqs := x.reqs.filter (fun q => q.pkt ≠ r.pkt) })
  let s2 := s1.updIface (0x1A0 + k) (fun i => { i with inbound := i.inbound.erase r.pkt })
  s2.send { mkAnswer r.pkt (0x1A0 + k) status d false with opc := if d.isEmpty then 0x28 else 0x29 }

/-- Start a walk for a page: from the deepest table that the walk cache holds, or from the root (R331, R335). -/
def State.startWalk (s : State) (k : Nat) (r : XReq) (va : Nat) : State :=
  let sl := s.xslice k
  let hit := ([3, 2, 1].filterMap (fun l => sl.wc.find? (fun w =>
    w.asid = r.asid && w.level = l && w.base = va / 2 ^ levelBits (l - 1)))).head?
  let (lt, s1) : Option (Option (Nat × Nat)) × State :=
    match hit with
    | some w => (some (some (w.level, w.table)), s)
    | none =>
      match s.ctxOf (0x1A0 + k) r.asid with
      | (.entry _ root _, t) => (some (some (0, root)), t)
      | (.bad, t) => (some none, t)
      | (.wait, t) => (none, t)
  match lt with
  | none => s1
  | some (some (l, tb)) =>
    let w : Walk := { id := s1.xlt.nextWalk, asid := r.asid, va := va, level := l, table := tb, src := r.pkt.src,
                      stream := r.pkt.stream }
    ((s1.updXlt (fun x => { x with nextWalk := x.nextWalk + 1 })).updSlice k (fun x => { x with
      walks := x.walks ++ [w] })).inc MOV_XLT_CNT_WALKS 0 1
  | some none => s1.updSlice k (fun x => { x with
      reqs := x.reqs.map (fun q => if q.pkt = r.pkt then { q with bad := q.bad ++ [(va, 3, 0)] } else q) })

/-- Walks of a stream in flight in all slices (R336). -/
def State.streamWalks (s : State) (src stream : Nat) : Nat :=
  ((s.xlt.slices.flatMap (fun e => e.2.walks)).filter (fun w => w.src = src && w.stream = stream)).length

/-- Look up one page of a request: start its walk where it misses and neither limit forbids it. -/
def State.lookup (s : State) (k : Nat) (r : XReq) (va : Nat) : State :=
  let sl := s.xslice k
  if (findTlb sl.tlb r.asid va).isSome || sl.walks.any (fun w => w.asid = r.asid && w.va = va) ||
      r.bad.any (fun b => b.1 = va) || 64 ≤ sl.walks.length || 16 ≤ s.streamWalks r.pkt.src r.pkt.stream then s
  else s.startWalk k r va

/-- What stops a request at its pages in order: none while a page is still walked, some none when all translate, and the fault
of the first page that does not (R340). -/
def XReq.verdict (r : XReq) (tlb : List TlbEnt) : List (Nat × Bool) → Option (Option (Nat × Bool × Nat × Nat))
  | [] => some none
  | (va, w) :: l =>
    match findTlb tlb r.asid va with
    | some t =>
      if w && !pteW t.pte && !pteBusy t.pte then some (some (va, w, 1, (match t.bits with | 30 => 1 | 21 => 2 | _ => 3)))
      else r.verdict tlb l
    | none =>
      match r.bad.find? (fun b => b.1 = va) with
      | some b => if r.prefetch then r.verdict tlb l else some (some (va, w, b.2.1, b.2.2))
      | none => none

/-- Raise a fault toward the fault unit. -/
def State.faultTo (s : State) (f : XFault) : State :=
  (s.updXlt (fun x => { x with inbox := x.inbox ++ [f] })).inc MOV_XLT_CNT_FAULTS 0 1

/-- Answer a request that can be answered. -/
def State.settleReq (s : State) (k : Nat) (r : XReq) : State :=
  let tlb := (s.xslice k).tlb
  match r.verdict tlb r.pages with
  | none => s
  | some none => s.xltAnswer k r stOk (xltBytes ((r.pages.filterMap (fun e => findTlb tlb r.asid e.1)).eraseDups))
  | some (some (va, w, kind, level)) =>
    if r.prefetch then s.xltAnswer k r stOk (xltBytes ((r.pages.filterMap (fun e => findTlb tlb r.asid e.1)).eraseDups))
    else
      (s.xltAnswer k r stXltFault []).faultTo
        { asid := r.asid, tenant := r.pkt.tenant, page := va, kind := kind, level := level, write := w
          waiter := { agent := r.pkt.src, stream := r.pkt.stream } }

/-- Let the requests of a slice go on: start walks, then answer what is complete. -/
def State.xltServe (s : State) (k : Nat) : State :=
  let s1 := (s.xslice k).reqs.foldl (fun t r => r.pages.foldl (fun u e => u.lookup k r e.1) t) s
  (s1.xslice k).reqs.foldl (fun t r => t.settleReq k r) s1

/-- A request at its slice (R332, R333): ASID_DENIED by its context, or looked up. -/
def State.xltAccept (s : State) (d : Nat) (p : Pkt) : State :=
  let k := d - 0x1A0
  let r := xreqOf p
  let s0 := s.updSlice k (fun x => { x with reqs := x.reqs ++ [r] })
  if (s.xslice k).reqs.any (fun q => q.pkt = p) then s
  else if !s.flag MOV_XLT_CTX_ENABLE then s0.xltAnswer k r stAsidDenied []
  else
    match s0.ctxOf d r.asid with
    | (.entry v _ tn, t) => if !v || tn ≠ p.tenant then t.xltAnswer k r stAsidDenied [] else t.xltServe k
    | (.bad, t) => t.xltServe k
    | (.wait, t) => t.updSlice k (fun x => { x with reqs := x.reqs.filter (fun q => q.pkt ≠ p) })

/-- A line that a slice waited for has come back: its requests go on. -/
def State.xltResume (s : State) (d : Nat) : State :=
  let k := d - 0x1A0
  let new := (s.iface d).inbound.filter (fun p => p.opc = 0x0E && (s.xslice k).reqs.all (fun r => r.pkt ≠ p))
  (new.foldl (fun t p => t.xltAccept d p) s).xltServe k

def execXltRequest (p : Pkt) (s : State) : Res :=
  .next (s.deliverUnit { p with opc := 0x0E } (fun u d q => match kindOf d with | .xlt => u.xltAccept d q | _ => u))

/-- End a walk in a fault for the requests that wait on it. -/
def State.badWalk (s : State) (k : Nat) (w : Walk) (kind : Nat) : State :=
  (s.updSlice k (fun x => { x with
    walks := x.walks.filter (fun y => y.id ≠ w.id)
    reqs := x.reqs.map (fun r => if r.asid = w.asid && r.pages.any (fun e => e.1 = w.va) then
      { r with bad := r.bad ++ [(w.va, kind, w.level)] } else r) })).xltServe k

/-- One table read of a walk returns (R333-R335). -/
def execWalkStep (slice walk : Nat) (s : State) : Res :=
  .next (match (s.xslice slice).walks.find? (fun w => w.id = walk) with
  | none => s
  | some w =>
    match s.snoopRead (0x1A0 + slice) (w.table + 8 * levelIndex w.level w.va) 8 with
    | (.wait, t) => t
    | (.none, t) => t.badWalk slice w 3
    | (.data b bad, t) =>
    let e := leNat b
    if bad then t.badWalk slice w 3
    else if e % 2 = 0 then t.badWalk slice w 0
    else if pteMalformed w.level e then t.badWalk slice w 2
    else if pteLeaf e then
      let n := levelBits w.level
      (t.updSlice slice (fun x => { x with
        walks := x.walks.filter (fun y => y.id ≠ w.id)
        tlb := keepNew 4096 { asid := w.asid, base := w.va / 2 ^ n * 2 ^ n, bits := n, pte := e } x.tlb })).xltServe slice
    else
      let next := e / 256 % 2 ^ 40 * 256
      t.updSlice slice (fun x => { x with
        wc := keepNew 512 { asid := w.asid, level := w.level + 1, base := w.va / 2 ^ levelBits w.level, table := next } x.wc
        walks := x.walks.map (fun y => if y.id = w.id then { y with level := w.level + 1, table := next } else y) }))

/-! ### The fault unit (R341-R345) -/

/-- FAULT_OPEN: the oldest fault joins an open entry for its ASID and page, opens one, or waits while all 256 are open. -/
def execFaultOpen (s : State) : Res :=
  .next (match s.xlt.inbox with
  | [] => s
  | f :: rest =>
    let acc := if f.write then 2 else 1
    if s.xlt.faults.any (fun e => e.first.asid = f.asid && e.first.page = f.page) then
      s.updXlt (fun x => { x with inbox := rest, stalled := 0, faults := x.faults.map (fun e =>
        if e.first.asid = f.asid && e.first.page = f.page then
          { e with waiters := e.waiters ++ [f.waiter], count := if e.recorded then e.count else satAdd e.count 1 65535
                   access := if e.recorded then e.access else e.access ||| acc }
        else e) })
    else if 256 ≤ s.xlt.faults.length then
      (if s.xlt.stalled = 0 then (s.updXlt (fun x => { x with stalled := 1 })).inc MOV_FLT_STAT_FULL_STALLS 0 1 else s)
    else
      s.updXlt (fun x => { x with inbox := rest, stalled := 0, nextFid := (x.nextFid + 1) % 2 ^ 32
                                  faults := x.faults ++ [{ fid := x.nextFid, first := f, access := acc, count := 1
                                                           waiters := [f.waiter] }] }))

/-- A fault record but its phase byte (R342). -/
def State.faultBytes (s : State) (e : FaultEnt) : List Byte :=
  natLe 8 e.first.page ++ natLe 2 e.first.asid ++ natLe 1 e.first.tenant ++ natLe 1 e.first.kind ++ natLe 1 e.first.level ++
  natLe 1 e.access ++ natLe 2 e.count ++ natLe 4 e.fid ++
  natLe 2 ((s.logicalOf e.first.waiter.agent).getD e.first.waiter.agent) ++ zeros 9

/-- Whether the ring takes a record: enabled, not full, and mastering granted (R342, R345). -/
def State.ringOpen (s : State) : Bool :=
  let n := s.rd MOV_FLT_RING_LOG2N
  4 ≤ n && n ≤ 16 && s.mastering && !s.hep.flr && (s.rd MOV_FLT_PTR_TAIL + 1) % 2 ^ n ≠ s.rd MOV_FLT_PTR_HEAD

/-- Write one record at TAIL, then MSI-X. -/
def State.ringWrite (s : State) (r : List Byte) : State :=
  let n := s.rd MOV_FLT_RING_LOG2N
  let tail := s.rd MOV_FLT_PTR_TAIL
  let next := (tail + 1) % 2 ^ n
  let s1 := s.hostSend (.write (s.rd MOV_FLT_RING_BASE * 4096 + 32 * tail) (r ++ natLe 1 (if s.xlt.phase then 128 else 0)))
  let s2 := (s1.wr MOV_FLT_PTR_TAIL 0 next).updXlt (fun x => { x with phase := if next = 0 then !x.phase else x.phase })
  s2.msix (s.rd MOV_FLT_CFG_VECTOR)

/-- Write held records while the ring takes them. -/
def State.ringDrain : Nat → State → State
  | 0, s => s
  | n + 1, s =>
    match s.xlt.held with
    | r :: l => if s.ringOpen then State.ringDrain n ((s.updXlt (fun x => { x with held := l })).ringWrite r) else s
    | [] => s

/-- HOLD_NS after an entry opened. -/
def execFaultRecordWrite (fid : Nat) (s : State) : Res :=
  .next (match s.xlt.faults.find? (fun e => e.fid = fid && !e.recorded) with
  | none => s
  | some e =>
    let s1 := s.updXlt (fun x => { x with
      faults := x.faults.map (fun y => if y.fid = fid then { y with recorded := true } else y)
      held := x.held ++ [s.faultBytes e] })
    s1.ringDrain s1.xlt.held.length)

/-- Who may write the MOV_XLT_ and MOV_FLT_ registers (R352). -/
def xltWriter (w : Writer) : Bool :=
  match w with
  | .driver => true
  | .agent a => 0x191 ≤ a && a ≤ 0x194
  | .oob => false

/-- A write of MOV_FLT_PTR.HEAD (R342). -/
def execFaultRingHead (w : Writer) (head : Nat) (s : State) : Res :=
  let n := 2 ^ s.rd MOV_FLT_RING_LOG2N
  let h := s.rd MOV_FLT_PTR_HEAD
  let t := s.rd MOV_FLT_PTR_TAIL
  .next (if !xltWriter w then s
  else if n ≤ head || (t + n - h) % n < (head + n - h) % n then s.wr MOV_FLT_PTR_REJECTED 0 1
  else (s.wr MOV_FLT_PTR_HEAD 0 head).ringDrain s.xlt.held.length)

end Sys2Proof.Machine
end

