-- ==== Sys2Proof/Machine/MovData.lean ====
section
/-!
DEFINITION. Machine/MovData.lean: the tile descriptor and the chain record, their checks, and the bytes that a descriptor moves
(10_data_movers.md R312-R330, 06_number_formats.md R665).
-/

namespace Sys2Proof.Machine

/-! ### The descriptor (R312-R316) -/

structure TileDesc where
  src : Nat
  dst : Nat
  srcScale : Nat
  dstScale : Nat
  dims : List Nat
  ss : List Int
  ds : List Int
  fs : Nat
  fd : Nat
  rm : Nat
  sat : Bool
  ssp : Nat
  dsp : Nat
  fence : Nat
  noalloc : Bool
  vol : Bool
  ordered : Bool
  sealing : Bool
  fill : Bool
  seed : Nat
  chain : Nat
  deriving DecidableEq, Repr

def tileOf (b : List Byte) : TileDesc :=
  let f (lo n : Nat) : Nat := leNat ((b.drop lo).take n)
  let g (lo : Nat) : Int := if 2 ^ 31 ≤ f lo 4 then (f lo 4 : Int) - 2 ^ 32 else f lo 4
  { src := f 0 8, dst := f 8 8, srcScale := f 16 8, dstScale := f 24 8, dims := [f 32 4, f 36 4, f 40 4, f 44 4]
    ss := [g 48, g 52, g 56], ds := [g 60, g 64, g 68], fs := f 72 1 % 32, fd := f 73 1 % 32, rm := f 74 1 % 8
    sat := f 74 1 / 8 % 2 = 1, ssp := f 75 1 % 4, dsp := f 75 1 / 4 % 4, fence := f 76 1 % 4, noalloc := f 76 1 / 4 % 2 = 1
    vol := f 76 1 / 8 % 2 = 1, ordered := f 76 1 / 16 % 2 = 1, sealing := f 76 1 / 32 % 2 = 1, fill := f 77 1 = 1
    seed := f 80 8, chain := f 88 8 }

/-- Reserved bits, OP, SPACE, FENCE and RM (R312, R317). -/
def tileReserved (b : List Byte) : Bool :=
  let f (lo n : Nat) : Nat := leNat ((b.drop lo).take n)
  decide (f 72 1 < 32 ∧ f 73 1 < 32 ∧ f 74 1 < 16 ∧ f 74 1 % 8 ≤ 4 ∧ f 75 1 < 16 ∧ f 75 1 % 4 ≠ 3 ∧ f 75 1 / 4 ≠ 3 ∧
    f 76 1 < 64 ∧ f 76 1 % 4 ≠ 3 ∧ f 77 1 ≤ 1 ∧ f 78 2 = 0 ∧ f 96 32 = 0)

def TileDesc.dim (d : TileDesc) (k : Nat) : Nat := d.dims.getD k 1
/-- Rows, and elements. -/
def TileDesc.rows (d : TileDesc) : Nat := d.dim 1 * d.dim 2 * d.dim 3
def TileDesc.total (d : TileDesc) : Nat := d.dim 0 * d.rows

/-- The address of row `j` (R313). -/
def TileDesc.rowAt (d : TileDesc) (base : Nat) (st : List Int) (j : Nat) : Int :=
  (base : Int) + ((j % d.dim 1 : Nat) : Int) * st.getD 0 0 + ((j / d.dim 1 % d.dim 2 : Nat) : Int) * st.getD 1 0 +
    ((j / d.dim 1 / d.dim 2 : Nat) : Int) * st.getD 2 0

/-- GRID40 in memory (06_number_formats.md R665): the geometry of its words and exponent bytes. -/
def gridInfo : FmtInfo := { elt := intFmt 40, block := 32, scale := .e8m0 }

/-- The geometry of a format code under the captured table. -/
def movInfo (tab : List Word) (code : Nat) : Option FmtInfo := if code = 0x0F then some gridInfo else fmtOf tab code

/-- Whether a format has a separate scale array. -/
def hasScale (fi : FmtInfo) : Bool := fi.block ≠ 0 && fi.place = 0

/-! ### The chain record (R323-R326) -/

inductive Stage where
  | decrypt (lg slot first : Nat) (iv : List Byte)
  | convert (code rm : Nat) (sat : Bool)
  | scale (bias vec : Bool) (val addr : Nat)
  | act (fn : Nat)
  | clamp (lo hi : Nat)
  | blockq (code addr : Nat)
  | checksum (sha cmp : Bool) (addr : Nat)
  deriving DecidableEq, Repr

/-- One entry: none where it is malformed; `some none` at the end of the chain. -/
def stageOf (b : List Byte) : Option (Option Stage) :=
  let f (lo n : Nat) : Nat := leNat ((b.drop lo).take n)
  let ok (p : Bool) (x : Option Stage) : Option (Option Stage) := if p then some x else none
  match f 0 1 with
  | 0 => ok (f 1 15 = 0) none
  | 1 => ok (12 ≤ f 1 1 && f 1 1 ≤ 16) (some (.decrypt (f 1 1) (f 2 2) (f 4 4) ((b.drop 8).take 8)))
  | 2 => ok (f 1 1 ≤ 4 && f 2 1 < 16 && f 2 1 % 8 ≤ 4 && f 3 13 = 0) (some (.convert (f 1 1) (f 2 1 % 8) (f 2 1 / 8 = 1)))
  | 5 => ok (f 1 1 ≤ 5 && f 2 14 = 0) (some (.act (f 1 1)))
  | 6 => ok (f 1 3 = 0 && f 12 4 = 0) (some (.clamp (f 4 4) (f 8 4)))
  | 7 => ok (f 1 1 < 32 && f 2 6 = 0) (some (.blockq (f 1 1) (f 8 8)))
  | 8 => ok (f 1 1 ≤ 1 && f 2 1 ≤ 1 && f 3 5 = 0) (some (.checksum (f 1 1 = 1) (f 2 1 = 1) (f 8 8)))
  | k =>
    if k = 3 || k = 4 then
      ok (f 1 1 ≤ 1 && f 2 2 = 0 && (if f 1 1 = 0 then f 8 8 = 0 else f 4 4 = 0)) (some (.scale (k = 4) (f 1 1 = 1) (f 4 4) (f 8 8)))
    else none

/-- The stages of a record; none where R325 is broken. -/
def stagesOf : Nat → List Byte → Option (List Stage)
  | 0, _ => some []
  | n + 1, b =>
    match stageOf (b.take 16) with
    | none => none
    | some none => some []
    | some (some x) => (stagesOf n (b.drop 16)).bind (fun l =>
        let isDec (y : Stage) : Bool := match y with | .decrypt _ _ _ _ => true | _ => false
        let isSum : Bool := match x with | .checksum _ _ _ => true | _ => false
        if l.any isDec || (isSum && !l.isEmpty) then none else some (x :: l))

def Stage.working : Stage → Bool
  | .decrypt _ _ _ _ => false
  | .checksum _ _ _ => false
  | _ => true

/-- The DECRYPT stage of a chain, and its checksum stage. -/
def decryptOf (l : List Stage) : Option (Nat × Nat × Nat × List Byte) :=
  match l with
  | .decrypt a b c d :: _ => some (a, b, c, d)
  | _ => none
def checksumOf (l : List Stage) : Option (Bool × Bool × Nat) :=
  l.findSome? (fun x => match x with | .checksum a b c => some (a, b, c) | _ => none)

/-! ### What a descriptor touches (R313, R319, R326, R328, R339) -/

/-- Bytes of plaintext of an encrypted source, and of its stream with the tags. -/
def TileDesc.plainLen (d : TileDesc) (fi : FmtInfo) : Nat :=
  if fi.block = 0 then (fi.elt.width * d.total + 7) / 8 else d.rows * vecBytes fi (d.dim 0)
def cryptLen (lg n : Nat) : Nat := n + 16 * ((n + 2 ^ lg - 1) / 2 ^ lg)

/-- One range that a descriptor reads or writes; `side` numbers the sides of R319: 0 the source, 1 the destination, 2 and 3
their scale arrays, 4 and above the chain's addresses. -/
structure Span where
  side : Nat
  sp : Nat
  addr : Int
  len : Nat
  write : Bool
  table : Bool := false
  deriving DecidableEq, Repr

/-- The ranges of a descriptor, side by side in the order of R340. -/
def TileDesc.spans (d : TileDesc) (fi fo : FmtInfo) (stages : List Stage) (tab : List Word) : List Span :=
  let n := d.dim 0
  let js := List.range d.rows
  let src : List Span :=
    if d.fill then []
    else match decryptOf stages with
      | some (lg, _, _, _) => [⟨0, d.ssp, d.src, cryptLen lg (d.plainLen fi), false, false⟩]
      | none => js.map (fun j => ⟨0, d.ssp, d.rowAt d.src d.ss j, vecBytes fi n, false, false⟩)
  let dst : List Span := js.map (fun j => ⟨1, d.dsp, d.rowAt d.dst d.ds j, vecBytes fo n, true, false⟩)
  let ssc : List Span := if hasScale fi && !d.fill then [⟨2, d.ssp, d.srcScale, d.rows * scaleBytes fi n, false, false⟩] else []
  let dsc : List Span := if hasScale fo then [⟨3, d.dsp, d.dstScale, d.rows * scaleBytes fo n, true, false⟩] else []
  let rec_ : List Span := if d.chain = 0 then [] else [⟨4, d.ssp, d.chain, 128, false, true⟩]
  let st : List Span := (stages.zipIdx).filterMap (fun (x, k) => match x with
    | .scale _ true _ a => some ⟨5 + k, d.ssp, a, 4 * n, false, false⟩
    | .blockq c a => if a = 0 then none else
        some ⟨5 + k, d.ssp, a, d.rows * ((movInfo tab c).map (fun f => (n + f.block - 1) / max 1 f.block * f.scale.bytes)).getD 0,
          true, false⟩
    | .checksum sha cmp a => some ⟨5 + k, d.ssp, a, if sha then 48 else 4, !cmp, false⟩
    | _ => none)
  src ++ dst ++ ssc ++ dsc ++ rec_ ++ st

/-- 64 KiB pages of a range. -/
def pages64 (a n : Nat) : List Nat :=
  if n = 0 then [] else (List.range ((a + n - 1) / 65536 - a / 65536 + 1)).map (fun k => (a / 65536 + k) * 65536)

/-- The pages that a descriptor's VA sides touch, in the order of R340, with a mark for writes. -/
def pagesOf (l : List Span) : List (Nat × Bool) :=
  ((l.filter (fun x => x.sp = 0)).flatMap (fun x => (pages64 x.addr.toNat x.len).map (fun p => (p, x.write)))).eraseDups

/-! ### Checks (R314-R317, R319, R325, R326, R329) -/

/-- Alignment of a side (R314). -/
def sideAligned (d : TileDesc) (fi : FmtInfo) (base : Nat) (st : List Int) : Bool :=
  let w := fi.elt.width
  if w = 16 || w = 32 then
    base % (w / 8) = 0 && (List.range 3).all (fun k => d.dim (k + 1) ≤ 1 || st.getD k 0 % ((w / 8 : Nat) : Int) = 0)
  else true

/-- Structure (R312-R317): everything but the content of the chain record. `chainMover` says that the mover runs chains. -/
def TileDesc.structOk (d : TileDesc) (raw : List Byte) (chainMover : Bool) : Bool :=
  tileReserved raw && d.dims.all (1 ≤ ·) && decide (d.total ≤ 2 ^ 40) && (chainMover || (d.chain = 0 && !d.sealing)) &&
  (!d.fill || (d.ssp = 0 && d.srcScale = 0 && d.ss.all (· = 0)))

/-- Structure that needs the formats: alignment, scale addresses, and VA sides within 48 bits. A side whose format is not valid (`ks`,
`kd`) has no width, so of it only the addresses are checked. -/
def TileDesc.geometryOk (d : TileDesc) (ks kd : Bool) (fi fo : FmtInfo) (spans : List Span) : Bool :=
  (d.fill || !ks || sideAligned d fi d.src d.ss) && (!kd || sideAligned d fo d.dst d.ds) && (d.srcScale = 0 || !ks || hasScale fi) &&
  (d.dstScale = 0 || !kd || hasScale fo) &&
  spans.all (fun x => x.sp ≠ 0 ||
    (0 ≤ x.addr && x.addr + (if (x.side = 0 && !ks) || (x.side = 1 && !kd) then 1 else x.len : Nat) ≤ 2 ^ 48))

/-- Whether every destination granule is written whole (R329): runs of rows that join are whole lines. -/
def TileDesc.wholeLines (d : TileDesc) (fo : FmtInfo) : Bool :=
  let n := vecBytes fo (d.dim 0)
  let rows := (List.range d.rows).map (fun j => d.rowAt d.dst d.ds j)
  rows.all (fun a =>
    (a % 128 = 0 || rows.contains (a - n)) && ((a + n) % 128 = 0 || rows.contains (a + n)))

/-- Structure of the chain (R325, R326, R329). -/
def TileDesc.chainOk (d : TileDesc) (stages : Option (List Stage)) (fo : FmtInfo) (tenant : Nat) (tab : List Word) : Bool :=
  match stages with
  | none => false
  | some l =>
    let dec := (decryptOf l).isSome
    (!dec || (d.ss.all (· = 0) && !d.fill)) && (!d.sealing || (dec && tenant ≠ 0 && d.wholeLines fo)) &&
    l.all (fun x => match x with
      | .blockq c _ => (match movInfo tab c with | some f => f.block ≠ 0 && c ≠ 0x0F | none => 0x10 ≤ c)
      | _ => true)

/-- A custom code whose slot is not valid (06_number_formats.md R168). -/
def fmtBad (tab : List Word) (code : Nat) : Bool := (movInfo tab code).isNone

/-- Whether a range lies in the scratchpad region of this hub (R315). -/
def State.padRange (s : State) (a n : Nat) : Bool :=
  let lo := s.hubNo * 2 ^ 48 + 0x20000000000
  lo ≤ a && a + n ≤ lo + 64 * 0x1000000

/-- Spaces that the tenant may not use (R315). -/
def State.spaceDenied (s : State) (tenant : Nat) (l : List Span) : Bool :=
  l.any (fun x => tenant ≠ 0 && (x.sp = 2 || (x.sp = 1 && !s.padRange x.addr.toNat x.len)))

/-- Extents (R319). -/
def extentBad (l : List Span) : Bool :=
  ((l.map (·.side)).eraseDups).any (fun k =>
    let m := l.filter (fun x => x.side = k && x.sp = 0)
    match m with
    | [] => false
    | x :: r =>
      let lo := r.foldl (fun a y => min a y.addr) x.addr
      let hi := r.foldl (fun a y => max a (y.addr + (y.len : Int))) (x.addr + (x.len : Int))
      lo + 2 ^ 26 < hi)

/-- The tenant to which a key slot is bound: the lowest that maps the model (17_security.md R565). -/
def State.keyTenant (s : State) (e : Nat) : Option Nat := (List.range 64).find? (fun t => s.mapped t e)

/-- Whether the key slot of a chain may not be used (R326). -/
def State.keyBad (s : State) (tenant : Nat) (l : List Stage) : Bool :=
  match decryptOf l with
  | some (_, e, _, _) => (SMap.get? s.vst.keys e).isNone || s.keyTenant e ≠ some tenant
  | none => false

/-! ### Moving bytes -/

/-- Where an address of a space lies for a job: host memory or not, and the address. -/
def State.place (s : State) (j : MovJob) (sp a : Nat) : Bool × Nat :=
  match sp with
  | 0 => (match findTlb j.pins j.asid a with | some t => s.target t a | none => (false, 0))
  | 1 => (false, a)
  | _ => (true, a)

/-- A byte that a job has read, with its poison. -/
def State.movByte (s : State) (j : MovJob) (sp a : Nat) : Byte × Bool :=
  let (h, x) := s.place j sp a
  (gotByte j.got h x, gotPois j.got h x 1)

def State.movBytes (s : State) (j : MovJob) (sp a n : Nat) : List (Byte × Bool) := (List.range n).map (fun k => s.movByte j sp (a + k))

/-- One row of a tile: values and patterns of its elements, its scales, the poison of each element, and whether it may be
written (R327). -/
structure MovRow where
  vals : List Val
  pats : List Nat
  scs : List Nat
  pois : List Bool
  ok : List Bool

/-- Where element 0 stands behind the first byte of a vector: behind an inline scale that comes before its block (06_number_formats.md R177). -/
def headBytes (fi : FmtInfo) : Nat := if fi.block ≠ 0 && fi.place = 1 then fi.scale.bytes else 0

/-- Patterns and scales of a vector in memory. -/
def vecPats (fi : FmtInfo) (bs : List Byte) (off n : Nat) : List Nat :=
  let w := fi.elt.width
  (List.range n).map (fun i =>
    let b := off + eltBit fi (headBytes fi) 0 i
    (leVal ((bs.drop (b / 8)).take ((w + 14) / 8)) >>> (b % 8)) % 2 ^ w)
def vecScales (fi : FmtInfo) (bs sc : List Byte) (n : Nat) : List Nat :=
  if fi.block = 0 then []
  else (List.range ((n + fi.block - 1) / fi.block)).map (fun b =>
    if fi.place = 0 then leVal ((sc.drop (b * fi.scale.bytes)).take fi.scale.bytes)
    else leVal ((bs.drop (scaleOff fi (headBytes fi) 0 b)).take fi.scale.bytes))

/-- The value of an element (06_number_formats.md R173, R177, R665). -/
def movVal (fi : FmtInfo) (code : Nat) (scs : List Nat) (i p : Nat) : Val :=
  if code = 0x0F then gridDecode (scs.getD (i / 32) 0) p
  else if fi.block = 0 then fi.elt.decode p
  else scaledElt fi.scale (scs.getD (i / fi.block) 0) (fi.elt.decode p)

/-- The row of a vector whose bytes are given with their poison, from bit `off` on. -/
def rowOf (fi : FmtInfo) (code off n : Nat) (bs sc : List (Byte × Bool)) (ok : Nat → Bool) : MovRow :=
  let b := bs.map (·.1)
  let pats := vecPats fi b off n
  let scs := vecScales fi b (sc.map (·.1)) n
  let w := fi.elt.width
  let bad (lo hi : Nat) : Bool := ((bs.drop lo).take (hi + 1 - lo)).any (·.2)
  let pois := (List.range n).map (fun i =>
    if fi.block = 0 then let x := off + w * i; bad (x / 8) ((x + w - 1) / 8)
    else
      let k := i / fi.block
      let eb := (w * fi.block + 7) / 8
      let lo := eltBit fi (headBytes fi) 0 (k * fi.block) / 8
      bad lo (lo + eb - 1) ||
      (if fi.place = 0 then ((sc.drop (k * fi.scale.bytes)).take fi.scale.bytes).any (·.2)
       else bad (scaleOff fi (headBytes fi) 0 k) (scaleOff fi (headBytes fi) 0 k + fi.scale.bytes - 1)))
  { vals := (pats.zipIdx).map (fun (p, i) => movVal fi code scs i p), pats := pats, scs := scs, pois := pois
    ok := (List.range n).map ok }

/-- Chunk `k` of an encrypted stream (R326): its plaintext, with the poison of the ciphertext, and whether its tag verifies. -/
def openChunk (key iv : List Byte) (first lg k : Nat) (ct : List (Byte × Bool)) : List (Byte × Bool) × Bool :=
  let c := (ct.drop (k * (2 ^ lg + 16))).take (2 ^ lg + 16)
  let body := c.take (c.length - 16)
  let tag := (c.drop (c.length - 16)).map (fun b => b.1.toNat)
  let n := natLe 4 ((first + k) % 2 ^ 32)
  let (pt, t) := gcmOpen (key.map BitVec.toNat) ((iv ++ n).map BitVec.toNat) (body.map (fun b => b.1.toNat))
  ((pt.zip body).map (fun e => (BitVec.ofNat 8 e.1, e.2.2)), t = tag)

/-- Decrypt a stream of `m` chunks from chunk `k` on: the plaintext of the chunks before the first whose tag fails, and that
chunk. -/
def openStream (key iv : List Byte) (first lg : Nat) (ct : List (Byte × Bool)) : Nat → Nat → List (Byte × Bool) × Option Nat
  | 0, _ => ([], none)
  | m + 1, k =>
    let (pt, ok) := openChunk key iv first lg k ct
    if ok then (let (r, f) := openStream key iv first lg ct m (k + 1); (pt ++ r, f)) else ([], some k)

/-- The source rows of a descriptor, and the chunk whose tag failed. -/
def State.sourceRows (s : State) (j : MovJob) (d : TileDesc) (fi : FmtInfo) (stages : List Stage) : List MovRow × Option Nat :=
  let n := d.dim 0
  let sb := scaleBytes fi n
  let sc (k : Nat) : List (Byte × Bool) := if hasScale fi then s.movBytes j d.ssp (d.srcScale + k * sb) sb else []
  if d.fill then
    let p := d.src % 2 ^ fi.elt.width
    let v := if d.fs = 0x0F then gridDecode 0 p else fi.elt.decode p
    let r : MovRow := { vals := List.replicate n v, pats := List.replicate n p, scs := [], pois := List.replicate n false
                        ok := List.replicate n true }
    (List.replicate d.rows r, none)
  else
    match decryptOf stages with
    | some (lg, e, first, iv) =>
      let len := d.plainLen fi
      let ct := s.movBytes j d.ssp d.src (cryptLen lg len)
      let (pt, bad) := openStream (SMap.getD s.vst.keys e []) iv first lg ct ((len + 2 ^ lg - 1) / 2 ^ lg) 0
      let have_ := pt.length
      let full := pt ++ List.replicate (len - have_) (0, false)
      ((List.range d.rows).map (fun k =>
        if fi.block = 0 then
          let off := fi.elt.width * n * k
          rowOf fi d.fs off n full (sc k) (fun i => (off + fi.elt.width * (i + 1) + 7) / 8 ≤ have_)
        else
          let vb := vecBytes fi n
          let per := vb / max 1 ((n + fi.block - 1) / fi.block)
          rowOf fi d.fs 0 n ((full.drop (k * vb)).take vb) (sc k) (fun i => k * vb + (i / fi.block + 1) * per ≤ have_)), bad)
    | none => ((List.range d.rows).map (fun k =>
        rowOf fi d.fs 0 n (s.movBytes j d.ssp (d.rowAt d.src d.ss k).toNat (vecBytes fi n)) (sc k) (fun _ => true)), none)

/-! ### Stages (R323, R324) -/

/-- A row under a working chain: FP32 patterns with their poison, the flags, and the scale bytes that BLOCKQ writes, by stage. -/
structure MovWork where
  xs : List (Nat × Bool)
  fl : Nat := 0
  outs : List (Nat × List (Byte × Bool)) := []

/-- Apply a function to every element. -/
def MovWork.each (w : MovWork) (f : Nat → Nat × Bool → (Nat × Bool) × Nat) : MovWork :=
  let l := (w.xs.zipIdx).map (fun (x, i) => f i x)
  { w with xs := l.map (·.1), fl := orFlags (w.fl :: l.map (·.2)) }

/-- FP32 multiplication, minimum and maximum with RNE. -/
def mulFp32 (a b : Nat) : Nat × Nat := eltArith 0x02 fp32 fp32 false .rne false 0 a b 0 false
def clampFp32 (lo hi x : Nat) : Nat :=
  (eltArith 0x07 fp32 fp32 false .rne false 0 (eltArith 0x08 fp32 fp32 false .rne false 0 x lo 0 false).1 hi 0 false).1

/-- Apply stage `k` to row `row`. -/
def State.runStage (s : State) (j : MovJob) (d : TileDesc) (row k : Nat) (w : MovWork) (x : Stage) : MovWork :=
  let base := d.dim 0 * row
  match x with
  | .convert c rm sat =>
    let f := ((fmtOf [] c).map (·.elt)).getD fp32
    w.each (fun i (p, b) =>
      let (q, f1) := f.convert ((rmOf .rne rm).getD .rne) sat (rsrWord d.seed (base + i)) (fp32.decode p)
      (((fp32.convert .rne false 0 (f.decode q)).1, b), f1))
  | .scale bias vec val addr =>
    w.each (fun i (p, b) =>
      let (v, vb) :=
        if vec then
          (let bs := s.movBytes j d.ssp (addr + 4 * i) 4; (leNat (bs.map (·.1)), bs.any (·.2)))
        else (val, false)
      let (q, f1) := if bias then addFp32 p v else mulFp32 p v
      ((q, b || vb), f1))
  | .act fn => w.each (fun _ (p, b) =>
      let v := fp32.decode p
      let (q, f1) := match fn with
        | 0 => (if v.isNan then 0x7FC00000 else if v.isNeg then 0 else p, 0)
        | 1 => gateFn 0 p
        | 2 => gateFn 1 p
        | 3 => specialFn 0x39 p v
        | 4 => specialFn 0x38 p v
        | _ => specialFn 0x34 p v
      ((q, b), f1))
  | .clamp lo hi => w.each (fun _ (p, b) => ((if (fp32.decode p).isNan then 0x7FC00000 else clampFp32 lo hi p, b), 0))
  | .blockq c _ =>
    match movInfo j.tab c with
    | none => w
    | some f =>
      let blocks := chunk f.block (w.xs.length + 1) w.xs
      let encs : List ((Nat × List Nat × Nat) × Bool) := (blocks.zipIdx).map (fun (b, q) =>
        (encodeBlock f ((rmOf .rne d.rm).getD .rne) d.sat d.seed (base + q * f.block) (b.map (fun (e : Nat × Bool) => fp32.decode e.1)),
          b.any (·.2)))
      -- what the elements dequantise to, with the flags of that conversion
      let deq := encs.flatMap (fun (e, b) =>
        e.2.1.map (fun p => (fp32.convert .rne false 0 (scaledElt f.scale e.1 (f.elt.decode p)), b)))
      { xs := deq.map (fun v => (v.1.1, v.2))
        fl := orFlags (w.fl :: encs.map (fun e => e.1.2.2) ++ deq.map (fun v => v.1.2))
        outs := w.outs ++ [(k, encs.flatMap (fun (e, b) => (natLe f.scale.bytes e.1).map (fun y => (y, b))))] }
  | _ => w

/-- Encode a row in a format under CONV: patterns, scales and flags (06_number_formats.md R174-R178, R665). -/
def encodeRow (fi : FmtInfo) (code : Nat) (d : TileDesc) (base : Nat) (vs : List Val) : List Nat × List Nat × Nat :=
  let rm := (rmOf .rne d.rm).getD .rne
  if code = 0x0F then
    let ps := (vs.zipIdx).map (fun (v, i) => fp32.convert rm d.sat (rsrWord d.seed (base + i)) v)
    let blocks := chunk 32 (vs.length + 1) (ps.map (·.1))
    let encs := blocks.map (fun b => let e := gridByte b; (e, b.map (gridEncode e)))
    (encs.flatMap (fun e => e.2.map (·.1)), encs.map (·.1), orFlags (ps.map (·.2) ++ encs.flatMap (fun e => e.2.map (·.2))))
  else if fi.block = 0 then
    let ps := (vs.zipIdx).map (fun (v, i) => fi.elt.convert rm d.sat (rsrWord d.seed (base + i)) v)
    (ps.map (·.1), [], orFlags (ps.map (·.2)))
  else
    let encs := ((chunk fi.block (vs.length + 1) vs).zipIdx).map (fun (b, k) =>
      encodeBlock fi rm d.sat d.seed (base + k * fi.block) b)
    (encs.flatMap (fun e => e.2.1), encs.map (·.1), orFlags (encs.map (fun e => e.2.2)))

/-- The bytes of a row and of its separate scales. -/
def rowBytes (fi : FmtInfo) (pats scs : List Nat) : List Byte × List Byte :=
  let w := fi.elt.width
  if fi.block = 0 then (packElts w pats, [])
  else
    let bl := chunk fi.block (pats.length + 1) pats
    let pad (b : List Nat) : List Nat := b ++ List.replicate (fi.block - b.length) 0
    let sb (k : Nat) : List Byte := natLe fi.scale.bytes (scs.getD k 0)
    if fi.place = 0 then (packElts w (bl.flatMap pad), (List.range bl.length).flatMap sb)
    else ((bl.zipIdx).flatMap (fun (b, k) =>
      if fi.place = 1 then sb k ++ packElts w (pad b) else packElts w (pad b) ++ sb k), [])

/-- The elements that a byte of a row, or of its scales, holds. -/
def byteElts (fi : FmtInfo) (n k : Nat) : List Nat :=
  let w := fi.elt.width
  if fi.block = 0 then (List.range n).filter (fun i => 8 * k < w * (i + 1) && w * i < 8 * (k + 1))
  else
    let eb := (w * fi.block + 7) / 8 + (if fi.place = 0 then 0 else fi.scale.bytes)
    let b := k / eb
    (List.range (min fi.block (n - b * fi.block))).map (fun i => b * fi.block + i)
def scaleElts (fi : FmtInfo) (n k : Nat) : List Nat :=
  let b := k / max 1 fi.scale.bytes
  (List.range (min fi.block (n - b * fi.block))).map (fun i => b * fi.block + i)

/-- A byte to write: its address in a space, its value, and poison. -/
structure OutByte where
  sp : Nat
  addr : Nat
  val : Byte
  bad : Bool
  deriving DecidableEq, Repr

/-- A row's output: patterns, scales, flags, the poison of each element and whether it is written, and BLOCKQ's scales. -/
structure OutRow where
  pats : List Nat
  scs : List Nat
  fl : Nat
  pois : List Bool
  ok : List Bool
  outs : List (Nat × List (Byte × Bool))

/-- Convert one row (R320, R323). -/
def State.convertRow (s : State) (j : MovJob) (d : TileDesc) (fo : FmtInfo) (stages : List Stage) (k : Nat) (r : MovRow) :
    OutRow :=
  let base := d.dim 0 * k
  if !stages.any Stage.working then
    if d.fs = d.fd && (!d.fill || fo.block = 0) then { pats := r.pats, scs := r.scs, fl := 0, pois := r.pois, ok := r.ok, outs := [] }
    else
      let (p, sc, fl) := encodeRow fo d.fd d base r.vals
      { pats := p, scs := sc, fl := fl, pois := r.pois, ok := r.ok, outs := [] }
  else
    let rm := (rmOf .rne d.rm).getD .rne
    let ins := (r.vals.zipIdx).map (fun (v, i) => fp32.convert rm d.sat (rsrWord d.seed (base + i)) v)
    let w0 : MovWork := { xs := (ins.map (·.1)).zip r.pois, fl := orFlags (ins.map (·.2)) }
    let w := (stages.zipIdx).foldl (fun w (x, q) => s.runStage j d k q w x) w0
    let (p, sc, fl) := encodeRow fo d.fd d base (w.xs.map (fun x => fp32.decode x.1))
    { pats := p, scs := sc, fl := fl ||| w.fl, pois := w.xs.map (·.2), ok := r.ok, outs := w.outs }

/-- What a descriptor does once its data is read: the bytes to write in order, the flags, whether a poisoned granule was read, and
the status and value that end the item. -/
structure MovOut where
  bytes : List OutByte
  fl : Nat
  pois : Bool
  stop : Option (Nat × Nat)
  read : Nat

/-- Carry out a descriptor (R316, R320-R329). -/
def State.carryOut (s : State) (j : MovJob) (d : TileDesc) (fi fo : FmtInfo) (stages : List Stage) : MovOut :=
  let n := d.dim 0
  let (rows, tagBad) := s.sourceRows j d fi stages
  let outs := (rows.zipIdx).map (fun (r, k) => s.convertRow j d fo stages k r)
  let any (l : List Bool) (is : List Nat) : Bool := is.any (fun i => l.getD i false)
  let all (l : List Bool) (is : List Nat) : Bool := is.all (fun i => l.getD i true)
  let data := (outs.zipIdx).flatMap (fun (o, k) =>
    let (eb, _) := rowBytes fo o.pats o.scs
    let a := (d.rowAt d.dst d.ds k).toNat
    ((eb.zipIdx).filter (fun e => all o.ok (byteElts fo n e.2))).map (fun (v, q) =>
      ({ sp := d.dsp, addr := a + q, val := v, bad := any o.pois (byteElts fo n q) } : OutByte)))
  let scales := (outs.zipIdx).flatMap (fun (o, k) =>
    let (_, sb) := rowBytes fo o.pats o.scs
    let a := d.dstScale + k * scaleBytes fo n
    if !hasScale fo then []
    else ((sb.zipIdx).filter (fun e => all o.ok (scaleElts fo n e.2))).map (fun (v, q) =>
      ({ sp := d.dsp, addr := a + q, val := v, bad := any o.pois (scaleElts fo n q) } : OutByte)))
  let qs := if tagBad.isSome then [] else (outs.zipIdx).flatMap (fun (o, k) => o.outs.flatMap (fun (st, l) =>
    match stages[st]? with
    | some (.blockq _ a) => if a = 0 then [] else (l.zipIdx).map (fun (v, q) =>
        ({ sp := d.ssp, addr := a + k * l.length + q, val := v.1, bad := v.2 } : OutByte))
    | _ => []))
  -- the checksum covers the element bytes in tile order, packed (R328)
  let body : List Byte :=
    if fo.block = 0 then packElts fo.elt.width (outs.flatMap (·.pats)) else outs.flatMap (fun o => (rowBytes fo o.pats o.scs).1)
  let sum := (checksumOf stages).map (fun (sha, cmp, a) =>
    (cmp, a, if sha then sha384 body else natLe 4 (crc32c body)))
  let digest : List OutByte := match sum with
    | some (false, a, l) => if tagBad.isSome then [] else
        (l.zipIdx).map (fun (v, q) => { sp := d.ssp, addr := a + q, val := v, bad := outs.any (fun o => o.pois.any id) })
    | _ => []
  let stop : Option (Nat × Nat) := match tagBad, sum with
    | some k, _ => some (0xB7, k)
    | none, some (true, a, l) => if (s.movBytes j d.ssp a l.length).map (·.1) = l then none else some (0xB8, 0)
    | _, _ => none
  let reads := (d.spans fi fo stages j.tab).filter (fun x => !x.write && !x.table)
  { bytes := data ++ scales ++ qs ++ digest, fl := orFlags (outs.map (·.fl)), pois := j.got.any (·.poison), stop := stop
    read := (reads.map (·.len)).foldl (· + ·) 0 }

/-! ### Overlap (R318) -/

/-- The physical ranges of a span: host memory or not, first address and length. -/
def State.spanRanges (s : State) (j : MovJob) (x : Span) : List (Bool × Nat × Nat) :=
  let a := x.addr.toNat
  if x.sp ≠ 0 then [(x.sp = 2, a, x.len)]
  else (pages64 a x.len).map (fun p =>
    let lo := max a p
    ((s.place j 0 lo).1, (s.place j 0 lo).2, min (a + x.len) (p + 65536) - lo))

/-- Two lists of ranges have a byte in common. -/
def rangesMeet (l r : List (Bool × Nat × Nat)) : Bool :=
  l.any (fun x => r.any (fun y => x.1 = y.1 && decide (0 < x.2.2 ∧ 0 < y.2.2 ∧ x.2.1 < y.2.1 + y.2.2 ∧ y.2.1 < x.2.1 + x.2.2)))

/-- A destination that overlaps its source under the four conditions of R318. -/
def TileDesc.inPlace (d : TileDesc) (fi fo : FmtInfo) : Bool :=
  d.src = d.dst && d.ssp = d.dsp && d.ss = d.ds && fi.elt.width = fo.elt.width && !hasScale fi && !hasScale fo

/-- Whether a descriptor's destination overlaps its source, a scale array, a chain record or a descriptor where R318 leaves what is written
open. -/
def State.overlapOpen (s : State) (j : MovJob) (d : TileDesc) (fi fo : FmtInfo) (stages : List Stage) : Bool :=
  let l := d.spans fi fo stages j.tab
  let of (f : Span → Bool) : List (Bool × Nat × Nat) := (l.filter f).flatMap (s.spanRanges j)
  let dst := of (fun x => x.side = 1)
  (!d.inPlace fi fo && rangesMeet dst (of (fun x => x.side = 0))) || rangesMeet dst (of (fun x => 2 ≤ x.side)) ||
  rangesMeet dst [(false, j.desc, 128 * j.ndesc)]

/-- Runs of bytes that follow one another. -/
def runsOf : List OutByte → List (Nat × Nat × List (Byte × Bool))
  | [] => []
  | b :: l =>
    match runsOf l with
    | (sp, a, r) :: t => if sp = b.sp && a = b.addr + 1 then (sp, b.addr, (b.val, b.bad) :: r) :: t
        else (b.sp, b.addr, [(b.val, b.bad)]) :: (sp, a, r) :: t
    | [] => [(b.sp, b.addr, [(b.val, b.bad)])]

end Sys2Proof.Machine
end

