-- ==== Sys2Proof/Machine/Movers.lean ====
section
/-!
DEFINITION. Machine/Movers.lean: the queues and items of the data movers (10_data_movers.md R308-R346): dispatch, the checks and the
translation of a descriptor, its reads and writes, and the end of an item. Movers are named by physical number.
-/

namespace Sys2Proof.Machine

/-! ### Queues -/

def moverAgent (m : Nat) : Nat := 0x250 + m

/-- Status codes (R351). -/
def stMoverBusy : Nat := 0xB0
def stMovInvalid : Nat := 0xB1
def stMovExtent : Nat := 0xB2
def stSpaceDenied : Nat := 0xB6
def stKeyInvalid : Nat := 0xB9

/-- The items of a mover queue, the running one first. -/
def State.movQ (s : State) (m q : Nat) : List MovJob := SMap.getD s.movers (8 * m + q) []
def State.setMovQ (s : State) (m q : Nat) (l : List MovJob) : State := { s with movers := SMap.set [] s.movers (8 * m + q) l }

/-- Change the running item of a queue. -/
def State.updJob (s : State) (m q : Nat) (f : MovJob → MovJob) : State :=
  match s.movQ m q with
  | j :: r => s.setMovQ m q (f j :: r)
  | [] => s

/-- The request template of an item: its stream is its queue, and a posted write names queue and descriptor in its TXN. -/
def jobReq (m q : Nat) (j : MovJob) : Pkt :=
  { src := moverAgent m, tenant := j.tenant, cls := j.cls, deadline := j.deadline, stream := q, txn := q * 512 + j.k % 512 }

/-- Fetch descriptors of the running item, at most two ahead of the running one (R310). -/
def State.fetchDescs (m q : Nat) : Nat → State → State
  | 0, s => s
  | n + 1, s =>
    match s.movQ m q with
    | j :: _ =>
      if j.fetched < min j.ndesc (j.k + 3) && j.phase ≠ 5 then
        State.fetchDescs m q n ((s.updJob m q (fun x => { x with fetched := x.fetched + 1 })).dmaRead
          { jobReq m q j with note := 1, noalloc := true } false (j.desc + 128 * j.fetched) 128)
      else s
    | [] => s

/-- Begin the fence that ends an item (R310). -/
def State.finishJob (s : State) (m q : Nat) : State :=
  let a := moverAgent m
  ((s.updJob m q (fun j => { j with phase := 5, fault := false, busy := false, pins := [] })).startFence a q true).settleFence a

/-- End an item with a status (R317, R344): the descriptor and a value go into its result. -/
def State.failJob (s : State) (m q status extra : Nat) : State :=
  (s.updJob m q (fun j => { j with fail := some (status, j.k, extra) })).finishJob m q

/-! ### Dispatch (R309) -/

/-- A DISPATCH at a mover. -/
def State.moverDispatch (s : State) (d : Nat) (p : Pkt) : State :=
  let m := d - 0x250
  let b (lo n : Nat) : Nat := leNat ((p.data.drop lo).take n)
  let ok : Bool := decide (b 4 1 < 64 ∧ b 5 1 < 8 ∧ b 8 1 < 8 ∧ b 9 1 < 2 ∧ b 10 2 < 4096 ∧ 1 ≤ b 12 4 ∧ b 12 4 ≤ 65536 ∧
    b 16 8 % 128 = 0 ∧ b 24 40 = 0) &&
    (match s.spaceOf (b 16 8) with | .hbm _ => true | .cellar _ _ => true | _ => false)
  if !ok then s.answer d p stMovInvalid
  else
    let q := b 8 1
    let l := s.movQ m q
    if 64 ≤ l.length then s.answer d p stMoverBusy
    else
      let j : MovJob := { seq := s.movSeq, item := b 0 4, tenant := b 4 1, cls := b 5 1, deadline := b 6 2, asid := b 10 2
                          restart := b 9 1 = 1, ndesc := b 12 4, desc := b 16 8 }
      let s1 : State := { s with movSeq := s.movSeq + 1 }
      let s2 := (s1.setMovQ m q (l ++ [j])).answer d p stOk
      if l.isEmpty then s2.fetchDescs m q 3 else s2

def execMoverDispatch (p : Pkt) (s : State) : Res :=
  .next (s.deliverUnit { p with opc := 0x0B } (fun u d r => match kindOf d with | .mover => u.moverDispatch d r | _ => u))

/-! ### The start of a descriptor (R317, R339, R340) -/

/-- Whether a physical mover runs chains: it carries one of D24 to D31 (R323). -/
def State.chainMover (s : State) (m : Nat) : Bool :=
  if s.roll.floorplan then 25 ≤ m
  else match s.logicalOf (moverAgent m) with
    | some a => 0x058 ≤ a && a < 0x060
    | none => false

/-- Send a translation request to the mover's slice (R331): `ahead` for a descriptor fetched ahead, `prefetch` where a page without a translation raises
nothing. -/
def State.askXlt (s : State) (m q : Nat) (j : MovJob) (ahead prefetch : Bool) (pages : List (Nat × Bool)) : State :=
  let no := if s.roll.floorplan then m else ((s.logicalOf (moverAgent m)).getD 0x040) - 0x040
  let a := moverAgent m
  s.issue { jobReq m q j with opc := 0x0E, dst := 0x1A0 + no % 8, note := if ahead then 1 else 2, txn := s.freeTxn a
                              data := xltPayload j.asid prefetch pages }

/-- Read a range, page by page where it is virtual. -/
def State.readSpan64 (s : State) (m q : Nat) (j : MovJob) (d : TileDesc) (note : Nat) (x : Span) : State :=
  let a := x.addr.toNat
  let parts : List (Nat × Nat) := if x.sp ≠ 0 then [(a, x.len)]
    else (pages64 a x.len).map (fun p => (max a p, min (a + x.len) (p + 65536) - max a p))
  parts.foldl (fun t e =>
    let (h, r) := t.place j x.sp e.1
    let na := x.sp = 0 && (match findTlb j.pins j.asid e.1 with | some y => pteNoalloc y.pte | none => false)
    t.dmaRead { jobReq m q j with note := note, vol := d.vol, noalloc := d.noalloc || na, ordered := d.ordered } h r e.2) s

/-- The entries that pages of a descriptor have among translations, and whether one of them still needs the slice: not there, or
a write that its leaf forbids. -/
def pinPages (l : List TlbEnt) (asid : Nat) (pages : List (Nat × Bool)) : List TlbEnt × Bool :=
  let es := pages.map (fun e => (findTlb l asid e.1, e.2))
  (es.filterMap (·.1), es.any (fun e => match e.1 with
    | some t => e.2 && !pteW t.pte && !pteBusy t.pte
    | none => true))

/-- Check a fetched descriptor, translate and pin its pages, and issue its reads once everything holds. -/
def State.descStart (s : State) (m q : Nat) : State :=
  match s.movQ m q with
  | [] => s
  | j0 :: _ =>
    let da := j0.desc + 128 * j0.k
    if j0.phase ≠ 0 || j0.fault || j0.busy || !gotAll j0.dgot false da 128 then s
    else if gotPois j0.dgot false da 128 then s.failJob m q stMemPoison 0
    else
      let raw := gotBytes j0.dgot false da 128
      let d := tileOf raw
      -- the format table is captured once, as the descriptor starts (06_number_formats.md R179)
      let j : MovJob := if j0.gen.isSome then j0 else { j0 with tab := s.fmtTable, gen := some (s.rd MOV_FMT_CTL_GEN) }
      let known := if j.asidOk then j.pins ++ SMap.getD s.xlt.micro m [] else j.pins
      let chainSpan : Span := ⟨4, d.ssp, d.chain, 128, false, true⟩
      let fi := (movInfo j.tab d.fs).getD { elt := fp32 }
      let fo := (movInfo j.tab d.fd).getD { elt := fp32 }
      let ks := !fmtBad j.tab d.fs
      let kd := !fmtBad j.tab d.fd
      let fmtOk := ks && kd
      let base := d.spans fi fo [] j.tab
      let struct1 := d.structOk raw (s.chainMover m)
      if !struct1 || !d.geometryOk ks kd fi fo base then s.failJob m q stMovInvalid 0
      else
        let chainDenied := d.chain ≠ 0 && !j.chunk && s.spaceDenied j.tenant [chainSpan]
        let cp := pagesOf (if d.chain = 0 then [] else [chainSpan])
        let (ce, cmiss) := pinPages known j.asid cp
        let jc : MovJob := { j with pins := ce }
        let places := if d.chain = 0 || chainDenied || cmiss then []
          else (List.range 128).map (fun k => s.place jc d.ssp (d.chain + k))
        let haveChain := d.chain = 0 || chainDenied ||
          (!cmiss && places.all (fun x => gotAll j.cgot x.1 x.2 1))
        if d.chain ≠ 0 && gotPois j.cgot (s.place jc d.ssp d.chain).1 (s.place jc d.ssp d.chain).2 128 then s.failJob m q stMemPoison 0
        else if !haveChain then
          -- the chain record is read with the descriptor (R323): its page first, then the record. A chain page without a translation faults only
          -- behind the other pages of the descriptor (R340), once what is known of it has passed its checks
          if cmiss && !j.tried then (s.updJob m q (fun _ => { j with phase := 2, tried := true })).askXlt m q j false true cp
          else if cmiss then
            (if !fmtOk then s.failJob m q stFormatInvalid 0
             else if !j.chunk && s.spaceDenied j.tenant base then s.failJob m q stSpaceDenied 0
             else if extentBad base then s.failJob m q stMovExtent 0
             else (s.updJob m q (fun _ => { j with phase := 2 })).askXlt m q j false false (pagesOf base))
          else (s.updJob m q (fun _ => { jc with phase := 1 })).readSpan64 m q jc d 2 chainSpan
        else
          let cb := places.map (fun x => gotByte j.cgot x.1 x.2)
          let stages := if d.chain = 0 || chainDenied then some [] else stagesOf 8 cb
          let st := stages.getD []
          let spans := d.spans fi fo st j.tab
          let chainFmt := st.any (fun x => match x with | .blockq c _ => fmtBad j.tab c | _ => false)
          if !d.chainOk (if chainDenied then some [] else stages) fo j.tenant j.tab && !(chainDenied && d.sealing) && !j.chunk then
            s.failJob m q stMovInvalid 0
          else if !d.geometryOk ks kd fi fo spans then s.failJob m q stMovInvalid 0
          else if !fmtOk || chainFmt then s.failJob m q stFormatInvalid 0
          else if !j.chunk && s.spaceDenied j.tenant spans then s.failJob m q stSpaceDenied 0
          else if extentBad spans then s.failJob m q stMovExtent 0
          else if s.keyBad j.tenant st then s.failJob m q stKeyInvalid 0
          else
            let pages := pagesOf spans
            let (es, miss) := pinPages known j.asid pages
            if miss then (s.updJob m q (fun _ => { j with phase := 2 })).askXlt m q j false false pages
            else if pages.any (fun e => e.2 && ((findTlb es j.asid e.1).map (fun t => pteBusy t.pte)).getD false) then
              s.updJob m q (fun _ => { j with busy := true })
            else
              let jr : MovJob := { j with phase := 3, pins := es, got := [], moved := true }
              let a := moverAgent m
              let s1 := s.updJob m q (fun _ => jr)
              let s2 := if d.fence = 0 then s1 else (s1.startFence a q (d.fence = 2)).settleFence a
              (spans.filter (fun x => !x.write && !x.table)).foldl (fun t x => t.readSpan64 m q jr d (if j.chunk then 4 else 0) x) s2

def execMovDescStart (mover q : Nat) (s : State) : Res := .next (s.descStart mover q)

/-! ### The end of a descriptor (R310, R320-R329, R344) -/

/-- Whether the reads of the running descriptor have all been answered: nothing of its queue is outstanding or waiting but
descriptors fetched ahead and translations of those. -/
def State.readsDone (s : State) (m q : Nat) : Bool :=
  let i := s.iface (moverAgent m)
  (i.outstanding ++ i.waiting.filterMap Held.req?).all (fun p => p.stream ≠ q || p.note = 1 || p.opc = 0x06 || isPosted p)

/-- Issue the writes of a run of bytes, page by page where it is virtual. -/
def State.writeRun (s : State) (m q : Nat) (j : MovJob) (d : TileDesc) (r : Nat × Nat × List (Byte × Bool)) : State :=
  let (sp, a, l0) := r
  -- the last line of a model's last chunk is filled up with zeros
  let l := if j.chunk then l0 ++ List.replicate ((128 - l0.length % 128) % 128) (0, false) else l0
  let parts : List (Nat × Nat) := if sp ≠ 0 then [(a, l.length)]
    else (pages64 a l.length).map (fun p => (max a p, min (a + l.length) (p + 65536) - max a p))
  parts.foldl (fun t e =>
    let (h, x) := t.place j sp e.1
    let na := sp = 0 && (match findTlb j.pins j.asid e.1 with | some y => pteNoalloc y.pte | none => false)
    let part := (l.drop (e.1 - a)).take e.2
    t.dmaWrite { jobReq m q j with
      note := if j.chunk then 5 else if d.sealing then 3 else 0, vol := d.vol, noalloc := d.noalloc || na, ordered := d.ordered } h true x
      (part.map (·.1)) (fun k => (part.getD k (0, false)).2)) s

/-- Convert and write what a descriptor moves, and go on to the next. -/
def State.descEnd (s : State) (m q : Nat) : State :=
  match s.movQ m q with
  | [] => s
  | j :: _ =>
    if j.phase ≠ 3 || !s.readsDone m q then s
    else match j.rfail with
      | some st => s.failJob m q st 0
      | none =>
        let raw := gotBytes j.dgot false (j.desc + 128 * j.k) 128
        let d := tileOf raw
        let fi := (movInfo j.tab d.fs).getD { elt := fp32 }
        let fo := (movInfo j.tab d.fd).getD { elt := fp32 }
        let cb := if d.chain = 0 then [] else (List.range 128).map (fun k =>
          let x := s.place j d.ssp (d.chain + k)
          gotByte j.cgot x.1 x.2)
        let st := if d.chain = 0 then [] else (stagesOf 8 cb).getD []
        let o := s.carryOut j d fi fo st
        -- a poisoned line of the Vestry's directory (17_security.md R563)
        if j.chunk && (match checksumOf st with | some (_, _, a) => gotPois j.got false a 48 | none => false) then
          s.failJob m q stMemPoison 0
        else
        -- the content written over the source, a scale array, a chain record or a descriptor is not defined (R318)
        let open_ : Bool := s.overlapOpen j d fi fo st
        let n := if open_ then o.bytes.length else 0
        let bytes := if open_ then (o.bytes.zip (s.freeBytes n)).map (fun e => { e.1 with val := e.2 }) else o.bytes
        let s1 := (runsOf bytes).foldl (fun t r => t.writeRun m q j d r) (s.fresh n)
        let s2 := s1.inc MOV_BYTES_BYTES m (o.read + o.bytes.length)
        let s3 := s2.updJob m q (fun x => { x with
          flags := x.flags ||| o.fl, pois := if x.pois.isNone && o.pois then some x.k else x.pois })
        match o.stop with
        | some (status, extra) => s3.failJob m q status extra
        | none =>
          if j.k + 1 = j.ndesc then s3.finishJob m q
          else
            (s3.updJob m q (fun x => { x with k := x.k + 1, phase := 0, got := [], cgot := [], pins := [], gen := none, tried := false })).fetchDescs m q 3

def execMovDescEnd (mover q : Nat) (s : State) : Res := .next (s.descEnd mover q)

/-- Fate, status and result of an item that has run (R321, R322, R344): of poison and a failed write, the earlier descriptor
decides, and the write within one descriptor. -/
def MovJob.verdict (j : MovJob) : Nat × Nat × Nat :=
  match j.fail with
  | some (st, k, x) => (fateFailed, st, k % 65536 + x * 65536)
  | none =>
    match j.wfail, j.pois with
    | some (k, st), some p => if k ≤ p then (fateFailed, st, k % 65536) else (fateFailed, stMemPoison, p % 65536)
    | some (k, st), none => (fateFailed, st, k % 65536)
    | none, some p => (fateFailed, stMemPoison, p % 65536)
    | none, none => (fateDone, 0, j.flags)

/-- The completion EVENT of an item whose fence has completed; the next item of the queue starts. -/
def execMovItemComplete (mover q : Nat) (s : State) : Res :=
  let a := moverAgent mover
  .next (match s.movQ mover q with
  | [] => s
  | j :: r =>
    if j.phase ≠ 5 || s.fencing a q || !s.streamIdle a q then s
    else
      let (f, st, x) := j.verdict
      ((s.setMovQ mover q r).send (completionPkt a j.item f st j.moved x)).fetchDescs mover q 3)

/-! ### Answers, stops and waits -/

/-- The descriptor that a failed posted write belongs to, from its TXN. -/
def MovJob.descOf (j : MovJob) (txn : Nat) : Nat := j.k - (j.k + 512 - txn % 512) % 512

/-- Ask for the translation of a descriptor fetched ahead (R337). -/
def State.prefetchXlt (s : State) (m q k : Nat) : State :=
  match s.movQ m q with
  | [] => s
  | j :: _ =>
    let da := j.desc + 128 * k
    if k ≤ j.k || !gotAll j.dgot false da 128 then s
    else
      let d := tileOf (gotBytes j.dgot false da 128)
      match movInfo s.fmtTable d.fs, movInfo s.fmtTable d.fd with
      | some fi, some fo =>
        let sp := (d.spans fi fo [] s.fmtTable)
        let pages := pagesOf (sp.filter (fun x => 0 ≤ x.addr && x.addr + (x.len : Int) ≤ 2 ^ 48))
        if pages.isEmpty || (d.total > 2 ^ 40) then s else s.askXlt m q j true true pages
      | _, _ => s

/-- An answer reaches a mover: `r` is the request that it answers. -/
def State.moverAnswer (s : State) (r p : Pkt) : State :=
  let m := r.src - 0x250
  let q := r.stream
  match s.movQ m q with
  | [] => s
  | j :: _ =>
    if r.opc = 0x0E then
      let es := xltEnts j.asid (p.data.length / 16) p.data
      let s1 := if p.status = stOk then s.updXlt (fun x => { x with
          micro := SMap.upd [] x.micro m (fun l => (es ++ l).take 256) }) else s
      if r.note = 1 then s1
      else if j.phase ≠ 2 then s1
      else if p.status = stOk then s1.updJob m q (fun x => { x with phase := 0, pins := es, asidOk := true })
      else if p.status = stXltFault then s1.updJob m q (fun x => { x with phase := 0, fault := true, pins := [] })
      else s1.failJob m q p.status 0
    else if r.opc ≤ 0x02 then
      if p.status ≠ stOk && !p.poison && p.status ≠ stMemPoison then
        (if r.note = 1 || r.note = 2 then (if j.phase = 5 then s else s.failJob m q p.status 0)
         else s.updJob m q (fun x => { x with rfail := some (x.rfail.getD p.status) }))
      else
        let g : Got := { host := r.dst = 0x180, addr := r.addr, data := p.data, poison := p.poison || p.status ≠ stOk }
        if r.note = 1 then (s.updJob m q (fun x => { x with dgot := x.dgot ++ [g] })).prefetchXlt m q ((r.addr - j.desc) / 128)
        else if r.note = 2 then
          let s1 := s.updJob m q (fun x => { x with cgot := x.cgot ++ [g] })
          if s1.readsDone m q then s1.updJob m q (fun x => { x with phase := if x.phase = 1 then 0 else x.phase }) else s1
        else s.updJob m q (fun x => { x with got := x.got ++ [g] })
    else s

/-- A posted write of a mover failed (R344): queue and descriptor are in its TXN. -/
def State.moverWfail (s : State) (a : Nat) (p : Pkt) : State :=
  let m := a - 0x250
  s.updJob m (p.txn / 512 % 8) (fun j => { j with wfail := some (j.wfail.getD (j.descOf p.txn, p.status)) })

/-- Stop the item of a mover by its ID (11_steward_commands.md R366): the running one ends behind its fence, one that waits in a
queue ends at once. -/
def State.stopMover (s : State) (m item status : Nat) : State :=
  (List.range 8).foldl (fun t q =>
    match t.movQ m q with
    | [] => t
    | j :: r =>
      if j.item = item then (if j.phase = 5 then t else t.failJob m q status 0)
      else
        let gone := r.filter (fun x => x.item = item)
        gone.foldl (fun u x => u.send (completionPkt (moverAgent m) x.item fateFailed status false 0))
          (t.setMovQ m q (j :: r.filter (fun x => x.item ≠ item)))) s

/-- Remove a waiter from the fault entries (R345). -/
def State.leaveFaults (s : State) (w : Waiter) : State :=
  s.updXlt (fun x => { x with
    inbox := x.inbox.filter (fun f => f.waiter ≠ w)
    faults := x.faults.map (fun e => if e.waiters.contains w then
      { e with waiters := e.waiters.erase w, count := e.count - 1 } else e) })

/-- The mover's domain enters DRAINING (R345): items end with DOMAIN_DOWN, unstarted where nothing has moved. -/
def State.moverDrain (s : State) (m : Nat) : State :=
  (List.range 8).foldl (fun t q =>
    match t.movQ m q with
    | [] => t
    | j :: r =>
      let t1 := r.foldl (fun u x => u.send (completionPkt (moverAgent m) x.item fateFailed stDomainDown false 0))
        ((t.leaveFaults { agent := moverAgent m, stream := q }).setMovQ m q [j])
      if j.phase = 5 then t1 else t1.failJob m q stDomainDown 0) s

/-- What waits on a fault goes on: the descriptor translates again from the start (R343), or the item fails. -/
def State.resumeMover (s : State) (w : Waiter) (failWith : Option (Nat × Nat)) : State :=
  let m := w.agent - 0x250
  match s.movQ m w.stream with
  | j :: _ =>
    if !j.fault then s
    else match failWith with
      | none => s.updJob m w.stream (fun x => { x with fault := false, phase := 0, pins := [], tried := false })
      | some (st, fid) => s.failJob m w.stream st fid
  | [] => s

end Sys2Proof.Machine
end

