-- ==== Sys2Proof/Machine/FuncReset.lean ====
section
/-!
DEFINITION. Machine/FuncReset.lean: how a function-level reset and a warm or hub reset end (16_host_endpoint.md R535-R540,
17_security.md R552, 18_bringup.md R589, 19_faults_resets.md R628-R633).
-/

namespace Sys2Proof.Machine

/-- Bits of AER registers in configuration space, which are sticky (R535). -/
def stickyCfg (x : Nat) : Bool := 0x104 ≤ x && x < 0x130

/-- Configuration space, the MSI-X table and CXL component registers return to default. -/
def Hep.toDefault (h : Hep) : Hep :=
  { h with bme := false, d3 := false, memEn := false, msixEn := false, fmask := false, ltrEn := false, cxlEn := false, unmasked := [],
           pba := [], cfg := h.cfg.filter (fun e => stickyCfg e.1), msixTab := [], hdm := [] }

/-- Record a reset (R628, R631): its source and kind, and the counts. -/
def State.noteReset (s : State) (kind source : Nat) : State :=
  let s1 := (s.wr RVE_RESET_CAUSE_KIND 0 kind).wr RVE_RESET_CAUSE_SOURCE 0 source
  if kind = 3 then s1.inc RVE_RESET_CAUSE_FLR_CNT 0 1
  else if kind = 1 || kind = 2 then s1.inc RVE_RESET_CAUSE_WARM_CNT 0 1
  else s1

/-- The Loom CSRs are volatile (07_loom_model.md R269): a reset returns them to default. -/
def Tile.csrDefault (x : Tile) : Tile :=
  { x with lrm := 0, lseed := 0, lsridx := 0, lflags := 0, ltrapen := 0, errValid := false, errCount := 0, errStatus := 0, vl := 0,
           lvepc := 0, trapRun := false, trapDetail := 0, trapIter := 0, trapUop := 0, lvdisc := 0, runOff := [], fmtGen := 0, fmts := [] }

/-- The fate summaries (R540): for each queue that was not OFF or that has records, the items recorded ABANDONED and the submission
head. -/
def State.fateSummaries (s : State) : State :=
  (List.range 1024).foldl (fun t q =>
    let rs := t.hep.log.filter (fun r => r.q = q)
    if t.rd STW_QCFG_STATE q = 0 && rs.isEmpty then t
    else ((t.wr FATE_SUM_VALID q 1).wr FATE_SUM_ABANDONED q
      (min 65535 (rs.filter (fun r => pktField r.reply 8 1 = fateAbandoned)).length)).wr FATE_SUM_NEXT_SLOT q (t.rd STW_QPTR_HEAD q)) s

/-- What the Steward keeps through a function-level reset: the numbering of items, RETIRED, doze and held units; its queues, events,
resources and service return to default (R535, 12_steward_resources.md R416). -/
def Stw.toDefault (x : Stw) : Stw :=
  { nextOrder := x.nextOrder, retired := x.retired, heldUnits := x.heldUnits, dozing := x.dozing }

/-- Steps 6 and 7 of R535: summaries are written, every record is HELD, and the function and volatile classes return to default. -/
def State.flrEnd (s : State) : State :=
  let s1 := (s.fateSummaries.holdRecords (fun _ => true)).resetFunction
  let s2 : State := { s1 with
    hep := { s1.hep.toDefault with flr := false }
    stw := s1.stw.toDefault
    xlt := { s1.xlt with inbox := [], stalled := 0, faults := [], nextFid := 0, held := [], phase := true }
    tiles := s1.tiles.map (fun e => (e.1, if e.2.run.isNone then e.2.csrDefault else e.2)) }
  s2.grpRet [24, 25, 26, 27, 28, 29, 30, 40]

/-! ### Doze (R634-R636) -/

/-- The hub wakes from doze: it counts as a reset of KIND 5, the stacks leave self-refresh and their domains open, and the domains that
doze closed are started again. -/
def State.wakeStart (s : State) : State :=
  let s1 : State := ({ s.noteReset 5 9 with rve := { (s.noteReset 5 9).rve with dozeStep := 3 } } : State).ltrTo 0
  let s2 := (List.range 8).foldl (fun t m =>
    let u := if t.rd HBM_STAT_STATE m = 5 then t.wr HBM_STAT_STATE m 3 else t
    if u.domSt (0xAB + m) = domFenced then u.openDom (0xAB + m) else u) s1
  s2.rve.dozed.foldl State.openDom s2

/-- A trigger of the wake: while the hub is still entering doze, the wake follows the entry. -/
def State.wake (s : State) : State :=
  if s.rve.dozeStep = 2 then s.wakeStart
  else if s.rve.dozeStep = 1 then { s with rve := { s.rve with dozeStep := 4 } }
  else s

/-! ### Warm and hub resets -/

/-- The Granary and every confined pool are zeroed, and key slots and directory entries go (17_security.md R552). -/
def State.zeroSealed (s : State) : State :=
  let s1 := (List.range (s.rd HBM_GRAN_CFG_COUNT)).foldl (fun t k =>
    t.zeroRange ((s.rd HBM_GRAN_CFG_FIRST + k) * 2 ^ 26) ((s.rd HBM_GRAN_CFG_FIRST + k + 1) * 2 ^ 26)) s
  let s2 := (List.range 32).foldl (fun t p =>
    if s.rd STW_POOL_CFG_STATE p ≠ 0 && s.sealedTenant (s.rd STW_POOL_CFG_TENANT p) then
      (let a := t.cellOf (s.poolBase p)
       t.zeroRange a (a + s.poolBytes p))
    else t) s1
  { s2 with vst := { s2.vst with keys := [], models := [], mboxSite := none }, hbm := { s2.hbm with gran := [], poisonPages := [], gpois := [] } }

/-- What BOOT_STAT shows after a warm or hub reset (18_bringup.md R589). -/
def State.bootWarm (s : State) : State :=
  let steps := s.rd BOOT_STAT_STEPS
  if steps % 256 = 0xAA then ((s.wr BOOT_STAT_STEPS 0 0xAA).wr BOOT_STAT_READY 0 0).wr BOOT_STAT_CURRENT 0 4 else s

/-- Stacks keep what they are and what flash holds; a lost stack is tried again at training. -/
def Stack.toWarm (x : Stack) : Stack :=
  { present := x.present, serial := x.serial, gib := x.gib, rate := x.rate, hardLeft := x.hardLeft, hotOnce := false, passes := x.passes
    laneMap := x.laneMap, eq := x.eq, pendHard := x.pendHard, softRows := x.softRows, saved := x.saved }

/-- What the hub knows to be populated shows as OFF (18_bringup.md R585, HBM_STAT, SITE_STAT). -/
def State.showPopulated (s : State) : State :=
  (List.range 8).foldl (fun t n =>
    let t1 := if t.domExists (0xAB + n) && t.rd HBM_STAT_STATE n = 0 then t.wr HBM_STAT_STATE n 1 else t
    if t1.domExists (0xB3 + n) && t1.rd SITE_STAT_STATE n = 0 then t1.wr SITE_STAT_STATE n 1 else t1) s

/-- A warm or hub reset once every item has its record (R628, R629): every class but cold returns to default, every domain is OFF, and
what the units held is gone; the Vestry, the Reeve, the fate log, memory and the marks of failed units stay. -/
def State.warmEnd (s0 : State) : State :=
  let s := s0.fateSummaries.holdRecords (fun _ => true)
  let t := (s.zeroSealed.resetWarm).bootWarm
  let doms := (List.range 235).filter s.domExists
  let t1 := doms.foldl State.domRet (t.grpRet ((List.range 13).map (· + 8) ++ (List.range 7).map (· + 24) ++ (List.range 5).map (· + 32) ++ [40]))
  ({ t1 with
    com := {}, stw := {}, slu := {}, tiles := [], mill := {}, xlt := {}, movers := [], sites := [], fab := {}, fmtTable := []
    hep := { t.hep.toDefault with flr := false, bus := t.hep.bus, queued := [], outstanding := [], hq := [], cxl := [], conflicts := []
                                  ltrState := 0, linkUp := true }
    roll := { t.roll with built := false, floorplan := false, map := [] }
    hbm := { t.hbm with homes := [], stks := t.hbm.stks.map (fun e => (e.1, e.2.toWarm)) }
    rve := { t.rve with crier := none, rx := [], swaps := [], fw := none, recal := [], domReset := none, domPhase := 0, reset := 0, resetLink := false
                        fatal := none, dozeStep := 0, dozed := [] } } : State).showPopulated

/-- The reset that runs ends. -/
def State.resetEnd (s : State) : State := if s.rve.reset = 2 then s.warmEnd else s.flrEnd

/-- A function-level, warm or hub reset begins (R535, R536): host requests are refused, records become HELD, a mailbox reply that was not
performed is recorded, and the host's cache is lost. -/
def State.flrBegin (s : State) : State :=
  let s1 := ((s.updHep (fun h => { h with flr := true })).hostDead.hostDrop).loseCache 4 8
  let s2 := match s1.stw.mbox with
    | some (r, _, _, _) => s1.logFate 0xFFFF 0 3 true r
    | none => s1
  ({ s2 with stw := { s2.stw with mbox := none } } : State).holdRecords (fun _ => true)

end Sys2Proof.Machine
end

