-- ==== Sys2Proof/Machine/Steward.lean ====
section
/-!
DEFINITION. Machine/Steward.lean: the Steward's queues, packets and dispatch (11_steward_commands.md R353-R387,
12_steward_resources.md R404-R407).
-/

namespace Sys2Proof.Machine

/-! ### Packets -/

/-- The opcodes of R363. -/
def stwOpcodes : List Nat :=
  [0x00, 0x01, 0x02, 0x03, 0x04, 0x05, 0x06, 0x07, 0x08, 0x10, 0x11, 0x12, 0x18, 0x19, 0x20, 0x21, 0x22, 0x23, 0x24, 0x25, 0x26,
   0x28, 0x29, 0x2A, 0x30, 0x31, 0x32, 0x33, 0x34]

/-- The opcodes that run on a firmware core (R363). -/
def stwFirmware : List Nat := [0x18, 0x19, 0x24, 0x25, 0x26, 0x28, 0x29, 0x2A, 0x30, 0x32, 0x33, 0x34]

/-- Whether the bytes of PARAM outside the listed ranges (first byte, length) are 0. -/
def paramZero (pkt : List Byte) (used : List (Nat × Nat)) : Bool :=
  (List.range 40).all (fun k => used.any (fun u => u.1 ≤ 24 + k && 24 + k < u.1 + u.2) || pktField pkt (24 + k) 1 = 0)

/-- A parameter of an item. -/
def Item.prm (i : Item) (lo n : Nat) : Nat := pktField i.pkt lo n

/-- Whether an item of `tenant` may name queue `tq` in CANCEL or ITEM_QUERY (R366). -/
def State.mayName (s : State) (tenant tq : Nat) : Bool :=
  tenant = 0 || (tq < 1024 && s.rd STW_QCFG_TENANT tq = tenant)

/-- Check 7 of R360: the parameters of each opcode (R363); floor-plan mode names physical units (18_bringup.md R598). -/
def State.paramOk (s : State) (i : Item) : Bool :=
  let f := i.prm
  let top (a b : Nat) : Nat := if s.roll.floorplan then b else a
  let z := paramZero i.pkt
  match i.opc with
  | 0x00 => z []
  | 0x01 => (f 24 1 ≤ top 63 67 || f 24 1 = 0xFF) && f 25 1 < 32 && f 25 1 % 8 ≤ 4 && z [(24, 2), (28, 28)]
  | 0x02 => f 24 1 ≤ top 63 67 && z [(24, 1)]
  | 0x03 => f 24 1 ≤ top 63 67 && z [(24, 1)]
  | 0x04 => (f 24 1 ≤ top 31 33 || f 24 1 = 0xFE || f 24 1 = 0xFF) && f 25 1 < 8 && z [(24, 2), (28, 12)]
  | 0x05 => (f 24 1 ≤ top 15 16 || f 24 1 = 0xFF) && z [(24, 1), (32, 8)]
  | 0x06 => f 24 1 ≤ 7 && f 25 1 < 16 && z [(24, 2), (32, 16)]
  | 0x07 => decide (1 ≤ f 32 1 ∧ f 32 1 ≤ 24 ∧ f 33 1 ≤ 1) && f 24 8 / 128 = (f 24 8 + f 32 1 - 1) / 128 && z [(24, 10), (40, 24)]
  | 0x08 => f 24 1 ≤ 1 && z [(24, 1)]
  | 0x10 => f 24 2 < 4096 && f 26 1 ≤ 1 && z [(24, 3), (28, 4)]
  | 0x11 => f 24 2 < 4096 && f 38 2 = 0 && z [(24, 2), (32, 12)]
  | 0x12 => f 24 2 < 4096 && f 38 2 = 0 && z [(24, 2), (32, 8)]
  | 0x18 => (f 24 2 < 1024 || f 24 2 = 0xFFFF) && s.mayName i.tenant (f 24 2) && z [(24, 2), (28, 4)]
  | 0x19 => (f 24 2 < 1024 || f 24 2 = 0xFFFF) && s.mayName i.tenant (f 24 2) && z [(24, 2), (28, 4)]
  | 0x20 => f 24 1 ≤ 1 && f 26 2 < 32 && z [(24, 4)]
  | 0x21 => z [(24, 8)]
  | 0x22 => z [(24, 8)]
  | 0x23 => z [(24, 8)]
  | 0x24 => f 24 8 % 65536 = 0 && f 36 1 ≤ 1 && z [(24, 13), (40, 8)]
  | 0x25 => f 24 8 % 65536 = 0 && f 36 1 ≤ 4 && z [(24, 13)]
  | 0x26 => f 32 8 % 256 = 0 && z [(24, 24)]
  | 0x28 => z [(24, 8)]
  | 0x29 => z [(24, 12)]
  | 0x2A => z [(24, 8)]
  | 0x30 => z [(24, 8)]
  | 0x31 => z [(24, 16)]
  | 0x32 => z [(24, 4)]
  | 0x33 => z [(24, 8)]
  | 0x34 => f 24 1 ≤ 1 && z [(24, 1)]
  | _ => false

/-- SEAL_POLICY (17_security.md R582), and the opcodes that a sealed tenant's queues accept (R570). -/
def stSealPolicy : Nat := 0xFB
def sealedOpcodes : List Nat :=
  [0x00, 0x08, 0x18, 0x19, 0x10, 0x11, 0x12, 0x20, 0x21, 0x02, 0x03, 0x30, 0x31, 0x32, 0x33, 0x34, 0x28, 0x29, 0x2A]

/-- The checks of R360 in order: the code of the first that fails, with whether the item's SIGNAL acts. `fq` is the queue number
that its packet must name. -/
def State.checkPacket (s : State) (i : Item) (fq : Nat) : Option (Nat × Bool) :=
  let f := i.prm
  if f 2 2 ≠ fq then some (stQidMismatch, false)
  else if !stwOpcodes.contains i.opc then some (stBadOpcode, false)
  else if s.stw.items.any (fun x => x.is i.q i.id) then some (stItemDup, false)
  else if f 1 1 ≥ 32 || f 8 1 ≥ 8 || f 9 1 ≠ 0 || f 12 2 ≥ 4096 || f 14 2 ≥ 4096 || f 22 2 ≠ 0 then some (stParamInvalid, false)
  else if i.q < 1024 && !Nat.testBit (s.rd STW_QCFG_CLASSES i.q) i.cls then some (stParamInvalid, true)
  else if s.stw.retired && !([0x00, 0x08, 0x18, 0x19, 0x26].contains i.opc) then some (stStackLost, true)
  else if i.tenant ≠ 0 && i.opc = 0x26 then some (stPrivileged, true)
  else if s.sealedTenant i.tenant && !sealedOpcodes.contains i.opc then some (stSealPolicy, true)
  else if !s.paramOk i then some (stParamInvalid, true)
  else none

/-- The deadline stamp of an item's requests (R362, 01_architecture.md R27). -/
def State.due (s : State) (i : Item) : Nat :=
  if i.prm 10 2 = 0 then (s.time / 64 + 0x7FFF) % 65536 else i.deadline

/-- An item becomes one (R369), or gets its fate from the checks. -/
def State.takeIn (s : State) (q slot tenant asid : Nat) (pkt : List Byte) : State :=
  let d := pktField pkt 10 2
  let i : Item := { q := q, slot := slot, id := pktField pkt 4 4, pkt := pkt, tenant := tenant, asid := asid
                    deadline := (s.time / 64 + min d 0x7FFF) % 65536, order := s.stw.nextOrder }
  let s1 : State := { s with stw := { s.stw with nextOrder := s.stw.nextOrder + 1 } }
  match s1.checkPacket i q with
  | some (st, sig) => s1.fixFate i fateFailed st 0 sig
  | none => ({ s1 with stw := { s1.stw with items := s1.stw.items ++ [i] } } : State).ltrActive

/-! ### Requests of the Steward engine -/

/-- The header of an item's requests: their stream is the item's own. -/
def State.stwPkt (s : State) (i : Item) : Pkt :=
  { src := 0x190, tenant := i.tenant, cls := i.cls, deadline := s.due i, stream := i.order + 1 }

/-- Whether all of an item's requests are answered. -/
def State.itemIdle (s : State) (i : Item) : Bool := s.streamIdle 0x190 (i.order + 1)

/-- Change the item of an order. -/
def State.updOrder (s : State) (o : Nat) (f : Item → Item) : State :=
  { s with stw := { s.stw with items := s.stw.items.map (fun i => if i.order = o then f i else i) } }

/-- An item's data range: whether it has come, else its reads are issued once. The item's `phase` counts the ranges asked for. -/
def State.need (s : State) (i : Item) (host : Bool) (addr n : Nat) : Option (List Byte) × State :=
  if gotAll i.got host addr n then (some (gotBytes i.got host addr n), s)
  else if s.itemIdle i && i.fails.isEmpty then
    (none, s.dmaRead (s.stwPkt i) host addr n)
  else (none, s)

/-- The outcome of a translation by the Steward: it waits for a line, denied by the context, no leaf (the kind and level of
10_data_movers.md R340), or the leaf with its address and level. -/
inductive StwXlt where
  | wait
  | denied
  | fault (kind level : Nat)
  | leaf (addr level e : Nat)
  deriving DecidableEq, Repr

/-- A walk by the Steward (10_data_movers.md R333). -/
def State.walkFrom : Nat → State → Nat → Nat → Nat → StwXlt × State
  | 0, s, _, level, _ => (.fault 2 level, s)
  | n + 1, s, va, level, table =>
    let a := table + 8 * levelIndex level va
    match s.snoopRead 0x190 a 8 with
    | (.wait, t) => (.wait, t)
    | (.none, t) => (.fault 3 level, t)
    | (.data b bad, t) =>
      let e := leNat b
      if bad then (.fault 3 level, t)
      else if e % 2 = 0 then (.fault 0 level, t)
      else if pteMalformed level e then (.fault 2 level, t)
      else if pteLeaf e then (.leaf a level e, t)
      else State.walkFrom n t va (level + 1) (e / 256 % 2 ^ 40 * 256)

/-- Translate a VA for the Steward (10_data_movers.md R332-R334). -/
def State.stwWalk (s : State) (asid tenant va : Nat) : StwXlt × State :=
  if !s.flag MOV_XLT_CTX_ENABLE then (.denied, s)
  else match s.ctxOf 0x190 asid with
    | (.entry v root tn, t) => if !v || tn ≠ tenant then (.denied, t) else t.walkFrom 4 (va % 2 ^ 48) 0 root
    | (.bad, t) => (.fault 3 0, t)
    | (.wait, t) => (.wait, t)

/-- The place that a leaf gives a VA: host memory or not, and the address. -/
def State.leafPlace (s : State) (level e va : Nat) : Bool × Nat :=
  let n := levelBits level
  s.target { asid := 0, base := va / 2 ^ n * 2 ^ n, bits := n, pte := e } va

/-! ### Units (R365, R407) -/

/-- What the Steward finds for an item's unit: a unit, nothing yet, or a code that ends the item. -/
inductive Pick where
  | unit (u : Nat)
  | wait
  | fail (status : Nat)
  deriving DecidableEq, Repr

/-- Whether a live firmware update keeps work from a unit (19_faults_resets.md R625). -/
def State.updating (s : State) (u : Nat) : Bool :=
  match s.rve.fw with
  | some f => f.cur.isSome && f.cur = s.physOf u
  | none => false

/-- The firmware cores that may take an F-opcode (R363, 18_bringup.md R606, 19_faults_resets.md R625): those that run, but the one that
is being updated. -/
def State.cores (s : State) : Nat :=
  ((List.range 4).filter (fun c => Nat.testBit (s.rd STW_STAT_FW_UP) c && !s.updating (0x191 + c) && !s.rve.halted.contains (0x191 + c))).length

/-- Whether a logical unit is OPEN. -/
def State.unitOpen (s : State) (u : Nat) : Bool :=
  match s.physOf u with
  | some p => decide (s.agentState p = domOpen) && !s.stw.heldUnits.contains u && !s.updating u
  | none => false

/-- The work that a logical unit has accepted: 2 for a tile that takes nothing more. -/
def State.unitLoad (s : State) (i : Item) (u : Nat) : Nat :=
  match s.physOf u with
  | none => 0
  | some p =>
    match kindOf p with
    | .tile =>
      let x := s.tile (p - 0x200)
      if x.claim.isSome || x.park.isSome then 2 else x.launches.length + (if x.run.isSome then 1 else 0)
    | .mover => ((List.range 8).map (fun k => (s.movQ (p - 0x250) k).length)).foldl (· + ·) 0 +
        (if 64 ≤ (s.movQ (p - 0x250) (i.prm 25 1 % 8)).length then 1000 else 0)
    | .mill => (s.mill.items.filter (fun m => m.lead = p - 0x280)).length
    | _ => 0

/-- Whether a unit can take an item now. -/
def State.unitFree (s : State) (i : Item) (u : Nat) : Bool :=
  match i.opc with
  | 0x01 => decide (s.unitLoad i u < 2)
  | 0x02 => decide (s.unitLoad i u = 0)
  | 0x03 => decide (s.unitLoad i u = 0)
  | 0x04 => decide (s.unitLoad i u < 1000)
  | 0x05 => decide (s.unitLoad i u < 16)
  | _ => true

/-- The units of a set in ascending order: of `n` logical IDs, or the good ones of `m` physical units in floor-plan mode. -/
def State.unitSet (s : State) (logical n phys m : Nat) : List Nat :=
  if s.roll.floorplan then s.goodUnits phys m else (List.range n).map (logical + ·)

/-- The units that an item names: one, or a set in the order of preference among equals. -/
def State.units (s : State) (i : Item) : List Nat × Bool :=
  let n := i.prm 24 1
  let tile : List Nat × Bool := ([s.unitNo 0x000 0x200 n], false)
  match i.opc with
  | 0x01 => if n = 0xFF then (s.unitSet 0x000 64 0x200 68, true) else tile
  | 0x02 => tile
  | 0x03 => tile
  | 0x04 => if n = 0xFE then (s.unitSet 0x040 24 0x250 25, true)
            else if n = 0xFF then (s.unitSet 0x058 8 0x269 9, true) else ([s.unitNo 0x040 0x250 n], false)
  | 0x05 => if n = 0xFF then (s.unitSet 0x060 16 0x280 17, true) else ([s.unitNo 0x060 0x280 n], false)
  | 0x29 => (s.unitSet 0x058 8 0x269 9, true)
  | _ => ([], false)

/-- The unit of least load, the lowest among equals. -/
def State.leastLoaded (s : State) (i : Item) : List Nat → Option Nat
  | [] => none
  | u :: l =>
    match s.leastLoaded i l with
    | some v => if s.unitLoad i v < s.unitLoad i u then some v else some u
    | none => some u

/-- Choose the unit of an item (R365, R407). -/
def State.pick (s : State) (i : Item) : Pick :=
  if i.opc = 0x06 then .unit (0x100 + 8 * (i.prm 24 1 % 8))
  else
    let (us, set) := s.units i
    if set then
      let own (u : Nat) : Bool := i.opc ≠ 0x01 || (match s.physOf u with
        | some p => s.rd LOOM_STAT_OWNER (p - 0x200) = i.tenant
        | none => false)
      if us.all s.unitGone then .fail stVacant
      else match s.leastLoaded i (us.filter (fun u => s.unitOpen u && own u && s.unitFree i u)) with
        | some u => .unit u
        | none => .wait
    else match us with
      | u :: _ =>
        if s.unitGone u then .fail stVacant
        -- 19_faults_resets.md R622: a tile's items do not wait for the spare
        else if s.stw.heldUnits.contains u then (if u ≤ 0x03F then .fail stDomainDown else .wait)
        else if s.updating u || (s.unitOpen u && !s.unitFree i u) then .wait
        else .unit u
      | [] => .unit noAgent

/-- The record of an item's DISPATCH (07_loom_model.md R230, 09_mill.md R272, 10_data_movers.md R309, 14_sites.md R457). -/
def State.record (s : State) (i : Item) : List Byte :=
  let f := i.prm
  let rst := if i.restart? then 1 else 0
  let head := natLe 4 i.id
  match i.opc with
  | 0x01 =>
    head ++ natLe 1 i.tenant ++ natLe 1 (i.cls + f 25 1 % 8 * 16 + f 25 1 / 8 % 2 * 128) ++ natLe 2 (s.due i) ++ natLe 4 (f 28 4) ++
    natLe 4 (f 32 4) ++ natLe 8 (f 36 8) ++ natLe 8 (f 44 8) ++ natLe 4 (f 52 4) ++ natLe 1 (f 25 1 / 16 % 2 * 4 + rst * 8) ++ zeros 27
  | 0x02 => head ++ natLe 1 i.tenant ++ natLe 1 i.cls ++ natLe 2 (s.due i) ++ zeros 28 ++ natLe 1 1 ++ zeros 27
  | 0x03 => head ++ natLe 1 i.tenant ++ natLe 1 i.cls ++ natLe 2 (s.due i) ++ zeros 28 ++ natLe 1 2 ++ zeros 27
  | 0x04 =>
    head ++ natLe 1 i.tenant ++ natLe 1 i.cls ++ natLe 2 (s.due i) ++ natLe 1 (f 25 1) ++ natLe 1 rst ++ natLe 2 i.asid ++
    natLe 4 (f 28 4) ++ natLe 8 (f 32 8) ++ zeros 40
  | 0x05 => head ++ natLe 1 i.tenant ++ natLe 1 i.cls ++ natLe 2 (s.due i) ++ natLe 8 (f 32 8) ++ zeros 48
  | _ =>
    head ++ natLe 1 (f 25 1) ++ natLe 1 i.cls ++ natLe 2 (s.due i) ++ natLe 8 (f 32 8) ++ natLe 8 (f 40 8) ++ natLe 2 i.asid ++
    natLe 1 i.tenant ++ natLe 1 rst ++ zeros 36

/-- Send an item to its unit (R364, R365). -/
def State.sendUnit (s : State) (i : Item) : State :=
  match s.pick i with
  | .fail st => s.fixFate i fateFailed st 0
  | .wait => s.updOrder i.order (fun x => { x with st := 0, unit := noAgent })
  | .unit u =>
    let dst := if i.opc = 0x06 then u + i.prm 25 1 % 8 else u
    let s1 := s.updOrder i.order (fun x => { x with st := 2, unit := u })
    s1.issue { s1.stwPkt i with opc := 0x0B, dst := dst, data := s.record i, txn := s1.freeTxn 0x190 }

/-! ### Selection (12_steward_resources.md R404-R406) -/

/-- The earliest undispatched item of a queue (R371). -/
def State.headOf (s : State) (q : Nat) : Option Item := s.stw.items.find? (fun i => i.q = q && (i.st = 0 || i.st = 3))

/-- Whether an item is its queue's earliest undispatched one and not held by a busy retry. -/
def State.isHead (s : State) (i : Item) : Bool := i.st = 0 && (s.headOf i.q).map (·.order) = some i.order

/-- The code with which the WAIT flag ends an item (R374, R377). -/
def State.waitFails (s : State) (i : Item) : Option Nat :=
  if !i.wait? then none
  else if !s.flag STW_EVT_VALID i.waitEvt then some stDepFailed
  else if s.rd STW_EVT_TENANT i.waitEvt ≠ i.tenant then some stEventDenied
  else if s.flag STW_EVT_FAILED i.waitEvt then some stDepFailed
  else none

/-- Judge the WAIT flags of the earliest undispatched items until none fails. -/
def State.judge : Nat → State → State
  | 0, s => s
  | n + 1, s =>
    match s.stw.items.find? (fun i => s.isHead i && (s.waitFails i).isSome) with
    | some i => State.judge n (s.fixFate i fateFailed ((s.waitFails i).getD stDepFailed) 0)
    | none => s

/-- Whether an item is its queue's candidate (R405). -/
def State.isCandidate (s : State) (i : Item) : Bool :=
  s.isHead i &&
  !(i.order? && s.stw.items.any (fun x => x.q = i.q && x.order < i.order)) &&
  (!i.wait? || s.evtOk i.waitEvt i.waitVal) &&
  !(stwFirmware.contains i.opc && s.cores ≤ (s.stw.items.filter (fun x => x.st = 1 && stwFirmware.contains x.opc)).length) &&
  (match i.opc with | 0x01 | 0x02 | 0x03 | 0x04 | 0x05 => s.pick i ≠ .wait | _ => true)

/-- The least of some numbers, or `d`. -/
def leastOr (d : Nat) : List Nat → Nat
  | [] => d
  | a :: l => l.foldl min a

/-- A tenant's and a queue's virtual time in a class. -/
def State.tTime (s : State) (t c : Nat) : Nat := SMap.getD s.stw.tenantTime (8 * t + c) 0
def State.qTime (s : State) (q c : Nat) : Nat := SMap.getD s.stw.queueTime (8 * q + c) 0

/-- A candidate that is new lifts the virtual times of a tenant and a queue that had none in the class (R406). -/
def State.joinClass (s : State) (c : Cand) : State :=
  let old := s.stw.cands.filter (fun x => x.cls = c.cls)
  let tt := max (s.tTime c.tenant c.cls) (leastOr 0 (old.map (fun x => s.tTime x.tenant c.cls)))
  let qt := max (s.qTime c.q c.cls) (leastOr 0 (old.map (fun x => s.qTime x.q c.cls)))
  let s1 : State := if old.any (fun x => x.tenant = c.tenant) then s
    else { s with stw := { s.stw with tenantTime := SMap.set 0 s.stw.tenantTime (8 * c.tenant + c.cls) tt } }
  if old.any (fun x => x.q = c.q) then s1
  else { s1 with stw := { s1.stw with queueTime := SMap.set 0 s1.stw.queueTime (8 * c.q + c.cls) qt } }

/-- During a function-level reset, items that no unit runs and whose requests are answered are abandoned; once no item is left the reset
ends (16_host_endpoint.md R535, R536). -/
def State.flrGo (s : State) : State :=
  let s1 := s.failItems (fun i => i.st ≠ 2 && s.itemIdle i) stFlrAbandon
  if s1.stw.items.isEmpty then s1.resetEnd else s1

/-- Let the Steward look at its queues: WAIT flags are judged, and candidates come and go. -/
def State.stwTurn (s0 : State) : State :=
  if s0.hep.flr then s0.flrGo else
  let s := s0.judge s0.stw.items.length
  let now := (s.stw.items.filter s.isCandidate).map (fun i =>
    match s.stw.cands.find? (fun c => c.order = i.order) with
    | some c => c
    | none => ({ q := i.q, order := i.order, tenant := i.tenant, cls := i.cls, since := s.time } : Cand))
  let new := now.filter (fun c => s.stw.cands.all (fun x => x.order ≠ c.order))
  let s1 := new.foldl State.joinClass s
  { s1 with stw := { s1.stw with cands := now } }

/-- The share of a tenant, and the weight of a queue; the mailbox and the service have weight 1. -/
def State.shareOf (s : State) (t : Nat) : Nat := s.rd STW_TENANT_SHARE t
def State.weightOf (s : State) (q : Nat) : Nat := if q < 1024 then s.rd STW_QCFG_WEIGHT q else 1

/-- The place of a candidate in the order of R405: urgent ones first, by deadline, class and queue, where STW_SCHED.URGENT is not 0; then by class,
tenant and queue, each by its virtual time, one of SHARE or WEIGHT 0 after every other of its class (R406). -/
def State.candKey (s : State) (c : Cand) (i : Item) : List Nat :=
  let slack := (i.deadline + 65536 - s.time / 64 % 65536) % 65536
  let urgent := i.prm 10 2 ≠ 0 && s.rd STW_SCHED_URGENT ≠ 0 && (32768 ≤ slack || slack ≤ s.rd STW_SCHED_URGENT)
  if urgent then [0, (slack + 32768) % 65536, 7 - c.cls, c.q]
  else
    let age := s.rd STW_SCHED_AGE_US
    let k := if age ≠ 0 && age * 1000 ≤ s.time - c.since then 7 else c.cls
    [1, 7 - k, if s.shareOf c.tenant = 0 || s.weightOf c.q = 0 then 1 else 0, s.tTime c.tenant k, c.tenant, s.qTime c.q k, c.q]

/-- Lexicographic order of keys. -/
def lexLt : List Nat → List Nat → Bool
  | a :: l, b :: m => a < b || (a = b && lexLt l m)
  | [], _ :: _ => true
  | _, [] => false

/-- The first of keyed items. -/
def firstByKey {α : Type} : List (List Nat × α) → Option (List Nat × α)
  | [] => none
  | a :: l =>
    match firstByKey l with
    | some b => if lexLt b.1 a.1 then some b else some a
    | none => some a

/-- The candidate that R405 selects. -/
def State.selected (s : State) : Option Item :=
  (firstByKey (s.stw.cands.filterMap (fun c =>
    (s.stw.items.find? (fun i => i.order = c.order)).map (fun i => (s.candKey c i, i))))).map (·.2)

/-- Charge a dispatch to its tenant and queue (R406). -/
def State.charge (s : State) (i : Item) : State :=
  let up (x : Nat) : Nat := (65536 + x - 1) / max 1 x
  { s with stw := { s.stw with
      tenantTime := SMap.set 0 s.stw.tenantTime (8 * i.tenant + i.cls) (s.tTime i.tenant i.cls + up (s.shareOf i.tenant))
      queueTime := SMap.set 0 s.stw.queueTime (8 * i.q + i.cls) (s.qTime i.q i.cls + up (s.weightOf i.q)) } }

/-- The Steward selects a candidate and dispatches it; the command of its opcode then runs it. -/
def State.itemDispatch (s : State) : State :=
  let s1 := s.stwTurn
  match s1.selected with
  | some i => ((s1.charge i).updOrder i.order (fun x => { x with st := 1 })).stwTurn
  | none => s1

/-- 1 µs after a busy answer (R364). -/
def execBusyRetryTimer (q item : Nat) (s : State) : Res :=
  .next (match s.item q item with
  | some i => if i.st = 3 then s.sendUnit i else s
  | none => s)

/-! ### Doorbells and fetching (R354, R355, R358, R360) -/

/-- Who may write Steward registers (R387): the driver and the firmware cores. -/
def stwWriter (w : Writer) : Bool :=
  match w with
  | .driver => true
  | .agent a => 0x191 ≤ a && a ≤ 0x194
  | .oob => false

/-- Who may write doorbells (R354). -/
def State.doorWriter (s : State) (w : Writer) : Bool :=
  match w with
  | .driver => true
  | .agent a => s.csrAllowed a
  | .oob => true

/-- A submission doorbell. -/
def execSqDoorbell (w : Writer) (q tail : Nat) (s : State) : Res :=
  .next (if !s.doorWriter w then s
  else
    let s1 := (s.ltrActive.wr STW_SQDB_TAIL q tail).wake
    let st := s.rd STW_QCFG_STATE q
    if st ≠ 1 && st ≠ 2 then s1
    else if s.sqSize q ≤ tail then s1.queueError q 1
    else s1.wr STW_QPTR_TAIL q tail)

/-- The submission queues that name a completion queue. -/
def State.namers (s : State) (c : Nat) : List Nat := (List.range 1024).filter (fun q => s.rd STW_QCFG_CQ q = c)

/-- A bad completion head (R358): every RUNNING queue that names the completion queue enters ERROR. -/
def State.cqError (s : State) (c cause : Nat) : State :=
  (s.namers c).foldl (fun t q => t.enterError q cause) (s.stwErr cause c true)

/-- A completion doorbell. -/
def execCqDoorbell (w : Writer) (q head : Nat) (s : State) : Res :=
  .next (if !s.doorWriter w then s
  else
    let s1 := (s.ltrActive.wr STW_CQDB_HEAD q head).wake
    let n := s.cqSize q
    let h := s.rd STW_CQPTR_HEAD q
    if n ≤ head then s1.cqError q 1
    else if (s.rd STW_CQPTR_TAIL q + n - h) % n < (head + n - h) % n then s1.cqError q 4
    else s1.wr STW_CQPTR_HEAD q head)

/-- The free slots of a completion queue (R355). -/
def State.cqFree (s : State) (c : Nat) : Nat :=
  let n := s.cqSize c
  n - 1 - (s.rd STW_CQPTR_TAIL c + n - s.rd STW_CQPTR_HEAD c) % n - s.rd STW_CQPTR_RESERVED c

/-- How many slots the Steward may fetch from a queue by one read (R355, R404). -/
def State.fetchable (s : State) (q : Nat) : Nat :=
  let n := s.sqSize q
  let have_ := (s.rd STW_QPTR_TAIL q + n - s.rd STW_QPTR_HEAD q) % n
  let waiting := (s.stw.items.filter (fun i => i.q = q && (i.st = 0 || i.st = 3))).length
  if s.rd STW_QCFG_STATE q ≠ 1 || 32 ≤ waiting || (!s.flag STW_QBASE_LOC q && !s.mastering) then 0
  else min (min 4 have_) (min (s.cqFree (s.rd STW_QCFG_CQ q)) (65536 - (s.stw.items.filter (fun i => i.q ≠ 0xFFFE)).length))

/-- The queue that the Steward fetches from: the next in ascending order after the queue fetched last (R404). -/
def State.fetchQueue (s : State) : Option Nat :=
  ((List.range 1024).map (fun k => (s.stw.lastQueue + 1 + k) % 1024)).find? (fun q => 0 < s.fetchable q)

/-- Take the packets of one read in slot order. -/
def State.takePackets (q : Nat) : Nat → List Byte → State → State
  | 0, _, s => s
  | n + 1, d, s =>
    let h := s.rd STW_QPTR_HEAD q
    let c := s.rd STW_QCFG_CQ q
    let s1 := (s.wr STW_QPTR_HEAD q ((h + 1) % s.sqSize q)).wr STW_CQPTR_RESERVED c (s.rd STW_CQPTR_RESERVED c + 1)
    let s2 := s1.wr STW_QSTAT_FETCHED q ((s.rd STW_QSTAT_FETCHED q + 1) % 2 ^ 32)
    State.takePackets q n (d.drop 64) (s2.takeIn q h (s.rd STW_QCFG_TENANT q) (s.rd STW_QCFG_ASID q) (d.take 64))

/-- The packets of queue `q` are fetched: from local memory, once no cache holds them, or from host memory with the data that the bus has brought, or the queue
enters ERROR with cause 2 (11_steward_commands.md R358, R360). -/
def State.fetchFrom (s : State) (q : Nat) (data : List Byte) (bad : Bool) : State :=
  let k := s.fetchable q
  let n := min k (s.sqSize q - s.rd STW_QPTR_HEAD q)
  let a := s.rd STW_QBASE_BASE q * 4096 + 64 * s.rd STW_QPTR_HEAD q
  let s1 : State := { s with stw := { s.stw with lastQueue := q } }
  if s.flag STW_QBASE_LOC q then
    (if !s.memOpen a || s.poisoned (s.cellOf a) (64 * n) then s1.queueError q 2
     else s.walkRead 0x190 a (64 * n) (fun _ => (State.takePackets q n (s.bytes (s.cellOf a) (64 * n)) s1).stwTurn))
  else if bad then s1.queueError q 2
  else (State.takePackets q n (data ++ zeros (64 * n)) s1).stwTurn

/-- PACKET_FETCH: one ring read returns. `data` is what host memory holds at the slots read and `bad` an error status or poison of
a host read; a ring in local HBM or the Cellar is read in place. -/
def execPacketFetch (data : List Byte) (bad : Bool) (s : State) : Res :=
  .next (if s.flag STW_CTL_HOLD || s.stw.dozing || s.hep.flr || !s.flag BOOT_STAT_READY then s
  else (s.fetchQueue).elim s (fun q => s.fetchFrom q data bad))

/-! ### Queue states (R357, R356) -/

/-- A ring size that ENABLE accepts. -/
def ringOk (log2n : Nat) : Bool := 4 ≤ log2n && log2n ≤ 16

def execQueueEnable (w : Writer) (q : Nat) (s : State) : Res :=
  let st := s.rd STW_QCFG_STATE q
  .next (if !stwWriter w || st = 1 then s
  else if st ≠ 0 || !ringOk (s.rd STW_QBASE_LOG2N q) || !ringOk (s.rd STW_CQBASE_LOG2N (s.rd STW_QCFG_CQ q)) then
    s.wr STW_QCFG_REJECTED q 1
  else
    let s1 := ((((s.wr STW_QCFG_STATE q 1).wr STW_QCFG_ENABLE q 1).wr STW_QPTR_HEAD q 0).wr STW_QPTR_TAIL q 0).resetReg STW_QSTAT q
    { s1 with stw := { s1.stw with ended := s1.stw.ended.filter (fun e => e.1 ≠ q) } })

def execQueueDisable (w : Writer) (q : Nat) (s : State) : Res :=
  let st := s.rd STW_QCFG_STATE q
  .next (if !stwWriter w || (st ≠ 1 && st ≠ 3) then s
  else ((s.wr STW_QCFG_STATE q 2).wr STW_QCFG_ENABLE q 0).wr STW_QSTAT_CAUSE q 0)

def execQueueDrained (q : Nat) (s : State) : Res :=
  .next (if s.rd STW_QCFG_STATE q = 2 && s.stw.items.all (fun i => i.q ≠ q) then s.wr STW_QCFG_STATE q 0 else s)

def execCqbaseWrite (w : Writer) (c value : Nat) (s : State) : Res :=
  .next (if !stwWriter w then s
  else if (s.namers c).any (fun q => s.rd STW_QCFG_STATE q ≠ 0) then s.wr STW_QCFG_REJECTED c 1
  else
    let s1 := ((s.wr STW_CQBASE_BASE c (value / 4096)).wr STW_CQBASE_LOC c (value / 256 % 2)).wr STW_CQBASE_LOG2N c (value % 32)
    let s2 := ((s1.wr STW_CQPTR_PHASE c 1).wr STW_CQPTR_TAIL c 0).wr STW_CQPTR_HEAD c 0
    ({ s2 with stw := { s2.stw with cqCount := SMap.del s2.stw.cqCount c } } : State).holdRecords (fun r => r.cq = c))

/-- COAL_US after the oldest unannounced reply (R385). -/
def execCqCoalTimeout (c : Nat) (s : State) : Res :=
  .next (if s.flag STW_CQCFG_IRQ_EN c && s.rd STW_CQCFG_COAL_US c ≠ 0 && SMap.getD s.stw.cqSince c 0 ≠ 0 then
    { s with stw := { s.stw with cqSince := SMap.del s.stw.cqSince c } }.msixAfter 0x190 (replyStream c) (s.rd STW_CQCFG_VECTOR c)
  else s)

/-! ### The mailbox (R381-R383) -/

def execMboxGo (w : Writer) (s : State) : Res :=
  .next (if !stwWriter w then s
  else if s.rd RES_STAT_STATE ≠ 0 then s.wr STW_MBOX_CTL_REJECTED 0 1
  else
    let pkt := (List.range 8).flatMap (fun k => natLe 8 (s.rd STW_MBOX_CMD_PKT k))
    let s1 := ((s.wr RES_STAT_STATE 0 1).wr RES_STAT_ITEM 0 (pktField pkt 4 4)).wr STW_MBOX_CTL_GO 0 0
    ((s1.wr RES_STAT_STATUS 0 0).wr RES_STAT_FATE 0 0 |>.takeIn 0xFFFF 0 0 0 pkt).stwTurn)

/-- The fate of the mailbox command fills RES_DATA and makes the mailbox READY. -/
def execMboxReady (s : State) : Res :=
  .next (match s.stw.mbox with
  | none => s
  | some (r, fate, status, irq) =>
    let s0 : State := { s with stw := { s.stw with mbox := none } }
    let s1 := (List.range 4).foldl (fun t k => t.wr RES_DATA_REPLY k (leNat ((r.drop (8 * k)).take 8))) s0
    let s2 := ((s1.wr RES_STAT_STATE 0 2).wr RES_STAT_FATE 0 fate).wr RES_STAT_STATUS 0 status
    if irq then s2.msix (s2.rd STW_CTL_VECTOR) else s2)

def execResAck (w : Writer) (s : State) : Res :=
  .next (if stwWriter w && s.rd RES_STAT_STATE = 2 then
    ((s.wr RES_STAT_STATE 0 0).wr RES_STAT_FATE 0 0).wr RES_STAT_STATUS 0 0
  else s)

/-! ### Opcodes of the engine -/

/-- An item ends DONE. -/
def State.doneItem (s : State) (i : Item) (result : Nat) : State := s.fixFate i fateDone 0 result

/-- The phase of an item that waits for its writes of the Steward's tables; `acc` is its result. -/
def phaseTable : Nat := 99

/-- An item that wrote tables of the Steward ends DONE once they are performed (R372, 12_steward_resources.md R397). -/
def State.doneTable (s : State) (i : Item) (result : Nat) : State :=
  if s.written 0x190 walkStream then s.doneItem i result
  else s.updOrder i.order (fun x => { x with phase := phaseTable, acc := result })

/-- Go on with the dispatched item of a queue and ID that has opcode `opc`; one that waits for its table writes ends with them. -/
def State.runItem (s : State) (q item opc : Nat) (f : State → Item → State) : State :=
  match s.item q item with
  | some i =>
    if i.st = 1 && i.opc = opc then (if i.phase = phaseTable then s.doneTable i i.acc else f s i).stwTurn else s
  | none => s

/-- An item ends FAILED. -/
def State.failItem (s : State) (i : Item) (status : Nat) : State := s.fixFate i fateFailed status 0

/-- A dispatched item that was cancelled, or that met a failed request, ends once its requests are answered (R93, R366). -/
def State.endFailed (s : State) (i : Item) : State :=
  if !s.itemIdle i then s
  else match i.stop with
    | some st => s.failItem i st
    | none => match i.fails with
      | st :: _ => s.failItem i (if st = stGranPoison then stWeightPoison else st)
      | [] => if i.poison then s.failItem i stMemPoison else s

/-- Whether an item can go on: nothing failed, nothing outstanding. -/
def State.goesOn (s : State) (i : Item) : Bool := s.itemIdle i && i.stop.isNone && i.fails.isEmpty && !i.poison

/-- Run a step of an item of the Steward's own that issues requests. -/
def State.runLong (s : State) (q item opc : Nat) (f : State → Item → State) : State :=
  s.runItem q item opc (fun t i => if t.goesOn i then f t i else t.endFailed i)

def execNop (q item : Nat) (s : State) : Res := .next (s.runItem q item 0x00 (fun t i => t.doneItem i 0))
def execLoomRun (q item : Nat) (s : State) : Res := .next (s.runItem q item 0x01 State.sendUnit)
def execLoomClaim (q item : Nat) (s : State) : Res := .next (s.runItem q item 0x02 State.sendUnit)
def execLoomPark (q item : Nat) (s : State) : Res := .next (s.runItem q item 0x03 State.sendUnit)
def execMove (q item : Nat) (s : State) : Res := .next (s.runItem q item 0x04 State.sendUnit)
def execCollective (q item : Nat) (s : State) : Res := .next (s.runItem q item 0x05 State.sendUnit)
def execSiteWork (q item : Nat) (s : State) : Res := .next (s.runItem q item 0x06 State.sendUnit)

/-- A translation fault of a Steward's write goes to the fault unit, and its item waits for the answer (10_data_movers.md R341-R345). -/
def State.stwFault (s : State) (i : Item) (va kind level : Nat) : State :=
  (s.faultTo { asid := i.asid, tenant := i.tenant, page := va / 65536 * 65536 % 2 ^ 48, kind := kind, level := level, write := true
               waiter := { agent := 0x190, stream := i.order + 1 } }).updOrder i.order (fun x => { x with phase := 2 })

/-- A write that meets a BUSY page waits, and fails with XLT_FAULT_TMO once it has waited TMO_MS (10_data_movers.md R346). -/
def State.stwBusy (s : State) (i : Item) : State :=
  if i.aux = 0 then s.updOrder i.order (fun x => { x with aux := s.time + 1 })
  else if i.aux - 1 + s.rd MOV_FLT_CFG_TMO_MS * 1000000 ≤ s.time then s.failItem i stXltTmo
  else s

/-- WRITE_IMM: the write is translated and issued; the item is done when it is performed (R363). -/
def execWriteImm (q item : Nat) (s : State) : Res :=
  .next (s.runLong q item 0x07 (fun t i =>
    let a := i.prm 24 8
    let d := (i.pkt.drop 40).take (i.prm 32 1)
    if i.phase = 1 then t.doneItem i 0
    else if i.phase = 2 then t
    else
      let put (u : State) (host : Bool) (addr : Nat) : State :=
        (u.dmaWrite (u.stwPkt i) host false addr d (fun _ => false)).updOrder i.order (fun x => { x with phase := 1 })
      if i.prm 33 1 = 1 then
        if i.tenant ≠ 0 && !t.padRange a d.length then t.failItem i stSpaceDenied
        else match t.route 0x190 a with
          | .answer st => t.failItem i st
          | .toAgent _ => put t false a
      else match t.stwWalk i.asid i.tenant a with
        | (.wait, u) => u
        | (.denied, u) => u.failItem i stAsidDenied
        | (.fault kind level, u) => u.stwFault i a kind level
        | (.leaf _ l e, u) =>
          if pteBusy e then u.stwBusy i
          else if !pteW e then u.stwFault i a 1 l
          else put u (u.leafPlace l e a).1 (u.leafPlace l e a).2))

/-- BARRIER (R379): its fate is fixed when every earlier item of its scope has one. -/
def execBarrier (q item : Nat) (s : State) : Res :=
  .next (s.runItem q item 0x08 (fun t i =>
    let earlier := t.stw.items.any (fun x => x.order < i.order &&
      (if i.prm 24 1 = 0 then x.q = i.q else x.tenant = i.tenant && x.q < 1024))
    if earlier then t else t.doneItem i 0))

def execEvtSignal (q item : Nat) (s : State) : Res :=
  .next (s.runItem q item 0x10 (fun t i =>
    let e := i.prm 24 2
    if !t.evtMay e i.tenant then t.failItem i stEventDenied
    else
      let t1 := if i.prm 26 1 = 1 then t.wr STW_EVT_FAILED e 1 else t.evtAdd e (max 1 (i.prm 28 4))
      t1.doneItem i (t1.rd STW_EVT_COUNT e)))

/-- EVT_WAIT (R376, R377): done, failed, or registered once. -/
def execEvtWait (q item : Nat) (s : State) : Res :=
  .next (s.runItem q item 0x11 (fun t i =>
    let e := i.prm 24 2
    let v := i.prm 32 6
    if t.stw.waits.any (fun w => w.agent.isNone && w.q = i.q && w.id = i.id) then t
    else if !t.evtMay e i.tenant then t.failItem i stEventDenied
    else if t.flag STW_EVT_FAILED e then t.failItem i stDepFailed
    else if t.evtOk e v then t.doneItem i (t.rd STW_EVT_COUNT e)
    else { t with stw := { t.stw with waits := t.stw.waits ++ [{ evt := e, value := v, q := i.q, id := i.id }] } }))

def execEvtWaitTimeout (q item : Nat) (s : State) : Res :=
  .next (s.runItem q item 0x11 (fun t i =>
    if i.prm 40 4 ≠ 0 && t.stw.waits.any (fun w => w.agent.isNone && w.q = i.q && w.id = i.id) then t.failItem i stWaitTimeout
    else t))

def execEvtReset (q item : Nat) (s : State) : Res :=
  .next (s.runItem q item 0x12 (fun t i =>
    let e := i.prm 24 2
    if !t.evtMay e i.tenant then t.failItem i stEventDenied
    else ((t.wr STW_EVT_COUNT e (i.prm 32 6)).wr STW_EVT_FAILED e 0).doneItem i 0))

/-- STOP to the unit of a running item (R366): opcode 0x0D with ITEM in its first data bytes. -/
def State.stopUnit (s : State) (i : Item) : State :=
  let dst := if i.opc = 0x06 then i.unit + i.prm 25 1 % 8 else i.unit
  s.issue { s.stwPkt i with opc := 0x0D, dst := dst, data := natLe 4 i.id ++ zeros 60, txn := s.freeTxn 0x190 }

/-- The first steps of a reset (16_host_endpoint.md R535): STOP goes to the unit of every running item. -/
def State.flrStart (s : State) : State :=
  let s1 := s.flrBegin
  let run := s1.stw.items.filter (fun i => i.st = 2 && i.stop.isNone)
  (run.foldl (fun t i => (t.updOrder i.order (fun x => { x with stop := some stFlrAbandon })).stopUnit i) s1).flrGo

/-- Cancel one item (R366): the result, and what happens to the target. A CANCEL that names itself finds its own fate fixed (log entry 112). -/
def State.cancel (s : State) (self : Item) (tq titem : Nat) : Nat × State :=
  match s.item tq titem with
  | none => (if s.stw.ended.contains (tq, titem) then 2 else 3, s)
  | some x =>
    if x.order = self.order then (2, s)
    else if x.st = 0 || x.st = 3 then (0, s.failItem { x with unit := noAgent } stCancelled)
    else
      let s1 := s.updOrder x.order (fun y => { y with stop := some stCancelled })
      if x.st = 2 then (1, s1.stopUnit x)
      else (1, if s1.itemIdle x then s1.failItem x stCancelled else s1)

def execCancel (q item : Nat) (s : State) : Res :=
  .next (s.runItem q item 0x18 (fun t i =>
    let (r, t1) := t.cancel i (i.prm 24 2) (i.prm 28 4)
    t1.doneItem i r))

def execItemQuery (q item : Nat) (s : State) : Res :=
  .next (s.runItem q item 0x19 (fun t i =>
    t.doneItem i (match t.item (i.prm 24 2) (i.prm 28 4) with
      | none => 0
      | some x => if x.st = 0 || x.st = 3 then 1 else 2)))

/-! ### Completion and events (R366, R374-R380) -/

/-- The logical unit that a sender is for the Steward's items: a site's modules are one unit. -/
def State.unitOf (s : State) (src : Nat) : Nat :=
  match kindOf src with
  | .site n => 0x100 + 8 * n
  | _ => (s.logicalOf src).getD src

/-- An item that its unit returned with DOMAIN_DOWN, or whose DISPATCH met it (R64, R365, R622). -/
def State.domainDown (s : State) (i : Item) : State :=
  let again := (!i.started || i.restart?) && i.opc ≠ 0x05 || !i.started
  let back (t : State) : State := t.updOrder i.order (fun x => { x with st := 0, unit := noAgent, started := false })
  if again && (s.units i).2 then back s
  else if again && (s.stw.heldUnits.contains i.unit || s.updating i.unit) then back s
  else s.failItem i stDomainDown

/-- Held items go to a unit again as it completes one (R364). -/
def State.retryBusy (s : State) (u : Nat) : State :=
  (s.stw.items.filter (fun i => i.st = 3 && i.unit = u)).foldl (fun t i => t.sendUnit i) s

/-- The fate that a unit's completion gives an item: a cancelled item fails with CANCELLED whatever it carries (R366). -/
def State.completeItem (s : State) (i : Item) (fate status : Nat) (started : Bool) (result : Nat) : State :=
  let j := { i with started := started }
  match i.stop with
  | some st => s.failItem j st
  | none =>
    -- the descriptor of a WEIGHT_CHUNK has ended; its command goes on (17_security.md R564)
    if fate = fateDone && i.opc = 0x29 then s.updOrder i.order (fun x => { x with st := 1, phase := 2 })
    else if fate = fateDone then s.doneItem j result
    else if status = stDomainDown then (s.updOrder i.order (fun x => { x with started := started })).domainDown j
    else s.fixFate j fateFailed (if status = stGranPoison then stWeightPoison else status) result

/-- A completion EVENT reaches the Steward. -/
def State.completionEvent (s : State) (p : Pkt) : State :=
  let b (lo n : Nat) : Nat := leNat ((p.data.drop lo).take n)
  let s0 := s.take p
  let u := s.unitOf p.src
  match s0.runningItem u (b 4 4) with
  | some i => ((s0.completeItem i (b 8 1 % 4) (b 9 1) (b 10 1 % 2 = 1) (b 16 8)).retryBusy u).stwTurn
  | none => s0.inc STW_STAT_STRAY 0 1

/-- An agent's EVT_OP at the Steward (R378). -/
def State.evtOp (s : State) (p : Pkt) : State :=
  let op := leNat (p.data.take 1)
  let h := leNat ((p.data.drop 8).take 8)
  let e := h % 4096
  let v := h / 65536
  let answer (t : State) (status x : Nat) : State :=
    (t.updIface 0x190 (fun i => { i with inbound := i.inbound.erase p })).send
      { mkAnswer p 0x190 status (natLe 8 x) false with opc := 0x29 }
  let mine (w : EvWait) : Bool := w.agent = some p.src
  let clear (t : State) : State := { t with stw := { t.stw with waits := t.stw.waits.filter (fun w => !mine w) } }
  if 2 < op then answer s stUnsupported 0
  else if !s.evtMay e p.tenant then answer s stEventDenied 0
  else match op with
    | 0 => (answer (s.evtAdd e 1) stOk 0).settleWaits
    | 1 =>
      let s1 := clear s
      if s1.evtOk e v then answer s1 stOk 1
      else answer { s1 with stw := { s1.stw with waits := s1.stw.waits ++ [{ evt := e, value := v, agent := some p.src }] } } stOk 0
    | _ => answer (clear s) stOk 0

def execEvtOp (p : Pkt) (s : State) : Res :=
  .next (s.deliverUnit { p with opc := 0x0C, dst := 0x190 } (fun u _ q => (u.evtOp q).stwTurn))

/-- A register write of an event is an operation on it (R375-R377). -/
def execEvtRegWrite (w : Writer) (e value : Nat) (s : State) : Res :=
  .next (if !stwWriter w then s
  else
    let s1 := ((s.wr STW_EVT_VALID e (value / 2 ^ 63 % 2)).wr STW_EVT_FAILED e (value / 2 ^ 62 % 2)).wr STW_EVT_TENANT e
      (value / 2 ^ 48 % 64)
    ((s1.wr STW_EVT_COUNT e (value % 2 ^ 48)).settleWaits).stwTurn)

/-- The answer to a fault of the Steward's (10_data_movers.md R343, R345): its item translates again, or fails with a code and its FID. -/
def State.stwResume (s : State) (stream : Nat) (failWith : Option (Nat × Nat)) : State :=
  match s.stw.items.find? (fun i => i.order + 1 = stream && i.st = 1 && i.phase = 2) with
  | none => s
  | some i =>
    match failWith with
    | some (st, fid) => (s.fixFate i fateFailed st (fid * 65536)).stwTurn
    | none => s.updOrder i.order (fun x => { x with phase := 0, aux := 0 })

/-! ### Answers to the engine -/

/-- The busy codes (R364): TILE_BUSY, MILL_BUSY, MOVER_BUSY and SITE_BUSY. -/
def busyCode (st : Nat) : Bool := st = 0x92 || st = 0xA6 || st = 0xB0 || st = 0xE0

/-- The answer of a request `r` of the Steward engine reaches it: of a DISPATCH, a STOP, a read or a write of an item. -/
def State.stwAnswer (s : State) (r p : Pkt) : State :=
  match s.stw.items.find? (fun i => i.order + 1 = r.stream) with
  | none =>
    if walkStream < r.stream && r.opc = 0x06 && p.status ≠ stOk then s.replyLost (r.stream - walkStream - 1) r.data else s
  | some i =>
    match r.opc with
    | 0x0B =>
      -- no unit ran an item whose DISPATCH was refused (R368)
      let j := { i with unit := noAgent }
      if p.status = stOk then s
      else if busyCode p.status then
        (match i.stop with
         | some st => s.failItem j st
         | none => s.updOrder i.order (fun x => { x with st := 3 }))
      else match i.stop with
        | some st => s.failItem j st
        | none => if p.status = stDomainDown then s.domainDown i else s.failItem j p.status
    | 0x0D => s
    | _ =>
      if p.status = stOk || (p.status = stMemPoison && r.opc ≤ 0x02) then
        s.updOrder i.order (fun x => { x with
          got := if r.opc ≤ 0x02 then x.got ++ [{ host := r.dst = 0x180, addr := r.addr, data := p.data, poison := p.poison }] else x.got
          -- an evacuation copies poison (05_hbm.md R166)
          poison := x.poison || (i.opc ≠ 0x26 && r.opc ≤ 0x02 && (p.poison || p.status = stMemPoison)) })
      else s.updOrder i.order (fun x => { x with fails := x.fails ++ [p.status], aux := if i.opc = 0x26 && x.fails.isEmpty then r.addr else x.aux })

end Sys2Proof.Machine
end

