-- ==== Sys2Proof/Machine/XltCmds.lean ====
section
/-!
DEFINITION. Machine/XltCmds.lean: what an invalidation covers and waits for (10_data_movers.md R338, R346).
-/

namespace Sys2Proof.Machine

/-- Whether an invalidation covers a page of `bits` from `base` under an ASID (R338, MOV_XLT_INV). -/
def XInv.covers (x : XInv) (asid base bits : Nat) : Bool :=
  match x.scope with
  | 0 => true
  | 1 => x.asid = asid
  | 2 => x.asid = asid && decide (base < x.va + 65536 * x.count ∧ x.va < base + 2 ^ bits)
  | _ => false

/-- Drop every translation in scope: slices, walk caches and micro-TLBs. -/
def State.dropScope (s : State) (x : XInv) : State :=
  s.updXlt (fun t => { t with
    slices := t.slices.map (fun e => (e.1, { e.2 with
      tlb := e.2.tlb.filter (fun y => !x.covers y.asid y.base y.bits)
      wc := e.2.wc.filter (fun y => !x.covers y.asid (y.base * 2 ^ levelBits (y.level - 1)) (levelBits (y.level - 1))) }))
    micro := t.micro.map (fun e => (e.1, e.2.filter (fun y => !x.covers y.asid y.base y.bits))) })

/-- The walks in flight, and the running descriptors that hold a translation in scope, by the item's number and the descriptor. -/
def State.walksNow (s : State) : List Nat := s.xlt.slices.flatMap (fun e => e.2.walks.map (·.id))
def State.pinsIn (s : State) (x : XInv) : List (Nat × Nat) :=
  s.movers.flatMap (fun e => e.2.filterMap (fun j =>
    if j.pins.any (fun y => x.covers y.asid y.base y.bits) then some (j.seq, j.k) else none))

/-- Whether the walks and descriptors that an invalidation waits for have ended (R338). -/
def State.invClear (s : State) (x : XInv) : Bool :=
  x.walks.all (fun w => !s.walksNow.contains w) &&
  x.descs.all (fun d => s.movers.all (fun e => e.2.all (fun j => !(j.seq = d.1 && j.k = d.2 && !j.pins.isEmpty))))

/-- Whether a posted write of a mover is still on its way: at its interface, on the Commons or at its destination (R338: every access under an old
translation is performed). -/
def State.moverWrites (s : State) : Bool :=
  let mine (p : Pkt) : Bool := isPosted p && kindOf p.src = .mover
  s.com.out.any mine || s.com.ifaces.any (fun e => e.2.inbound.any mine || e.2.blocked.any mine || (e.2.waiting.filterMap Held.req?).any mine)

/-- Descriptors that wait on a BUSY page in scope translate again (R346). -/
def State.busyAgain (s : State) (x : XInv) : State :=
  { s with movers := s.movers.map (fun e => (e.1, e.2.map (fun j =>
      if j.busy && (x.scope = 0 || (x.scope ≤ 2 && j.asid = x.asid)) then { j with busy := false, phase := 0, pins := [] } else j))) }

end Sys2Proof.Machine
end

