-- ==== Sys2Proof/Machine/StwRes.lean ====
section
/-!
DEFINITION. Machine/StwRes.lean: the reserve region, pools, KV pools, sequences and page moves of the Steward
(12_steward_resources.md R388-R403, 10_data_movers.md R347-R349, 05_hbm.md R166).
-/

namespace Sys2Proof.Machine

/-- A change of the Steward's part of the state. -/
def State.updStw (s : State) (f : Stw → Stw) : State := { s with stw := f s.stw }

/-- The Steward writes its own tables in memory, at their homes (log entry 26). -/
def State.stwWrite (s : State) (hpa : Nat) (d : List Byte) : State := s.homeWrite 0x190 walkStream hpa d

/-- Zero a range of HBM or Cellar granules: for a pool's commit or a freed block (R391, R393). -/
def State.zeroHpa (s : State) (hpa n : Nat) : State :=
  if hpa < 0x10000000000 then s.zeroHome hpa (hpa + n)
  else (List.range ((n + 0x7FFFFF) / 0x800000)).foldl (fun t k =>
    let a := hpa + k * 0x800000
    let c := t.cellOf a
    t.zeroRange c (c + min 0x800000 (n - k * 0x800000))) s

/-! ### The reserve region (R388) -/

/-- Whether two ranges meet. -/
def meets (a n b m : Nat) : Bool := decide (a < b + m ∧ b < a + n)

/-- Whether a range meets a Granary block of HBM_GRAN_CFG. -/
def State.meetsGranary (s : State) (a n : Nat) : Bool :=
  meets a n (s.rd HBM_GRAN_CFG_FIRST * 2 ^ 26) (s.rd HBM_GRAN_CFG_COUNT * 2 ^ 26)

/-- STW_RSV (R388, R418): refused while any pool, KV pool or sequence exists. -/
def execRsvWrite (w : Writer) (value : Nat) (s : State) : Res :=
  let base := value / 2 ^ 28 % 2 ^ 20 * 2 ^ 28
  let used := (List.range 32).any (fun p => s.rd STW_POOL_CFG_STATE p ≠ 0) ||
    (List.range 16).any (fun k => s.rd STW_KV_CFG1_STATE k ≠ 0) || s.stw.seqs.any (fun e => e.2.isOpen)
  let s0 := if value / 2 ^ 63 % 2 = 1 then s.wr STW_RSV_REJECTED 0 0 else s
  .next (if !stwWriter w then s
  else if used || (value % 2 = 1 && (s.meetsGranary base (2 ^ 28) || s.hbmBytes < base + 2 ^ 28)) then s0.wr STW_RSV_REJECTED 0 1
  else (s0.wr STW_RSV_BASE 0 (base / 2 ^ 28)).wr STW_RSV_VALID 0 (value % 2))

/-- Addresses in the reserve region: a sequence slot's block table and token buffer. -/
def State.rsvBase (s : State) : Nat := s.rd STW_RSV_BASE * 2 ^ 28
def State.tableHpa (s : State) (slot : Nat) : Nat := s.rsvBase + slot * 16384
def State.tokenHpa (s : State) (slot : Nat) : Nat := s.rsvBase + 0x4000000 + slot * 16384

/-! ### Pools (R390-R395) -/

/-- The bytes of a block of an order. -/
def ordBytes (o : Nat) : Nat := 65536 * 2 ^ o

/-- Blocks of a pool. -/
def State.poolBlocks (s : State) (p : Nat) : List PoolBlock := s.stw.blocks.filter (fun b => b.pool = p)

/-- Whether a block at `a` of order `o` is free of every block of the pool. -/
def State.blockFree (s : State) (p a o : Nat) : Bool :=
  (s.poolBlocks p).all (fun b => !meets a (ordBytes o) b.hpa (ordBytes b.ord))

/-- Address of the `o`-block that holds an address, counted from the pool's base. -/
def alignIn (base a o : Nat) : Nat := base + (a - base) / ordBytes o * ordBytes o

/-- The lowest free block of exactly order `o`, once every free block has joined its free buddies (R393): a free top block, or the
free buddy of a block that is not free. -/
def State.lowestFree (s : State) (p o : Nat) : Option Nat :=
  let base := s.poolBase p
  let top := s.rd STW_POOL_CFG_MAXORD p
  if o = top then
    ((List.range (s.rd STW_POOL_CFG_COUNT p)).find? (fun k => s.blockFree p (base + k * ordBytes top) top)).map
      (fun k => base + k * ordBytes top)
  else
    let cs := (s.poolBlocks p).filterMap (fun b =>
      if o < b.ord then none
      else
        let a := alignIn base b.hpa o
        let up := alignIn base b.hpa (o + 1)
        let sib := if a = up then up + ordBytes o else up
        if s.blockFree p sib o then some sib else none)
    match cs with
    | [] => none
    | a :: l => some (l.foldl min a)

/-- The address at which ALLOC places a block of order `o` (R392): the smallest order that has a free block, and its lowest one. -/
def State.placeBlock (s : State) (p o : Nat) : Option Nat :=
  ((List.range (s.rd STW_POOL_CFG_MAXORD p + 1 - o)).findSome? (fun k => s.lowestFree p (o + k)))

/-- Granules of live blocks of a tenant in a space (STW_USAGE). -/
def State.usage (s : State) (tenant space : Nat) : Nat :=
  ((s.stw.blocks.filter (fun b => b.tenant = tenant && !b.zeroing && s.rd STW_POOL_CFG_SPACE b.pool = space)).map
    (fun b => 2 ^ b.ord)).foldl (· + ·) 0

/-- Whether a block of order `o` would pass the tenant's quota (R395). -/
def State.overQuota (s : State) (tenant space o : Nat) : Bool :=
  let f := if space = 0 then STW_TENANT_HBM_Q else STW_TENANT_CEL_Q
  let q := s.rd f tenant
  q ≠ f.top && q < s.usage tenant space + 2 ^ o

/-- Allocate from a pool: a status, or the block's HPA. -/
def State.allocate (s : State) (p o tenant : Nat) : (Nat ⊕ Nat) × State :=
  if s.overQuota tenant (s.rd STW_POOL_CFG_SPACE p) o then (.inl stQuota, s)
  else match s.placeBlock p o with
    | none => (.inl stNoMemory, s)
    | some a => (.inr a, s.updStw (fun x => { x with blocks := x.blocks ++ [{ pool := p, hpa := a, ord := o, tenant := tenant }] }))

/-- Whether a committed KV pool lies in a block. -/
def State.kvIn (s : State) (b : PoolBlock) : Bool :=
  (List.range 16).any (fun k => s.flag STW_KV_CFG1_STATE k && meets b.hpa (ordBytes b.ord) (s.rd STW_KV_CFG0_BASE k * 65536) 1)

/-- Free a live block: zeroed first where its pool zeroes (R393). -/
def State.freeBlock (s : State) (b : PoolBlock) : State :=
  if s.flag STW_POOL_CFG_ZERO b.pool then
    s.updStw (fun x => { x with blocks := x.blocks.map (fun y => if y = b then { y with zeroing := true } else y) })
  else s.updStw (fun x => { x with blocks := x.blocks.erase b })

/-- STW_POOL_CFG with COMMIT (R391). -/
def execPoolCommit (w : Writer) (pool value : Nat) (s : State) : Res :=
  let v (lo n : Nat) : Nat := value / 2 ^ lo % 2 ^ n
  let count := v 0 16
  let base := v 16 32 * 65536
  let ord := v 48 4
  let space := v 58 1
  let n := count * ordBytes ord
  let st := s.rd STW_POOL_CFG_STATE pool
  let live := (s.poolBlocks pool).any (fun b => !b.zeroing)
  let inside : Bool := count = 0 || (if space = 0 then decide (base + n ≤ s.hbmBytes)
    else decide (0x10000000000 ≤ base ∧ base + n ≤ 0x10000000000 + 48 * 0x800000))
  let clash := count ≠ 0 && ((List.range 32).any (fun p => p ≠ pool && s.rd STW_POOL_CFG_STATE p ≠ 0 &&
      meets base n (s.poolBase p) (s.poolBytes p)) ||
    (s.flag STW_RSV_VALID && meets base n s.rsvBase (2 ^ 28)) || s.meetsGranary base n)
  let s0 := if v 63 1 = 1 then s.wr STW_POOL_CFG_REJECTED pool 0 else s
  let put (t : State) : State := ((((((t.wr STW_POOL_CFG_ZERO pool (v 59 1)).wr STW_POOL_CFG_SPACE pool space).wr
    STW_POOL_CFG_TENANT pool (v 52 6)).wr STW_POOL_CFG_MAXORD pool ord).wr STW_POOL_CFG_BASE pool (v 16 32)).wr
    STW_POOL_CFG_COUNT pool count)
  .next (if !stwWriter w then s
  else if (st ≠ 0 && (count ≠ 0 || live)) || (space = 1 && 7 < ord) || 14 < ord || base % ordBytes ord ≠ 0 || !inside || clash then
    s0.wr STW_POOL_CFG_REJECTED pool 1
  else if count = 0 then
    -- a confined pool is zeroed first, whatever its ZERO (17_security.md R573)
    ((put (if st ≠ 0 && s.sealedTenant (s.rd STW_POOL_CFG_TENANT pool) then s0.zeroHpa (s.poolBase pool) (s.poolBytes pool) else s0)).wr
      STW_POOL_CFG_STATE pool 0).updStw (fun x => { x with blocks := x.blocks.filter (fun b => b.pool ≠ pool) })
  else (put s0).wr STW_POOL_CFG_STATE pool (if v 59 1 = 1 then 1 else 2))

def execPoolZeroDone (pool : Nat) (s : State) : Res :=
  .next (if s.rd STW_POOL_CFG_STATE pool = 1 then
    let t := s.zeroHpa (s.poolBase pool) (s.poolBytes pool)
    if t.written 0x190 walkStream then t.wr STW_POOL_CFG_STATE pool 2 else t
  else s)

def execBlockZeroDone (hpa : Nat) (s : State) : Res :=
  .next (match s.stw.blocks.find? (fun b => b.hpa = hpa && b.zeroing) with
  | some b =>
    let t := s.zeroHpa hpa (ordBytes b.ord)
    if t.written 0x190 walkStream then t.updStw (fun x => { x with blocks := x.blocks.erase b }) else t
  | none => s)

def execAlloc (q item : Nat) (s : State) : Res :=
  .next (s.runItem q item 0x20 (fun t i =>
    let p := i.prm 26 2
    let o := i.prm 25 1
    if !t.flag STW_RSV_VALID then t.failItem i stNoMemory
    else if t.rd STW_POOL_CFG_STATE p ≠ 2 || t.rd STW_POOL_CFG_SPACE p ≠ i.prm 24 1 || t.rd STW_POOL_CFG_MAXORD p < o ||
        (i.tenant ≠ 0 && t.rd STW_POOL_CFG_TENANT p ≠ i.tenant) then t.failItem i stParamInvalid
    else match t.allocate p o i.tenant with
      | (.inl st, u) => u.failItem i st
      | (.inr a, u) => u.doneItem i a))

def execFree (q item : Nat) (s : State) : Res :=
  .next (s.runItem q item 0x21 (fun t i =>
    match t.stw.blocks.find? (fun b => b.hpa = i.prm 24 8 && !b.zeroing) with
    | some b =>
      if (b.tenant ≠ i.tenant && i.tenant ≠ 0) || t.kvIn b then t.failItem i stParamInvalid
      else (t.freeBlock b).doneItem i 0
    | none => t.failItem i stParamInvalid))

/-! ### KV pools (R396-R398) -/

/-- TOKENS of a KV pool; 0 acts as 256. -/
def State.kvTokens (s : State) (k : Nat) : Nat := let t := s.rd STW_KV_CFG0_TOKENS k; if t = 0 then 256 else t

/-- The reference count of a KV block. -/
def State.kvRefOf (s : State) (k b : Nat) : Nat := SMap.getD s.stw.kvRef (k * 2 ^ 24 + b) 0

/-- Change a reference count, in the reserve region too (R388); which of the region's counts is a block's is open. -/
def State.kvSet (s : State) (k b n : Nat) : State :=
  (s.updStw (fun x => { x with kvRef := SMap.set 0 x.kvRef (k * 2 ^ 24 + b) n })).stwWrite
    (s.rsvBase + 0x8000000 + 2 * (Config.kvRefPlace k b % 2 ^ 24)) (natLe 2 n)

/-- KV blocks of a pool in use, and the free ones. -/
def State.kvUsed (s : State) (k : Nat) : Nat := (s.stw.kvRef.filter (fun e => e.1 / 2 ^ 24 = k)).length
def State.kvFree (s : State) (k : Nat) : Nat := s.rd STW_KV_CFG1_COUNT k - s.kvUsed k

/-- STW_KV_CFG1 with COMMIT (R396), applying it together with the STW_KV_CFG0 written before it. -/
def execKvPoolCommit (w : Writer) (pool cfg0 cfg1 : Nat) (s : State) : Res :=
  let count := cfg1 % 2 ^ 24
  let tenant := cfg1 / 2 ^ 24 % 64
  let base := cfg0 / 2 ^ 16 % 2 ^ 32 * 65536
  let size := let b := cfg0 / 2 ^ 48 % 256; if b = 0 then 256 else b
  let ready := s.flag STW_KV_CFG1_STATE pool
  let inBlock := s.stw.blocks.any (fun b => !b.zeroing && b.tenant = tenant && s.rd STW_POOL_CFG_SPACE b.pool = 0 &&
    b.hpa ≤ base && base + count * size * 65536 ≤ b.hpa + ordBytes b.ord)
  let sum := ((List.range 16).map (fun k => if k ≠ pool && s.flag STW_KV_CFG1_STATE k then s.rd STW_KV_CFG1_COUNT k else 0)).foldl (· + ·) 0
  let s0 := if cfg1 / 2 ^ 63 % 2 = 1 then s.wr STW_KV_CFG1_REJECTED pool 0 else s
  let bad : State := s0.wr STW_KV_CFG1_REJECTED pool 1
  .next (if !stwWriter w then s
  else if ready && 0 < s.kvUsed pool then bad
  else if count = 0 then (if ready then (s0.wr STW_KV_CFG1_STATE pool 0).wr STW_KV_CFG1_COUNT pool 0 else bad)
  else if !inBlock || 2 ^ 24 < sum + count then bad
  else
    let s1 := ((s0.wr STW_KV_CFG0_TOKENS pool (cfg0 / 2 ^ 56)).wr STW_KV_CFG0_BLOCK pool (cfg0 / 2 ^ 48)).wr STW_KV_CFG0_BASE pool
      (cfg0 / 2 ^ 16)
    ((s1.wr STW_KV_CFG1_TENANT pool tenant).wr STW_KV_CFG1_COUNT pool count).wr STW_KV_CFG1_STATE pool 1)

/-- The free KV block of lowest number (R398). -/
def State.kvLowest (s : State) (k : Nat) : Option Nat := (List.range (s.rd STW_KV_CFG1_COUNT k)).find? (fun b => s.kvRefOf k b = 0)

/-! ### Sequences (R399-R403) -/

def State.seq (s : State) (slot : Nat) : Seq := SMap.getD s.stw.seqs slot {}
def State.updSeq (s : State) (slot : Nat) (f : Seq → Seq) : State := s.updStw (fun x => { x with seqs := SMap.upd {} x.seqs slot f })

/-- The slot that a sequence number names for a tenant (R399). -/
def State.seqSlot (s : State) (n tenant : Nat) : Option Nat :=
  let slot := n % 4096
  let q := s.seq slot
  if q.isOpen && q.gen = n / 4096 && q.tenant = tenant then some slot else none

/-- The block table of a slot as memory holds it: the entries, then unused ones up to `n` (R397). -/
def State.writeTable (s : State) (slot n : Nat) : State :=
  let t := (s.seq slot).table
  s.stwWrite (s.tableHpa slot) ((t ++ List.replicate (n - t.length) 0xFFFFFFFF).flatMap (natLe 4))

/-- The pending tokens of a slot as its token buffer holds them (log entry 27). -/
def State.writeTokens (s : State) (slot : Nat) : State := s.stwWrite (s.tokenHpa slot) ((s.seq slot).toks.flatMap (natLe 4))

/-- Append up to `n` fresh blocks to a table: how many could be. -/
def State.growTable (slot : Nat) : Nat → State → Nat × State
  | 0, s => (0, s)
  | n + 1, s =>
    let q := s.seq slot
    if 4096 ≤ q.table.length then (0, s)
    else match s.kvLowest q.pool with
      | none => (0, s)
      | some b =>
        let (m, t) := State.growTable slot n ((s.kvSet q.pool b 1).updSeq slot (fun x => { x with table := x.table ++ [b] }))
        (m + 1, t)

/-- Remove the last `n` entries of a table and lower their counts. -/
def State.shrinkTable (s : State) (slot n : Nat) : State :=
  let q := s.seq slot
  let keep := q.table.length - n
  let s1 := (q.table.drop keep).foldl (fun t e => t.kvSet q.pool (e % 2 ^ 24) (t.kvRefOf q.pool (e % 2 ^ 24) - 1)) s
  (s1.updSeq slot (fun x => { x with table := x.table.take keep })).writeTable slot q.table.length

def execKvAlloc (q item : Nat) (s : State) : Res :=
  .next (s.runItem q item 0x22 (fun t i =>
    let n := i.prm 28 4
    if !t.flag STW_RSV_VALID then t.failItem i stNoMemory
    else match t.seqSlot (i.prm 24 4) i.tenant with
      | none => t.failItem i stSeqInvalid
      | some slot =>
        let len := (t.seq slot).table.length
        if (t.seq slot).service then t.failItem i stSeqInvalid
        else if t.kvFree (t.seq slot).pool < n then t.failItem i stNoMemory
        else if 4096 < len + n then t.failItem i stQuota
        else ((State.growTable slot n t).2.writeTable slot 0).doneTable i len))

def execKvFree (q item : Nat) (s : State) : Res :=
  .next (s.runItem q item 0x23 (fun t i =>
    match t.seqSlot (i.prm 24 4) i.tenant with
    | none => t.failItem i stSeqInvalid
    | some slot =>
      if (t.seq slot).service then t.failItem i stSeqInvalid
      else (t.shrinkTable slot (if i.prm 28 4 = 0 then 4096 else i.prm 28 4)).doneTable i 0))

/-! ### Reads through an item's address space -/

/-- The outcome of asking for a range of VAs: a code that ends the item, the bytes, or nothing yet. -/
inductive VaRead where
  | fail (status : Nat)
  | data (d : List Byte)
  | wait
  deriving DecidableEq, Repr

/-- The pieces of a range of VAs by page of 64 KiB. -/
def vaPieces (va n : Nat) : List (Nat × Nat) :=
  (List.range ((va + n + 65535) / 65536 - va / 65536)).map (fun k =>
    let lo := max va ((va / 65536 + k) * 65536)
    (lo, min (va + n) ((va / 65536 + k + 1) * 65536) - lo))

/-- The places of the pieces, or the code of the first that does not translate. -/
def State.vaPlaces (s : State) (i : Item) : List (Nat × Nat) → (Nat ⊕ List (Bool × Nat × Nat)) × State
  | [] => (.inr [], s)
  | (va, n) :: l =>
    match s.stwWalk i.asid i.tenant va with
    | (.wait, t) => (.inl stRetry, t)
    | (.denied, t) => (.inl stAsidDenied, t)
    | (.fault _ _, t) => (.inl stXltFault, t)
    | (.leaf _ lv e, t) =>
      let (h, a) := t.leafPlace lv e va
      match t.vaPlaces i l with
      | (.inl st, u) => (.inl st, u)
      | (.inr ps, u) => (.inr ((h, a, n) :: ps), u)

/-- Read a range of VAs for an item: its requests are issued once, and the bytes are there when all have been answered. -/
def State.vaRead (s : State) (i : Item) (va n : Nat) : VaRead × State :=
  match s.vaPlaces i (vaPieces va n) with
  | (.inl st, t) => (if st = stRetry then .wait else .fail st, t)
  | (.inr ps, t) =>
    let missing := ps.filter (fun p => !gotAll i.got p.1 p.2.1 p.2.2)
    if missing.isEmpty then (.data (ps.flatMap (fun p => gotBytes i.got p.1 p.2.1 p.2.2)), t)
    else (.wait, missing.foldl (fun u p => u.dmaRead (u.stwPkt i) p.1 p.2.1 p.2.2) t)

/-- A positive finite or infinite FP32 pattern. -/
def posFp (p : Nat) : Bool := decide (0 < p ∧ p ≤ 0x7F800000)

/-- The fields of a sequence descriptor are in range (R400, R401): a manual sequence uses only KVPOOL, PARENT and SHARE. -/
def State.seqDescOk (s : State) (d : List Byte) : Bool :=
  let f (lo n : Nat) : Nat := pktField d lo n
  let k := f 80 1
  let tk := s.kvTokens (k % 16)
  let sv := f 39 1 % 2 = 1
  let hold := f 39 1 / 2 % 2 = 1
  decide (k < 16 ∧ f 39 1 < 4 ∧ f 81 47 = 0 ∧ f 24 4 % tk = 0) && (f 20 4 ≠ 0xFFFFFFFF || f 24 4 = 0) && (sv || !hold) &&
  (!sv || (decide (f 8 4 ≤ 4096 ∧ f 16 4 ≤ 4096 * tk ∧ f 36 2 ≤ 64 ∧ f 38 1 < 8) && (hold || f 12 4 ≠ 0) &&
    (f 28 4 = 0 || posFp (f 28 4)) && posFp (f 32 4)))

/-- Open a slot for a descriptor and its prompt (R401). The slot is any free one: a free value (log entry 28). -/
def State.openSeq (s : State) (i : Item) (d : List Byte) (prompt : List Nat) : State :=
  let f (lo n : Nat) : Nat := pktField d lo n
  let free := (List.range 4096).filter (fun k => !(s.seq k).isOpen)
  if free.isEmpty then s.failItem i stNoMemory
  else
    let slot := free.getD (s.freeNat % free.length) 0
    let k := f 80 1
    let old := s.seq slot
    let par := s.seq (f 20 4 % 4096)
    let shared := if f 20 4 = 0xFFFFFFFF then [] else (par.table.take (f 24 4 / s.kvTokens k)).map (fun e => e % 2 ^ 31 + 2 ^ 31)
    let gen := (old.gen + 1) % 2 ^ 20
    let q : Seq := { gen := gen, isOpen := true, tenant := i.tenant, service := f 39 1 % 2 = 1, hold := f 39 1 / 2 % 2 = 1, pool := k
                     maxNew := f 12 4, maxCtx := f 16 4, parent := f 20 4, share := f 24 4, temp := f 28 4, topP := f 32 4
                     topK := f 36 2, cls := f 38 1, seed := f 40 8, stop := (List.range 8).map (fun j => f (48 + 4 * j) 4)
                     table := shared, toks := prompt, pos := f 24 4, order := s.stw.seqOrder
                     ready := f 20 4 = 0xFFFFFFFF || !par.service || f 24 4 ≤ par.pos }
    let s1 := (s.fresh.updSeq slot (fun _ => q)).updStw (fun x => { x with seqOrder := x.seqOrder + 1 })
    let s2 := shared.foldl (fun t e => t.kvSet k (e % 2 ^ 24) (t.kvRefOf k (e % 2 ^ 24) + 1)) s1
    ((s2.writeTokens slot).writeTable slot 4096).doneTable i (gen * 4096 + slot)

/-- A SEQ_OPEN item runs: its descriptor is read and checked, and the sequence opens with its prompt. -/
def State.seqOpenItem (t : State) (i : Item) : State :=
  if !t.flag STW_RSV_VALID then t.failItem i stNoMemory
  else match t.vaRead i (i.prm 24 8) 128 with
    | (.fail st, u) => u.failItem i st
    | (.wait, u) => u
    | (.data d, u) =>
      let k := pktField d 80 1
      let par := pktField d 20 4
      let pq := u.seq (par % 4096)
      let parOk := par = 0xFFFFFFFF || ((u.seqSlot par i.tenant).isSome && pq.pool = k &&
        (pq.table.take (pktField d 24 4 / u.kvTokens k)).all (fun e => u.kvRefOf k (e % 2 ^ 24) < 65535))
      -- a sealed tenant opens service sequences only (17_security.md R570)
      if u.sealedTenant i.tenant && pktField d 39 1 % 2 ≠ 1 then u.failItem i stSealPolicy
      else if !u.seqDescOk d || !u.flag STW_KV_CFG1_STATE k || u.rd STW_KV_CFG1_TENANT k ≠ i.tenant || !parOk then
        u.failItem i stSeqInvalid
      else
        let n := if pktField d 39 1 % 2 = 1 then pktField d 8 4 else 0
        if n = 0 then u.openSeq i d []
        else match u.vaRead i (pktField d 0 8) (4 * n) with
          | (.fail st, v) => v.failItem i st
          | (.wait, v) => v
          | (.data p, v) => v.openSeq i d ((List.range n).map (fun j => pktField p (4 * j) 4))

/-- SEQ_OPEN (12_steward_resources.md R401). -/
def execSeqOpen (q item : Nat) (s : State) : Res :=
  .next (s.runLong q item 0x30 State.seqOpenItem)

/-- Whether the service is RUNNING or DRAINING, so that closes and feeds wait for the step boundary (R410). -/
def State.genRuns (s : State) : Bool := s.rd STW_GEN_STAT_STATE = 1 || s.rd STW_GEN_STAT_STATE = 2

/-- VOCAB of the service's descriptor. -/
def State.vocab (s : State) : Nat := pktField s.stw.gen.desc 8 4

/-- Append fed tokens, or fail (R402). -/
def State.feed (s : State) (i : Item) (toks : List Nat) : State :=
  match s.seqSlot (i.prm 24 4) i.tenant with
  | none => s.failItem i stSeqInvalid
  | some slot =>
    let q := s.seq slot
    let st := s.rd STW_GEN_STAT_STATE
    if s.sealedTenant i.tenant && !q.service then s.failItem i stSealPolicy
    else if !q.service || q.ended || 4096 < q.toks.length + toks.length ||
        (1 ≤ st && st ≤ 3 && toks.any (fun k => s.vocab ≤ k)) then s.failItem i stSeqInvalid
    else ((s.updSeq slot (fun x => { x with toks := x.toks ++ toks })).writeTokens slot).doneTable i 0

/-- The tokens of a feed that have been read. -/
def State.feedToks (s : State) (i : Item) : VaRead × State :=
  if i.prm 28 4 = 0 then (.data [], s) else s.vaRead i (i.prm 32 8) (4 * i.prm 28 4)

def execSeqFeed (q item : Nat) (s : State) : Res :=
  .next (s.runLong q item 0x31 (fun t i =>
    match t.seqSlot (i.prm 24 4) i.tenant with
    | none => t.failItem i stSeqInvalid
    | some slot =>
      if 4096 < (t.seq slot).toks.length + i.prm 28 4 then t.failItem i stSeqInvalid
      else match t.feedToks i with
        | (.fail st, u) => u.failItem i st
        | (.wait, u) => u
        | (.data d, u) =>
          if u.genRuns then u.updOrder i.order (fun x => { x with phase := 2 })
          else u.feed i ((List.range (i.prm 28 4)).map (fun j => pktField d (4 * j) 4))))

/-- Release a sequence's blocks and its slot (R403). -/
def State.closeSeq (s : State) (slot : Nat) : State :=
  (s.shrinkTable slot 4096).updSeq slot (fun x => { ({} : Seq) with gen := x.gen })

/-- SEQ_CLOSE (R403): a live service sequence ends at the step boundary. -/
def execSeqClose (q item : Nat) (s : State) : Res :=
  .next (s.runItem q item 0x32 (fun t i =>
    match t.seqSlot (i.prm 24 4) i.tenant with
    | none => t.failItem i stSeqInvalid
    | some slot =>
      let x := t.seq slot
      if t.sealedTenant i.tenant && !x.service then t.failItem i stSealPolicy
      else if x.ended || !x.service then (t.closeSeq slot).doneTable i x.made
      else t.updOrder i.order (fun y => { y with phase := 2 })))

/-! ### Page moves and advice (10_data_movers.md R346-R349) -/

/-- Write a leaf. -/
def State.writeLeaf (s : State) (a e : Nat) : State := s.stwWrite a (natLe 8 e)

/-- An entry with a field of bits replaced. -/
def setField (e lo n v : Nat) : Nat := e - e / 2 ^ lo % 2 ^ n * 2 ^ lo + v % 2 ^ n * 2 ^ lo

/-- The invalidation of one page by the Steward. -/
def pageInv (asid va : Nat) : XInv := { scope := 2, asid := asid, va := va, count := 1, walks := [], descs := [] }

/-- ADV of a leaf (R334). -/
def pteAdv (e : Nat) : Nat := e / 2 ^ 8 % 16

def execAdvise (q item : Nat) (s : State) : Res :=
  .next (s.runItem q item 0x25 (fun t i =>
    let base := i.prm 24 8
    let r := (List.range (i.prm 32 4)).foldl (fun (x : Bool × Bool × State) k =>
      match x.2.2.stwWalk i.asid i.tenant (base + 65536 * k) with
      | (.wait, u) => (x.1, true, u)
      | (.denied, u) => (true, x.2.1, u)
      | (.fault _ _, u) => (x.1, x.2.1, u)
      | (.leaf a _ e, u) => (x.1, x.2.1, u.writeLeaf a (setField e 8 4 (i.prm 36 1)))) (false, false, t)
    if r.1 then r.2.2.failItem i stAsidDenied else if r.2.1 then r.2.2 else r.2.2.doneTable i 0))

/-- The end of a page of PREFETCH: the next one. -/
def State.nextPage (s : State) (i : Item) (skipped : Nat) : State :=
  s.updOrder i.order (fun x => { x with k := x.k + 1, phase := 0, got := [], acc := x.acc + skipped })

/-- The pools that have an HBM page for PREFETCH by a tenant. -/
def State.pagePools (s : State) (tenant : Nat) : List Nat := (List.range 32).filter (fun p =>
  s.rd STW_POOL_CFG_STATE p = 2 && s.rd STW_POOL_CFG_SPACE p = 0 && s.rd STW_POOL_CFG_TENANT p = tenant && (s.placeBlock p 0).isSome)

/-- PREFETCH: one command for each step of R348 that a page can take now. `phase` is 0 before a page's leaf is marked BUSY, 1 while the old
copy is read, 2 while the new copy is written; `aux` holds the old W and the new place. -/
def execPrefetch (q item : Nat) (s : State) : Res :=
  .next (s.runLong q item 0x24 (fun t i =>
    let va := i.prm 24 8 + 65536 * i.k
    let toHost := i.prm 36 1 = 1
    if i.prm 32 4 ≤ i.k then t.doneTable i i.acc
    else match t.stwWalk i.asid i.tenant va with
      | (.wait, u) => u
      | (.denied, u) => u.failItem i stAsidDenied
      | (.fault _ _, u) => u.failItem i stXltFault
      | (.leaf a l e, u) =>
        let (host, old) := u.leafPlace l e va
        match i.phase with
        | 0 =>
          if pteAdv e = 4 || l ≠ 3 || pteBusy e then u.nextPage i 1
          else if host = toHost then u.nextPage i 0
          else
            let w := if pteW e then 1 else 0
            let busy (v : State) (n : Nat) : State :=
              let v1 := (v.writeLeaf a (setField (setField e 5 1 1) 4 1 0)).dropScope (pageInv i.asid va)
              let v2 := v1.updOrder i.order (fun x => { x with phase := 1, aux := w + 2 * n })
              v2.dmaRead (v2.stwPkt i) host old 65536
            if toHost then busy u (i.prm 40 8 + 65536 * i.k)
            else
              let ps := u.pagePools i.tenant
              if ps.isEmpty then u.failItem i stNoMemory
              else match u.fresh.allocate (ps.getD (u.freeNat % ps.length) 0) 0 i.tenant with
                | (.inl st, v) => v.failItem i st
                | (.inr n, v) => busy v n
        | 1 =>
          if !gotAll i.got host old 65536 || !(u.pinsIn (pageInv i.asid va)).isEmpty then u
          else
            (u.dmaWrite (u.stwPkt i) toHost false (i.aux / 2 + if toHost then 0 else u.hubNo * 2 ^ 48) (gotBytes i.got host old 65536)
              (fun _ => false)).updOrder i.order (fun x => { x with phase := 2 })
        | _ =>
          let new := i.aux / 2
          let e1 := setField (setField (setField (setField e 5 1 0) 4 1 (i.aux % 2)) 2 2 (if toHost then 2 else 0)) 16 32 (new / 65536)
          let u1 := (u.writeLeaf a (setField e1 48 16 (new / 2 ^ 48))).dropScope (pageInv i.asid va) |>.busyAgain (pageInv i.asid va)
          let u2 := match u1.stw.blocks.find? (fun b => !host && b.hpa = old % 2 ^ 48 && !b.zeroing && b.ord = 0) with
            | some b => u1.freeBlock b
            | none => u1
          u2.nextPage i 0))

/-! ### Evacuation (05_hbm.md R166) -/

/-- Chunk `k` of model `e` as its owner shipped it: ciphertext and tag (17_security.md R577). -/
def State.chunkCipher (s : State) (e k : Nat) (plain : List Byte) : List Byte :=
  let x := SMap.getD s.vst.models e {}
  let iv := natLe 8 x.ivBase ++ natLe 4 (k % 2 ^ 32)
  let key := (SMap.getD s.vst.keys e []).map BitVec.toNat
  let ct := (gcmOpen key (iv.map BitVec.toNat) (plain.map BitVec.toNat)).1
  let tag := (gcmOpen key (iv.map BitVec.toNat) ct).2
  (ct ++ tag).map (BitVec.ofNat 8)

/-- The model whose data lies at an HPA, and the byte of the model there (17_security.md R562). -/
def State.modelByte (s : State) (hpa : Nat) : Option (Nat × Nat) :=
  if !s.inGranary (blockOf hpa) || segmentOf hpa = 7 then none
  else (s.modelOf (blockOf hpa)).map (fun e => (e, (blockOf hpa - s.rd VST_MODEL_FIRST e) * (7 * 2 ^ 23) + hpa % 2 ^ 26))

/-- The HPA of byte `x` of model `e`. -/
def State.modelHpa (s : State) (e x : Nat) : Nat := (s.rd VST_MODEL_FIRST e + x / (7 * 2 ^ 23)) * 2 ^ 26 + x % (7 * 2 ^ 23)

/-- Bytes of chunk `k` of model `e`. -/
def State.chunkLen (s : State) (e k : Nat) : Nat :=
  let c := 2 ^ s.rd VST_MODEL_CHUNK_LOG2 e
  min c ((SMap.getD s.vst.models e {}).total - k * c)

/-- The chunks of a Granary source: the first one and their number, none where the range is not whole chunks of one model. -/
def State.evacChunks (s : State) (src len : Nat) : Option (Nat × Nat × Nat) :=
  match s.modelByte src with
  | none => none
  | some (e, x) =>
    let c := 2 ^ s.rd VST_MODEL_CHUNK_LOG2 e
    let k := x / c
    let n := (List.range 65536).find? (fun j => decide (0 < j) && decide ((List.range j).foldl (fun a i => a + s.chunkLen e (k + i)) 0 = len))
    let m := (SMap.getD s.vst.models e {}).chunks
    match n with
    | some j => if x % c = 0 && k + j ≤ m && s.modelHpa e ((k + j - 1) * c) = src + (j - 1) * c then some (e, k, j) else none
    | none => none

/-- Bytes of the Granary, by reconstruction where their member lies on a lost stack (05_hbm.md R149). -/
def State.granBytes (s : State) (hpa n : Nat) : List Byte :=
  (linesOf hpa n).flatMap (fun l =>
    let g := l * 128 / 256 * 256
    let d := if s.stackLost (s.stackOf g) then ((s.rebuilt g).drop (l * 128 - g)).take 128 else s.bytes (l * 128) 128
    let lo := max hpa (l * 128)
    (d.drop (lo - l * 128)).take (min (hpa + n) (l * 128 + 128) - lo))

/-- Whether a granule of the Granary cannot be read: its member and another of its stripe lie on lost stacks (05_hbm.md R150, R165). -/
def State.granGone (s : State) (g : Nat) : Bool := s.stackLost (s.stackOf g) && !(s.badMembers g {}).isEmpty

/-- Write a run of bytes of any length, whole lines first filled from the data. -/
def State.evacWrite (s : State) (i : Item) (dst : Nat) (d : List Byte) : State :=
  s.dmaWrite (s.stwPkt i) false false dst d (fun _ => false)

/-- Whether a range touches a confined pool. -/
def State.evacConfined (s : State) (src len : Nat) : Bool :=
  (List.range 32).any (fun p => s.rd STW_POOL_CFG_STATE p ≠ 0 && s.sealedTenant (s.rd STW_POOL_CFG_TENANT p) &&
    meets src len (s.poolBase p) (s.poolBytes p))

/-- The lines of a chunk. -/
def State.chunkLines (s : State) (e k : Nat) : List Nat :=
  (List.range ((s.chunkLen e k + 127) / 128)).map (fun j => s.modelHpa e (k * 2 ^ s.rd VST_MODEL_CHUNK_LOG2 e + 128 * j) / 128)

/-- The units of a Granary evacuation (17_security.md R577): each chunk re-encrypted, in index order; one with a POISONED page is skipped, and a granule that has
lost two members of its stripe poisons its page. The state and the number skipped. -/
def State.evacModel (s : State) (i : Item) (dst e k n : Nat) : State × Nat :=
  let c := 2 ^ s.rd VST_MODEL_CHUNK_LOG2 e
  (List.range n).foldl (fun (x : State × Nat) j =>
    let ls := x.1.chunkLines e (k + j)
    let t := (ls.filter (fun l => x.1.granGone (l / 2 * 256))).foldl (fun u l => u.poisonPage (l / 2 ^ 14)) x.1
    if ls.any (fun l => t.hbm.poisonPages.contains (l / 2 ^ 14)) then (t, x.2 + 1)
    else (t.evacWrite i (dst + j * (c + 16)) (t.chunkCipher e (k + j) (t.granBytes (t.modelHpa e ((k + j) * c)) (t.chunkLen e (k + j)))), x.2)) (s, 0)

/-- The lines of a range that lie on lost stacks, and the others. -/
def State.evacLost (s : State) (src len : Nat) : List Nat := (linesOf src len).filter (fun l => s.stackLost (s.stackOf (l * 128)))
def State.evacKept (s : State) (src len : Nat) : List Nat := (linesOf src len).filter (fun l => !s.stackLost (s.stackOf (l * 128)))

/-- The first step of an evacuation: its checks, and the reads of what survives at the homes of its lines; a range of the Granary goes as its owner's
ciphertext (17_security.md R577). -/
def State.evacStart (t : State) (i : Item) : State :=
  let src := i.prm 24 8
  let len := i.prm 32 8
  let dst := i.prm 40 8
  let fails (st : Nat) : State := (t.wr HBM_EVAC_STATE 0 3).failItem i st
  if !t.flag HBM_EVAC_BUDDY_VALID || dst / 2 ^ 48 ≠ t.rd HBM_EVAC_BUDDY || t.hbmBytes < src + len || src % 128 ≠ 0 || dst % 128 ≠ 0 then
    fails stParamInvalid
  else if t.evacConfined src len then fails stSealPolicy
  else if t.meetsGranary src len then
    (match t.evacChunks src len with
     | none => fails stSealPolicy
     | some (e, k, n) =>
       let (u, skipped) := (t.wr HBM_EVAC_STATE 0 1).evacModel i dst e k n
       u.updOrder i.order (fun x => { x with phase := 2, acc := skipped }))
  else
    let n := ((t.evacLost src len).map (· / 2)).eraseDups.length
    let u := (t.wr HBM_EVAC_STATE 0 1).inc HBM_EVAC_LOST_GRANULES 0 n
    ((t.evacKept src len).foldl (fun x l => x.dmaRead (x.stwPkt i) false (x.hubNo * 2 ^ 48 + l * 128) 128) u).updOrder i.order
      (fun x => { x with phase := 1, acc := n })

/-- The copy of what was read, and of the granules of lost stacks as poison (R166). -/
def State.evacCopy (t : State) (i : Item) : State :=
  let src := i.prm 24 8
  let dst := i.prm 40 8
  ((linesOf src (i.prm 32 8)).foldl (fun (x : State) l =>
    let a := x.hubNo * 2 ^ 48 + l * 128
    let got := gotAll i.got false a 128
    x.dmaWrite (x.stwPkt i) false false (dst + (l * 128 - src)) (if got then gotBytes i.got false a 128 else poisonPattern 128)
      (fun _ => !got || gotPois i.got false a 128)) t).updOrder i.order (fun x => { x with phase := 2 })

/-- EVACUATE: the granules of the range go to the buddy hub, those of a lost stack poisoned, and FENCE.REMOTE comes before the report (R166,
03_memory_model.md R100). A failed one reports the address of its first request that failed (log entry 140). -/
def execEvacuate (q item : Nat) (s : State) : Res :=
  .next (s.runItem q item 0x26 (fun t i =>
    if t.goesOn i then
      (match i.phase with
       | 0 => t.evacStart i
       | 1 => t.evacCopy i
       | 2 => ((t.startFence 0x190 (i.order + 1) true).settleFence 0x190).updOrder i.order (fun x => { x with phase := 3 })
       | _ => if t.fencing 0x190 (i.order + 1) then t else (t.wr HBM_EVAC_STATE 0 2).doneItem i i.acc)
    else if !t.itemIdle i then t
    else
      let u := t.wr HBM_EVAC_STATE 0 3
      match i.stop, i.fails with
      | some st, _ => u.failItem i st
      | none, st :: _ => u.fixFate i fateFailed st i.aux
      | none, [] => u))

end Sys2Proof.Machine
end

