-- ==== Sys2Proof/Machine/Gen.lean ====
section
/-!
DEFINITION. Machine/Gen.lean: the generation service of the Steward (12_steward_resources.md R408-R416).
-/

namespace Sys2Proof.Machine

def State.updGen (s : State) (f : Gen → Gen) : State := s.updStw (fun x => { x with gen := f x.gen })
def State.genState (s : State) : Nat := s.rd STW_GEN_STAT_STATE
def State.genField (s : State) (lo n : Nat) : Nat := pktField s.stw.gen.desc lo n

/-- A live service sequence of the service. -/
def State.genLive (s : State) (slot : Nat) : Bool :=
  let q := s.seq slot
  q.isOpen && q.service && !q.ended && q.tenant = s.stw.gen.tenant && q.pool = s.genField 7 1

/-- The live service sequences in opening order. -/
def insertSeq (x : Nat × Nat) : List (Nat × Nat) → List (Nat × Nat)
  | [] => [x]
  | y :: l => if x.1 < y.1 then x :: y :: l else y :: insertSeq x l
def State.genSeqs (s : State) : List Nat :=
  (((s.stw.seqs.filter (fun e => s.genLive e.1)).map (fun e => (e.2.order, e.1))).foldr insertSeq []).map (·.2)

/-! ### Records (R413, R414) -/

/-- An output record without its phase byte. -/
def seqRecord (seq tok pos flags reason status : Nat) : List Byte :=
  natLe 4 seq ++ natLe 4 tok ++ natLe 4 pos ++ natLe 1 flags ++ natLe 1 reason ++ natLe 1 status

/-- The number of an open slot's sequence. -/
def State.seqNo (s : State) (slot : Nat) : Nat := (s.seq slot).gen * 4096 + slot

def State.pushRec (s : State) (r : List Byte) : State := s.updGen (fun g => { g with recs := g.recs ++ [r] })

/-- End a sequence without a token of its own (R413): its record, and its blocks are released. -/
def State.endSeq (s : State) (slot reason status : Nat) : State :=
  let q := s.seq slot
  ((s.pushRec (seqRecord (s.seqNo slot) 0xFFFFFFFF q.pos 1 reason status)).shrinkTable slot 4096).updSeq slot
    (fun x => { x with ended := true, toks := [] })

/-! ### Start and stop (R408, R416) -/

/-- The fields of a service descriptor are in range. -/
def genDescOk (d : List Byte) : Bool :=
  let f (lo n : Nat) : Nat := pktField d lo n
  decide (f 0 1 = 1 ∧ f 1 1 < 2 ∧ f 2 1 < 8 ∧ f 3 1 < 16 ∧ 1 ≤ f 4 2 ∧ f 4 2 ≤ 4096 ∧ 1 ≤ f 6 1 ∧ f 6 1 ≤ 32 ∧ f 7 1 ≤ 3 ∧
    2 ≤ f 8 4 ∧ f 8 4 ≤ 524288 ∧ f 14 2 = 0 ∧ f 16 8 % 128 = 0 ∧ f 24 8 % 128 = 0 ∧ f 40 8 ≠ 0 ∧ f 48 80 = 0)

/-- The opcodes of plan packets. -/
def planOpcodes : List Nat := [0x01, 0x04, 0x05, 0x06, 0x07, 0x10, 0x11]

/-- A plan packet, as its item would be. -/
def planItem (g : Gen) (pkt : List Byte) (k : Nat) : Item :=
  let id := g.step % 2 ^ 26 * 64 + k
  let p := pkt.take 4 ++ natLe 4 id ++ natLe 1 (pktField g.desc 2 1) ++ pkt.drop 9
  { q := 0xFFFE, id := id, pkt := p, tenant := g.tenant, asid := g.asid }

/-- Whether a plan packet passes the checks of R408 and R360. -/
def State.planOk (s : State) (g : Gen) (pkt : List Byte) (k : Nat) : Bool :=
  let i : Item := { planItem g pkt k with pkt := pkt }
  i.prm 2 2 = 0xFFFE && planOpcodes.contains i.opc && i.prm 1 1 < 32 && i.prm 8 1 < 8 && i.prm 9 1 = 0 && i.prm 12 2 < 4096 &&
  i.prm 14 2 < 4096 && i.prm 22 2 = 0 && s.paramOk i

/-- Whether a global address lies in a confined pool of a tenant, or in a model mapped into it. -/
def State.sealInside (s : State) (t addr : Nat) : Bool :=
  match s.spaceOf addr with
  | .hbm hpa => s.confined hpa = some t || (s.inGranary (blockOf hpa) && (match s.modelOf (blockOf hpa) with
      | some e => s.mapped t e
      | none => false))
  | .cellar _ _ => s.confined (addr % 2 ^ 48) = some t
  | _ => false

/-- Whether a sealed tenant may not start this service (17_security.md R571). -/
def State.genSealed (s : State) (g : Gen) (plan : List Byte) : Bool :=
  let hpa (a : Nat) : Nat := s.hubNo * 2 ^ 48 + a % 2 ^ 48
  s.sealedTenant g.tenant &&
  (!s.sealInside g.tenant (hpa (pktField g.desc 16 8)) || !s.sealInside g.tenant (hpa (pktField g.desc 24 8)) ||
   (List.range (pktField g.desc 6 1)).any (fun j =>
     let p := (plan.drop (64 * j)).take 64
     let o := pktField p 0 1
     o = 0x05 || o = 0x07 || ((o = 0x04 || o = 0x06) && !s.sealInside g.tenant (pktField p 32 8))))

/-- GEN_START (R408): the descriptor and then the plan are read, and the service runs. -/
def execGenStart (q item : Nat) (s : State) : Res :=
  let hpa (t : State) (a : Nat) : Nat := t.hubNo * 2 ^ 48 + a % 2 ^ 48
  .next (s.runLong q item 0x33 (fun t i =>
    if !t.flag STW_RSV_VALID then t.failItem i stNoMemory
    else match t.need i false (hpa t (i.prm 24 8)) 128 with
    | (none, u) => u
    | (some d, u) =>
      let k := pktField d 3 1
      let n := pktField d 6 1
      let st := u.genState
      let tiles := (List.range 64).filter (fun j => Nat.testBit (pktField d 40 8) j)
      let own (j : Nat) : Bool := match u.physOf (u.unitNo 0 0x200 j) with
        | some p => u.rd LOOM_STAT_OWNER (p - 0x200) = i.tenant
        | none => false
      let log2n := u.rd STW_GEN_OUT_LOG2N
      if st = 1 || st = 2 || !genDescOk d || !tiles.all own || !u.flag STW_KV_CFG1_STATE k || u.rd STW_KV_CFG1_TENANT k ≠ i.tenant ||
          log2n < 4 || 20 < log2n then u.failItem i stSeqInvalid
      else match u.need i false (hpa u (pktField d 32 8)) (64 * n) with
        | (none, v) => v
        | (some plan, v) =>
          let g : Gen := { v.stw.gen with tenant := i.tenant, asid := i.asid, desc := d, plan := plan, stage := 0, retries := 0
                                          fail := 0, held := [], pausing := false, lastFate := 0 }
          if v.genSealed g plan then v.failItem i stSealPolicy
          else if !(List.range n).all (fun j => v.planOk g ((plan.drop (64 * j)).take 64) j) then v.failItem i stSeqInvalid
          else (((v.updGen (fun _ => g)).wr STW_GEN_STAT_STATE 0 1).wr STW_GEN_STAT_STATUS 0 0).doneItem i 0))

/-- GEN_STOP (R416): it ends when the service is PAUSED or IDLE. -/
def execGenStop (q item : Nat) (s : State) : Res :=
  .next (s.runItem q item 0x34 (fun t i =>
    let drain := i.prm 24 1 % 2 = 1
    let st := t.genState
    let wait (u : State) : State := u.updOrder i.order (fun x => { x with phase := 1 })
    if st = 0 || st = 4 || (st = 3 && !drain) then t.doneItem i 0
    else if drain then wait (t.wr STW_GEN_STAT_STATE 0 2)
    else wait (t.updGen (fun g => { g with pausing := true }))))

/-- The GEN_STOP items that wait for the state just reached end. -/
def State.stopsDone (s : State) : State :=
  (s.stw.items.filter (fun i => i.opc = 0x34 && i.st = 1 && i.phase = 1)).foldl (fun t i => t.doneItem i 0) s

/-! ### The step boundary (R409, R410) -/

/-- Closes and feeds that arrived before the boundary, in order. -/
def State.boundaryItems (s : State) : State :=
  (s.stw.items.filter (fun i => i.st = 1 && i.phase = 2 && (i.opc = 0x31 || i.opc = 0x32))).foldl (fun t i =>
    if i.opc = 0x31 then
      match t.feedToks i with
      | (.data d, u) => u.feed i ((List.range (i.prm 28 4)).map (fun j => pktField d (4 * j) 4))
      | (_, u) => u
    else match t.seqSlot (i.prm 24 4) i.tenant with
      | none => t.failItem i stSeqInvalid
      | some slot =>
        let made := (t.seq slot).made
        let t1 := if (t.seq slot).ended then t else t.endSeq slot 4 0
        (t1.closeSeq slot).doneTable i made) s

/-- The KV blocks of positions `pos` to `pos + n - 1` are allocated: how many of the positions have blocks. -/
def State.kvRoom (s : State) (slot pos n : Nat) : Nat × State :=
  let q := s.seq slot
  let tk := s.kvTokens q.pool
  let needed := (pos + n + tk - 1) / tk
  let t := (State.growTable slot (needed - q.table.length) s).2.writeTable slot 0
  (min n ((t.seq slot).table.length * tk - pos), t)

/-- The sequences that share positions which their parent has now processed become ready (R401); the entries that they lacked are taken. -/
def State.readyChildren (s : State) (slot : Nat) : State :=
  let par := s.seq slot
  (s.stw.seqs.filter (fun e => e.2.isOpen && e.2.service && !e.2.ready && e.2.parent = s.seqNo slot && e.2.share ≤ par.pos)).foldl (fun t e =>
    let n := e.2.share / t.kvTokens e.2.pool
    let more := ((par.table.take n).drop e.2.table.length).map (fun x => x % 2 ^ 31 + 2 ^ 31)
    let u := more.foldl (fun v x => v.kvSet e.2.pool (x % 2 ^ 24) (v.kvRefOf e.2.pool (x % 2 ^ 24) + 1)) t
    (u.updSeq e.1 (fun x => { x with table := x.table ++ more, ready := true })).writeTable e.1 0) s

/-- The decode entries of a step (R410). -/
def State.decodeEnts (s : State) (max : Nat) (slots : List Nat) : List BatchEnt :=
  (slots.take max).map (fun k => { slot := k, toks := [(s.seq k).last - 1], pos := (s.seq k).pos, logit := true, prefill := false })

/-- The prefill chunks of a step within the entries and the token budget left, in opening order (R410); a service that drains admits no new sequence. -/
def State.prefillEnts (s : State) (max budget : Nat) : List Nat → List BatchEnt
  | [] => []
  | k :: l =>
    let q := s.seq k
    let all := if q.last = 0 then q.toks else (q.last - 1) :: q.toks
    if max = 0 || budget = 0 then []
    else if !q.ready || (s.genState = 2 && !q.admitted) then s.prefillEnts max budget l
    else
      let n := min budget all.length
      { slot := k, toks := all.take n, pos := q.pos, logit := n = all.length && !q.hold, prefill := true } ::
        s.prefillEnts (max - 1) (budget - n) l

/-- KV blocks for every position of the step, in the order of its entries (R410): a decode entry without one ends its sequence, a chunk is cut
to what there is or deferred. -/
def State.allocEnts (s : State) : List BatchEnt → List BatchEnt × State
  | [] => ([], s)
  | e :: l =>
    let (n, t) := s.kvRoom e.slot e.pos e.toks.length
    if n = 0 then (if e.prefill then t else t.endSeq e.slot 5 0).allocEnts l
    else
      let (es, u) := (t.updSeq e.slot (fun x => { x with admitted := true })).allocEnts l
      ({ e with toks := e.toks.take n, logit := e.logit && n = e.toks.length } :: es, u)

/-- Write the batch table (R409). -/
def State.writeBatch (s : State) (es : List BatchEnt) : State :=
  let off := 64 + 32 * es.length
  let total := (es.map (fun e => e.toks.length)).foldl (· + ·) 0
  let head := natLe 8 s.stw.gen.step ++ natLe 4 es.length ++ natLe 4 total ++ natLe 4 off ++ zeros 44
  let rows := (es.foldl (fun (x : List Byte × Nat) e =>
    (x.1 ++ natLe 4 (s.seqNo e.slot) ++ natLe 4 e.toks.length ++ natLe 4 e.pos ++ natLe 4 x.2 ++ natLe 8 (s.tableHpa e.slot) ++
      natLe 1 ((if e.logit then 1 else 0) + (if e.prefill then 2 else 0)) ++ zeros 7, x.2 + e.toks.length)) ([], 0)).1
  s.stwWrite (s.genField 24 8) (head ++ rows ++ es.flatMap (fun e => e.toks.flatMap (natLe 4)))

/-- Dispatch the plan packets of a step: they become items of the service in order. -/
def State.startPlan (s : State) : State :=
  let n := s.genField 6 1
  let s1 := (List.range n).foldl (fun (t : State) k =>
    let i := planItem t.stw.gen ((t.stw.gen.plan.drop (64 * k)).take 64) k
    let d := (t.time / 64 + min (pktField i.pkt 10 2) 0x7FFF) % 65536
    t.updStw (fun x => { x with items := x.items ++ [{ i with order := x.nextOrder, deadline := d }], nextOrder := x.nextOrder + 1 })) s
  ((s1.updStw (fun x => { x with planFates := [] })).updGen (fun g => { g with stage := 1, held := [] })).stwTurn

/-- End every live service sequence that `f` selects. -/
def State.endSeqs (s : State) (f : Seq → Bool) (reason status : Nat) : State :=
  (s.genSeqs.filter (fun k => f (s.seq k))).foldl (fun t k => t.endSeq k reason status) s

/-- The sequences of the highest CLASS first, in opening order within one. -/
def State.byClass (s : State) (l : List Nat) : List Nat :=
  [7, 6, 5, 4, 3, 2, 1, 0].flatMap (fun c => l.filter (fun k => (s.seq k).cls % 8 = c))

/-- Once the batch table is written, the plan goes out, and the service time since the last step is known (R409, R417). -/
def State.genGo (s : State) : State :=
  if !s.written 0x190 walkStream then s
  else
    let last := s.stw.gen.lastFate
    (if last = 0 then s else s.wr STW_GEN_STAT_LAST_NS 0 (min 65535 (s.time - last))).startPlan

/-- Once the block tables of the step are written, its batch table is (R397, R409). -/
def State.genTables (s : State) : State :=
  if !s.written 0x190 walkStream then s
  else ((s.writeBatch s.stw.gen.batch).updGen (fun g => { g with stage := 2 })).genGo

/-- A step begins: closes and feeds apply, sequences are chosen, and their KV blocks allocated (R402, R410, R416). -/
def State.genStep (s : State) : State :=
  let s1 := s.boundaryItems
  if s1.stw.gen.pausing then
    ((s1.updGen (fun g => { g with pausing := false })).wr STW_GEN_STAT_STATE 0 3).stopsDone
  else
    let s2 := s1.endSeqs (fun q => q.toks.any (fun k => s1.vocab ≤ k)) 7 stParamInvalid
    let s3 := if s2.genState = 2 then s2.endSeqs (fun q => q.toks.isEmpty && q.hold || (!q.admitted && q.made = 0)) 6 0 else s2
    if s3.genState = 2 && s3.genSeqs.isEmpty then (s3.wr STW_GEN_STAT_STATE 0 0).stopsDone
    else
      let seqs := s3.genSeqs
      let es := s3.decodeEnts (s3.genField 4 2) (s3.byClass (seqs.filter (fun k => (s3.seq k).last ≠ 0 && (s3.seq k).toks.isEmpty)))
      let ps := s3.prefillEnts (s3.genField 4 2 - es.length) (if s3.genField 12 2 = 0 then 4096 else s3.genField 12 2)
        (seqs.filter (fun k => !(s3.seq k).toks.isEmpty))
      let (batch, s4) := s3.allocEnts (es ++ ps)
      if batch.isEmpty then s4
      else (s4.updGen (fun g => { g with batch := batch, retries := 0, fail := 0, stage := 3 })).genTables

/-- GEN_STEP_BOUNDARY (R410): a step begins, or goes on once its tables are written. -/
def execGenStepBoundary (s : State) : Res :=
  .next (if !s.genRuns || !s.stw.gen.recs.isEmpty then s
  else match s.stw.gen.stage with
    | 0 => s.genStep
    | 2 => s.genGo
    | 3 => s.genTables
    | _ => s)

/-! ### Sampling (R411) -/

/-- The order of FP32 values, NaN as the least: a number that rises with the value. -/
def fpKey (p : Nat) : Int :=
  if 0x7F800000 < p % 2 ^ 31 then -(2 ^ 31 : Int) else if 2 ^ 31 ≤ p then -((p - 2 ^ 31 : Nat) : Int) else (p : Int)

/-- The position of the greatest of keyed entries, the first among equals. -/
def bestOf {α : Type} : List (Int × α) → Option (Int × α)
  | [] => none
  | a :: l =>
    match bestOf l with
    | some b => if a.1 < b.1 then some b else some a
    | none => some a

/-- The `k` tokens of greatest logit, in order. -/
def topTokens : Nat → List (Int × (Nat × Nat)) → List (Nat × Nat)
  | 0, _ => []
  | k + 1, l =>
    match bestOf l with
    | some b => b.2 :: topTokens k (l.erase b)
    | none => []

/-- Round to FP32 under RNE. -/
def toFp (v : Val) : Nat := (fp32.convert .rne false 0 v).1

/-- VEXP and VLN of an FP32 pattern (08_loom_isa.md R258). -/
def vexp (p : Nat) : Nat := (specialFn 0x34 p (fp32.decode p)).1
def vln (p : Nat) : Nat := (specialFn 0x36 p (fp32.decode p)).1

/-- The exact sum of FP32 patterns. -/
def fpSum (l : List Nat) : Val := l.foldl (fun a p => (addVal .rne a (fp32.decode p)).1) (.fin false 0 1 0)

/-- u_j: VRAND for a seed and an index (08_loom_isa.md R256). -/
def sampleU (seed j : Nat) : Val := .fin false (2 * (rsrWord seed j / 512) + 1) 1 (-24)

/-- x_j, rounded once. -/
def gumbel (v invT seed j : Nat) : Nat :=
  let l1 := vln (toFp (sampleU seed j))
  let neg := (fp32.decode l1).neg
  let l2 := vln (toFp neg)
  toFp (addVal .rne (mulVal (fp32.decode v) (fp32.decode invT)).1 (fp32.decode l2).neg).1

/-- The candidates that TOP_P leaves of those in order, with the sum before each one. -/
def nucleus (limit : Val) : Val → Bool → List ((Nat × Nat) × Nat) → List (Nat × Nat)
  | _, _, [] => []
  | sum, first, (c, q) :: l =>
    let keep := first || cmpVal (fp32.decode (toFp sum)) limit = some .lt
    let rest := nucleus limit (addVal .rne sum (fp32.decode q)).1 false l
    if keep then c :: rest else rest

/-- The token that R411 chooses among logits, none when all are minus infinity. `step` is the step number. -/
def sampleToken (q : Seq) (step : Nat) (logits : List Nat) : Option Nat :=
  let vs : List (Nat × Nat) := (logits.zipIdx).map (fun e => (if 0x7F800000 < e.1 % 2 ^ 31 then 0xFF800000 else e.1, e.2))
  let keyed := vs.map (fun e => (fpKey e.1, e))
  if vs.all (fun e => e.1 = 0xFF800000) then none
  else if q.temp = 0 then (bestOf keyed).map (·.2.2)
  else
    let invT := toFp (divVal (.fin false 1 1 0) (fp32.decode q.temp)).1
    let cs := if q.topK = 0 then vs else topTokens q.topK keyed
    let v0 := fp32.decode ((cs.head?).map (·.1) |>.getD 0)
    let cs1 :=
      if q.topK = 0 || 0x3F800000 ≤ q.topP then cs
      else
        let qs := cs.map (fun c =>
          (c, vexp (toFp (mulVal (fp32.decode (toFp (addVal .rne (fp32.decode c.1) v0.neg).1)) (fp32.decode invT)).1)))
        let limit := fp32.decode (toFp (mulVal (fp32.decode q.topP) (fpSum (qs.map (·.2)))).1)
        nucleus limit (.fin false 0 1 0) true qs
    (bestOf (cs1.map (fun c => (fpKey (gumbel c.1 invT q.seed (step * 2 ^ 20 + c.2)), c)))).map (·.2.2)

/-- The token that an entry produced: it is appended, and the first reason that applies ends the sequence (R413). -/
def State.emit (s : State) (slot tok : Nat) : State :=
  let q := s.seq slot
  let made := q.made + 1
  let reason := if q.stop.any (fun x => x = tok && x ≠ 0xFFFFFFFF) then 1 else if made = q.maxNew then 2 else if q.pos + 1 = q.maxCtx then 3 else 0
  let s1 := s.pushRec (seqRecord (s.seqNo slot) tok q.pos (if reason = 0 then 0 else 1) reason 0)
  if reason = 0 then s1.updSeq slot (fun x => { x with made := made, last := tok + 1 })
  else (s1.shrinkTable slot 4096).updSeq slot (fun x => { x with made := made, ended := true, toks := [] })

/-- One entry after its step: its positions are processed, and its token sampled from the logits. -/
def State.settleEntry (s : State) (b : Nat) (e : BatchEnt) : State :=
  let v := s.vocab
  let w := if s.genField 1 1 % 2 = 1 then 2 else 4
  let q0 := s.seq e.slot
  let used := e.toks.length - (if e.prefill && q0.last ≠ 0 then 1 else 0)
  let s1 := ((s.updSeq e.slot (fun x => { x with
    pos := e.pos + e.toks.length, last := 0, toks := if e.prefill then x.toks.drop used else x.toks })).writeTokens e.slot).readyChildren e.slot
  if !(s1.seq e.slot).isOpen || (s1.seq e.slot).ended then s1
  else if !e.logit then
    (if (s1.seq e.slot).hold && (s1.seq e.slot).toks.isEmpty then
      s1.pushRec (seqRecord (s1.seqNo e.slot) 0xFFFFFFFF (e.pos + e.toks.length) 2 0 0)
     else s1)
  else
    let a := s1.cellOf (s1.genField 16 8 + b * v * w)
    if s1.poisoned a (v * w) then s1.endSeq e.slot 7 stMemPoison
    else
      let d := s1.bytes a (v * w)
      let logits := (List.range v).map (fun j => leNat ((d.drop (j * w)).take w) * (if w = 2 then 65536 else 1))
      match sampleToken (s1.seq e.slot) s1.stw.gen.step logits with
      | some t => s1.emit e.slot t
      | none => s1.endSeq e.slot 7 0

/-- Whether every plan item of the step has a fate. -/
def State.planEnded (s : State) : Bool :=
  s.stw.gen.stage = 1 && s.stw.items.all (fun i => i.q ≠ 0xFFFE) && decide (s.genField 6 1 ≤ s.stw.planFates.length)

/-- GEN_SAMPLE (R411-R413). -/
def execGenSample (s : State) : Res :=
  .next (if !s.planEnded || s.stw.planFates.any (fun f => f.2.1 ≠ fateDone) then s
  else
    let s1 := (s.stw.gen.batch.zipIdx).foldl (fun t e => t.settleEntry e.2 e.1) s
    (s1.updGen (fun g => { g with stage := 0, step := g.step + 1, batch := [] })).wr STW_GEN_STAT_STEP 0 (s1.stw.gen.step + 1))

/-- The status of the first failure of a step: that of its first run that failed (R415). -/
def State.firstFailure (s : State) (status : Nat) : Nat := if s.stw.gen.fail = 0 then status else s.stw.gen.fail

/-- GEN_STEP_RETRY (R415): the step runs again; after WEIGHT_POISON once no page that was POISONED then is so now. -/
def execGenStepRetry (s : State) : Res :=
  .next (match s.planEnded, s.stw.planFates.find? (fun f => f.2.1 ≠ fateDone) with
  | true, some f =>
    if s.stw.planFates.any (fun x => x.2.2 = stWeightPoison) then
      let held := if s.stw.gen.held.isEmpty then s.hbm.poisonPages else s.stw.gen.held
      if held.all (fun p => !s.hbm.poisonPages.contains p) then s.startPlan else s.updGen (fun g => { g with held := held })
    else if s.stw.gen.retries < s.genField 7 1 then
      (s.updGen (fun g => { g with retries := g.retries + 1, fail := s.firstFailure f.2.2 })).startPlan
    else
      let st := s.firstFailure f.2.2
      let s1 := s.endSeqs (fun _ => true) 7 st
      ((s1.updGen (fun g => { g with stage := 0, batch := [] })).wr STW_GEN_STAT_STATE 0 4).wr STW_GEN_STAT_STATUS 0 st
  | _, _ => s)

/-- GEN_RECORDS_WRITE (R414): the records go to the ring once they all fit. -/
def execGenRecordsWrite (s : State) : Res :=
  let n := 2 ^ s.rd STW_GEN_OUT_LOG2N
  let g := s.stw.gen
  let room := n - 1 - (g.tail + n - s.rd STW_GEN_OUTPTR_HEAD % n) % n
  let host := !s.flag STW_GEN_OUT_LOC
  .next (if g.recs.isEmpty || room < g.recs.length || (host && !s.mastering) then s
  else
    let s1 := g.recs.foldl (fun (t : State) r =>
      let x := t.stw.gen
      let a := t.rd STW_GEN_OUT_BASE * 4096 + 16 * x.tail
      let d := r ++ natLe 1 (if x.phase then 128 else 0)
      let t1 := if host then t.hostSend (.write a d) else t.stwWrite a d
      t1.updGen (fun y => { y with tail := (y.tail + 1) % n, phase := if (y.tail + 1) % n = 0 then !y.phase else y.phase })) s
    (s1.updGen (fun y => { y with recs := [] })).msixAfter 0x190 walkStream (s.rd STW_GEN_OUTPTR_VECTOR))

/-- A write of STW_GEN_OUTPTR.HEAD (R414). -/
def execGenOutHead (w : Writer) (head : Nat) (s : State) : Res :=
  let n := 2 ^ s.rd STW_GEN_OUT_LOG2N
  let h := s.rd STW_GEN_OUTPTR_HEAD
  .next (if !stwWriter w then s
  else if n ≤ head || (s.stw.gen.tail + n - h % n) % n < (head + n - h % n) % n then s.wr STW_GEN_OUTPTR_REJECTED 0 1
  else s.wr STW_GEN_OUTPTR_HEAD 0 head)

end Sys2Proof.Machine
end

