-- ==== Sys2Proof/Machine/Sites.lean ====
section
/-!
DEFINITION. Machine/Sites.lean: the modules of the chiplet sites: the messages of site logic, their stamping, translation, fences and
answers, work queues, and the errors that a module detects (14_sites.md R439-R464).
-/

namespace Sys2Proof.Machine

/-! ### Errors (R461-R463) -/

def stWqInvalid : Nat := 0xE1

/-- Record an error in SITE_ERR: the first while VALID is 0; later ones are counted. -/
def State.siteLog (s : State) (n u kind sev code : Nat) : State :=
  if s.flag SITE_ERR_VALID n then s.inc SITE_ERR_COUNT n 1
  else (((((s.wr SITE_ERR_VALID n 1).wr SITE_ERR_KIND n kind).wr SITE_ERR_SEVERITY n sev).wr SITE_ERR_SLOT n u).wr
    SITE_ERR_CODE n code).wr SITE_ERR_COUNT n 1

/-- An error that isolates the site (R462, R472): trigger 5 of 02_commons.md R66. -/
def State.siteFault (s : State) (n u kind sev code : Nat) : State :=
  (s.siteLog n u kind sev code).isolate (moduleAgent n u) 5 kind

/-! ### Messages -/

/-- The register index of a work queue. -/
def wqIdx (n ch : Nat) : Nat := n * 16 + ch

/-- Whether a module takes messages: its domain is OPEN or DRAINING (02_commons.md R58). -/
def State.modAlive (s : State) (n u : Nat) : Bool :=
  let st := s.agentState (moduleAgent n u)
  st = domOpen || st = domDraining

/-- Whether a draining module's site logic has signalled idle: its new requests are refused (02_commons.md R58). -/
def State.modIdle (s : State) (n u : Nat) : Bool :=
  let a := moduleAgent n u
  s.agentState a = domDraining && (s.iface a).idle

/-- Site-to-hub types of class REQ. -/
def stlReq (t : Nat) : Bool := 0x01 ≤ t && t ≤ 0x11

/-- Length in bytes that a message's AUX states. -/
def stlLen (m : StlMsg) : Nat := m.aux % 128 + 1

/-- Whether an atomic or a whole line lies within its granule (R444). -/
def stlWithin (m : StlMsg) : Bool :=
  if m.typ = 0x08 then m.addr % 128 = 0 else decide (m.addr % 128 + (if m.aux / 16 % 2 = 1 then 8 else 4) ≤ 128)

/-- The fields that no type of a group uses are 0 (R443): POISON without data, VOL, NOALLOC and ORDERED without an address, and of a response the
channel, the class and the deadline too. -/
def stlUnused (m : StlMsg) : Bool :=
  let addressed := (0x01 ≤ m.typ && m.typ ≤ 0x0A) || m.typ = 0x0D
  (!m.poison || !m.data.isEmpty) && (addressed || (!m.vol && !m.noalloc && !m.ordered)) &&
  (decide (m.typ < 0x18) || (m.ch = 0 && m.cls = 0 && m.deadline = 0))

/-- The length and the place of a read or write are lawful (R444). -/
def stlRange (m : StlMsg) (wr : Bool) : Bool :=
  let n := stlLen m
  decide (m.aux < 128) && decide (m.addr / 128 = (m.addr + n - 1) / 128) &&
  (if wr then (n ≤ 64 || n = 128) && m.data.length = n else m.data.isEmpty)

/-- Whether a message is well formed: its TYPE, its length and the fields that its type leaves unused (R442-R444, R447). -/
def stlOk (m : StlMsg) : Bool :=
  let addrOk := m.at_ ≤ 2
  let none_ := m.at_ = 3 && m.addr = 0
  m.ch < 16 && m.cls < 8 && m.tag < 4096 && m.aux < 4096 && stlUnused m &&
  (match m.typ with
  | 0x01 => addrOk && stlRange m false
  | 0x02 => addrOk && stlRange m true
  | 0x03 => addrOk && stlRange m true
  | 0x04 => addrOk && m.aux < 32 && m.data.length = 16 && stlWithin m
  | 0x05 => addrOk && m.aux = 0 && m.data.isEmpty
  | 0x06 => addrOk && m.aux = 0 && m.data.isEmpty
  | 0x07 => addrOk && m.aux = 0 && m.data.isEmpty
  | 0x08 => addrOk && m.aux = 0 && m.data.length = 128 && stlWithin m
  | 0x09 => addrOk && m.aux = 0 && m.data.isEmpty
  | 0x0A => addrOk && m.aux < 32 && m.data.length = 16 && stlWithin m
  | 0x0B => none_ && m.aux = 0 && m.data.isEmpty
  | 0x0C => none_ && m.aux = 0 && m.data.isEmpty
  | 0x0D => m.aux < 2 && m.data.isEmpty
  | 0x0E => none_ && m.aux = 0 && m.data.length = 16
  | 0x0F => none_ && m.aux < 16 && m.data.isEmpty
  | 0x10 => none_ && m.aux < 4 && m.data.length = 16
  | 0x11 => m.at_ = 3 && m.addr < 65536 && m.aux < 3 && m.data.isEmpty
  | 0x18 => none_ && m.aux < 1024 && m.data.isEmpty
  | 0x19 => none_ && m.aux < 1024 && m.data.length = 128
  | 0x1A => none_ && m.aux = 0 && m.data.isEmpty
  | 0x1B => none_ && m.aux < 256 && m.data.isEmpty
  | 0x1C => none_ && m.aux < 256 && decide (1 ≤ m.data.length ∧ m.data.length ≤ 128)
  | 0x1D => none_ && m.aux = 0 && m.data.isEmpty
  | 0x1E => none_ && m.aux = 0 && m.data.length = 128
  | 0x3F => m.at_ = 0 && m.addr < 2 ^ 49 && m.tag = 0 && m.aux = 0 && m.data.isEmpty
  | _ => false)

/-- Return the credits of a message (R446). -/
def State.creditBack (s : State) (n u : Nat) (m : StlMsg) : State :=
  let k := msgLen m
  if m.typ = 0x3F || (s.slot n u).cxl then s
  else s.siteEmit n u { typ := 0x3F, at_ := 0, addr := if stlReq m.typ then 1 + k * 2 ^ 8 else 2 ^ 28 + k * 2 ^ 36 }

/-- An answer to site logic for a request of type `typ` and TAG `tag` (R443). -/
def State.stlReply (s : State) (n u typ tag status : Nat) (data : List Byte) (poison : Bool) (keep : Nat := 0) (near : Bool := false) :
    State :=
  let m : StlMsg := { tag := tag, data := data, poison := poison }
  if (0x05 ≤ typ && typ ≤ 0x07) || typ = 0x1F then
    s.siteSend n u { m with typ := 0x22, aux := status + keep * 256 + (if near then 1024 else 0) }
  else if typ = 0x02 || typ = 0x0F || typ = 0x10 || typ = 0x09 then s.siteSend n u { m with typ := 0x23, aux := status, data := [] }
  else if typ = 0x0D then s.siteSend n u { m with typ := 0x24, aux := status, data := if data.isEmpty then zeros 16 else data }
  else s.siteSend n u { m with typ := if data.isEmpty then 0x20 else 0x21, aux := status }

/-- Types that write. -/
def stlWrites (t : Nat) : Bool := t = 0x02 || t = 0x03 || t = 0x04 || t = 0x06 || t = 0x07 || t = 0x08 || t = 0x0A

/-- Whether an address lies in this hub's HBM. -/
def State.inHbm (s : State) (a : Nat) : Bool := match s.spaceOf a with | .hbm _ => true | _ => false

/-- The header of a channel's requests (R451); `note` carries TAG and type. -/
def State.stlPkt (s : State) (n u : Nat) (m : StlMsg) : Pkt :=
  let w := wqIdx n m.ch
  let a := moduleAgent n u
  let t := s.rd SITE_WQ_TENANT w
  { src := a, tenant := t, cls := min m.cls (s.rd SITE_WQ_CLASS_MAX w), deadline := m.deadline, vol := m.vol, noalloc := m.noalloc
    ordered := m.ordered, poison := m.poison, stream := m.ch, note := 64 * m.tag + m.typ, sealed := s.stampSealed a t }

/-- Writebacks and evictions, which no regulator holds (13_sluice.md R421). -/
def stlUnheld (m : StlMsg) : Bool := m.typ = 0x08 || m.typ = 0x09

/-- Issue a memory request of site logic at a global address (R443, R452). A CLAIM of what is no local HBM performs nothing; it is answered as a read there would
be refused, else with OK (R452, 04_coherence.md R71). -/
def State.stlIssue (s : State) (n u : Nat) (m : StlMsg) (ga : Nat) : State :=
  let a := moduleAgent n u
  let q := { s.stlPkt n u m with addr := ga }
  let s0 := if stlUnheld m then s else s.chargePort n u 0 { q with len := stlLen m, data := m.data }
  let put (t : State) (p : Pkt) : State := t.issue { p with txn := if isPosted p then m.tag else t.freeTxn a }
  let parts (t : State) (opc : Nat) : State :=
    let d := m.data
    let t1 := put t { q with opc := opc, mask := 2 ^ min 64 d.length - 1, data := d.take 64 }
    if d.length ≤ 64 then t1 else put t1 { q with opc := opc, addr := ga + 64, mask := 2 ^ 64 - 1, data := d.drop 64 }
  let line := s.lineForm false ga
  let hbm := s.inHbm ga
  let atom : Pkt := { q with mask := m.aux % 16 + (if m.aux / 16 % 2 = 1 then 8 else 4) * 256, data := m.data }
  match m.typ with
  | 0x01 =>
    if stlLen m = 128 && line then put s0 { q with opc := 0x01, len := 128 } else put s0 { q with opc := 0x00, len := stlLen m }
  | 0x02 => if stlLen m = 128 && line then put s0 { q with opc := 0x04, data := m.data } else parts s0 0x03
  | 0x03 => if stlLen m = 128 && line then put s0 { q with opc := 0x07, data := m.data } else parts s0 0x06
  | 0x04 => put s0 { atom with opc := 0x08 }
  | 0x05 => put s0 (if hbm then { q with opc := 0x10, len := 128 } else { q with opc := if line then 0x01 else 0x00, len := 128 })
  | 0x06 => put s0 (if hbm then { q with opc := 0x11, len := 128 } else { q with opc := if line then 0x01 else 0x00, len := 128 })
  | 0x07 =>
    if hbm then put s0 { q with opc := 0x12, len := 128 }
    else match s.route a ga with
      | .answer st => s0.stlReply n u 0x07 m.tag st [] false
      | .toAgent _ => s0.stlReply n u 0x07 m.tag stOk [] false
  | 0x08 =>
    if hbm then put s0 { q with opc := 0x13, data := m.data }
    else if line then put s0 { q with opc := 0x07, data := m.data } else parts s0 0x06
  | 0x09 => if hbm then s0.issue { q with opc := 0x14, txn := m.tag } else s0
  | _ => put s0 (if hbm then { atom with opc := 0x15 } else { atom with opc := 0x08 })

/-! ### Channels: translation, fences and the order of a slot's requests (R449, R452-R454) -/

/-- Whether a request of a channel needs a translation. -/
def needsXlt (m : StlMsg) : Bool := m.typ = 0x0D || (m.at_ = 0 && 0x01 ≤ m.typ && m.typ ≤ 0x0A)

/-- Ask slice Xs for the page of a request (R452, R453). -/
def State.stlAsk (s : State) (n u : Nat) (m : StlMsg) : State :=
  let a := moduleAgent n u
  let w := if m.typ = 0x0D then m.aux % 2 = 1 else stlWrites m.typ
  let page := m.addr % 2 ^ 48 / 65536 * 65536
  let s1 := s.updSlot n u (fun x => { x with xw := SMap.put x.xw m.ch 1 })
  s1.issue { s1.stlPkt n u m with
    opc := 0x0E, dst := 0x1A0 + n, note := 0, poison := false, txn := s1.freeTxn a,
    data := xltPayload (s1.rd SITE_WQ_ASID (wqIdx n m.ch)) false [(page, w)] }

/-- The completion EVENT of a work item (R458, R464): a status that no chapter defines becomes SITE_DEF0. -/
def wqStatus (st : Nat) : Nat :=
  if st ≤ 0x06 || (0x20 ≤ st && st ≤ 0x24) || (0x40 ≤ st && st ≤ 0x4F) || (0x80 ≤ st && st ≤ 0x83) || (0x90 ≤ st && st ≤ 0x93) ||
     (0xA0 ≤ st && st ≤ 0xA6) || (0xB0 ≤ st && st ≤ 0xB9) || (0xC0 ≤ st && st ≤ 0xD3) || (0xE0 ≤ st && st ≤ 0xE1) ||
     (0xE8 ≤ st && st ≤ 0xEF) || (0xF0 ≤ st && st ≤ 0xF2) then st else 0xE8

/-- A channel of a slot fences (R449): for a message with a TAG, or for the module's own ends. -/
def State.siteFence (s : State) (n u ch tag typ : Nat) (remote : Bool) : State :=
  (s.updSlot n u (fun x => { x with fences := x.fences ++ [(ch, tag, typ)] })).startFence (moduleAgent n u) ch remote

/-- Perform a request of a channel that needs no translation, in its turn. -/
def State.stlTurn (s : State) (n u : Nat) (m : StlMsg) : State :=
  let a := moduleAgent n u
  match m.typ with
  | 0x0B => s.siteFence n u m.ch m.tag 0x0B false
  | 0x0C => s.siteFence n u m.ch m.tag 0x0C true
  | 0x0F => s.siteFence n u m.ch (m.aux % 16) 0x0F false
  | 0x0E =>
    -- signalling acts as FENCE_REMOTE followed by the signal (03_memory_model.md R92)
    let t := if leNat (m.data.take 1) = 0 then s.siteFence n u m.ch 0 0 true else s
    t.issue { t.stlPkt n u m with opc := 0x0C, dst := 0x190, data := m.data ++ zeros 112, txn := t.freeTxn a, sealed := false }
  | 0x10 =>
    let f := m.aux % 4
    let it := leNat (m.data.take 4)
    (s.updSite n (fun x => { x with work := x.work.filter (fun w => !(w.wq = m.ch && w.item = it)) })).send
      (completionPkt a it f (if f = 0 then 0 else wqStatus (leNat ((m.data.drop 4).take 1))) (leNat ((m.data.drop 5).take 1) % 2 = 1)
        (leNat ((m.data.drop 8).take 8)))
  | _ => s.stlIssue n u m m.addr

/-- Whether the Sluice holds a request of site logic at its module: its class's X bucket is below zero (13_sluice.md R425, R428). -/
def State.stlBarred (s : State) (n u : Nat) (m : StlMsg) : Bool :=
  0x01 ≤ m.typ && m.typ ≤ 0x0A && !stlUnheld m && s.exhausted (portBucket n u 0 (s.stlPkt n u m))

/-- The Sluice holds the head of a channel, with the global address that it names: its credits are not returned (R428). -/
def State.stlBar (s : State) (n u : Nat) (m : StlMsg) (ga : Nat) : State :=
  s.updSlot n u (fun x => { x with xw := SMap.put x.xw m.ch 4, inHeld := SMap.put x.inHeld m.ch (m, ga) })

/-- Let the held requests of a channel go on in order: one that needs a translation asks for it and waits. -/
def State.stlPump (n u ch : Nat) : Nat → State → State
  | 0, s => s
  | k + 1, s =>
    let x := s.slot n u
    match x.held.find? (fun m => m.ch = ch) with
    | none => s
    | some m =>
      if SMap.getD x.xw ch 0 ≠ 0 then s
      else if needsXlt m then s.stlAsk n u m
      else if s.stlBarred n u m then s.stlBar n u m m.addr
      else
        let s1 := s.updSlot n u (fun y => { y with held := y.held.erase m })
        State.stlPump n u ch k ((s1.stlTurn n u m).creditBack n u m)

/-- Let a channel of a slot go on. -/
def State.pumpSlot (s : State) (n u ch : Nat) : State := s.stlPump n u ch ((s.slot n u).held.length + 1)

/-- The head of a channel leaves its queue, answered or issued; the rest goes on. -/
def State.stlLeave (s : State) (n u : Nat) (m : StlMsg) : State :=
  ((s.updSlot n u (fun y => { y with held := y.held.erase m, xw := SMap.del y.xw m.ch })).creditBack n u m).pumpSlot n u m.ch

/-- The translation of a channel's first request arrives (R452-R454). -/
def State.stlXlt (s : State) (n u ch status : Nat) (data : List Byte) : State :=
  match (s.slot n u).held.find? (fun m => m.ch = ch) with
  | none => s
  | some m =>
    if status = stXltFault then s.updSlot n u (fun x => { x with xw := SMap.put x.xw ch 2 })
    else if status ≠ stOk then (s.stlReply n u m.typ m.tag status [] false).stlLeave n u m
    else
      let asid := s.rd SITE_WQ_ASID (wqIdx n ch)
      let va := m.addr % 2 ^ 48
      match findTlb (xltEnts asid 4 data) asid va with
      | none => (s.stlReply n u m.typ m.tag stXltFault [] false).stlLeave n u m
      | some t =>
        let (host, ga) := s.target t va
        if host then (s.stlReply n u m.typ m.tag stSpaceDenied [] false).stlLeave n u m
        else if m.typ = 0x0D then
          let size := match t.bits with | 16 => 0 | 21 => 1 | _ => 2
          let f := (if pteW t.pte then 1 else 0) + (if pteNoalloc t.pte then 2 else 0) + (if pteBusy t.pte then 4 else 0)
          (s.stlReply n u 0x0D m.tag stOk (natLe 8 (s.target t t.base).2 ++ natLe 1 size ++ natLe 1 f ++ zeros 6) false).stlLeave n u m
        else if stlWrites m.typ && pteBusy t.pte then s.updSlot n u (fun x => { x with xw := SMap.put x.xw ch 3 })
        else
          let x : StlMsg := { m with noalloc := m.noalloc || pteNoalloc t.pte }
          if s.stlBarred n u m then s.stlBar n u x ga else (s.stlIssue n u x ga).stlLeave n u m

/-- Issue what the Sluice held at a module and holds no longer, in the order of R428, at most `k` requests. -/
def State.inPump (n u : Nat) : Nat → State → State
  | 0, s => s
  | k + 1, s =>
    let key (m : StlMsg) : Nat := s.placeInOrder (portBucket n u 0 (s.stlPkt n u m)) (s.stlPkt n u m)
    match leastBy (fun e => key e.2.1) ((s.slot n u).inHeld.filter (fun e => !s.stlBarred n u e.2.1)) with
    | some e =>
      let s1 := (s.updSlot n u (fun x => { x with inHeld := SMap.del x.inHeld e.1 })).stlIssue n u e.2.1 e.2.2
      State.inPump n u k (match (s1.slot n u).held.find? (fun m => m.ch = e.1) with
        | some m => s1.stlLeave n u m
        | none => s1)
    | none => s

/-- Let a module issue what the Sluice no longer holds. -/
def State.pumpIn (s : State) (n u : Nat) : State := State.inPump n u 16 s

/-- A waiting channel translates again, or every held request of it ends with a code (R454). -/
def State.stlResume (s : State) (a ch : Nat) (failWith : Option Nat) : State :=
  let n := siteOf a
  let u := slotOf a
  match failWith with
  | none => (s.updSlot n u (fun x => { x with xw := SMap.del x.xw ch })).pumpSlot n u ch
  | some st =>
    let ms := (s.slot n u).held.filter (fun m => m.ch = ch)
    ms.foldl (fun t m => (t.stlReply n u m.typ m.tag st [] false).creditBack n u m)
      (s.updSlot n u (fun x => { x with held := x.held.filter (fun m => m.ch ≠ ch), xw := SMap.del x.xw ch, inHeld := SMap.del x.inHeld ch }))

/-! ### Arrival of a message (R442-R452, R461, R462) -/

/-- Whether a message of class REQ exceeds the credits that the hub advertised: 64 headers and 512 chunks held (R446). -/
def State.beyondCredit (s : State) (n u : Nat) (m : StlMsg) : Bool :=
  let h := (s.slot n u).held
  stlReq m.typ && !(s.slot n u).cxl && (64 ≤ h.length || 512 < (h.map msgLen).foldl (· + ·) 0 + msgLen m)

/-- A channel's request enters its queue, or is refused by the rules of slots, channels and address types. -/
def State.stlRequest (s : State) (n u : Nat) (m : StlMsg) : State :=
  let w := wqIdx n m.ch
  let addressed := (0x01 ≤ m.typ && m.typ ≤ 0x0A) || m.typ = 0x0D
  let wrong := (addressed && m.addr / 128 % 8 ≠ u) || (m.typ = 0x10 && m.ch % 8 ≠ u)
  let posted := m.typ = 0x02 || m.typ = 0x0F || m.typ = 0x10
  let refuse (kind st : Nat) : State := ((s.siteLog n u kind 0 m.typ).stlReply n u m.typ m.tag st [] false).creditBack n u m
  if s.modIdle n u then s.creditBack n u m
  else if wrong then refuse 4 stUnsupported
  else if !s.flag SITE_WQ_ENABLE w then
    (if posted then (s.siteLog n u 5 0 m.typ).creditBack n u m else refuse 5 stWqInvalid)
  else if addressed && m.typ ≠ 0x0D && ((m.at_ = 1 && s.rd SITE_WQ_TENANT w ≠ 0) || (m.at_ = 2 && !s.flag SITE_WQ_TRUST w)) then
    refuse 6 stDenied
  else (s.updSlot n u (fun x => { x with held := x.held ++ [m] })).pumpSlot n u m.ch

/-- A message reaches its module: counted, checked, and handled by `f`. -/
def State.stlArrive (s : State) (n u : Nat) (m : StlMsg) (f : State → State) : State :=
  let b := (s.site n).inB + m.data.length
  let s1 := (s.updSite n (fun x => { x with inB := b % 1024 })).inc SITE_CNT_IN_KB n (b / 1024)
  if !stlOk m then s1.siteFault n u 1 0 m.typ
  else if s1.beyondCredit n u m then s1.siteFault n u 2 0 m.typ
  else f s1

/-- A message in STL mode; a chiplet in CXL mode sends none of these. -/
def State.stlIn (s : State) (n u typ : Nat) (m : StlMsg) (f : State → StlMsg → State) : State :=
  if !s.modAlive n u || s.flag SITE_STAT_PROTO_NOW n then s
  else s.stlArrive n u { m with typ := typ } (fun t => f t { m with typ := typ })

def execStlRd (n u : Nat) (m : StlMsg) (s : State) : Res := .next (s.stlIn n u 0x01 m (fun t x => t.stlRequest n u x))
def execStlWr (n u : Nat) (m : StlMsg) (s : State) : Res := .next (s.stlIn n u 0x02 m (fun t x => t.stlRequest n u x))
def execStlWrn (n u : Nat) (m : StlMsg) (s : State) : Res := .next (s.stlIn n u 0x03 m (fun t x => t.stlRequest n u x))
def execStlAtom (n u : Nat) (m : StlMsg) (s : State) : Res := .next (s.stlIn n u 0x04 m (fun t x => t.stlRequest n u x))
def execStlRdShared (n u : Nat) (m : StlMsg) (s : State) : Res := .next (s.stlIn n u 0x05 m (fun t x => t.stlRequest n u x))
def execStlRdUnique (n u : Nat) (m : StlMsg) (s : State) : Res := .next (s.stlIn n u 0x06 m (fun t x => t.stlRequest n u x))
def execStlClaim (n u : Nat) (m : StlMsg) (s : State) : Res := .next (s.stlIn n u 0x07 m (fun t x => t.stlRequest n u x))
def execStlWbDirty (n u : Nat) (m : StlMsg) (s : State) : Res := .next (s.stlIn n u 0x08 m (fun t x => t.stlRequest n u x))
def execStlEvictClean (n u : Nat) (m : StlMsg) (s : State) : Res := .next (s.stlIn n u 0x09 m (fun t x => t.stlRequest n u x))
def execStlAtomP (n u : Nat) (m : StlMsg) (s : State) : Res := .next (s.stlIn n u 0x0A m (fun t x => t.stlRequest n u x))
def execStlFence (n u : Nat) (m : StlMsg) (s : State) : Res := .next (s.stlIn n u 0x0B m (fun t x => t.stlRequest n u x))
def execStlFenceRemote (n u : Nat) (m : StlMsg) (s : State) : Res := .next (s.stlIn n u 0x0C m (fun t x => t.stlRequest n u x))
def execXltReq (n u : Nat) (m : StlMsg) (s : State) : Res := .next (s.stlIn n u 0x0D m (fun t x => t.stlRequest n u x))
def execStlEvt (n u : Nat) (m : StlMsg) (s : State) : Res := .next (s.stlIn n u 0x0E m (fun t x => t.stlRequest n u x))
def execStlIrq (n u : Nat) (m : StlMsg) (s : State) : Res := .next (s.stlIn n u 0x0F m (fun t x => t.stlRequest n u x))
def execWqDone (n u : Nat) (m : StlMsg) (s : State) : Res := .next (s.stlIn n u 0x10 m (fun t x => t.stlRequest n u x))

/-- ERR (R461): accepted on any channel. -/
def State.stlErr (s : State) (n u : Nat) (m : StlMsg) : State :=
  let sev := m.aux % 4
  let code := m.addr % 65536
  if sev = 2 then s.siteFault n u 9 2 code
  else
    let s1 := (s.siteLog n u 10 sev code).creditBack n u m
    if sev = 1 then s1.raise 0x0030 2 (moduleAgent n u) code else s1

def execStlErr (n u : Nat) (m : StlMsg) (s : State) : Res := .next (s.stlIn n u 0x11 m (fun t x => t.stlErr n u x))

/-! ### Responses of site logic -/

/-- A snoop answer (R443): it goes to the home that sent the snoop. -/
def State.stlSnp (s : State) (n u : Nat) (m : StlMsg) : State :=
  match (s.slot n u).snps.find? (fun e => e.1 = m.tag) with
  | none => s.siteFault n u 3 0 m.typ
  | some e =>
    ((s.updSlot n u (fun x => { x with snps := x.snps.erase e })).creditBack n u m).send
      { opc := if m.typ = 0x18 then 0x2D else 0x2E, dst := e.2.src, src := moduleAgent n u, addr := e.2.addr, status := m.aux % 256
        keep := m.aux / 256 % 4, data := m.data, poison := m.poison }

def execStlSnpRsp (n u : Nat) (m : StlMsg) (s : State) : Res := .next (s.stlIn n u 0x18 m (fun t x => t.stlSnp n u x))
def execStlSnpRspData (n u : Nat) (m : StlMsg) (s : State) : Res := .next (s.stlIn n u 0x19 m (fun t x => t.stlSnp n u x))

/-- CMP_ACK (04_coherence.md R117): it goes to the home of the line that was granted under its TAG. -/
def execStlCmpAck (n u : Nat) (m : StlMsg) (s : State) : Res :=
  .next (s.stlIn n u 0x1A m (fun t x =>
    match (t.slot n u).acks.find? (fun e => e.1 = x.tag) with
    | none => (t.creditBack n u x).inc COM_ERR_ABSORBED 0 1
    | some e =>
      ((t.updSlot n u (fun y => { y with acks := y.acks.erase e })).creditBack n u x).send
        { opc := 0x2F, dst := homeAgent (t.homeOfLine e.2), src := moduleAgent n u, addr := e.2 * 128, status := x.aux % 256 }))

/-- The answer of a part of a posted window write (R444, R450, R64): the first part that fails fails the write, which the source hears of once; in CXL mode
the write is performed once all of its parts are. -/
def State.winPosted (s : State) (n u : Nat) (w : WinReq) (status : Nat) : State :=
  let a := moduleAgent n u
  let was := (s.slot n u).wins.filter (fun y => y.req = w.req)
  let parts := (s.slot n u).wins.map (fun y => if y.tag = w.tag then { y with done := true, status := status } else y)
  let s1 := s.updSlot n u (fun x => { x with wins := parts })
  if was.any (fun y => y.done && y.status ≠ stOk) then s1
  else if status ≠ stOk then (s1.postedEnded n u w.req).answer a w.req status [] false
  else if (parts.filter (fun y => y.req = w.req)).all (·.done) && parts.any (fun y => y.req = w.req && y.last) then
    ((s1.updSlot n u (fun x => { x with wins := x.wins.filter (fun y => y.req ≠ w.req) })).postedDone n u (some w.req)).postedEnded n u w.req
  else s1

/-- W_RSP and W_RSP_DATA (R444, R450, R457): a request is answered once every part of it has been, with the status of the first
part that failed. -/
def State.winRsp (s : State) (n u : Nat) (m : StlMsg) : State :=
  let a := moduleAgent n u
  let status := m.aux % 256
  match (s.slot n u).wins.find? (fun w => w.tag = m.tag && !w.done) with
  | none => s.siteFault n u 3 0 m.typ
  | some w =>
    let s0 := s.creditBack n u m
    let drop (t : State) : State := t.updSlot n u (fun x => { x with wins := x.wins.filter (fun y => y.req ≠ w.req) })
    if isPosted w.req then s0.winPosted n u w status
    else
      let parts := (s.slot n u).wins.map (fun y => if y.tag = m.tag then { y with done := true, status := status } else y)
      let mine := parts.filter (fun y => y.req = w.req)
      let s1 := s0.updSlot n u (fun x => { x with wins := parts })
      if mine.any (fun y => !y.done) then s1
      else
        let st := ((mine.find? (fun y => y.status ≠ stOk)).map (·.status)).getD stOk
        let s2 := drop s1
        if w.req.opc = 0x0B then
          let wk : SiteWork := { wq := leNat ((w.req.data.drop 4).take 1) % 16, item := leNat (w.req.data.take 4), accepted := true }
          (if st = stOk then s2.updSite n (fun x => { x with work := x.work ++ [wk] }) else s2).answer a w.req st
        else (if isProbe w.req then s2.probeCovers n u w.req else s2).answer a w.req st m.data m.poison

/-- An answer to a window access, from a chiplet in either mode (R440). -/
def State.winIn (s : State) (n u typ : Nat) (m : StlMsg) : State :=
  if !s.modAlive n u then s else s.stlArrive n u { m with typ := typ } (fun t => t.winRsp n u { m with typ := typ })

def execWRsp (n u : Nat) (m : StlMsg) (s : State) : Res := .next (s.winIn n u 0x1B m)
def execWRspData (n u : Nat) (m : StlMsg) (s : State) : Res := .next (s.winIn n u 0x1C m)

/-- XLT_INV_DONE (R455): the module probes the site's posted writes, and acknowledges once they are performed; one Invalidation Completion of a
chiplet in CXL mode speaks for every slot. -/
def State.stlInvDone (s : State) (n u : Nat) (m : StlMsg) : State :=
  match (s.slot n u).inv with
  | some (tag, 0) =>
    if tag ≠ m.tag then s.siteFault n u 3 0 m.typ
    else (if (s.slot n u).cxl then List.range 8 else [u]).foldl (fun t v =>
      (List.range 16).foldl (fun x ch => x.siteFence n v ch 0 1 false) (t.updSlot n v (fun x => { x with inv := some (tag, 1) })))
      (s.creditBack n u m)
  | _ => s.siteFault n u 3 0 m.typ

def execXltInvDone (n u : Nat) (m : StlMsg) (s : State) : Res := .next (s.stlIn n u 0x1D m (fun t x => t.stlInvDone n u x))

/-! ### Answers to the module's own requests -/

/-- An answer of the Commons to a request `r` of a module (R443, R452). -/
def State.siteAnswer (s : State) (r p : Pkt) : State :=
  let n := siteOf r.src
  let u := slotOf r.src
  let typ := r.note % 64
  let tag := r.note / 64
  if r.opc = 0x0E then s.stlXlt n u r.stream p.status p.data
  else if r.note = 0 then s
  else if typ = 0x03 || typ = 0x08 then
    -- a write of 128 bytes that went as two parts is answered once
    let others := (s.iface r.src).outstanding.any (fun q => q.note = r.note && q.opc = r.opc && q.txn ≠ r.txn)
    let bad := (s.slot n u).tags.find? (fun e => e.tag = tag)
    if others then
      (if p.status = stOk || bad.isSome then s
       else s.updSlot n u (fun x => { x with tags := x.tags ++ [{ tag := tag, status := p.status }] }))
    else (s.updSlot n u (fun x => { x with tags := x.tags.filter (fun e => e.tag ≠ tag) })).stlReply n u typ tag
      ((bad.map (·.status)).getD p.status) [] false
  else if typ = 0x0A && r.opc = 0x08 then s.stlReply n u 0x1F tag p.status p.data p.poison
  else if typ = 0x0E then
    -- a wait that is satisfied acts as the wait followed by FENCE (03_memory_model.md R92)
    let op := leNat (r.data.take 1)
    let now : Bool := decide (p.status = stOk) && decide (leNat (p.data.take 1) = 1)
    let s1 := if op = 1 && now then s.siteFence n u r.stream 0 0 false else s
    let s2 := if op = 1 || op = 2 then s1.updSlot n u (fun x => { x with evWait := if op = 1 && p.status = stOk && !now then some r.stream else none })
      else s1
    s2.stlReply n u typ tag p.status ((p.data ++ zeros 16).take 16) false
  else s.stlReply n u typ tag p.status p.data p.poison

/-- A GRANT reaches the module (04_coherence.md R107, R117): a CMP_ACK is to come for one that gives a state. -/
def State.siteGrant (s : State) (r p : Pkt) : State :=
  let n := siteOf r.src
  let u := slotOf r.src
  let tag := r.note / 64
  let s1 := if p.keep = 0 then s else s.updSlot n u (fun x => { x with acks := x.acks ++ [(tag, p.addr % 2 ^ 48 / 128)] })
  s1.stlReply n u 0x1F tag p.status
    (if p.withData then p.data else []) p.poison p.keep p.near

/-- WFAIL of a posted write of site logic. -/
def State.siteWfail (s : State) (p : Pkt) : State :=
  s.stlReply (siteOf p.dst) (slotOf p.dst) 0x02 p.txn p.status [] false

/-- The interrupt EVENT to the host endpoint (R460): KIND 2, with the interrupt's number. -/
def irqPkt (a k : Nat) : Pkt := { opc := 0x32, dst := 0x180, src := a, data := [2] ++ zeros 3 ++ natLe 4 k }

/-- IRQ k: pending under its mask, or on its way to the endpoint (R460). -/
def State.siteIrq (s : State) (n u k : Nat) : State :=
  if Nat.testBit (s.rd SITE_IRQ_MASK n) k then s.wr SITE_IRQ_PEND n (s.rd SITE_IRQ_PEND n ||| 2 ^ k)
  else s.send (irqPkt (moduleAgent n u) k)

/-- The fence of a channel has ended: its FENCE is answered, its IRQ goes on, or the invalidation is acknowledged with the last of its fences (R449,
R455, R460). -/
def State.siteFenced (s : State) (a ch : Nat) : State :=
  let n := siteOf a
  let u := slotOf a
  match (s.slot n u).fences.find? (fun e => e.1 = ch) with
  | some e =>
    let s1 := s.updSlot n u (fun x => { x with fences := x.fences.erase e })
    match e.2.2 with
    | 0 => s1
    | 1 => if (s1.slot n u).fences.any (fun f => f.2.2 = 1) then s1 else s1.updSlot n u (fun x => { x with inv := none })
    | 0x0F => s1.siteIrq n u e.2.1
    | typ => s1.stlReply n u typ e.2.1 stOk [] false
  | none => s

/-! ### Work (R456-R459) -/

/-- A DISPATCH of SITE_WORK at its module (R457), which passes each to site logic once. -/
def State.siteDispatch (s : State) (d : Nat) (p : Pkt) : State :=
  let n := siteOf d
  let w := leNat ((p.data.drop 4).take 1) % 16
  let x := s.slot n (slotOf d)
  if x.outHeld.contains p || x.wins.any (fun k => k.req = p) then s
  else if !s.flag SITE_WQ_ENABLE (wqIdx n w) || s.rd SITE_WQ_TENANT (wqIdx n w) ≠ p.tenant then s.answer d p stWqInvalid
  else s.windowAccess d p

def execSiteDispatch (p : Pkt) (s : State) : Res :=
  .next (s.deliverUnit { p with opc := 0x0B } (fun t d q => match kindOf d with | .site _ => t.siteDispatch d q | _ => t))

/-- STOP for a work item (R459): sent on the slot of its queue when the item runs. -/
def State.siteStop (s : State) (d : Nat) (item : Nat) : State :=
  let n := siteOf d
  match (s.site n).work.find? (fun w => w.item = item && w.wq % 8 = slotOf d) with
  | none => s
  | some w =>
    (s.updSite n (fun x => { x with work := x.work.map (fun y => if y = w then { y with stopping := true } else y) })).siteSend n (w.wq % 8)
      { typ := 0x35, addr := item }

/-! ### Interrupt mask, timeouts and retraining -/

/-- SITE_IRQ.MASK (R460, R474): clearing a bit delivers its pending interrupt. -/
def execSiteIrqUnmask (w : Writer) (n mask : Nat) (s : State) : Res :=
  .next (if !stwWriter w then s
  else
    let s1 := s.wr SITE_IRQ_MASK n mask
    (List.range 16).foldl (fun t k =>
      if Nat.testBit (t.rd SITE_IRQ_PEND n) k && !Nat.testBit mask k then
        (t.wr SITE_IRQ_PEND n (t.rd SITE_IRQ_PEND n - 2 ^ k)).send (irqPkt (moduleAgent n 0) k)
      else t) s1)

/-- RSP messages have waited CRED_US without a credit (R448). -/
def execCredTimeout (n u : Nat) (s : State) : Res :=
  .next (if (s.slot n u).waiting.any (fun m => txClass m.typ = 2) then s.siteFault n u 8 0 0 else s)

/-- XLT_INV_DONE has not arrived INV_US after XLT_INV (R455). -/
def execInvTimeout (n : Nat) (s : State) : Res :=
  .next (match (List.range 8).find? (fun u => match (s.slot n u).inv with | some (_, 0) => true | _ => false) with
  | some u => s.siteFault n u 8 0 0x36
  | none => s)

/-- An item still runs STOP_US after STOP (R459). -/
def execStopTimeout (n item : Nat) (s : State) : Res :=
  .next (match (s.site n).work.find? (fun w => w.item = item && w.stopping) with
  | some w => s.siteFault n (w.wq % 8) 8 0 0x35
  | none => s)

/-- A module retrains in service (R437). -/
def execModuleRetrain (n u : Nat) (ok : Bool) (s : State) : Res :=
  let s1 := s.inc SITE_MOD_RETRAINS (n * 8 + u) 1
  .next (if ok then s1 else s1.siteFault n u 7 0 0)

/-- FATAL on the sideband (R465). -/
def execSidebandFatal (n : Nat) (s : State) : Res := .next (s.siteFault n 0 7 0 0)

/-- IDLE on the sideband (R466): every module signals idle, and the homes walk their filters. -/
def execSidebandIdle (n : Nat) (s : State) : Res :=
  .next (if s.domSt (0xB3 + n) ≠ domDraining || !(s.site n).quiesced then s
  else ((List.range 8).foldl (fun t u => t.updIface (moduleAgent n u) (fun i => { i with idle := true })) s).drainWalk n)

/-! ### CXL mode (R439, R440) -/

/-- A CXL request of a chiplet as the STL messages it acts as, one for each part that R444 takes; the PASID names the work queue. -/
def cxlStl (r : SiteCxl) : List StlMsg :=
  let ch := r.pasid.getD 0 % 16
  let at_ := if r.untranslated then 0 else 2
  match r.op with
  | .memRd a n => (granules a n).map (fun g => { typ := 0x01, ch := ch, at_ := at_, tag := r.tag, aux := g.2 - 1, addr := g.1 })
  | .memWr a d => (granules a d.length).flatMap (fun g =>
      let b := (d.drop (g.1 - a)).take g.2
      let part (o n : Nat) : StlMsg :=
        { typ := 0x02, ch := ch, at_ := at_, tag := r.tag, aux := n - 1, addr := g.1 + o, data := (b.drop o).take n }
      if g.2 ≤ 64 || g.2 = 128 then [part 0 g.2] else [part 0 64, part 64 (g.2 - 64)])
  | .atomic op z a x y =>
    [{ typ := 0x04, ch := ch, at_ := at_, tag := r.tag, aux := op % 16 + (if z = 8 then 16 else 0), addr := a
       data := natLe 8 x ++ natLe 8 y }]
  | .ats va w => [{ typ := 0x0D, ch := ch, tag := r.tag, aux := if w then 1 else 0, addr := va }]
  | .invDone => [{ typ := 0x1D, tag := r.tag }]
  | .stl m => [m]

/-- The slot on which a message of a chiplet in CXL mode goes (R445). -/
def cxlSlot (m : StlMsg) : Nat := if m.typ = 0x10 then m.ch % 8 else if m.typ ≤ 0x0D then m.addr / 128 % 8 else 0

/-- Whether a slot has nothing of a channel that a later request of it on another slot must not pass: a request held, or a posted write that may not be
performed (R440: PCIe order). -/
def State.cxlPast (s : State) (n v ch : Nat) : Bool :=
  let i := s.iface (moduleAgent n v)
  (s.slot n v).held.all (fun m => m.ch ≠ ch) && i.posted.all (fun e => e.1 ≠ ch) && !streamHeld ch i.waiting && !s.fencing (moduleAgent n v) ch

/-- Probe the posted writes of a channel on the slots other than `u`. -/
def State.siteCxlFlush (s : State) (n u ch : Nat) : State :=
  (List.range 8).foldl (fun t v =>
    let a := moduleAgent n v
    if v ≠ u && (t.slot n v).held.all (fun m => m.ch ≠ ch) && (t.iface a).posted.any (fun e => e.1 = ch) && !t.fencing a ch then
      t.siteFence n v ch 0 0 false
    else t) s

/-- Whether a request of the CXL queue is the first of its channel and may go. -/
def State.cxlReady (s : State) (n : Nat) (e : Nat × StlMsg) : Bool :=
  ((s.site n).cxlq.find? (fun x => x.2.ch = e.2.ch)) = some e && (List.range 8).all (fun v => v = e.1 || s.cxlPast n v e.2.ch)

/-- Let the requests of a chiplet in CXL mode go on in PCIe order, at most `k`. -/
def State.cxlPump (n : Nat) : Nat → State → State
  | 0, s => s
  | k + 1, s =>
    match (s.site n).cxlq.find? (s.cxlReady n) with
    | some e => State.cxlPump n k ((s.updSite n (fun x => { x with cxlq := x.cxlq.erase e })).stlRequest n e.1 e.2)
    | none => (s.site n).cxlq.foldl (fun t e => if ((t.site n).cxlq.find? (fun x => x.2.ch = e.2.ch)) = some e then t.siteCxlFlush n e.1 e.2.ch else t) s

def State.cxlGo (s : State) (n : Nat) : State := if (s.site n).cxlq.isEmpty then s else State.cxlPump n ((s.site n).cxlq.length + 1) s

/-- A message of a chiplet in CXL mode: its errors and invalidation completions at once, its requests in PCIe order. -/
def State.cxlIn (s : State) (n : Nat) (m : StlMsg) : State :=
  let u := cxlSlot m
  s.stlArrive n u m (fun t =>
    if m.typ = 0x11 then t.stlErr n u m else if m.typ = 0x1D then t.stlInvDone n u m
    else (t.updSite n (fun x => { x with cxlq := x.cxlq ++ [(u, m)] })).cxlGo n)

/-- A CXL.io request of a chiplet in CXL mode: it acts as its STL messages. -/
def execSiteCxlRequest (n : Nat) (r : SiteCxl) (s : State) : Res :=
  let carried := match r.op with
    | .stl x => x.typ = 0x0E || x.typ = 0x0F || x.typ = 0x10 || x.typ = 0x11
    | .atomic op _ _ _ _ => op = 0 || op = 1 || op = 9
    | _ => true
  .next (if !s.modAlive n 0 || !s.flag SITE_STAT_PROTO_NOW n || !carried then s else (cxlStl r).foldl (fun t m => t.cxlIn n m) s)

end Sys2Proof.Machine
end

