-- ==== Sys2Proof/Machine/SiteBoot.lean ====
section
/-!
DEFINITION. Machine/SiteBoot.lean: the bring-up of a site, its credits and echo test, and the revocation of its sealed-access right
(14_sites.md R435-R438, R446, R447, R467-R471).

`Site.step` is 0 outside the sequence, 1 while training is to repeat without a module, 5 while credits and SELFTEST are awaited, 7 in
the echo test, 8 in attestation and 9 once the domain may open.
-/

namespace Sys2Proof.Machine

/-! ### The sequence of R470 -/

/-- The Stile domain of a site. -/
def siteDom (n : Nat) : Nat := 0xB3 + n

/-- A site fails bring-up alone: power enable falls, STATE reads FAILED, the domain is OFF, and an event names the site; the OPEN
command that ran the sequence ends (R467, R470). -/
def State.siteFail (s : State) (n : Nat) : State :=
  let d := siteDom n
  let s1 := ((s.updSite n (fun x => { x with pwren := false, step := 0, repeated := false, attesting := false, owed := false, slots := [] })).wr
    SITE_STAT_STATE n 8).setDom d domOff
  -- 18_bringup.md R587: a failure of this boot's step 9 is counted
  let s2 := ((if s1.bootStep 9 = 1 then s1.inc BOOT_STAT_UNIT_FAILS 0 1 else s1).raise 0x0031 3 (moduleAgent n 0)).sitesBooted
  if s2.flag COM_STILE_CMD_GO && s2.rd COM_STILE_CMD_DOMAIN = d then s2.stileEnd d 1 else s2

/-- The rate at which a site trains: the highest advertised one that SITE_CFG.RATE allows (R436). -/
def State.siteRate (s : State) (n : Nat) (t : SiteTrain) : Option Nat :=
  [2, 1, 0].find? (fun r => decide (r ≤ min 2 (s.rd SITE_CFG_RATE n)) && Nat.testBit t.rates r)

/-- The width at which module `u` runs: none for one that failed the echo test (R471). -/
def State.modWidth (s : State) (n : Nat) (t : SiteTrain) (u : Nat) : Nat :=
  if s.flag SITE_MOD_KAT_FAIL (n * 8 + u) then 0 else t.width.getD u 0

/-- The number whose bit u is set where `f u` holds, u = 0 to 7. -/
def bits8 (f : Nat → Bool) : Nat := (List.range 8).foldl (fun a u => if f u then a + 2 ^ u else a) 0

/-- The CREDIT message of the hub at link-up: REQ 64 headers and 512 chunks, RSP 64 headers and 512 chunks (R446, R447). -/
def hubCredits : StlMsg := { typ := 0x3F, at_ := 0, addr := 64 + 512 * 2 ^ 8 + 64 * 2 ^ 28 + 512 * 2 ^ 36 + 2 ^ 48 }

/-- The modules of a site train, and its parameters are exchanged; then credits are advertised on every slot (R436-R438, R470). -/
def State.siteTrain (s : State) (n : Nat) (t : SiteTrain) : State :=
  let w := s.modWidth n t
  match s.siteRate n t with
  | none => s.siteFail n
  | some rate =>
    let proto : Nat := s.rd SITE_CFG_PROTO n
    if t.version ≠ 1 || t.proto ≠ proto || (List.range 4).any (fun k => w (2 * k) = 0 && w (2 * k + 1) = 0) then s.siteFail n
    else
      let s1 := ((((s.wr SITE_STAT_UP n (bits8 (fun u => w u ≠ 0))).wr SITE_STAT_FOLD n (bits8 (fun u => w u = 0))).wr
        SITE_STAT_HALF n (bits8 (fun u => w u = 1))).wr SITE_STAT_RATE_NOW n rate).wr SITE_STAT_PROTO_NOW n proto
      let s2 := (List.range 8).foldl (fun x u =>
        ((x.wr SITE_MOD_REPAIRED (n * 8 + u) (t.repaired.getD u 0)).wr SITE_MOD_CARRIER (n * 8 + u) (if w u = 0 then u ^^^ 1 else u)).wr
          SITE_MOD_HALF (n * 8 + u) (if w u = 1 then 1 else 0)) s1
      let s3 := (s2.updSite n (fun x => { x with step := 5, slots := [] })).wr SITE_STAT_STATE n 4
      if proto = 1 then (List.range 8).foldl (fun x u => x.updSlot n u (fun y => { y with init := true, cxl := true })) s3
      else (List.range 8).foldl (fun x u => x.siteEmit n u hubCredits) s3

/-- The site sequence starts with its domain OPENING, or repeats its training (R467, R470, R471): power enable rises, and training and
the parameter exchange come to `t`. -/
def execSiteBringup (n : Nat) (t : SiteTrain) (s : State) : Res :=
  let st := (s.site n).step
  .next (if !s.domExists (siteDom n) || 8 ≤ n || s.domSt (siteDom n) ≠ domOpening then s
  else if st = 0 then
    ((List.range 8).foldl (fun x u => x.wr SITE_MOD_KAT_FAIL (n * 8 + u) 0) (s.updSite n (fun x => { x with
      pwren := true, repeated := false, selftest := none, quiesced := false, cxlq := [] }))).siteTrain n t
  else if st = 1 then s.siteTrain n t
  else s)

/-- The echo test has passed on every slot: attestation follows when ATTEST is 1, then the domain may open (R468, R470). -/
def State.siteTested (s : State) (n : Nat) : State :=
  if s.flag SITE_CFG_ATTEST n then s.updSite n (fun x => { x with step := 8, attesting := true })
  else s.updSite n (fun x => { x with step := 9 })

/-- The 128 bytes of ECHO_REQ k on slot u of site n (R471). -/
def echoData (n u k : Nat) : List Byte := ((List.range 16).map (fun i => natLe 8 (rsrZ (8 * n + u) (16 * k + i)))).flatten

/-- Start the echo test once every slot has its credits and SELFTEST has come (R470, R471). -/
def State.siteChecks (s : State) (n : Nat) : State :=
  let x := s.site n
  if x.step = 5 && x.selftest.isSome && (List.range 8).all (fun u => (s.slot n u).init) then
    (List.range 8).foldl (fun t u =>
      (List.range 16).foldl (fun y k => y.siteSend n u { typ := 0x37, tag := k, data := echoData n u k })
        (t.updSlot n u (fun y => { y with echoes := 0xFFFF })))
      (s.updSite n (fun y => { y with step := 7 }))
  else s

/-- SELFTEST on the sideband (R465, R470): a result other than 0 fails the site unless IGNORE_ST is 1. -/
def execSidebandSelftest (n result : Nat) (s : State) : Res :=
  let st := (s.site n).step
  .next (if s.domSt (siteDom n) ≠ domOpening || !(1 ≤ st && st ≤ 5) then s.wr SITE_STAT_SELFTEST n result
  else
    let s1 := s.wr SITE_STAT_SELFTEST n result
    if result % 65536 ≠ 0 && !s.flag SITE_CFG_IGNORE_ST n then s1.siteFail n
    else (s1.updSite n (fun x => { x with selftest := some result })).siteChecks n)

/-- A module fails the echo test: training repeats once without it, then the site fails (R471). -/
def State.echoFail (s : State) (n u : Nat) : State :=
  let carrier := s.rd SITE_MOD_CARRIER (n * 8 + u)
  let s1 := s.wr SITE_MOD_KAT_FAIL (n * 8 + carrier) 1
  if (s.site n).repeated then s1.siteFail n
  else (s1.updSite n (fun x => { x with step := 1, repeated := true, slots := [] })).wr SITE_STAT_STATE n 3

/-- ECHO (R471): the reply of the slot's ECHO_REQ with its TAG; another TAG isolates the site (R462). -/
def execEcho (n u : Nat) (m : StlMsg) (s : State) : Res :=
  let x := { m with typ := 0x1E }
  .next (if (s.site n).step = 7 then
    (if !(x.tag < 16 && Nat.testBit (s.slot n u).echoes x.tag) then (s.siteFault n u 3 0 0x1E).siteFail n
     else if x.data ≠ echoData n u x.tag then s.echoFail n u
     else
       let s1 := (s.updSlot n u (fun y => { y with echoes := y.echoes - 2 ^ x.tag })).creditBack n u x
       if (List.range 8).all (fun k => (s1.slot n k).echoes = 0) then s1.siteTested n else s1)
  else s.stlIn n u 0x1E m (fun t y => t.siteFault n u 3 0 y.typ))

/-- An ECHO is later than 10 µs (R471). -/
def execEchoTimeout (n u : Nat) (s : State) : Res :=
  .next (if (s.site n).step = 7 && (s.slot n u).echoes ≠ 0 then s.echoFail n u else s)

/-- Steps 2-7 have not ended within TRAIN_MS (R470). -/
def execSiteTrainTimeout (n : Nat) (s : State) : Res :=
  .next (if s.domSt (siteDom n) = domOpening && (s.site n).pwren && (s.site n).step ≤ 7 then s.siteFail n else s)

/-! ### Credits (R446, R447) -/

/-- The counts of a CREDIT message. -/
structure Credits where
  init : Bool
  reqH : Nat
  reqD : Nat
  snpH : Nat
  rspH : Nat
  rspD : Nat
  deriving DecidableEq, Repr

/-- Read them from header bits 127:64. -/
def creditsOf (addr : Nat) : Credits :=
  { init := Nat.testBit addr 48, reqH := addr % 2 ^ 8, reqD := addr / 2 ^ 8 % 2 ^ 12, snpH := addr / 2 ^ 20 % 2 ^ 8
    rspH := addr / 2 ^ 28 % 2 ^ 8, rspD := addr / 2 ^ 36 % 2 ^ 12 }

/-- The credits that a slot holds after a CREDIT message: absolute with INIT, returns otherwise. -/
def Slot.credit (x : Slot) (c : Credits) : Slot :=
  if c.init then { x with reqH := c.reqH, reqD := c.reqD, snpH := c.snpH, rspH := c.rspH, rspD := c.rspD, init := true }
  else { x with reqH := x.reqH + c.reqH, reqD := x.reqD + c.reqD, snpH := x.snpH + c.snpH, rspH := x.rspH + c.rspH, rspD := x.rspD + c.rspD }

/-- CREDIT on a slot: what waits for the credits goes on. At link-up an advertisement below the least of R446 fails the site. -/
def execCredit (n u : Nat) (m : StlMsg) (s : State) : Res :=
  let c := creditsOf m.addr
  let st := (s.site n).step
  let bringing : Bool := decide (s.domSt (siteDom n) = domOpening) && decide (5 ≤ st)
  .next (if !(bringing || s.modAlive n u) then s
  else if !stlOk { m with typ := 0x3F } then s.siteFault n u 1 0 0x3F
  else if c.init && bringing && (c.reqH < 8 || c.reqD < 64 || c.snpH < 16 || c.rspH < 32 || c.rspD < 256) then s.siteFail n
  else
    let s1 := (if c.init then s else s.reqReturned n u c.reqH).updSlot n u (fun x => x.credit c)
    (s1.siteDrain n u (s1.slot n u).waiting.length).siteChecks n)

/-! ### Revocation of a sealed-access right (R469) -/

/-- Whether a Granary line belongs to a tenant: its block's model is mapped into it (17_security.md R565). -/
def State.granLineOf (s : State) (l t : Nat) : Bool :=
  s.inGranary (blockOf (l * 128)) && (match s.modelOf (blockOf (l * 128)) with
    | some e => s.mapped t e
    | none => false)

/-- Granary lines of a tenant that a site's cache still holds at a home. -/
def State.granHeld (s : State) (h n t : Nat) : List Nat :=
  ((s.home h).entries.filter (fun e => Nat.testBit e.2.pres n && s.granLineOf e.1 t)).map (·.1)

/-- Whether a site has a stamped request of a tenant without an answer. -/
def State.stampedLeft (s : State) (n t : Nat) : Bool :=
  (List.range 8).any (fun u => (s.iface (moduleAgent n u)).outstanding.any (fun p => p.sealed && p.tenant = t))

/-- Whether a home snoops a line out of a cache, or is to. -/
def State.walking (s : State) (h l c : Nat) : Bool :=
  (s.home h).waiters.contains (.walk l c) ||
  (match SMap.get? (s.home h).busy l with
   | some t => (match t.phase with | .walk ws wbs => ws.contains c || wbs.contains c | _ => false)
   | none => false)

/-- The next step of a running revocation: once stamped requests are answered, the homes snoop the lines out; PENDING clears when no
home holds one. -/
def State.revokeGo (s : State) (n t : Nat) : State :=
  if s.stampedLeft n t then s
  else if (List.range 32).all (fun h => (s.granHeld h n t).isEmpty) then
    let s1 := s.updSite n (fun x => { x with revoke := eraseNat x.revoke t })
    if (s1.site n).revoke.isEmpty then s1.wr SITE_ATT_PENDING n 0 else s1
  else (List.range 32).foldl (fun x h =>
    ((x.granHeld h n t).filter (fun l => !x.walking h l n)).foldl (fun y l => y.enterWait h (.walk l n)) x) s

/-- The Vestry clears bit t of SITE_SEAL.RIGHTS, or a running revocation goes on. -/
def State.revokeRight (s : State) (n t : Nat) : State :=
  if (s.site n).revoke.contains t then s.revokeGo n t
  else if !s.siteRight n t then s
  else
    let s1 := s.wr SITE_SEAL_RIGHTS n (s.rd SITE_SEAL_RIGHTS n - 2 ^ (t - 1))
    ((s1.wr SITE_ATT_PENDING n 1).updSite n (fun x => { x with revoke := insertNat x.revoke t })).revokeGo n t

end Sys2Proof.Machine
end

