-- ==== Sys2Proof/Machine/Vestry.lean ====
section
/-!
DEFINITION. Machine/Vestry.lean: the Vestry's mailbox, life-cycle, certificates, purge, Ledger and attestation (17_security.md R544-R559,
R574-R584, 14_sites.md R468).
-/

namespace Sys2Proof.Machine

/-! ### Status codes (R582) -/

def stNotBound : Nat := 0xF8
def stManifestInvalid : Nat := 0xF9
def stDigestMismatch : Nat := 0xFA
def stVstFull : Nat := 0xFC
def stLcDenied : Nat := 0xFD
def stCertInvalid : Nat := 0xFE
def stTallyExhausted : Nat := 0xFF

/-- A change of what the Vestry holds. -/
def State.updVst (s : State) (f : Vst → Vst) : State := { s with vst := f s.vst }

/-- A change of the OTP. -/
def State.updOtp (s : State) (f : Otp → Otp) : State := s.updVst (fun v => { v with otp := f v.otp })

/-! ### Tally and Ledger (R578-R581) -/

/-- What the Tally counters have left: life-cycle steps, revocation epochs, owner keys (R578), and the free anchor entries (R580). -/
def State.lcLeft (s : State) : Nat := 3 - ((List.range 3).filter (fun k => Nat.testBit s.vst.otp.intent k)).length
def State.epochLeft (s : State) : Nat := 63 - s.vst.otp.epoch
def State.ownerLeft (s : State) : Nat := 4 - s.vst.otp.owners.length
def State.anchorFree (s : State) : Nat := 512 - s.ledger.anchors.length

/-- The sum of the remaining Tally counts (R555). -/
def State.tallySum (s : State) : Nat :=
  s.lcLeft + s.epochLeft + s.ownerLeft + ((List.range 8).map (fun m => (s.stack m).hardLeft)).foldl (· + ·) 0

/-- The anchored record of a use of Tally counter `k`, numbered in the order of R578 (log entry 63). -/
def State.tallyUse (s : State) (k : Nat) : State := s.ledgerAdd { kind := 1, anchored := true, arg := k }

/-- The 64 bytes of a record (R579). -/
def LedgerRec.bytes (r : LedgerRec) : List Byte :=
  if r.kind = 8 then natLe 8 r.seq ++ natLe 8 r.bell ++ r.sig
  else natLe 8 r.seq ++ natLe 8 r.bell ++ natLe 1 r.kind ++ natLe 1 r.path ++ natLe 1 (r.tenant % 64) ++
    natLe 1 (if r.anchored then 1 else 0) ++ natLe 4 r.count ++ natLe 8 r.arg ++ r.prev

/-- The oldest waiting record's write to flash completes (R579, R580). A refusal record waits out its own second, since its COUNT may rise
(log entry 64). -/
def execLedgerRecordInFlash (s : State) : Res :=
  .next (match s.ledger.sram with
  | [] => s
  | r :: l =>
    if r.kind = 5 && r.bell / 1000000000 = s.time / 1000000000 then s
    else
      let prev := match s.ledger.flash.getLast? with
        | some x => (sha384 x.bytes).take 32
        | none => s.freeBytes 32
      let x := if r.kind = 8 then r else { r with prev := prev }
      let s1 := if s.ledger.flash.isEmpty then s.fresh 32 else s
      { s1 with ledger := { s1.ledger with
          sram := l
          flash := (s1.ledger.flash ++ [x]).drop (s1.ledger.flash.length + 1 - ledgerRoom)
          anchors := s1.ledger.anchors ++ (if x.anchored && s1.ledger.anchors.length < 512 then [(x.seq % 2 ^ 32, (sha384 x.bytes).take 12)] else []) } })

/-- SEQ of the oldest record in flash. -/
def State.ledgerOldest (s : State) : Nat :=
  match s.ledger.flash with
  | r :: _ => r.seq % 2 ^ 32
  | [] => s.ledger.nextSeq % 2 ^ 32

/-- LDG_PTR.EXPORTED: values below OLDEST or above SEQ have no effect. -/
def execLedgerExport (w : Writer) (value : Nat) (s : State) : Res :=
  let v := value % 2 ^ 32
  let o := s.ledgerOldest
  .next (if !rveWriter w then s
  else if (v + 2 ^ 32 - o) % 2 ^ 32 ≤ (s.ledger.nextSeq + 2 ^ 32 - o) % 2 ^ 32 then s.wr LDG_PTR_EXPORTED 0 v else s)

/-! ### The mailbox (R583) -/

/-- The buffer's bytes. -/
def State.vstBuf (s : State) : List Byte := (List.range 2048).flatMap (fun k => natLe 8 (s.rd VST_MBOX_BUF_DATA k))

/-- Replace the buffer's contents by result data. -/
def State.putBuf (s : State) (d : List Byte) : State :=
  (List.range 2048).foldl (fun t k => t.wr VST_MBOX_BUF_DATA k (leNat ((d.drop (8 * k)).take 8))) s

/-- A mailbox command is DONE. -/
def State.vstDone (s : State) (status result : Nat) : State :=
  ((s.wr VST_MBOX_CTL_STATE 0 2).wr VST_MBOX_STAT_STATUS 0 status).wr VST_MBOX_STAT_RESULT 0 (result % 2 ^ 48)

/-- A GO with a command: refused while one runs; started once the firmware runs, and denied in a life-cycle state that its row of R583 does
not name. Before the firmware runs GO stays set (log entry 65). -/
def State.vstCmd (s : State) (w : Writer) (cmd len : Nat) (states : List Nat) (f : State → List Byte → State) : State :=
  if !rveWriter w then s
  else if s.rd VST_MBOX_CTL_STATE ≠ 0 then s.wr VST_MBOX_CTL_REJECTED 0 1
  else
    let s1 := (s.wr VST_MBOX_CTL_CMD 0 cmd).wr VST_MBOX_CTL_LEN 0 len
    if !s.flag VST_STAT_READY then s1.wr VST_MBOX_CTL_GO 0 1
    else
      let s2 := (((s1.wr VST_MBOX_CTL_GO 0 0).wr VST_MBOX_CTL_STATE 0 1).wr VST_MBOX_STAT_STATUS 0 0).wr VST_MBOX_STAT_RESULT 0 0
      if !states.contains s.lcState then s2.vstDone stLcDenied 0 else f s2 s2.vstBuf

def execVstMboxAck (w : Writer) (s : State) : Res :=
  .next (if rveWriter w && s.rd VST_MBOX_CTL_STATE = 2 then s.wr VST_MBOX_CTL_STATE 0 0 else s)

/-! ### Sealed tenants and models (R565, R566, R569, R575) -/

/-- Zero every pool of a tenant and wipe every tile that it owns (R569, R575). -/
def State.clearTenant (s : State) (t : Nat) : State :=
  let s1 := (List.range 32).foldl (fun u p =>
    if u.rd STW_POOL_CFG_STATE p ≠ 0 && u.rd STW_POOL_CFG_TENANT p = t then u.zeroHpa (u.poolBase p) (u.poolBytes p) else u) s
  (List.range 68).foldl (fun u k => if u.rd LOOM_STAT_OWNER k = t then u.wipeTile k else u) s1

/-- A tenant becomes sealed (R569). -/
def State.sealTenant (s : State) (t : Nat) : State :=
  if s.sealedTenant t then s else (s.clearTenant t).wr VST_TENANT_SEALED t 1

/-- A tenant is unsealed (R575). -/
def State.unseal (s : State) (t : Nat) : State := ((s.clearTenant t).wr VST_TENANT_SEALED t 0).wr VST_TENANT_UNSEALING t 0

/-- The tenants that map a model. -/
def State.mappers (s : State) (e : Nat) : List Nat := (List.range 64).filter (fun t => s.mapped t e)

/-- Map a model into a tenant, or take it away. -/
def State.mapModel (s : State) (t e : Nat) (on : Bool) : State :=
  let m := s.rd VST_TENANT_MODELS t
  if s.mapped t e = on then s else s.wr VST_TENANT_MODELS t (if on then m + 2 ^ e else m - 2 ^ e)

/-- The blocks of a model. -/
def State.modelBlocks (s : State) (e : Nat) : List Nat :=
  (List.range (s.rd VST_MODEL_COUNT e)).map (fun k => s.rd VST_MODEL_FIRST e + k)

/-- No tenant maps a model any more: its key goes, its blocks are released, and its entry is freed once they are EMPTY (R566). -/
def State.releaseModel (s : State) (e : Nat) : State :=
  let s1 := (s.updVst (fun v => { v with keys := SMap.del v.keys e })).wr VST_MODEL_STATE e 4
  ((s1.modelBlocks e).foldl State.releaseBlock s1).freeModels

/-! ### Purge (R576) -/

/-- An item fails by the rules for sealed tenants: at once, or once its unit has stopped. -/
def State.sealFail (s : State) (i : Item) : State :=
  if i.st = 2 then (s.updOrder i.order (fun x => { x with stop := some stSealPolicy })).stopUnit i
  else if i.st = 1 && !s.itemIdle i then s.updOrder i.order (fun x => { x with stop := some stSealPolicy })
  else s.failItem i stSealPolicy

/-- Every right of every site goes (14_sites.md R469). -/
def State.clearRights (s : State) (n : Nat) : State :=
  (List.range 64).foldl (fun t k => if t.siteRight n k then t.revokeRight n k else t) (s.updSite n (fun x => { x with owed := false }))

/-- A purge begins. -/
def State.purge (s : State) : State :=
  let s1 := (s.wr VST_STAT_PURGING 0 1).ledgerAdd { kind := 6 }
  let st := s1.genState
  let s2 := if s1.sealedTenant s1.stw.gen.tenant && 1 ≤ st && st ≤ 3 then
      ((s1.updGen (fun g => { g with stage := 0, batch := [] })).wr STW_GEN_STAT_STATE 0 4).wr STW_GEN_STAT_STATUS 0 stSealPolicy
    else s1
  let s3 := (s2.stw.items.filter (fun i => s2.sealedTenant i.tenant)).foldl (fun t i =>
    if t.stw.items.any (fun x => x.order = i.order) then t.sealFail i else t) s2
  let s4 := (List.range 64).foldl (fun t k =>
    (if t.sealedTenant k then t.wr VST_TENANT_UNSEALING k 1 else t).wr VST_TENANT_MODELS k 0) s3
  let s5 := (List.range 32).foldl (fun t e =>
    if t.rd VST_MODEL_STATE e ≠ 0 && t.rd VST_MODEL_STATE e ≠ 4 then t.releaseModel e else t) s4
  (List.range 8).foldl State.clearRights s5

/-! ### Life-cycle (R548-R551) -/

/-- The Cellar and every scratchpad are zeroed (03_memory_model.md R98). -/
def State.zeroSram (s : State) : State :=
  (s.zeroRange (cellarCell 0) (cellarCell 52)).zeroRange (scratchCell 0) (scratchCell 68)

/-- The actions of transition `k` after any purge, and its DONE (R550): the hub's SRAMs that are zeroed are the Cellar, the scratchpads and the fate log. Burning the owner-key rows to ones ends them. -/
def State.lcFinish (s : State) (k : Nat) : State :=
  let s1 := if k = 0 then s else s.zeroSram.updHep (fun h => { h with log := [] })
  let s2 := if k = 2 then s1.updOtp (fun o => { o with owners := List.replicate 4 (List.replicate 48 0xFF) }) else s1
  (s2.updOtp (fun o => { o with fin := o.fin ||| 2 ^ k })).ledgerAdd { kind := 3, arg := k }

/-- Byte `k`, and the number at `n` bytes from `lo` on. -/
def bufNat (b : List Byte) (lo n : Nat) : Nat := leNat ((b.drop lo).take n)

/-- LC_TRANSITION (R549, R550). -/
def execLcTransition (w : Writer) (len : Nat) (s : State) : Res :=
  .next (s.vstCmd w 0x01 len [0, 1, 2] (fun t b =>
    let k := t.lcState
    if bufNat b 0 1 ≠ k + 1 || t.flag LCS_STAT_LOCKOUT then t.vstDone stLcDenied 0
    else if sha384 ((b.drop 32).take 32) ≠ Config.tokenDigest k then
      let n := min 16 (t.rd LCS_STAT_FAILS + 1)
      ((t.wr LCS_STAT_FAILS 0 n).wr LCS_STAT_LOCKOUT 0 (if n = 16 then 1 else 0)).vstDone stLcDenied 0
    else
      let t1 := (t.updOtp (fun o => { o with intent := o.intent ||| 2 ^ k })).ledgerAdd { kind := 2, anchored := true, arg := 0 }
      if k = 2 then t1.purge else (t1.lcFinish k).vstDone 0 0))

/-! ### Certificates, epochs and owners (R554-R559) -/

/-- The digest of the current owner's public key. -/
def State.owner (s : State) : Option (List Byte) := s.vst.otp.owners.getLast?

/-- Bytes of a signature, and of a public key, of an algorithm (log entry 66). -/
def sigLen (alg : Nat) : Nat := if alg = 0 then 96 else 4627
def keyLen (alg : Nat) : Nat := if alg = 0 then 96 else 2592

/-- Whether signer 0 (Dunaom) or 1 (the owner, whose key follows the signature) signed a message. -/
def State.signedBy (s : State) (signer alg : Nat) (msg rest : List Byte) : Bool :=
  let sig := rest.take (sigLen alg)
  let key := (rest.drop (sigLen alg)).take (keyLen alg)
  if signer = 0 then Config.dunaomSigned alg msg sig
  else s.owner = some (sha384 key) && Config.keySigned alg key msg sig

/-- The rights of R556 in force: bit 0 SCAN, bit 1 VESTRY_DEBUG, bit 2 RMA. -/
def State.rights (s : State) : Nat := s.rd VST_STAT_SCAN + 2 * s.rd VST_STAT_VESTRY_DEBUG + 4 * s.rd VST_STAT_RMA

/-- Whether a certificate's fields are in range and match this hub (R554, R555). -/
def State.certOk (s : State) (b : List Byte) : Bool :=
  decide (bufNat b 0 4 = 0x5A444331 ∧ bufNat b 4 1 = 1 ∧ bufNat b 5 1 ≤ 1 ∧ bufNat b 6 1 ≤ 1 ∧ bufNat b 7 1 = s.vst.otp.epoch ∧
    bufNat b 8 8 = Config.serial.toNat ∧ bufNat b 16 8 < 8 ∧ bufNat b 24 40 = 0) &&
  !(bufNat b 5 1 = 1 && 4 ≤ bufNat b 16 8) && s.signedBy (bufNat b 5 1) (bufNat b 6 1) (b.take 64) (b.drop 64)

/-- Rights come into force (R556): VESTRY_DEBUG ends the hub's identity. -/
def State.openRights (s : State) (r : Nat) : State :=
  let bit (f : RF) (k : Nat) (t : State) : State := if Nat.testBit r k then t.wr f 0 1 else t
  let s1 := bit VST_STAT_RMA 2 (bit VST_STAT_VESTRY_DEBUG 1 (bit VST_STAT_SCAN 0 s))
  s1.updVst (fun v => { v with rights := none, noId := v.noId || Nat.testBit r 1 })

/-- DEBUG_CERT (R555, R557): the rights wait for the end of a purge. -/
def execDebugCert (w : Writer) (len : Nat) (s : State) : Res :=
  .next (s.vstCmd w 0x02 len [0, 1, 2, 3] (fun t b =>
    if t.lcState ≠ 2 || !t.certOk b then t.vstDone stCertInvalid 0
    else if t.anchorFree ≤ t.tallySum then t.vstDone stTallyExhausted 0
    else
      let r := bufNat b 16 8
      let t1 := t.ledgerAdd { kind := 4, anchored := true, arg := r }
      if r = 0 then t1.vstDone 0 t1.rights
      else (t1.updVst (fun v => { v with rights := some r })).purge))

/-- EPOCH_RAISE (R558). The signature covers the first 64 bytes of the buffer (log entry 66). -/
def execEpochRaise (w : Writer) (len : Nat) (s : State) : Res :=
  .next (s.vstCmd w 0x03 len [2] (fun t b =>
    let e := bufNat b 0 1
    let old := t.vst.otp.epoch
    if e ≤ old || bufNat b 8 8 ≠ Config.serial.toNat || 1 < bufNat b 16 1 || 1 < bufNat b 17 1 ||
        !t.signedBy (bufNat b 16 1) (bufNat b 17 1) (b.take 64) (b.drop 64) then t.vstDone stCertInvalid 0
    else if t.epochLeft < e - old then t.vstDone stTallyExhausted 0
    else (((List.range (e - old)).foldl (fun u _ => u.tallyUse 1) t).updOtp (fun o => { o with epoch := e })).vstDone 0 e))

/-- OWNER_SET (R559): the first one in PRODUCTION needs no signature. -/
def execOwnerSet (w : Writer) (len : Nat) (s : State) : Res :=
  .next (s.vstCmd w 0x04 len [2] (fun t b =>
    let alg := bufNat b 0 1
    let d := sha384 ((b.drop 16).take (keyLen alg))
    let sig := (b.drop (16 + keyLen alg)).take (sigLen alg)
    let signed := match t.owner with
      | none => true
      | some o => Config.ownerSigned alg o d sig || Config.dunaomSigned alg d sig
    if 1 < alg || !signed then t.vstDone stCertInvalid 0
    else if t.ownerLeft = 0 then t.vstDone stTallyExhausted 0
    else
      let n := t.vst.otp.owners.length
      ((t.tallyUse 2).updOtp (fun o => { o with owners := o.owners ++ [d] })).vstDone 0 n))

/-! ### The other mailbox commands -/

/-- LEDGER_CHECKPOINT (R581). -/
def execLedgerCheckpoint (w : Writer) (len : Nat) (s : State) : Res :=
  .next (s.vstCmd w 0x06 len [0, 1, 2] (fun t _ => t.checkpoint.vstDone 0 t.ledger.nextSeq))

def execPurge (w : Writer) (len : Nat) (s : State) : Res := .next (s.vstCmd w 0x07 len [2] (fun t _ => t.purge))

/-- A purge ends once every Granary block is EMPTY (R576): sealed tenants are unsealed, a life-cycle transition that waited goes on, rights
come into force, and the command that asked for the purge is DONE (R550, R557). -/
def execPurgeEnd (s : State) : Res :=
  .next (if !s.flag VST_STAT_PURGING || s.hbm.gran.any (fun b => b.2.st ≠ 0) then s
  else
    let s1 := (List.range 64).foldl (fun t k => if t.flag VST_TENANT_UNSEALING k then t.unseal k else t) s
    let s2 := s1.wr VST_STAT_PURGING 0 0
    let s3 := if Nat.testBit s2.vst.otp.intent 2 && !Nat.testBit s2.vst.otp.fin 2 then s2.lcFinish 2 else s2
    let s4 := match s3.vst.rights with
      | some r => s3.openRights r
      | none => s3
    if s4.rd VST_MBOX_CTL_STATE = 1 && [0x01, 0x02, 0x07].contains (s4.rd VST_MBOX_CTL_CMD) then
      s4.vstDone 0 (if s4.rd VST_MBOX_CTL_CMD = 0x02 then s4.rights else 0)
    else s4)

/-- IDENTITY (R583): serial, binding digest and certificate digests fill the buffer. What a hub without identity keys answers for the last
two is a free value (log entry 67). -/
def execIdentity (w : Writer) (len : Nat) (s : State) : Res :=
  .next (s.vstCmd w 0x08 len [0, 1, 2, 3] (fun t _ =>
    let has := t.lcState = 2 && !t.vst.noId
    let d := if has then (Config.bindingDigest ++ zeros 48).take 48 ++ (List.range 3).flatMap (fun k => (Config.certDigest k ++ zeros 48).take 48)
      else t.freeBytes 192
    ((if has then t else t.fresh 192).putBuf (natLe 8 Config.serial.toNat ++ d)).vstDone 0 0))

/-! ### Site attestation (R574, 14_sites.md R468, R469) -/

/-- Whether a site satisfies a model's policy with its measurements (R560). -/
def Model.satisfied (x : Model) (meas : SMap (List Byte)) : Bool :=
  x.policies.any (fun p =>
    let ix := (List.range 128).filter (Nat.testBit p.1)
    ix.all (fun k => (SMap.get? meas k).isSome) && sha384 (ix.flatMap (fun k => SMap.getD meas k [])) = p.2)

/-- Whether a site satisfies a tenant: the policy of every model mapped into it (R574). -/
def State.siteSatisfies (s : State) (n t : Nat) : Bool :=
  s.sealedTenant t && s.rd VST_TENANT_MODELS t ≠ 0 &&
  (List.range 32).all (fun e => !s.mapped t e || (SMap.getD s.vst.models e {}).satisfied (s.site n).meas)

/-- The Vestry gives the rights that an attestation earned, once no revocation is in progress, and takes the others (R468, R469, R574). -/
def State.giveRights (s : State) (n : Nat) : State :=
  let s1 := (List.range 64).foldl (fun t k => if t.siteRight n k && !t.siteSatisfies n k then t.revokeRight n k else t) s
  if s1.flag SITE_ATT_PENDING n then s1.updSite n (fun x => { x with owed := true })
  else (List.range 64).foldl (fun t k =>
    if k ≠ 0 && t.siteSatisfies n k && !t.siteRight n k then t.wr SITE_SEAL_RIGHTS n (t.rd SITE_SEAL_RIGHTS n + 2 ^ (k - 1)) else t) s1

/-- RIGHT_REVOKE (R469): a right is revoked, or its revocation goes on; rights that an attestation earned meanwhile are set once PENDING clears. -/
def execRightRevoke (n tenant : Nat) (s : State) : Res :=
  let s1 := s.revokeRight n tenant
  .next (if (s1.site n).owed && !s1.flag SITE_ATT_PENDING n && s1.domSt (siteDom n) = domOpen then
      (s1.updSite n (fun x => { x with owed := false })).giveRights n
    else s1)

/-- SITE_ATTEST: the attestation of a site starts; a site that is not up gives an SPDM error at once (log entry 68). -/
def execSiteAttest (w : Writer) (len : Nat) (s : State) : Res :=
  .next (s.vstCmd w 0x05 len [2] (fun t b =>
    let n := bufNat b 0 1
    if 8 ≤ n || !t.domExists (siteDom n) || !(t.domSt (siteDom n) = domOpen || (t.site n).step = 8) then t.vstDone 0 2
    else (t.updSite n (fun x => { x with attesting := true })).updVst (fun v => { v with mboxSite := some n })))

/-- An attestation ends: 1 completed with measurements, 2 an SPDM error, 3 a bad signature or certificate (R468). A failed one, or one whose
measurements changed, takes every right. In bring-up the site goes on to step 9 (14_sites.md R470; log entry 68). -/
def execSiteSpdmResponse (n result : Nat) (meas : List (Nat × List Byte)) (s : State) : Res :=
  .next (if !(s.site n).attesting then s
  else
    let m : SMap (List Byte) := meas.foldl (fun a e => SMap.put a e.1 e.2) []
    let old := (s.site n).meas
    let s1 := (s.wr SITE_ATT_RESULT n result).updSite n (fun x => { x with
      attesting := false, meas := if result = 1 then m else x.meas, step := if x.step = 8 then 9 else x.step })
    let s2 := if result = 1 then s1.inc SITE_ATT_COUNT n 1 else s1
    let s3 := if result ≠ 1 || (!old.isEmpty && old ≠ m) then s2.clearRights n else s2
    let s4 := if result = 1 then s3.giveRights n else s3
    if s4.vst.mboxSite = some n then (s4.updVst (fun v => { v with mboxSite := none })).vstDone 0 result else s4)

/-! ### SPDM (R546, R547) -/

/-- Whether the hub has an identity for SPDM (R548, R556). -/
def State.hasIdentity (s : State) : Bool := s.lcState = 2 && !s.vst.noId

/-- A measurement (R547). -/
def State.measure (s : State) (k : Nat) : List Byte :=
  match k with
  | 5 => Config.crierMeasurement s.rve.images
  | 6 => natLe 1 s.lcState ++ natLe 8 s.rights
  | 8 => natLe 1 (if s.roll.floorplan then 1 else 0) ++ natLe 8 (s.reg HUB_CONFIG 0).toNat
  | _ => Config.measurement k

/-- The number of a request among those of SpdmAsk, and its argument. -/
def spdmOp : SpdmAsk → Nat × Nat
  | .getVersion => (0, 0)
  | .getCapabilities => (1, 0)
  | .negotiateAlgorithms => (2, 0)
  | .getDigests => (3, 0)
  | .getCertificate k => (4, k)
  | .challenge k => (5, k)
  | .getMeasurements k => (6, k)
  | .keyExchange => (7, 0)
  | .finish k => (8, k)
  | .heartbeat k => (9, k)
  | .keyUpdate k => (10, k)
  | .endSession k => (11, k)
  | .other k => (12, k)

/-- A session number that is free: up to 4 are supported. -/
def State.freeSession (s : State) : Option Nat :=
  if 4 ≤ s.vst.sessions.length then none else (List.range 4).find? (fun k => !s.vst.sessions.contains k)

/-- Answer an SPDM request; none is an ERROR. -/
def State.spdmAnswer (s0 : State) (via : Nat) (ask : SpdmAsk) (data : Option (List Byte)) : State :=
  let s := s0.updRve (fun r => { r with mctp := r.mctp.filter (fun m => m + 1 ≠ via) })
  s.updVst (fun v => { v with out := v.out ++ [{ via := via, op := (spdmOp ask).1, data := data }] })

/-- An SPDM request over PCIe DOE (`via` 0) or from an MCTP requester (`via` its endpoint plus 1). Requests that need a key are errors on a
hub without an identity. -/
def execSpdmRequest (via : Nat) (ask : SpdmAsk) (s : State) : Res :=
  let std := some (Config.spdm (spdmOp ask).1 (spdmOp ask).2)
  let ident (d : Option (List Byte)) : State := s.spdmAnswer via ask (if s.hasIdentity then d else none)
  let inSession (k : Nat) : State := s.spdmAnswer via ask (if s.vst.sessions.contains k then std else none)
  .next (if !s.flag VST_STAT_READY then s
  else match ask with
    | .getVersion => s.spdmAnswer via ask (some [0x12, 0x13])
    | .getCapabilities => s.spdmAnswer via ask std
    | .negotiateAlgorithms => s.spdmAnswer via ask std
    | .getDigests => ident (some ((List.range 3).flatMap Config.certDigest))
    | .getCertificate k => ident (if k ≤ 2 then std else none)
    | .challenge k => ident (if k ≤ 1 then std else none)
    | .getMeasurements k => ident (if 1 ≤ k && k ≤ 8 then some (s.measure k) else none)
    | .keyExchange =>
      (match s.freeSession with
       | some k => if s.hasIdentity then
            (s.updVst (fun v => { v with sessions := insertNat v.sessions k })).spdmAnswer via ask (some (natLe 2 k))
          else s.spdmAnswer via ask none
       | none => s.spdmAnswer via ask none)
    | .finish k => inSession k
    | .heartbeat k => inSession k
    | .keyUpdate k => inSession k
    | .endSession k => (inSession k).updVst (fun v => { v with sessions := eraseNat v.sessions k })
    | .other _ => s.spdmAnswer via ask none)

end Sys2Proof.Machine
end

