-- ==== Sys2Proof/Machine/Weights.lean ====
section
/-!
DEFINITION. Machine/Weights.lean: the binding of models: WEIGHT_LOAD, WEIGHT_CHUNK and WEIGHT_RELEASE (17_security.md R560-R568).
-/

namespace Sys2Proof.Machine

/-! ### What the Vestry reads and writes in memory -/

/-- The Vestry reads local memory within a command (log entry 24): the status that stops it, or `stRetry` while a home fetches a line back, the bytes, and the
state after. Sealed data
reads as the poison pattern for it too (R542). -/
def State.readHpa (s : State) (hpa n : Nat) : Option Nat × List Byte × State :=
  (granules hpa n).foldl (fun (x : Option Nat × List Byte × State) g =>
    let (st, d, t) := x
    if st.isSome then x
    else if t.readVerdict g.1 0 false ≠ .data then (some stMemPoison, d, t)
    else match t.spaceOfHpa g.1 with
      | .hbm _ =>
        (match t.snoopRead 0x1C0 g.1 g.2 with
         | (.wait, u) => (some stRetry, d, u)
         | (.none, u) => (some stDomainDown, d, u)
         | (.data b bad, u) => if bad then (some stMemPoison, d, u) else (none, d ++ b, u))
      | .cellar _ _ =>
        let c := t.cellOf g.1
        if !t.memOpen g.1 then (some stDomainDown, d, t)
        else if t.poisoned c g.2 then (some stMemPoison, d, t) else (none, d ++ t.bytes c g.2, t)
      | _ => (some stDecodeError, d, t)) (none, [], s)

/-- The Vestry writes whole lines of its directory region, which replaces poison in them. -/
def State.dirWrite (s : State) (hpa : Nat) (d : List Byte) : State :=
  let d1 := d ++ zeros ((128 - d.length % 128) % 128)
  (linesOf hpa d1.length).foldl State.unpoisonLine (s.stwWrite hpa d1)

/-- An item ends with the status of a read that failed; one that waits is tried again. -/
def State.failRead (s : State) (i : Item) (status : Nat) : State := if status = stRetry then s else s.failItem i status

/-! ### Manifests (R560) -/

/-- The header of a manifest. -/
structure Manifest where
  share : Bool
  lg : Nat
  alg : Nat
  modelId : Nat
  total : Nat
  ivBase : Nat
  nbind : Nat
  nsite : Nat
  keyOff : Nat
  bindOff : Nat
  siteOff : Nat
  segOff : Nat
  sigOff : Nat
  digOff : Nat
  nseg : Nat
  deriving DecidableEq, Repr

def manifestOf (b : List Byte) : Manifest :=
  { share := bufNat b 5 1 % 2 = 1, lg := bufNat b 6 1, alg := bufNat b 7 1, modelId := bufNat b 8 8, total := bufNat b 16 8
    ivBase := bufNat b 24 8, nbind := bufNat b 32 2, nsite := bufNat b 34 1, keyOff := bufNat b 36 4, bindOff := bufNat b 40 4
    siteOff := bufNat b 44 4, segOff := bufNat b 48 4, sigOff := bufNat b 52 4, digOff := bufNat b 56 4, nseg := bufNat b 60 2 }

/-- CHUNKS = ceil(TOTAL / C). -/
def Manifest.chunks (m : Manifest) : Nat := (m.total + 2 ^ m.lg - 1) / 2 ^ m.lg

/-- The format of a manifest's header: the fields in range, every part but the digest table inside the signed bytes, and the digest table
behind the signature. -/
def Manifest.ok (m : Manifest) (b : List Byte) : Bool :=
  decide (bufNat b 0 4 = 0x5A574D31 ∧ bufNat b 4 1 = 1 ∧ bufNat b 5 1 < 2 ∧ 12 ≤ m.lg ∧ m.lg ≤ 16 ∧ m.alg ≤ 1 ∧ 1 ≤ m.total ∧ 1 ≤ m.nbind ∧
    m.nbind ≤ 256 ∧ m.nsite ≤ 8 ∧ bufNat b 35 1 = 0 ∧ bufNat b 62 66 = 0 ∧ 1 ≤ m.nseg ∧ m.nseg = (48 * m.chunks + 2 ^ 21 - 1) / 2 ^ 21) &&
  decide (128 ≤ m.sigOff ∧ m.keyOff + keyLen m.alg ≤ m.sigOff ∧ m.bindOff + 1664 * m.nbind ≤ m.sigOff ∧ m.siteOff + 64 * m.nsite ≤ m.sigOff ∧
    m.segOff + 48 * m.nseg ≤ m.sigOff ∧ m.sigOff + sigLen m.alg ≤ m.digOff)

/-- Bytes of a manifest. -/
def part (b : List Byte) (lo n : Nat) : List Byte := (b.drop lo).take n

/-- The signed bytes of the manifest at an HPA, once its header is well formed. -/
def State.readManifest (s : State) (hpa : Nat) : (Nat ⊕ (Manifest × List Byte)) × State :=
  match s.readHpa hpa 128 with
  | (some st, _, t) => (.inl st, t)
  | (none, h, t) =>
    let m := manifestOf h
    if !m.ok h then (.inl stManifestInvalid, t)
    else match t.readHpa hpa m.sigOff with
      | (some st, _, u) => (.inl st, u)
      | (none, b, u) => (.inr (m, b), u)

/-- The binding entry of this hub: its ciphertext and its wrapped key (R545, R560). -/
def Manifest.binding (m : Manifest) (b : List Byte) : Option (List Byte × List Byte) :=
  (List.range m.nbind).findSome? (fun k =>
    let e := part b (m.bindOff + 1664 * k) 1664
    if e.take 48 = Config.bindingDigest then some (part e 48 1568, part e 1616 40) else none)

/-- The site policies of a manifest. -/
def Manifest.policies (m : Manifest) (b : List Byte) : List (Nat × List Byte) :=
  (List.range m.nsite).map (fun k => let e := part b (m.siteOff + 64 * k) 64; (bufNat e 0 16, part e 16 48))

/-- Whether every segment of a digest table has its digest in the segment list (R562). -/
def Manifest.segmentsOk (m : Manifest) (b table : List Byte) : Bool :=
  (List.range m.nseg).all (fun k => sha384 (part table (2 ^ 21 * k) (2 ^ 21)) = part b (m.segOff + 48 * k) 48)

/-- The present model with a manifest digest (R562). -/
def State.present (s : State) (digest : List Byte) : Option Nat :=
  (List.range 32).find? (fun e => s.rd VST_MODEL_STATE e ≠ 0 && s.rd VST_MODEL_STATE e ≠ 4 && (SMap.getD s.vst.models e {}).digest = digest)

/-! ### The directory region and the Granary (R562, R568) -/

/-- Bytes rounded up to 64 KiB. -/
def up64k (n : Nat) : Nat := (n + 65535) / 65536 * 65536

/-- What a model takes of the directory region: its digest table, then its bitmap. -/
def dirTable (chunks : Nat) : Nat := up64k (48 * chunks)
def dirNeed (chunks : Nat) : Nat := dirTable chunks + up64k ((chunks + 7) / 8)

/-- First HPA of the directory region, and whether there is one. -/
def State.dirBase (s : State) : Nat := s.rd VST_DIR_BASE * 2 ^ 28
def State.dirOk (s : State) : Bool := decide (28 ≤ s.rd VST_DIR_LOG2SIZE ∧ s.rd VST_DIR_LOG2SIZE ≤ 34)

/-- The lowest place of `n` bytes in the region, from `a` on, that meets no model. -/
def State.dirPlace (s : State) (n : Nat) : Option Nat :=
  let used := s.vst.models.map (fun e => (e.2.dirOff, e.2.dirLen))
  let size := if s.dirOk then 2 ^ s.rd VST_DIR_LOG2SIZE else 0
  let cands := (0 :: used.map (fun e => e.1 + e.2)).filter (fun a =>
    decide (a + n ≤ size) && used.all (fun e => !meets a n e.1 e.2))
  match cands with
  | [] => none
  | a :: l => some (l.foldl min a)

/-- The lowest run of `n` EMPTY Granary blocks that no directory entry holds. -/
def State.granRun (s : State) (n : Nat) : Option Nat :=
  let first := s.rd HBM_GRAN_CFG_FIRST
  let count := s.rd HBM_GRAN_CFG_COUNT
  let free (b : Nat) : Bool := (s.gblock b).st = 0 && (s.modelOf b).isNone
  if count < n then none
  else ((List.range (count + 1 - n)).find? (fun k => (List.range n).all (fun j => free (first + k + j)))).map (first + ·)

/-- The address of chunk `k`'s digest, and of the byte of its bit in the bitmap. -/
def State.digestHpa (s : State) (e k : Nat) : Nat := s.dirBase + (SMap.getD s.vst.models e {}).dirOff + 48 * k
def State.bitHpa (s : State) (e k : Nat) : Nat :=
  let x := SMap.getD s.vst.models e {}
  s.dirBase + x.dirOff + dirTable x.chunks + k / 8

/-! ### WEIGHT_LOAD (R561, R562) -/

/-- Whether weights are refused: the life-cycle state, or a right of R556 in force (R557, R561). -/
def State.weightsClosed (s : State) : Bool := s.lcState ≠ 2 || s.rights ≠ 0

/-- Map a model into an item's tenant, which seals the tenant, and attest again every site that holds its right (R562, R569, R574). -/
def State.bindModel (s : State) (t e : Nat) : State :=
  let s1 := (s.sealTenant t).mapModel t e true
  if s.mapped t e then s1
  else (List.range 8).foldl (fun u n => if u.siteRight n t then u.updSite n (fun x => { x with attesting := true }) else u) s1

/-- What WEIGHT_LOAD answers on DONE. -/
def State.loadResult (s : State) (e : Nat) : Nat := e + s.rd VST_MODEL_FIRST e * 2 ^ 16 + s.rd VST_MODEL_COUNT e * 2 ^ 32

/-- Read a digest table and verify its segments. -/
def State.readTable (s : State) (hpa : Nat) (m : Manifest) (b : List Byte) : (Nat ⊕ List Byte) × State :=
  match s.readHpa (hpa + m.digOff) (48 * m.chunks) with
  | (some st, _, t) => (.inl st, t)
  | (none, d, t) => if m.segmentsOk b d then (.inr d, t) else (.inl stDigestMismatch, t)

/-- The rest of the load of a manifest that matches no present model, in the order of R562. -/
def State.loadNew (s : State) (i : Item) (hpa : Nat) (m : Manifest) (b : List Byte) (bind : List Byte × List Byte) : State :=
  let n := (m.total + 7 * 2 ^ 23 - 1) / (7 * 2 ^ 23)
  match (List.range 32).find? (fun e => s.rd VST_MODEL_STATE e = 0), s.dirPlace (dirNeed m.chunks), s.granRun n with
  | some e, some off, some first =>
    match Config.contentKey bind.1 bind.2 m.modelId with
    | none => s.failItem i stKeyInvalid
    | some key =>
      match s.readTable hpa m b with
      | (.inl st, t) => t.failRead i st
      | (.inr d, t) =>
        let x : Model := { digest := sha384 b, total := m.total, ivBase := m.ivBase, chunks := m.chunks, dirOff := off
                           dirLen := dirNeed m.chunks, policies := m.policies b, left := m.chunks }
        let t1 := t.updVst (fun v => { v with keys := SMap.put v.keys e key, models := SMap.put v.models e x })
        let t2 := (t1.dirWrite (t1.dirBase + off) d).dirWrite (t1.dirBase + off + dirTable m.chunks) (zeros ((m.chunks + 7) / 8))
        let t3 := (((((t2.wr VST_MODEL_STATE e 1).wr VST_MODEL_CHUNK_LOG2 e m.lg).wr VST_MODEL_SHARE e (if m.share then 1 else 0)).wr
          VST_MODEL_COUNT e n).wr VST_MODEL_FIRST e first).wr VST_MODEL_ID_MODEL_ID e m.modelId
        let t4 := (t3.modelBlocks e).foldl (fun u k => u.updBlock k (fun g => { g with st := 1 })) t3
        (t4.bindModel i.tenant e).doneItem i (t4.loadResult e)
  | _, _, _ => s.failItem i stVstFull

/-- Whether the Vestry is at a mailbox command: it handles its commands one at a time, in arrival order (R561). -/
def State.vstBusy (s : State) : Bool := s.rd VST_MBOX_CTL_STATE = 1

def execWeightLoad (q item : Nat) (s : State) : Res :=
  .next (s.runItem q item 0x28 (fun t i =>
    let hpa := i.prm 24 8
    if t.vstBusy then t
    else if t.weightsClosed then t.failItem i stLcDenied
    else match t.readManifest hpa with
      | (.inl st, u) => u.failRead i st
      | (.inr (m, b), u) =>
        match u.readHpa (hpa + m.sigOff) (sigLen m.alg) with
        | (some st, _, v) => v.failRead i st
        | (none, sig, v) =>
          if !Config.keySigned m.alg (part b m.keyOff (keyLen m.alg)) b sig then v.failItem i stManifestInvalid
          else match m.binding b with
            | none => v.failItem i stNotBound
            | some bind =>
              if i.tenant = 0 then v.failItem i stPrivileged
              else
                let old := v.present (sha384 b)
                let unshared : Bool := match old with
                  | some e => !v.flag VST_MODEL_SHARE e
                  | none => false
                if unshared || v.stw.items.any (fun x => x.tenant = i.tenant && x.order ≠ i.order) then v.failItem i stSealPolicy
                else match old with
                  | none => v.loadNew i hpa m b bind
                  | some e =>
                    match v.readTable hpa m b with
                    | (.inl st, z) => z.failRead i st
                    | (.inr d, z) => ((z.dirWrite (z.digestHpa e 0) d).bindModel i.tenant e).doneItem i (z.loadResult e)))

/-! ### WEIGHT_CHUNK (R563, R564, R567) -/

/-- The model that a chunk of a tenant is for: the lowest entry mapped into it that is FILLING or RESTORING (log entry 69). -/
def State.chunkModel (s : State) (t : Nat) : Option Nat :=
  (List.range 32).find? (fun e => s.mapped t e && (s.rd VST_MODEL_STATE e = 1 || s.rd VST_MODEL_STATE e = 3))

/-- Whether a chunk lies on a page under restore. -/
def State.chunkOnPage (s : State) (e k : Nat) : Bool :=
  let a := s.modelHpa e (k * 2 ^ s.rd VST_MODEL_CHUNK_LOG2 e)
  let g := s.gblock (blockOf a)
  g.st = 5 && g.page = some (pageInBlock a)

/-- The descriptor of a chunk: bytes from the staged chunk into the model's blocks, sealing, with a chain (10_data_movers.md R312). -/
def chunkDesc (src dst n : Nat) : List Byte :=
  natLe 8 src ++ natLe 8 dst ++ zeros 16 ++ natLe 4 n ++ natLe 4 1 ++ natLe 4 1 ++ natLe 4 1 ++ zeros 24 ++
  [0x0D, 0x0D, 0, 5, 32, 0, 0, 0] ++ zeros 8 ++ natLe 8 128 ++ zeros 32

/-- Its chain: DECRYPT with key slot `e` from chunk `k`, then CHECKSUM SHA-384 compared with the digest (10_data_movers.md R323). -/
def chunkChain (lg e k iv digest : Nat) : List Byte :=
  natLe 1 1 ++ natLe 1 lg ++ natLe 2 e ++ natLe 4 k ++ natLe 8 iv ++ natLe 1 8 ++ natLe 1 1 ++ natLe 1 1 ++ zeros 5 ++ natLe 8 digest ++ zeros 96

/-- Give a chunk's descriptor to a chain mover, under the tenant of the model's key slot. -/
def State.startChunk (s : State) (i : Item) (e k : Nat) : State :=
  let room (u : Nat) : Bool := match s.physOf u with
    | some p => decide ((s.movQ (p - 0x250) 0).length < 64)
    | none => false
  let us := s.unitSet 0x058 8 0x269 9
  if us.all s.unitGone then s.failItem i stVacant
  else match s.leastLoaded i (us.filter (fun u => s.unitOpen u && room u)) with
    | none => s
    | some u =>
      let m := ((s.physOf u).getD 0x250) - 0x250
      let x := SMap.getD s.vst.models e {}
      let lg := s.rd VST_MODEL_CHUNK_LOG2 e
      let ga (a : Nat) : Nat := s.hubNo * 2 ^ 48 + a
      let raw := chunkDesc (i.prm 24 8) (ga (s.modelHpa e (k * 2 ^ lg))) (s.chunkLen e k)
      let j : MovJob := { seq := s.movSeq, item := i.id, tenant := (s.keyTenant e).getD 0, cls := i.cls, deadline := s.due i
                          fetched := 1, chunk := true, dgot := [{ addr := 0, data := raw }]
                          cgot := [{ addr := 128, data := chunkChain lg e k x.ivBase (ga (s.digestHpa e k)) }] }
      let s1 : State := { s with movSeq := s.movSeq + 1 }
      (s1.setMovQ m 0 (s1.movQ m 0 ++ [j])).updOrder i.order (fun y => { y with st := 2, unit := u, k := k, aux := e })

/-- Chunks of the model that lie on the page of chunk `k`. -/
def State.pageChunks (s : State) (e k : Nat) : List Nat :=
  let n := 2 ^ 21 / 2 ^ s.rd VST_MODEL_CHUNK_LOG2 e
  ((List.range n).map (k / n * n + ·)).filter (fun c => decide (c < (SMap.getD s.vst.models e {}).chunks))

/-- Change what the Vestry keeps of a model. -/
def State.updModel (s : State) (e : Nat) (f : Model → Model) : State :=
  s.updVst (fun v => { v with models := SMap.put v.models e (f (SMap.getD v.models e {})) })

/-- Chunk `k` of a model under restore has been written; with its page's last chunk the restore ends (R567). -/
def State.chunkRestored (s : State) (e k : Nat) : State :=
  let s1 := s.updModel e (fun x => { x with page := insertNat x.page k })
  let cs := s.pageChunks e k
  if cs.all (fun c => (SMap.getD s1.vst.models e {}).page.contains c) then
    (let a := s.modelHpa e (k * 2 ^ s.rd VST_MODEL_CHUNK_LOG2 e)
     (s1.updModel e (fun x => { x with page := x.page.filter (fun c => !cs.contains c) })).endRestore (blockOf a) (pageInBlock a))
  else s1

/-- Chunk `k` of a FILLING model has been written: its bit is set, and once none is missing SEAL goes to every FILLING block (R564). -/
def State.chunkWritten (s : State) (e k : Nat) : State :=
  let a := s.bitHpa e k
  let b := s.byte a
  let s1 := if Nat.testBit b.toNat (k % 8) then s
    else (s.stwWrite a [b ||| BitVec.ofNat 8 (2 ^ (k % 8))]).updModel e (fun x => { x with left := x.left - 1 })
  if (SMap.getD s1.vst.models e {}).left = 0 then
    (s1.modelBlocks e).foldl (fun t n => if (t.gblock n).st = 1 then t.updBlock n (fun g => { g with st := 2 }) else t) s1
  else s1

/-- WEIGHT_CHUNK: `phase` is 0 before its descriptor runs, 2 once it has ended, 3 while the blocks of a full model become SEALED. -/
def execWeightChunk (q item : Nat) (s : State) : Res :=
  .next (s.runItem q item 0x29 (fun t i =>
    let k := i.prm 32 4
    match i.stop with
    | some st => t.failItem i st
    | none =>
      if i.phase = 2 then t.walkRead 0x1C0 (t.bitHpa i.aux i.k) 1 (fun t =>
        (let e := i.aux
         if t.rd VST_MODEL_STATE e = 3 then (t.chunkRestored e i.k).doneItem i 0
         else if t.rd VST_MODEL_STATE e ≠ 1 then t.failItem i stSealPolicy
         else
           let u := t.chunkWritten e i.k
           if (SMap.getD u.vst.models e {}).left = 0 then u.updOrder i.order (fun x => { x with phase := 3 }) else u.doneItem i 0))
      else if i.phase = 3 then
        (let e := i.aux
         if t.rd VST_MODEL_STATE e ≠ 1 && t.rd VST_MODEL_STATE e ≠ 2 then t.failItem i stSealPolicy
         else if (t.modelBlocks e).all (fun n => (t.gblock n).st = 3) then (t.wr VST_MODEL_STATE e 2).doneItem i 0
         else t)
      else if t.vstBusy then t
      else if t.weightsClosed then t.failItem i stLcDenied
      else match t.chunkModel i.tenant with
        | none => t.failItem i stSealPolicy
        | some e =>
          if (SMap.getD t.vst.models e {}).chunks ≤ k then t.failItem i stParamInvalid
          else if t.rd VST_MODEL_STATE e = 3 && !t.chunkOnPage e k then t.failItem i stSealPolicy
          else t.startChunk i e k))

/-! ### WEIGHT_RELEASE (R566, R575) -/

/-- WEIGHT_RELEASE: `phase` is 1 while its tenant, whose last model it released, is being unsealed. -/
def execWeightRelease (q item : Nat) (s : State) : Res :=
  .next (s.runItem q item 0x2A (fun t i =>
    let n := i.tenant
    if i.phase = 1 then (t.unseal n).doneItem i 0
    else if t.vstBusy then t
    else if t.lcState ≠ 2 then t.failItem i stLcDenied
    else match t.readManifest (i.prm 24 8) with
      | (.inl st, u) => u.failRead i st
      | (.inr (_, b), u) =>
        match u.present (sha384 b) with
        | none => u.failItem i stSealPolicy
        | some e =>
          if !u.mapped n e || (u.stw.gen.tenant = n && u.genRuns) then u.failItem i stSealPolicy
          else
            let u1 := u.mapModel n e false
            let u2 := if (u1.mappers e).isEmpty then u1.releaseModel e else u1
            if u2.rd VST_TENANT_MODELS n = 0 then (u2.wr VST_TENANT_UNSEALING n 1).updOrder i.order (fun x => { x with phase := 1 })
            else u2.doneItem i 0))

end Sys2Proof.Machine
end

