-- ==== Sys2Proof/Machine/Close.lean ====
section
/-!
DEFINITION. Machine/Close.lean: what CLOSE makes the agents of a domain do (02_commons.md R59, 07_loom_model.md R236, 09_mill.md R301,
10_data_movers.md R345, 14_sites.md R466), and the end of the work of a unit that can report nothing.
-/

namespace Sys2Proof.Machine

/-- A tile quiesces: its kernel stops, and launches and records not started are returned with DOMAIN_DOWN (07_loom_model.md R236). -/
def State.tileDrain (s : State) (t : Nat) : State :=
  let x := s.tile t
  let back := x.launches ++ x.claim.toList ++ x.park.toList
  let s1 := s.updTile t (fun y => { y with launches := [], claim := none, park := none })
  (back.foldl (fun u r => u.send (completionPkt (tileAgent t) r.item fateFailed stDomainDown false 0)) s1).stopKernel t stDomainDown 4

/-- A site quiesces: QUIESCE goes out, and STATE reads DRAINING (14_sites.md R465, R466). -/
def State.siteDrain_ (s : State) (n : Nat) : State :=
  (s.updSite n (fun x => { x with side := x.side ++ [0x01], quiesced := true })).wr SITE_STAT_STATE n 6

/-- CLOSE of an OPEN domain: it is DRAINING, and its agents finish or give up their work (R59). -/
def State.closeDom (s : State) (d : Nat) : State :=
  let s1 := ((s.setDom d domDraining).stilePackets d 0).sluDiscard d
  if d ≤ 0x43 then s1.tileDrain d
  else if d ≤ 0x65 then s1.moverDrain (d - 0x44)
  else if d ≤ 0x76 then s1.millSliceDown (d - 0x66)
  else if 0xB3 ≤ d && d ≤ 0xBA then s1.siteDrain_ (d - 0xB3)
  else s1

/-- COM_STILE_CMD with CLOSE (R59, R61): it has no effect on a domain that is not OPEN and ends at once. -/
def execStileClose (dom : Nat) (s : State) : Res :=
  .next (s.stileCmd dom 0 (fun t => if t.domState dom = domOpen then t.closeDom dom else t.stileEnd dom 0))

/-- Items that started on a mover. -/
def State.moverStarted (s : State) (m item : Nat) : Bool :=
  (List.range 8).any (fun q => (s.movQ m q).any (fun j => j.item = item && j.moved))

/-- A unit that is isolated or has no power reports nothing: what ran on it is treated as returned with DOMAIN_DOWN (19_faults_resets.md
R622), started where the unit had begun it. -/
def State.dropWork (s : State) (a : Nat) : State :=
  let u := s.unitOf a
  let began (i : Item) : Bool := match kindOf a with
    | .mover => s.moverStarted (a - 0x250) i.id
    | .mill => (match s.millItem (a - 0x280) i.id with | some m => m.started | none => false)
    | .tile => (match (s.tile (a - 0x200)).run with | some r => decide (r.item = i.id) | none => false)
    | _ => true
  (s.stw.items.filter (fun i => i.st = 2 && i.unit = u)).foldl (fun t i =>
    let b := began i
    (t.updOrder i.order (fun x => { x with started := b })).domainDown { i with started := b }) s

end Sys2Proof.Machine
end

