-- ==== Sys2Proof/Machine/Crier.lean ====
section
/-!
DEFINITION. Machine/Crier.lean: the firmware images in flash, the receivers at network interfaces and the rounds of the Crier
(18_bringup.md R603-R607, 20_management_power.md R642-R644).
-/

namespace Sys2Proof.Machine

/-! ### Flash -/

/-- A byte of flash, and a run of bytes. -/
def State.flashAt (s : State) (a : Nat) : Byte := SMap.getD s.rve.flash a (Config.flashByte a)
def State.flashBytes (s : State) (a n : Nat) : List Byte := (List.range n).map (fun k => s.flashAt (a + k))

/-- Program bytes of flash from `a` up. -/
def State.flashPut (s : State) (a : Nat) : List Byte → State
  | [] => s
  | b :: l => (s.updRve (fun r => { r with flash := SMap.put r.flash a b })).flashPut (a + 1) l

/-- The byte limit of an image by slot (R603, 20_management_power.md R643); 0 for a reserved slot. -/
def imgLimit (slot : Nat) : Nat := ([512, 128, 256, 128, 1016, 448].getD slot 0) * 1024

/-- Where slot `k` lies in bank `b` (20_management_power.md R642). -/
def bankBase (b k : Nat) : Nat := (if b = 0 then 0x0200000 else 0x0A00000) + k * 0x100000

/-- A copy of the image directory: SEQ and the active banks, when its CRC-32C over bytes 7:0 matches (R644; log entry 104). -/
def State.dirCopy (s : State) (k : Nat) : Option (Nat × Nat) :=
  let b := s.flashBytes (0x1000 * (k + 1)) 12
  if crc32c (b.take 8) = leNat (b.drop 8) then some (leNat (b.take 4), leNat ((b.drop 4).take 1)) else none

/-- The directory in force: its copy, SEQ and active banks; copy 0 with bank A for every slot where no copy is valid. -/
def State.imageDir (s : State) : Nat × Nat × Nat :=
  match s.dirCopy 0, s.dirCopy 1 with
  | some a, some b => if 0 < (b.1 + 2 ^ 32 - a.1) % 2 ^ 32 && (b.1 + 2 ^ 32 - a.1) % 2 ^ 32 < 2 ^ 31 then (1, b) else (0, a)
  | none, some b => (1, b)
  | some a, none => (0, a)
  | none, none => (0, 0, 0)

/-- The active bank of a slot. -/
def State.bankOf (s : State) (slot : Nat) : Nat := if Nat.testBit s.imageDir.2.2 slot then 1 else 0

/-- An image in flash. -/
structure FwImage where
  version : Nat
  digest : List Byte
  data : List Byte
  deriving DecidableEq, Repr

/-- The image of a slot in a bank, when its header is right, its length within the limit, its digest the header's, and its signature one of
Dunaom's (R603, 20_management_power.md R643). -/
def State.imageIn (s : State) (bank slot : Nat) : Option FwImage :=
  let a := bankBase bank slot
  let h := s.flashBytes a 128
  let n := pktField h 12 4
  if pktField h 0 4 = 0x5A494D47 && pktField h 4 1 = 1 && pktField h 5 1 = slot && pktField h 6 1 ≤ 1 && n ≤ imgLimit slot then
    let d := s.flashBytes (a + 8192) n
    let g := (h.drop 16).take 48
    if sha384 d = g && Config.dunaomSigned (pktField h 6 1) h (s.flashBytes (a + 128) 8064) then
      some { version := pktField h 8 4, digest := g, data := d }
    else none
  else none

/-- The image that a boot step or the Crier reads: the active bank's. -/
def State.image (s : State) (slot : Nat) : Option FwImage := s.imageIn (s.bankOf slot) slot

/-! ### Packets (R604) -/

/-- The code of a packet kind. -/
def crierClose : Nat := 0xFFFFFFFFFFFFFFFF
def crierQuery : Nat := 0xFFFFFFFFFFFFFFFE
def crierReport : Nat := 0xFFFFFFFFFFFFFFFD

/-- The 128 bytes of a CRIER payload. -/
def crierBytes (off slot gen : Nat) (d : List Byte) : List Byte :=
  let head := natLe 8 off ++ natLe 1 (slot % 16) ++ natLe 1 gen
  let data := (d ++ zeros 64).take 64
  head ++ zeros 2 ++ natLe 4 (crc32c (data ++ head)) ++ data ++ zeros 48

/-- A CRIER packet. -/
def crierPkt (dst src off slot gen : Nat) (d : List Byte) : Pkt :=
  { opc := 0x34, dst := dst, src := src, addr := off, data := crierBytes off slot gen d }

/-- Whether a payload's DIGEST matches. -/
def crierGood (b : List Byte) : Bool := crc32c ((b.drop 16).take 64 ++ b.take 10) = pktField b 12 4

/-! ### Receivers (R603, R605) -/

/-- The slot of the image that a physical unit takes. -/
def slotOfUnit (a : Nat) : Option Nat :=
  if 0x191 ≤ a && a ≤ 0x194 then some 0
  else if 0x250 ≤ a && a ≤ 0x268 then some 1
  else if 0x269 ≤ a && a ≤ 0x271 then some 2
  else if 0x280 ≤ a && a ≤ 0x290 then some 3
  else none

/-- The receivers of a slot: every good physical unit of the kind, spares included. -/
def State.receivers (s : State) (slot : Nat) : List Nat :=
  match slot with
  | 0 => [0x191, 0x192, 0x193, 0x194]
  | 1 => s.goodUnits 0x250 25
  | 2 => s.goodUnits 0x269 9
  | 3 => s.goodUnits 0x280 17
  | _ => []

/-- A receiver. -/
def State.rxOf (s : State) (a : Nat) : CrierRx := SMap.getD s.rve.rx a {}
def State.updRx (s : State) (a : Nat) (f : CrierRx → CrierRx) : State :=
  s.updRve (fun r => { r with rx := SMap.upd {} r.rx a f })

/-- Whether a unit holds a verified image, or takes none. -/
def State.imageHeld (s : State) (a : Nat) : Bool := (slotOfUnit a).isNone || (s.rxOf a).st = 1

/-- The number of blocks of an image. -/
def blocksOf (n : Nat) : Nat := (n + 63) / 64

/-- The blocks that a receiver expects: of the length that CLOSE gave, of its slot's limit before CLOSE. -/
def CrierRx.expects (x : CrierRx) (slot : Nat) : Nat :=
  match x.close with
  | some (_, n) => blocksOf n
  | none => blocksOf (imgLimit slot)

/-- The DATA of a REPORT for segment j. -/
def CrierRx.report (x : CrierRx) (slot j : Nat) : List Byte :=
  let missing := ((List.range (x.expects slot)).filter (fun k => (SMap.get? x.blocks k).isNone)).length
  let bits := (List.range 256).foldl (fun n k => if (SMap.get? x.blocks (256 * j + k)).isSome then n + 2 ^ k else n) 0
  natLe 4 (if x.st = 1 then 0 else missing) ++ natLe 1 x.st ++ natLe 1 j ++ zeros 26 ++ natLe 32 bits

/-- A CRIER packet at an interface (R605). -/
def State.crierAt (s : State) (a : Nat) (b : List Byte) : State :=
  match slotOfUnit a with
  | none => s
  | some slot =>
    if s.roll.bad.contains a || !crierGood b || pktField b 8 1 % 16 ≠ slot then s
    else
      let gen := pktField b 9 1
      let off := pktField b 0 8
      let d := (b.drop 16).take 64
      let s1 := if (s.rxOf a).gen = some gen then s else s.updRx a (fun _ => { gen := some gen })
      if off = crierClose then s1.updRx a (fun x => { x with close := some (d.take 48, pktField d 48 4) })
      else if off = crierQuery then
        let j := pktField d 0 1 % 32
        s1.send (crierPkt 0x1C1 a crierReport slot gen ((s1.rxOf a).report slot j))
      else if off % 64 = 0 && off < imgLimit slot then s1.updRx a (fun x => { x with blocks := SMap.put x.blocks (off / 64) d })
      else s1

/-- The first broadcast packet on its way that an interface has yet to receive: each receives every one once, in order (02_commons.md R40, R49). -/
def State.nextCast (s : State) (a : Nat) : Option (Pkt × List Nat) := s.com.casts.find? (fun c => c.2.contains a)

/-- A broadcast packet has reached an interface. -/
def State.castTaken (s : State) (c : Pkt × List Nat) (a : Nat) : State :=
  let casts := s.com.casts.map (fun e => if e = c then (e.1, e.2.filter (· ≠ a)) else e)
  { s with com := { s.com with casts := casts.filter (fun e => !e.2.isEmpty) } }

/-- Put a packet on the Commons as a broadcast to every interface (02_commons.md R40). -/
def State.broadcast (s : State) (p : Pkt) : State := { s with com := { s.com with casts := s.com.casts ++ [(p, physAgents)] } }

/-- CRIER: a packet of the Reeve reaches an interface, in every state (02_commons.md R65): a copy of a broadcast, or a packet addressed to it. What a
router has poisoned is discarded (02_commons.md R44). -/
def execCrier (agent : Nat) (p0 : Pkt) (s : State) : Res :=
  let p := { p0 with opc := 0x34 }
  let read (t : State) : State := if p.poison then t else t.crierAt agent p.data
  .next (match s.nextCast agent with
  | some c => if c.1 = p then read (s.castTaken c agent)
              else if goalOf p = agent && p.src = 0x1C1 then s.delivering p read s else s
  | none => if goalOf p = agent && p.src = 0x1C1 then s.delivering p read s else s)

/-- The image store of a receiver as CLOSE bounds it, once every block is there. -/
def CrierRx.store (x : CrierRx) : Option (List Byte × List Byte) :=
  match x.close with
  | some (g, n) =>
    let ks := List.range (blocksOf n)
    if ks.all (fun k => (SMap.get? x.blocks k).isSome) then
      some (g, (ks.flatMap (fun k => SMap.getD x.blocks k [])).take n)
    else none
  | none => none

/-- The loader of a unit has computed its digest: on a match the core starts, otherwise the bitmap is cleared (R605). -/
def execImageDigestDone (agent : Nat) (s : State) : Res :=
  .next (let x := s.rxOf agent
  match x.store with
  | some (g, d) =>
    if x.st = 1 then s
    else if sha384 d = g then
      let s1 := s.updRx agent (fun y => { y with st := 1 })
      if slotOfUnit agent = some 0 then s1.wr STW_STAT_FW_UP 0 (s1.rd STW_STAT_FW_UP ||| 2 ^ (agent - 0x191)) else s1
    else s.updRx agent (fun y => { y with st := 2, blocks := [], close := none })
  | none => s)

/-! ### The Reeve's rounds (R606, R607) -/

/-- The packets to `dst` that carry the blocks in `ks` and CLOSE. -/
def Crier.packets (c : Crier) (gen dst : Nat) (ks : List Nat) : List Pkt :=
  ks.map (fun k => crierPkt dst 0x1C1 (64 * k) c.slot gen ((c.image.drop (64 * k)).take 64)) ++
  [crierPkt dst 0x1C1 crierClose c.slot gen (c.digest ++ natLe 4 c.image.length ++ natLe 4 c.version)]

/-- What the Reeve sends by unicast to a receiver: the blocks in `ks` and CLOSE. -/
def State.unicast (s : State) (c : Crier) (a : Nat) (ks : List Nat) : State :=
  (c.packets (s.rve.crierGen % 256) a ks).foldl State.send s

/-- The number of bitmap segments of an image. -/
def Crier.segs (c : Crier) : Nat := max 1 ((blocksOf c.image.length + 255) / 256)

/-- Query a receiver for every segment. -/
def State.query (s : State) (c : Crier) (a : Nat) : State :=
  (List.range c.segs).foldl (fun t j => t.send (crierPkt a 0x1C1 crierQuery c.slot (s.rve.crierGen % 256) (natLe 1 j))) s

/-- Start the Crier on an image: GEN rises, round 0 is broadcast, or sent to the one receiver of a live update or a swap, and every receiver is queried.
The order between a broadcast and a later unicast is left open (log entry 141). -/
def State.crierStart (s : State) (mode slot : Nat) (i : FwImage) (targets : List Nat) : State :=
  let c : Crier := { mode := mode, slot := slot, image := i.data, digest := i.digest, version := i.version, targets := targets }
  let s1 := s.updRve (fun r => { r with crierGen := r.crierGen + 1, crier := some c })
  let all := List.range (blocksOf i.data.length)
  let s2 := if 2 ≤ mode then targets.foldl (fun t a => t.unicast c a all) s1
    else (c.packets (s1.rve.crierGen % 256) 0x3FF all).foldl State.broadcast s1
  targets.foldl (fun t a => t.query c a) s2

/-- What has been reported of a receiver. -/
def Crier.repOf (c : Crier) (a : Nat) : CrierRep := SMap.getD c.reps a {}

/-- Whether the reports of a receiver are complete for this round. -/
def Crier.reported (c : Crier) (a : Nat) : Bool :=
  (c.repOf a).st = 1 || (List.range c.segs).all (fun j => (c.repOf a).segs.contains j)

/-- The receivers that are not verified. -/
def Crier.unverified (c : Crier) : List Nat := c.targets.filter (fun a => (c.repOf a).st ≠ 1)

/-- A repair round: every receiver that is not verified gets the blocks that it lacks, the whole image after a failed digest, and a query. -/
def State.crierRepair (s : State) (c : Crier) : State :=
  let u := c.unverified
  let c1 : Crier := { c with rounds := c.rounds + 1, reps := c.reps.filter (fun e => !u.contains e.1) }
  let s1 := s.updRve (fun r => { r with crier := some c1 })
  u.foldl (fun t a =>
    let ks := if (c.repOf a).st = 2 then List.range (blocksOf c.image.length) else (c.repOf a).missing
    (t.unicast c a ks).query c a) s1

/-- Enter a REPORT for the image at work. -/
def Crier.enter (c : Crier) (a : Nat) (b : List Byte) : Crier :=
  let d := (b.drop 16).take 64
  let j := pktField d 5 1 % 32
  let bits := pktField d 32 32
  let gone := ((List.range 256).filter (fun k => !Nat.testBit bits k)).map (256 * j + ·)
  { c with reps := SMap.upd {} c.reps a (fun x => { x with
      st := pktField d 4 1
      segs := insertNat x.segs j
      missing := x.missing.filter (fun k => k / 256 ≠ j) ++ gone.filter (fun k => k < blocksOf c.image.length) }) }

/-- A REPORT reaches the Reeve: it counts for a receiver of the image at work, of the current GEN. -/
def State.takeReport (s : State) (p : Pkt) : State :=
  match s.rve.crier with
  | some c =>
    if c.targets.contains p.src && crierGood p.data && pktField p.data 0 8 = crierReport && pktField p.data 8 1 = c.slot &&
        pktField p.data 9 1 = s.rve.crierGen % 256 then
      s.updRve (fun r => { r with crier := some (c.enter p.src p.data) })
    else s
  | none => s

end Sys2Proof.Machine
end

