-- ==== Sys2Proof/Machine/Swap.lean ====
section
/-!
DEFINITION. Machine/Swap.lean: the Roll, and spared units that fail in service (18_bringup.md R594-R597, 19_faults_resets.md R619-R623).
-/

namespace Sys2Proof.Machine

/-! ### The Roll -/

/-- The kinds of spared units: 0 tile, 1 plain mover, 2 chain mover, 3 Mill slice, 4 Cellar bank, as `sparedKinds` lists them. -/
def kindNo (p : Nat) : Option Nat := (List.range 5).find? (fun k =>
  match sparedKinds[k]? with
  | some (_, _, f, n) => decide (f ≤ p ∧ p < f + n)
  | none => false)

/-- The physical units of a kind in ascending order. -/
def kindUnits (k : Nat) : List Nat :=
  match sparedKinds[k]? with
  | some (_, _, f, n) => (List.range n).map (f + ·)
  | none => []

/-- Whether a physical unit carries a logical ID now. -/
def State.carries (s : State) (p : Nat) : Bool := s.roll.map.any (fun e => e.2 = p)

/-- The good spares of a kind (R594). -/
def State.spares (s : State) (k : Nat) : List Nat := (kindUnits k).filter (fun p => !s.roll.bad.contains p && !s.carries p)

/-- ROLL_STAT shows the spares left and the VACANT units; floor-plan mode has neither. -/
def State.rollCounts (s : State) : State :=
  let n (k : Nat) : Nat := if s.roll.floorplan then 0 else (s.spares k).length
  let vac := (s.roll.map.filter (fun e => e.2 = noAgent)).length
  (((((s.wr ROLL_STAT_VACANT 0 vac).wr ROLL_STAT_TILE_SPARES 0 (n 0)).wr ROLL_STAT_PLAIN_SPARE 0 (n 1)).wr ROLL_STAT_CHAIN_SPARE 0 (n 2)).wr
    ROLL_STAT_SLICE_SPARE 0 (n 3)).wr ROLL_STAT_BANK_SPARES 0 (n 4)

/-- ROLL_PHYS of a unit while the Roll stands: a logical ID carried, a spare, or good in floor-plan mode; a failed unit's stays. -/
def State.physMark (s : State) (p : Nat) : State :=
  let a := p - 0x200
  if s.roll.bad.contains p then
    (if s.carries p then s else s.wr ROLL_PHYS_LOGICAL a noAgent)
  else if s.roll.floorplan then (s.wr ROLL_PHYS_STATE a 4).wr ROLL_PHYS_LOGICAL a noAgent
  else match s.roll.map.find? (fun e => e.2 = p) with
    | some e => (s.wr ROLL_PHYS_STATE a 1).wr ROLL_PHYS_LOGICAL a e.1
    | none => (s.wr ROLL_PHYS_STATE a 2).wr ROLL_PHYS_LOGICAL a noAgent

/-- Mark a physical unit failed, with its cause and detail (ROLL_PHYS). -/
def State.markFailed (s : State) (p cause detail : Nat) : State :=
  let a := p - 0x200
  let s1 : State := { s with roll := { s.roll with bad := insertNat s.roll.bad p } }
  ((s1.wr ROLL_PHYS_STATE a 3).wr ROLL_PHYS_CAUSE a cause).wr ROLL_PHYS_DETAIL a detail

/-- The network interfaces of the hub by physical agent ID: 339. -/
def allIfaces : List Nat := physAgents

/-- A ROLL_UPD packet (R595): `data` holds bytes 15:8 of its payload. -/
def rollPkt (a logical phys gen : Nat) : Pkt :=
  { opc := 0x33, dst := a, src := 0x1C1,
    data := natLe 2 logical ++ natLe 2 phys ++ natLe 1 (if phys = noAgent then 1 else 0) ++ natLe 1 0 ++ natLe 2 gen }

/-- GEN of the next update. -/
def State.nextGen (s : State) : Nat := (s.rd ROLL_STAT_GEN + 1) % 65536

/-- Change the swap at work. -/
def State.updSwap (s : State) (f : Swap → Swap) : State :=
  s.updRve (fun r => { r with swaps := match r.swaps with | w :: l => f w :: l | [] => [] })

/-- A ROLL_UPD that the Reeve sent reaches an interface, in every state; it answers STILE_ACK (R595, 02_commons.md R65). -/
def execRollUpd (agent logical phys gen : Nat) (s : State) : Res :=
  let p := rollPkt agent logical phys gen
  .next (s.delivering p (fun t => (t.updSwap (fun w => { w with took := insertNat w.took agent })).send
    { opc := 0x31, dst := 0x1C1, src := agent, data := natLe 8 (s.agentState agent), note := 6 }) s)

/-! ### Swaps -/

/-- Whether a unit's domain is FENCED, OFF or ISOLATED. -/
def State.unitDown (s : State) (p : Nat) : Bool :=
  match agentDom p with
  | some d => s.domIso d || s.domSt d = domFenced || s.domSt d = domOff
  | none => true

/-- Send the Roll update of the swap at work (R595, R620): the spare's own interface gets its packet last (02_commons.md R65). -/
def State.sendRoll (s : State) (w : Swap) (phys : Nat) : State :=
  let dest := allIfaces.filter (· ≠ phys)
  (dest.foldl (fun t a => t.send (rollPkt a w.logical phys s.nextGen)) s).updSwap (fun x => { x with
    sent := true, took := [], acked := [], spare := if phys = noAgent then none else some phys })

/-- Go on with the first swap (R620, R621, R623): once the old unit is down, the lowest-numbered good spare of the kind takes over; its
domain is opened first where it is not OPEN, and its image verified (02_commons.md R65). -/
def State.swapTurn (s : State) : State :=
  match s.rve.swaps with
  | [] => s
  | w :: _ =>
    if w.sent || s.reeveAway || !s.unitDown w.unit then s
    else match ((kindNo w.unit).map s.spares).getD [] with
      | [] => s.sendRoll w noAgent
      | p :: _ =>
        let d := (agentDom p).getD 0
        if s.domSt d ≠ domOpen then s.openDom d
        else if s.imageHeld p then s.sendRoll w p
        else if s.rve.crier.isSome then s
        else match (slotOfUnit p).bind (fun k => (s.image k).map (fun i => (k, i))) with
          | some (k, i) => s.crierStart 3 k i [p]
          | none => s

/-- A STILE_ACK to a Roll update reaches the Reeve. -/
def State.rollAck (s : State) (p : Pkt) : State :=
  let s1 := (s.land p).updSwap (fun w => if w.sent then { w with acked := insertNat w.acked p.src } else w)
  match s1.rve.swaps with
  | w :: _ =>
    match w.spare with
    | some q =>
      if (allIfaces.filter (· ≠ q)).all w.acked.contains && p.src ≠ q && w.sent then s1.send (rollPkt q w.logical q s1.nextGen) else s1
    | none => s1
  | [] => s1

/-- The Reeve writes CLOSE for a domain: through COM_STILE_CMD where no command runs there (log entry 109). -/
def State.reeveClose (s : State) (d : Nat) : State :=
  if s.domState d ≠ domOpen then s
  else if s.flag COM_STILE_CMD_GO then s.closeDom d
  else (((s.wr COM_STILE_CMD_DOMAIN 0 d).wr COM_STILE_CMD_OP 0 0).wr COM_STILE_CMD_GO 0 1).closeDom d

/-- The swap that a failed spare was to serve takes the next spare (R623): packets of the update on their way are dropped. -/
def State.skipSpare (s : State) (p : Nat) : State :=
  match s.rve.swaps with
  | w :: _ =>
    if w.sent && w.spare = some p then
      let out := s.com.out.filter (fun q => q.opc ≠ 0x33 && q.note ≠ 6)
      let mesh := s.com.mesh.filter (fun h => h.p.opc ≠ 0x33 && h.p.note ≠ 6)
      let com : Commons := { s.com with out := out, mesh := mesh }
      ({ s with com := com } : State).updSwap (fun x => { x with sent := false, spare := none, took := [], acked := [] })
    else s
  | [] => s

/-- The Crier gives up a failed receiver. -/
def State.dropTarget (s : State) (p : Nat) : State :=
  match s.rve.crier with
  | some c => s.updRve (fun r => { r with crier := some { c with targets := c.targets.filter (· ≠ p) } })
  | none => s

/-- A spared unit fails in service (R619-R623): it is marked, UNIT_FAILED is raised, its logical unit is held, its domain is closed unless
it is isolated, and its swap waits for its turn. -/
def State.unitFail (s : State) (p cause : Nat) : State :=
  if !isPhysId p || (kindNo p).isNone || s.roll.bad.contains p then s
  else
    let d := (agentDom p).getD 0
    let s1 := (((s.raise 0x0050 3 p p cause).markFailed p cause 0).skipSpare p).dropTarget p
    let s2 : State := match s.roll.map.find? (fun e => e.2 = p) with
      | some e => { s1 with stw := { s1.stw with heldUnits := insertNat s1.stw.heldUnits e.1 }
                            rve := { s1.rve with swaps := s1.rve.swaps ++ [{ unit := p, logical := e.1, cause := cause }] } }
      | none => s1
    let s3 := if s2.domIso d then s2.dropWork p
      else if s2.domSt d = domOpening then (s2.powerOff d).setDom d domOff
      else s2.reeveClose d
    ((if s.roll.built then s3.rollCounts else s3).swapTurn).stwTurn

/-- UNIT_DRAIN_TIMEOUT: 500 ms after the CLOSE of a failed unit, its drain ends with FORCE_OFF (R620). -/
def execUnitDrainTimeout (agent : Nat) (s : State) : Res :=
  .next (match agentDom agent with
  | some d => if s.roll.bad.contains agent && s.domSt d = domDraining && !s.domIso d then s.forceOff d else s
  | none => s)

/-- The lines of a spare bank are poisoned until they are written in full (R622). -/
def State.poisonBank (s : State) (b : Nat) : State :=
  let lo := cellarCell b / 128
  { s with poison := s.poison.filter (· < lo) ++ (List.range 65536).map (lo + ·) ++ s.poison.filter (lo + 65536 ≤ ·) }

/-- Every interface has answered, so the Roll update is in force: GEN rises, the spare carries the logical ID, or the unit is
VACANT, and the Steward goes on with what it held (R620-R622). -/
def State.unitSwapped (s : State) : State :=
  match s.rve.swaps with
  | w :: l =>
    if !(w.sent && allIfaces.all w.acked.contains) then s
    else
      let g := s.nextGen
      let dest := w.spare.getD noAgent
      let s1 : State := { s with
        roll := { s.roll with map := SMap.put s.roll.map w.logical dest }
        stw := { s.stw with heldUnits := eraseNat s.stw.heldUnits w.logical }
        rve := { s.rve with swaps := l } }
      let s2 := (s1.wr ROLL_STAT_GEN 0 g).physMark w.unit
      let s3 := match w.spare with
        | some p =>
          let t := s2.physMark p
          let t1 := if kindNo p = some 0 then
              ({ t.resetReg LOOM_STAT (p - 0x200) with tiles := SMap.del t.tiles (p - 0x200) } : State)
            else if kindNo p = some 4 then t.poisonBank (p - 0x2A0)
            else t
          t1.raise 0x0051 0 p p g
        | none => s2.raise 0x0052 3 w.logical
      (s3.rollCounts.swapTurn).stwTurn
  | [] => s

end Sys2Proof.Machine
end

