-- ==== Sys2Proof/Machine/Firmware.lean ====
section
/-!
DEFINITION. Machine/Firmware.lean: how the Crier's work ends, live firmware update, domain resets and the wake from doze
(18_bringup.md R606, 19_faults_resets.md R624, R625, R630, R634-R636).
-/

namespace Sys2Proof.Machine

/-- A service command ends with a STATUS (RVE_SVC_CMD). -/
def State.svcEnd (s : State) (status : Nat) : State := (s.wr RVE_SVC_CMD_GO 0 0).wr RVE_SVC_CMD_STATUS 0 status

/-- A service command is refused. -/
def State.svcRefuse (s : State) (status : Nat) : State := (s.svcEnd status).wr RVE_SVC_CMD_REJECTED 0 1

/-! ### The Crier in boot step 10 and on wake -/

/-- A receiver is declared failed (R606): a firmware core stays off; a mover or Mill slice is marked failed, its domain goes OFF, and its
logical ID moves to a spare. Boot step 10 counts it. -/
def State.receiverFailed (s : State) (boot : Bool) (slot a : Nat) : State :=
  let s1 := (if boot then s.inc BOOT_STAT_UNIT_FAILS 0 1 else s).inc BOOT_IMG_FAILED slot 1
  if (kindNo a).isNone then s1
  else
    let d := (agentDom a).getD 0
    let s2 := ((s1.markFailed a 3 0).dropWork a).powerOff d |>.setDom d domOff
    match s2.roll.map.find? (fun e => e.2 = a) with
    | some e => { s2 with stw := { s2.stw with heldUnits := insertNat s2.stw.heldUnits e.1 }
                          rve := { s2.rve with swaps := s2.rve.swaps ++ [{ boot := true, unit := a, logical := e.1, cause := 3 }] } }
    | none => s2.rollCounts

/-- Go on with slot `k` of boot step 10 (`mode` 0) or of the wake (1), or end them (R603, R606). On wake, an image that flash does not hold
leaves its receivers unverified, and they are declared failed. -/
def State.crierSlots (mode : Nat) : Nat → Nat → State → State
  | 0, _, s => if mode = 0 then s.bootEnd 10 true else s.updRve (fun r => { r with dozeStep := 5 })
  | n + 1, k, s =>
    if mode = 0 && s.rd BOOT_IMG_STATE k = 3 then State.crierSlots mode n (k + 1) s
    else match s.image k with
      | none =>
        if mode = 0 then s.bootFail 10 0x0B noAgent k
        else State.crierSlots mode n (k + 1) ((s.receivers k).foldl (fun t a => t.receiverFailed false k a) s)
      | some i =>
        let s1 := ((((s.wr BOOT_IMG_STATE k 2).wr BOOT_IMG_ROUNDS k 0).wr BOOT_IMG_FAILED k 0).wr BOOT_IMG_SIZE_KB k
          ((i.data.length + 1023) / 1024)).wr BOOT_IMG_VERSION k i.version
        let s2 := s1.updRve (fun r => { r with images := r.images ++ [i.digest] })
        if (s2.receivers k).isEmpty then State.crierSlots mode n (k + 1) (s2.wr BOOT_IMG_STATE k 3)
        else s2.crierStart mode k i (s2.receivers k)

/-- The rounds of an image in boot step 10 or on wake have ended: what is not verified is declared failed, and the next image follows; the
step fails when no firmware core is left. -/
def State.slotEnd (s : State) (c : Crier) : State :=
  let s1 := (c.unverified.foldl (fun t a => t.receiverFailed (decide (c.mode = 0)) c.slot a) (s.updRve (fun r => { r with crier := none }))).wr
    BOOT_IMG_STATE c.slot 3
  let s2 := s1.swapTurn.stwTurn
  if c.mode = 0 && c.slot = 0 && s2.rd STW_STAT_FW_UP = 0 then s2.bootFail 10 0x0C noAgent 0
  else State.crierSlots c.mode (3 - c.slot) (c.slot + 1) s2

/-! ### Live firmware update (R624, R625) -/

/-- The receivers of a slot in the order of R625: by ascending logical number, then the spares. -/
def State.updateOrder (s : State) (slot : Nat) : List Nat :=
  let rs := s.receivers slot
  if slot = 0 then rs
  else (s.roll.map.map (·.2)).filter rs.contains ++ rs.filter (fun a => !s.carries a)

/-- The update takes its next receiver, or ends: FW_UPDATE is raised and measurement 5 takes the new digest. -/
def State.fwNext (s : State) (failed : Nat) : State :=
  match s.rve.fw with
  | none => s
  | some f =>
    let f1 : FwUpdate := { f with failed := f.failed + failed, closing := false }
    match f.left with
    | a :: l => s.updRve (fun r => { r with fw := some { f1 with left := l, cur := some a } })
    | [] =>
      let s1 := ((s.updRve (fun r => { r with fw := none })).svcEnd 0).raise 0x0058 0 0x1C1 f.slot f1.failed
      match s1.image f.slot with
      | some i =>
        let s2 := s1.updRve (fun r => { r with images := if f.slot ≤ 3 then r.images ++ [i.digest] else r.images })
        if f.slot ≤ 3 then (s2.wr BOOT_IMG_VERSION f.slot i.version).wr BOOT_IMG_SIZE_KB f.slot ((i.data.length + 1023) / 1024)
        else s2.updRve (fun r => { r with version := i.version })
      | none => s1

/-- Whether a unit holds no accepted item. -/
def State.unitIdle (s : State) (a : Nat) : Bool :=
  match kindOf a with
  | .mover => (List.range 8).all (fun q => (s.movQ (a - 0x250) q).isEmpty)
  | .mill => s.mill.items.all (fun i => i.lead ≠ a - 0x280)
  | _ => true

/-- The firmware items that run. -/
def State.runningFirmware (s : State) : Nat := (s.stw.items.filter (fun x => x.st = 1 && stwFirmware.contains x.opc)).length

/-- The Crier sends the new image to the receiver under update. -/
def State.fwLoad (s : State) (f : FwUpdate) (a : Nat) : State :=
  match s.image f.slot with
  | some i => s.crierStart 2 f.slot i [a]
  | none => s

/-- Close the receiver under update: a core is halted, another unit's domain closed (R625). -/
def State.fwClose (s : State) (f : FwUpdate) (a : Nat) : State :=
  let s1 := s.updRve (fun r => { r with fw := some { f with closing := true } })
  if f.slot = 0 then
    (let up := s1.rd STW_STAT_FW_UP
     (s1.wr STW_STAT_FW_UP 0 (if Nat.testBit up (a - 0x191) then up - 2 ^ (a - 0x191) else up)).fwLoad f a)
  else s1.reeveClose ((agentDom a).getD 0)

/-- Go on with the live update. -/
def State.fwTurn (s : State) : State :=
  match s.rve.fw with
  | none => s
  | some f =>
    match f.cur with
    | none => s
    | some a =>
      let d := (agentDom a).getD 0
      if s.rve.crier.isSome || f.slot = 4 then s
      else if f.slot = 0 then (if !f.closing && s.runningFirmware ≤ s.cores then s.fwClose f a else s)
      else if s.roll.bad.contains a then s.fwNext 1
      else if !f.closing then (if s.unitIdle a then s.fwClose f a else s)
      else if s.domSt d = domOff then s.openDom d
      else if s.domSt d = domOpening && (s.rxOf a).st ≠ 1 then s.fwLoad f a
      else s

/-! ### Domain reset (R630, R631) -/

/-- Whether a Stile command or a Roll update uses a domain. -/
def State.domBusy (s : State) (d : Nat) : Bool :=
  (s.flag COM_STILE_CMD_GO && s.rd COM_STILE_CMD_DOMAIN = d) ||
  s.rve.swaps.any (fun w => agentDom w.unit = some d || w.spare.bind agentDom = some d)

/-- The restart of a stack's controller and homes: its domain class returns to default, and adaptation runs from the set in use. -/
def State.restartStack (s : State) (d : Nat) : State :=
  let m := d - 0xAB
  let u := s.setInUse m
  let s1 := s.resetDomainRegs d
  let s2 := (((((s1.wr HBM_TRAIN_T_MIN m u.tMin).wr HBM_TRAIN_T_MAX m u.tMax).wr HBM_TRAIN_VQ_MIN m u.vqMin).wr HBM_TRAIN_VQ_MAX m u.vqMax).wr
    HBM_TRAIN_LD_MIN m u.ldMin).wr HBM_TRAIN_LD_MAX m u.ldMax
  let s3 := (s2.wr HBM_TRAIN_SOURCE m (s.rd HBM_TRAIN_SOURCE m)).wr HBM_STAT_STATE m 3
  (List.range 4).foldl (fun t q => t.updHome (4 * m + q) (fun _ => {})) s3

/-- The stack domains that exist. -/
def State.stackDoms (s : State) : List Nat := ((List.range 8).map (0xAB + ·)).filter s.domExists

/-- Between FORCE_OFF and OPEN the Reeve writes RELEASE for each agent of the domain that is isolated, for an isolated domain opens no
other way (02_commons.md R61, R67; log entry 95). -/
def State.releaseDom (s : State) (d : Nat) : State :=
  (domAgents d).foldl (fun t a => if (t.iface a).isolated then t.isoRelease a else t) s

/-- Go on with the domain reset: it waits for its domain, closes it, and opens it again; for a stack every stack domain closes. -/
def State.domTurn (s : State) : State :=
  match s.rve.domReset with
  | none => s
  | some (d, force) =>
    let dest (t : State) (k : Nat) : State := t.updRve (fun r => { r with domPhase := k })
    let gone (t : State) : State := t.updRve (fun r => { r with domReset := none, domPhase := 0 })
    if s.rve.domPhase = 0 then
      if s.domBusy d then s
      else
        let s1 := dest s 1
        let s2 := if stackDom d then (s1.stackDoms.filter (· ≠ d)).foldl (fun t e => if t.domState e = domOpen then t.closeDom e else t) s1 else s1
        if force && s2.domSt d ≠ domOff then s2.forceOff d
        else if s2.domState d = domOpen then s2.closeDom d
        else if s2.domSt d = domOff then ((s2.resetRegs (fun x c => c = .domain && regDomain x = some d)).domRet d).grpRet (domGroup d)
        else s2
    else if s.rve.domPhase = 1 then
      let down (e : Nat) : Bool := s.domSt e = domFenced || s.domSt e = domOff
      if stackDom d then
        (if s.stackDoms.all down && !(force && s.domSt d ≠ domOff) then
          (let s1 := if force then s.releaseDom d else s
           dest (((s1.restartStack d).setDom d domOff).openDom d) 2)
        else s)
      else if s.domSt d = domOff then
        (let s1 := if force then s.releaseDom d else s
         dest (s1.openDom d) 2)
      else s
    else if s.domSt d = domOpening then s
    else (gone (if stackDom d then s.stackDoms.foldl (fun t e => if t.domSt e = domFenced then t.openDom e else t) s else s)).svcEnd 0

/-! ### Doze and wake (R634-R636) -/

/-- The domains that doze closed are open again or have failed to start: the Crier reloads the images (R636). -/
def State.wakeTurn (s : State) : State :=
  if s.rve.dozeStep = 3 && s.rve.crier.isNone && s.rve.dozed.all (fun d => s.domSt d ≠ domOpening) then State.crierSlots 1 4 0 s else s

/-! ### The Crier's reports -/

/-- Act on the reports of the image at work once they are complete: a repair round, or the end (R606, R625). -/
def State.crierTurn (s : State) : State :=
  match s.rve.crier with
  | none => s
  | some c =>
    if !c.targets.all c.reported then s
    else if !c.unverified.isEmpty && c.rounds < 3 then
      (let s1 := s.crierRepair c
       if c.mode ≤ 1 then s1.wr BOOT_IMG_ROUNDS c.slot (c.rounds + 1) else s1)
    else if c.mode ≤ 1 then s.slotEnd c
    else
      let s1 := s.updRve (fun r => { r with crier := none })
      let s2 := c.unverified.foldl (fun t a => t.unitFail a 3) s1
      if c.mode = 2 && !c.unverified.isEmpty then s2.fwNext 1 else s2

/-- Let the Reeve go on with what waits: the Crier, swaps, the live update, the domain reset, the wake. -/
def State.reeveTurn (s : State) : State := if s.reeveAway then s else s.crierTurn.swapTurn.fwTurn.domTurn.wakeTurn

/-- CRIER_REPORT: a REPORT reaches the Reeve. -/
def execCrierReport (p : Pkt) (s : State) : Res :=
  let q := { p with opc := 0x34 }
  .next (s.delivering q (fun t => if q.poison then t else (t.takeReport q).reeveTurn) s)

/-- UNIT_FAILURE: a unit reports an uncorrectable error in its own control state, or is found isolated (R619). A unit that a domain reset
isolates with FORCE_OFF has not failed. -/
def execUnitFailure (agent : Nat) (s : State) : Res :=
  .next (if s.rve.domReset.isSome && s.rve.domReset.map (·.1) = agentDom agent then s
  else (s.unitFail agent (if (s.iface agent).isolated then 5 else 4)).reeveTurn)

/-- UNIT_SWAPPED (R620-R622); what waited for the Roll update goes on (R631). -/
def execUnitSwapped (s : State) : Res := .next (s.unitSwapped.reeveTurn)

/-- FW_UPDATE_WAIT_TIMEOUT: 100 ms after a receiver stopped taking items it is closed all the same (R625). -/
def execFwUpdateWaitTimeout (s : State) : Res :=
  .next (match s.rve.fw with
  | some f =>
    match f.cur with
    | some a => if f.closing || f.slot = 0 || f.slot = 4 then s.reeveTurn else (s.fwClose f a).reeveTurn
    | none => s
  | none => s)

/-! ### Commands of the Steward after which the live update may go on -/

/-- COMPLETION_EVENT: a unit reports the end of an item (11_steward_commands.md R380). -/
def execCompletionEvent (p : Pkt) (s : State) : Res :=
  .next (s.delivering p (fun t => (t.completionEvent p).fwTurn) ((s.completionEvent p).fwTurn))

/-- ITEM_DISPATCH (12_steward_resources.md R405). -/
def execItemDispatch (s : State) : Res := .next (s.fwTurn.itemDispatch)

end Sys2Proof.Machine
end

