-- ==== Sys2Proof/Machine/HostEnd.lean ====
section
/-!
DEFINITION. Machine/HostEnd.lean: the host endpoint: mastering, completions, MSI-X, LTR, the fate log, function-level reset,
configuration space and CXL.mem (16_host_endpoint.md, 04_coherence.md R128-R130).
-/

namespace Sys2Proof.Machine

/-- Count an unsupported or refused access (HEP_UNSUP): region 0 BAR0, 1 BAR2, 2 CXL.mem. -/
def State.hepUnsup (s : State) (region : Nat) (write : Bool) (off : Nat) : State :=
  (((s.inc HEP_UNSUP_COUNT 0 1).wr HEP_UNSUP_REGION 0 region).wr HEP_UNSUP_WRITE 0 (if write then 1 else 0)).wr HEP_UNSUP_OFFSET 0
    (off % 2 ^ 36)

/-! ### Completions of the hub's requests (R527, R531) -/

/-- A tag comes free, and requests that waited for one go on. -/
def State.freeHostTag (s : State) (tag : Nat) : State :=
  let s1 := s.updHep (fun h => { h with outstanding := h.outstanding.filter (fun r => r.tag ≠ tag) })
  s1.hostPump s1.hep.queued.length

/-- The last completion of a hub request: its data, HOST_UR, or poisoned data; discarded where the request has been answered. -/
def execHostCompletion (tag status : Nat) (data : List Byte) (ep : Bool) (s : State) : Res :=
  .next (match s.hep.outstanding.find? (fun r => r.tag = tag) with
  | none => s
  | some r =>
    let s1 := s.freeHostTag tag
    if r.dead then s1.inc HEP_BME_DISCARDED 0 1
    else if status ≠ 0 then s1.answer 0x180 r.req stHostUr
    else s1.answer 0x180 r.req (if ep then stHostPoison else stOk) ((data ++ zeros r.req.len).take r.req.len) ep)

def execHostCplTimeout (tag : Nat) (s : State) : Res :=
  .next (match s.hep.outstanding.find? (fun r => r.tag = tag) with
  | none => s
  | some r =>
    let s1 := s.freeHostTag tag
    if r.dead then s1 else s1.answer 0x180 r.req stHostCplTimeout)

/-! ### Mastering (R531-R533) -/

/-- Mastering is withdrawn: outstanding reads are answered, and later requests are refused by `hostAccess`. -/
def State.bmeClear (s : State) (d3 : Bool) : State :=
  let s1 := s.updHep (fun h => if d3 then { h with d3 := true } else { h with bme := false })
  if s.mastering then (s1.inc HEP_BME_CLEARS 0 1).hostDead else s1

def execBmeClear (d3 : Bool) (s : State) : Res := .next (s.bmeClear d3)

/-- 2 µs after the clear. -/
def execBmeDrainTimeout (s : State) : Res := .next (if s.mastering then s else s.hostDrop)

/-- Write the reply of one record into its queue, with the SEQ and PHASE that its slot gives it, and count it toward the interrupt. -/
def State.flushRecord (s : State) (r : FateRec) : State × List (Nat × Bool) :=
  let (s1, _) := s.pushReply r.cq (fun seq ph => r.reply.take 12 ++ natLe 4 seq ++ (r.reply.drop 16).take 15 ++ natLe 1 (if ph then 128 else 0))
  ({ s1 with hep := { s1.hep with log := s1.hep.log.erase r } }, [(r.cq, r.irq)])

/-- Write the non-held records of the fate log in FSEQ order, fetch again, and then send the interrupts of R385 (R533). -/
def State.flushFates (s : State) : State :=
  let (s1, due) := (s.hep.log.filter (fun r => !r.held)).foldl (fun (t, ds) r => let (u, d) := t.flushRecord r; (u, ds ++ d)) (s, [])
  due.foldl (fun t d => t.coalesce d.1 d.2) s1

/-- Bus Master Enable is set, or the function returns to D0. When mastering returns, the fate log is flushed, and event records that
waited are written (19_faults_resets.md R616). -/
def State.bmeSet (s : State) (d0 : Bool) : State :=
  let s1 := s.updHep (fun h => if d0 then { h with d3 := false } else { h with bme := true })
  if !s.mastering && s1.mastering then (s1.flushFates).evtDrain else s1

def execBmeSet (d0 : Bool) (s : State) : Res := .next (s.bmeSet d0)

/-! ### MSI-X and LTR (R528, R529) -/

def execMsixPendingSend (vector : Nat) (s : State) : Res :=
  .next (if s.hep.pba.contains vector && s.msixOpen vector then
    (s.updHep (fun h => { h with pba := eraseNat h.pba vector })).hostSend (.msix vector)
  else s)

/-- Whether a queue holds packets that are not fetched. -/
def State.unfetched (s : State) : Bool :=
  (List.range 1024).any (fun q => s.rd STW_QCFG_STATE q = 1 && s.rd STW_QPTR_TAIL q ≠ s.rd STW_QPTR_HEAD q)

def execLtrIdleTimer (s : State) : Res :=
  .next (if s.hep.ltrState = 0 && s.stw.items.isEmpty && !s.unfetched then s.ltrTo 1 else s)

/-! ### The fate log (R537-R540) -/

/-- POP removes the oldest record and releases the slot reserved for it. -/
def execFatePop (w : Writer) (s : State) : Res :=
  .next (if !stwWriter w then s
  else match s.hep.log with
    | [] => s
    | r :: l =>
      let s1 := s.updHep (fun h => { h with log := l })
      if r.q < 1024 then s1.wr STW_CQPTR_RESERVED r.cq (s1.rd STW_CQPTR_RESERVED r.cq - 1) else s1)

def execFateAck (w : Writer) (s : State) : Res :=
  .next (if !stwWriter w then s
  else (List.range 1024).foldl (fun t q => t.resetReg FATE_SUM q) ((s.resetReg FATE_LOST 0).wr FATE_LOG_STAT_LOST 0 0))

def execHepUnsupClear (w : Writer) (s : State) : Res := .next (if stwWriter w then s.resetReg HEP_UNSUP 0 else s)

/-! ### Function-level reset (R534-R536, 19_faults_resets.md R631) -/

/-- FLR (kind 0), Hot Reset (1) or DL_Down (2). One that meets a stronger reset is discarded; one that meets a function-level reset is
merged into it. -/
def State.functionReset (s : State) (kind : Nat) : State :=
  if s.rve.reset = 2 then s
  else
    let s1 := (s.noteReset 3 (6 + kind % 3)).updHep (fun h => if kind = 2 then { h with linkUp := false } else h)
    if s.hep.flr then s1 else s1.flrStart

def execFunctionLevelReset (kind : Nat) (s : State) : Res := .next (s.functionReset kind)

/-- 8 ms into the reset: every unit that owes a completion is isolated, and what is left is abandoned (R535, 02_commons.md R66). -/
def execFlrUnitWaitTimeout (s : State) : Res :=
  .next (if !s.hep.flr then s
  else
    let us := (s.stw.items.filter (fun i => i.st = 2)).map (fun i => if i.opc = 0x06 then i.unit + i.prm 25 1 % 8 else i.unit)
    let s1 := us.foldl (fun t u => match t.physOf u with | some p => t.isolate p 4 | none => t) s
    (s1.failItems (fun _ => true) stFlrAbandon).resetEnd)

/-! ### Configuration space (R519-R522) -/

/-- The extended capabilities: offset, PCIe capability ID and version (PRESUMED: the IDs of the PCIe and CXL standards). -/
def extCaps : List (Nat × Nat × Nat) :=
  [(0x100, 0x0001, 2), (0x148, 0x0003, 1), (0x158, 0x0019, 1), (0x168, 0x0025, 1), (0x178, 0x0026, 1), (0x1A8, 0x002A, 1),
   (0x1D0, 0x0031, 1), (0x200, 0x0027, 1), (0x240, 0x0018, 1), (0x250, 0x002E, 2), (0x280, 0x0030, 1), (0x300, 0x0022, 1),
   (0x400, 0x0023, 1), (0x440, 0x0023, 1), (0x480, 0x0023, 1)]

/-- The header of an extended capability. -/
def extHeader : List (Nat × Nat × Nat) → Nat → Option Nat
  | [], _ => none
  | (o, id, v) :: l, off =>
    if o = off then some (id + v * 65536 + (match l with | (n, _) :: _ => n | [] => 0) * 2 ^ 20) else extHeader l off

/-- The stored bits of a configuration register. -/
def State.cfgVal (s : State) (off : Nat) : Nat := (SMap.getD s.hep.cfg off 0).toNat

/-- Whether Enhanced Allocation is in use. -/
def State.eaOn (s : State) : Bool := s.flag HEP_EA0_ENABLE

/-- A configuration register that holds only the bits of `mask` of what is written. -/
def cfgMask (off : Nat) : Nat :=
  match off with
  | 0x04 => 0x0540
  | 0x10 => 0xF0000000
  | 0x14 => 0xFFFFFFFF
  | 0x1C => 0xFFFFFFF0
  | 0x58 => 0x7FFF
  | 0x78 => 0xFFFF
  | _ => 0

def b1 (b : Bool) (k : Nat) : Nat := if b then 2 ^ k else 0

/-- What a configuration register reads (R519-R522; the places of the standard's bits are PRESUMED). -/
def State.cfgRead (s : State) (off : Nat) : Nat :=
  let ea := s.eaOn
  match off with
  | 0x00 => 0x4801D0A5
  | 0x04 => (s.cfgVal 0x04 ||| b1 s.hep.memEn 1 ||| b1 s.hep.bme 2) + 0x100000
  | 0x08 => 0x12000000 + Config.stepping.toNat
  | 0x0C => 0
  | 0x10 => if ea then 0 else s.cfgVal 0x10 + 0x4
  | 0x14 => if ea then 0 else s.cfgVal 0x14
  | 0x18 => if ea then 0 else 0xC
  | 0x1C => if ea then 0 else s.cfgVal 0x1C
  | 0x20 => 0
  | 0x24 => 0
  | 0x2C => s.rd HEP_CFGREC_SSVID + s.rd HEP_CFGREC_SSID * 65536
  | 0x30 => 0
  | 0x34 => 0x40
  | 0x3C => 0
  | 0x40 => 0x01 + 0x50 * 256 + 3 * 65536
  | 0x44 => (if s.hep.d3 then 3 else 0) + 8
  | 0x50 => 0x10 + (if ea then 0xC0 else 0xB0) * 256 + 2 * 65536
  | 0x54 => 2 + 32 + 2 ^ 15 + 2 ^ 28
  | 0x58 => s.cfgVal 0x58
  | 0x74 => 0xF + 16 + 2 ^ 7 + 2 ^ 8 + 2 ^ 11 + 2 ^ 16 + 2 ^ 17
  | 0x78 => s.cfgVal 0x78
  | 0xB0 => 0x11 + 2047 * 65536 + b1 s.hep.fmask 30 + b1 s.hep.msixEn 31
  | 0xB4 => 0x1D40000
  | 0xB8 => 0x1D48000
  | 0xC0 => if ea then 0x14 + 0xB0 * 256 + 2 * 65536 else 0
  | 0xC4 => if ea then 4 + 2 ^ 31 else 0
  | 0xC8 => if ea then s.rd HEP_EA0_BASE % 16 * 2 ^ 28 + 2 else 0
  | 0xCC => if ea then 0x0FFFFFFF else 0
  | 0xD0 => if ea then s.rd HEP_EA0_BASE / 16 else 0
  | 0xD4 => 0
  | 0xD8 => if ea then 4 + 2 * 16 + 2 ^ 8 + 2 ^ 31 else 0
  | 0xDC => if ea then 2 else 0
  | 0xE0 => if ea then 0xFFFFFFFF else 0
  | 0xE4 => if ea then s.rd HEP_EA2_BASE * 16 % 2 ^ 32 else 0
  | 0xE8 => if ea then 0xF else 0
  | 0x104 => s.cfgVal 0x104
  | 0x14C => Config.serial.toNat % 2 ^ 32
  | 0x150 => Config.serial.toNat / 2 ^ 32
  | 0x304 => 2 ^ 31 + (3 * 512 + 306)
  | 0x308 => (3 * 512 + 306) + (512 + 313) * 4096
  | 0x40C => b1 s.hep.cxlEn 2
  | _ => (extHeader extCaps off).getD (Config.cfgReg off).toNat

/-- Bytes of a register that a write enables. -/
def beMerge (old new be : Nat) : Nat :=
  leNat ((List.range 4).map (fun k => BitVec.ofNat 8 ((if Nat.testBit be k then new else old) / 256 ^ k)))

/-- Effects of a configuration write: `v` is the register as written. -/
def State.cfgWrite (s : State) (off v : Nat) : State :=
  let keep (t : State) (x : Nat) : State := t.updHep (fun h => { h with cfg := SMap.set 0 h.cfg off (BitVec.ofNat 32 x) })
  match off with
  | 0x04 =>
    let s1 := (keep s (v &&& cfgMask 0x04)).updHep (fun h => { h with memEn := Nat.testBit v 1 })
    if Nat.testBit v 2 = s.hep.bme then s1 else if Nat.testBit v 2 then s1.bmeSet false else s1.bmeClear false
  | 0x44 =>
    if v % 4 = 3 then (if s.hep.d3 then s else s.bmeClear true)
    else if v % 4 = 0 && s.hep.d3 then s.bmeSet true else s
  | 0x58 =>
    let s1 := keep s (v &&& cfgMask 0x58)
    if Nat.testBit v 15 then s1.functionReset 0 else s1
  | 0x78 => (keep s (v &&& cfgMask 0x78)).updHep (fun h => { h with ltrEn := Nat.testBit v 10 })
  | 0xB0 => s.updHep (fun h => { h with fmask := Nat.testBit v 30, msixEn := Nat.testBit v 31 })
  | 0x104 => keep s (s.cfgVal 0x104 &&& (v ^^^ 0xFFFFFFFF))
  | 0x40C => s.updHep (fun h => { h with cxlEn := Nat.testBit v 2 })
  | _ => if cfgMask off = 0 || s.eaOn then s else keep s (v &&& cfgMask off)

/-- A configuration request (R522, R535): Request Retry Status while a reset runs. A write of a 1 to a bit of AER's status clears it, so
bytes that are not enabled count as 0 there. -/
def execHostConfigRequest (tag : Nat) (write : Bool) (off be value : Nat) (s : State) : Res :=
  let o := off / 4 * 4
  .next (if s.rve.inReset then s
  else if s.hep.flr then s.hostSend (.completion tag 2 [])
  else
    let s1 := s.updHep (fun h => { h with linkUp := true })
    if write then (s1.cfgWrite o (beMerge (if o = 0x104 then 0 else s1.cfgRead o) value be)).hostSend (.completion tag 0 [])
    else s1.hostSend (.completion tag 0 (natLe 4 (s1.cfgRead o))))

/-- Log an error in AER: bit 15 Completer Abort, bit 20 Unsupported Request (PRESUMED: PCIe). -/
def State.aer (s : State) (bit : Nat) : State :=
  s.updHep (fun h => { h with cfg := SMap.set 0 h.cfg 0x104 (SMap.getD h.cfg 0x104 0 ||| BitVec.ofNat 32 (2 ^ bit)) })

/-! ### CXL.mem (R525, R526, 04_coherence.md R128-R130) -/

/-- Bytes that the committed HDM decoder reaches (log entry 60: where its registers lie). -/
def State.hdmBytes (s : State) : Nat :=
  let r (o : Nat) : Nat := (SMap.getD s.hep.hdm o 0).toNat
  if Nat.testBit (r 0x1220) 9 then r 0x121C * 2 ^ 32 + r 0x1218 / 2 ^ 28 * 2 ^ 28 else 0

/-- Whether a 64-byte block is served: within the decoder and the installed capacity. -/
def State.cxlReaches (s : State) (line : Nat) : Bool := line * 64 < min s.hdmBytes s.hbmBytes

/-- An S2M response leaves: a BIConflict that waited for it may be acknowledged (R526). -/
def State.cxlDone (s : State) (txn : Nat) (m : HostTlp) : State :=
  let s1 := (s.updHep (fun h => { h with
    cxl := h.cxl.filter (fun c => c.txn ≠ txn), conflicts := h.conflicts.map (fun c => (c.1, c.2.erase txn)) })).hostSend m
  let ready := s1.hep.conflicts.filter (fun c => c.2.isEmpty)
  ready.foldl (fun t c => t.hostSend (.cxl 3 0 c.1 0 [])) (s1.updHep (fun h => { h with conflicts := h.conflicts.filter (fun c => !c.2.isEmpty) }))

/-- BIConflict: acknowledged once every earlier response for the line has been sent (R526); a request that waits in the host's order is named by
4,096 + its tag. -/
def execCxlBiconflict (tag line : Nat) (s : State) : Res :=
  let txns := (s.hep.cxl.filter (fun c => c.line / 2 = line / 2)).map (·.txn) ++
    ((s.hep.hq.filter (fun r => r.cxl.isSome && !r.sent && r.off / 128 = line / 2)).map (fun r => 4096 + r.tag))
  .next (if txns.isEmpty then s.hostSend (.cxl 3 tag line 0 [])
  else s.updHep (fun h => { h with conflicts := h.conflicts ++ [(line, txns)] }))

/-- The half of a line that a 64-byte block is. -/
def halfOf (line : Nat) (d : List Byte) : List Byte := if d.length ≤ 64 then d else (d.drop (line % 2 * 64)).take 64

/-- The answer of the home to a CXL.mem request `r` of the host: data with the granted MetaValue, or a completion. A grant of a state is
acknowledged to the home; a sealed read's pattern carries no poison (R523). -/
def State.cxlAnswer (s : State) (c : CxlReq) (r p : Pkt) : State :=
  let bad : Bool := p.status ≠ stOk && p.status ≠ stMemPoison
  let s1 := if bad && c.kind = 1 then s.hepUnsup 2 true (c.line * 64) else s
  if c.kind = 1 then s1.cxlDone c.txn (.cxl 2 c.tag c.line 0 [])
  else
    let sealed_ : Bool := decide (s.readVerdict (r.addr % 2 ^ 48) 0 false ≠ .data)
    let s2 := if p.opc = 0x2C && p.keep ≠ 0 then
        s1.send { opc := 0x2F, dst := p.src, src := 0x180, txn := p.txn, addr := r.addr, keep := p.keep }
      else s1
    let meta_ := if p.opc ≠ 0x2C || p.keep = 0 then 0 else if p.keep = 1 then 3 else 2
    if bad then (s2.fresh 64).cxlDone c.txn (.cxl 1 c.tag c.line 0 (s2.freeBytes 64) true)
    else s2.cxlDone c.txn (.cxl 1 c.tag c.line meta_ (halfOf c.line p.data) (p.poison && !sealed_))

end Sys2Proof.Machine
end

