-- ==== Sys2Proof/Machine/Power.lean ====
section
/-!
DEFINITION. Machine/Power.lean: sensors, regulators and the control of VCORE (20_management_power.md R648, R649, R653, R654, R656).
-/

namespace Sys2Proof.Machine

/-- Change the power controller. -/
def State.updPw (s : State) (f : Power → Power) : State := s.updRve (fun r => { r with pw := f r.pw })

/-- The lowest and the highest voltage in mV. -/
def vMin : Nat := 600
def vMax : Nat := 850

/-- The ceilings in the order of R653: cap, current, thermal, pin, doze. -/
def State.ceilings (s : State) : List Nat :=
  let p := s.rve.pw
  [p.cap, p.cur, p.therm, if p.vrHot || p.throttle then vMin else vMax, if s.rve.dozeStep = 2 then vMin else vMax]

/-- The lowest of the ceilings and its number from 1, ties to the earlier. -/
def lowestCeiling : Nat → List Nat → Nat × Nat
  | _, [] => (vMax, 0)
  | k, c :: l =>
    let r := lowestCeiling (k + 1) l
    if r.2 ≠ 0 && r.1 < c then r else (c, k)

/-- Whether the VCORE regulator fails to answer (R649). -/
def State.vcoreLost (s : State) : Bool := 3 ≤ SMap.getD s.rve.pw.fails 0 0

/-- A ceiling has become, or has stopped being, the limiter (R656): cap, current, thermal. `iout` is READ_IOUT in A, `sensor` the sensor
named. -/
def State.limitEvent (s : State) (old new iout sensor cap : Nat) : State :=
  let ev (t : State) (k code a0 : Nat) : State :=
    if old ≠ k && new = k then t.raise code 0 0x1C1 a0 1
    else if old = k && new ≠ k then t.raise code 0 0x1C1 a0 0
    else t
  if old = new then s else ev (ev (ev s 1 0x0061 cap) 2 0x0064 iout) 3 0x0063 sensor

/-- The effective cap in W: min(CAP_W, CAP_OOB_W), CAP_W taken between 300 and 720 (R653, PWR_CFG). -/
def State.effectiveCap (s : State) : Nat := min (max 300 (min 720 (s.rd PWR_CFG_CAP_W))) (s.rd PWR_STAT_CAP_OOB_W)

/-- The hottest valid die sensor: its number and its reading in 1/16 °C, readings below 0 counting as 0. -/
def State.hottest (s : State) : Nat × Nat :=
  (List.range 32).foldl (fun (b : Nat × Nat) k =>
    let t := s.rd PWR_TEMP_TEMP k
    if s.flag PWR_TEMP_VALID k && t < 32768 && b.2 < t then (k, t) else b) (0, 0)

/-- Set the VCORE setpoint under its ceilings, and say which limits (R653). While entry 0 fails the setpoint only falls, by the thermal, pin
and doze ceilings (R649). -/
def State.setVcore (s : State) : State :=
  let cs := s.ceilings
  let vt := if s.vcoreLost then s.rd PWR_STAT_VCORE_MV else s.rve.pw.vt
  let (c, k) := lowestCeiling (if s.vcoreLost then 3 else 1) (if s.vcoreLost then cs.drop 2 else cs)
  let lim := if c < vt then k else 0
  let s1 := (s.wr PWR_STAT_VCORE_MV 0 (max vMin (min vt c))).wr PWR_STAT_LIMITER 0 lim
  s1.limitEvent (s.rd PWR_STAT_LIMITER) lim s.rve.pw.iout s.hottest.1 s.effectiveCap

/-- V_t moves by 5 mV toward the stage-delay target once a stage delay has been measured (R653). -/
def State.moveTarget (s : State) : State :=
  let t := max 105000 (min 190000 (s.rd PWR_CFG_STAGE_FS))
  let m := s.rd HUB_STAGE_STAGE_FS
  if !s.flag HUB_STAGE_VALID then s
  else if t < m then s.updPw (fun p => { p with vt := min vMax (p.vt + 5) })
  else if 100 * m < 98 * t then s.updPw (fun p => { p with vt := max vMin (p.vt - 5) })
  else s

/-- One read of every enabled PMBus entry: a device that fails three reads in a row raises PMBUS_FAULT (R649). -/
def State.readPmb (s : State) (reads : List PmbRead) : State :=
  ((List.range 8).filter (fun k => s.flag PWR_PMB_ENABLE k)).foldl (fun t k =>
    if reads.any (fun r => r.k = k) then t.updPw (fun p => { p with fails := SMap.set 0 p.fails k 0 })
    else
      let n := SMap.getD t.rve.pw.fails k 0 + 1
      let t1 := t.updPw (fun p => { p with fails := SMap.set 0 p.fails k n })
      if n = 3 then t1.raise 0x0068 3 0x1C1 k else t1) s

/-- POWER_EVAL: the evaluation of every 100 µs (R649, R653, R654); energy counts 100 µJ for each watt. -/
def execPowerEval (reads : List PmbRead) (s : State) : Res :=
  .next (if !s.rve.up then s
  else
    let rs := reads.filter (fun r => s.flag PWR_PMB_ENABLE r.k)
    let w := (rs.map (fun r => r.mv * r.ma)).foldl (· + ·) 0 / 1000000
    let s1 := ((s.readPmb reads).wr PWR_STAT_POWER_W 0 w).wr PWR_ENERGY_UJ 0 ((s.rd PWR_ENERGY_UJ + 100 * w) % 2 ^ 64)
    match rs.find? (fun r => r.k = 0) with
    | none => (if s1.vcoreLost then s1 else s1.moveTarget).setVcore
    | some r =>
      let cap := s.effectiveCap
      let icc := min 720 (s.rd PWR_CFG_ICC_A)
      let s2 := s1.updPw (fun p => { p with
        iout := r.ma / 1000
        cap := if cap < w then p.cap - 10 else if 100 * w < 98 * cap then min vMax (p.cap + 5) else p.cap
        cur := if icc * 1000 < r.ma then p.cur - 10 else min vMax (p.cur + 5) })
      let s3 := s2.moveTarget.setVcore
      let held : Bool := decide (s3.rd PWR_STAT_LIMITER = 1 ∧ s3.rd PWR_STAT_VCORE_MV = vMin ∧ cap < w)
      let n := if held then s.rve.pw.capHeld + 1 else 0
      let s4 := s3.updPw (fun p => { p with capHeld := n })
      if n = 10 then s4.raise 0x0062 0 0x1C1 w else s4)

/-- THERMAL_SENSOR_READ: a die sensor is read, in 1/16 °C (R648); one that fails its self-check is excluded and reported once. A sensor that
crosses 100 °C is told to the PLDM event receiver (R640). -/
def execThermalSensorRead (k temp : Nat) (ok : Bool) (s : State) : Res :=
  .next (if 32 ≤ k || !s.rve.up then s
  else
    let hot (t : Nat) : Bool := 1600 ≤ t && t < 32768
    let before := s.flag PWR_TEMP_VALID k && hot (s.rd PWR_TEMP_TEMP k)
    let s1 := (s.wr PWR_TEMP_TEMP k temp).wr PWR_TEMP_VALID k (if ok then 1 else 0)
    let s2 := if ok then s1.updPw (fun p => { p with faulty := eraseNat p.faulty k })
      else if s1.rve.pw.faulty.contains k then s1
      else (s1.updPw (fun p => { p with faulty := insertNat p.faulty k })).raise 0x0067 1 0x1C1 k
    let s3 := s2.wr PWR_STAT_TJ_C 0 (s2.hottest.2 / 16)
    match s3.rve.evtTo with
    | some dest =>
      if ok && before ≠ hot (temp % 65536) then
        s3.oobPut { dest := dest, code := 0, data := [0] ++ natLe 1 k ++ natLe 2 temp }
      else s3
    | none => s3)

/-- THERMAL_CEILING_TICK: the thermal ceiling falls at a tick of 1 ms while a sensor is hot, and rises at one of 10 ms while all are cool
(R653). -/
def execThermalCeilingTick (rise : Bool) (s : State) : Res :=
  let t := s.hottest.2
  .next (if !s.rve.up then s
  else if rise then (if t ≤ 1552 then (s.updPw (fun p => { p with therm := min vMax (p.therm + 10) })).setVcore else s)
  else if 1600 ≤ t then (s.updPw (fun p => { p with therm := p.therm - 10 })).setVcore
  else s)

/-- STAGE_MISS_TIMER: the measured stage delay has been above its target for 1 ms, or for a further 100 ms, while a ceiling limits (R654). -/
def execStageMissTimer (s : State) : Res :=
  let t := max 105000 (min 190000 (s.rd PWR_CFG_STAGE_FS))
  .next (if s.rve.up && s.flag HUB_STAGE_VALID && t < s.rd HUB_STAGE_STAGE_FS && s.rd PWR_STAT_LIMITER ≠ 0 then
    s.raise 0x0060 0 0x1C1 (s.rd HUB_STAGE_STAGE_FS) (s.rd PWR_STAT_LIMITER)
  else s)

/-- PIN_THROTTLE: VR_HOT_N (0) or THROTTLE_N (1) changes (R653). -/
def execPinThrottle (pin : Nat) (low : Bool) (s : State) : Res :=
  let old := if pin = 0 then s.rve.pw.vrHot else s.rve.pw.throttle
  .next (if 2 ≤ pin || old = low then s
  else
    let v : Nat := if low then 1 else 0
    let s1 := if pin = 0 then (s.updPw (fun p => { p with vrHot := low })).wr PWR_STAT_VR_HOT 0 v
      else (s.updPw (fun p => { p with throttle := low })).wr PWR_STAT_THROTTLE 0 v
    if s.rve.up then (s1.setVcore).raise 0x0065 0 0x1C1 pin (1 - v) else s1)

end Sys2Proof.Machine
end

