-- ==== Sys2Proof/Machine/Faults.lean ====
section
/-!
DEFINITION. Machine/Faults.lean: event records as commands, hub-fatal errors, the service commands, resets and doze (19_faults_resets.md).
-/

namespace Sys2Proof.Machine

/-! ### Resets (R628, R629, R631) -/

/-- A warm reset (`kind` 1) or a hub reset (2) arrives, with its SOURCE. One that meets another of them is merged into it, and one that meets
a function-level reset takes it over (R631). A warm reset takes the host link down. -/
def State.bigReset (s : State) (kind source fatal : Nat) : State :=
  let s1 := s.noteReset kind source
  let s2 := if kind = 2 then s1.wr RVE_RESET_CAUSE_FATAL 0 fatal else s1
  let s3 : State := if kind = 1 then { s2 with rve := { s2.rve with resetLink := true }, hep := { s2.hep with linkUp := false } } else s2
  if s.rve.reset = 2 then s3
  else
    let s4 := s3.updRve (fun r => { r with reset := 2 })
    if s4.hep.flr then s4.flrGo else s4.flrStart

/-- WARM_RESET: PERST_N with power held. -/
def execWarmReset (s : State) : Res := .next (if s.rve.inReset then s else s.bigReset 1 2 0)

/-! ### Events (R613-R616) -/

/-- Whether an event is hub fatal and leads to a reset (R613). -/
def fatalCode (c : Nat) : Bool := c = 0x0001 || c = 0x0071

/-- The Reeve has written or held the record of a hub-fatal event: the reset follows once its 1 ms has passed. -/
def State.fatalGo (s : State) : State :=
  match s.rve.fatal with
  | some c =>
    if !s.rve.fatalDue then s
    else
      let s1 := s.updRve (fun r => { r with fatal := none, fatalDue := false })
      if s1.flag RVE_EVT_CFG_AUTO_RESET then s1.bigReset 2 4 c else s1
  | none => s

/-- EVT_RECORD_WRITE: the Reeve handles the oldest event raised. -/
def execEvtRecordWrite (s : State) : Res :=
  .next (if !s.rve.up || s.reeveAway then s
  else match s.evq with
    | [] => s
    | e :: l =>
      let s1 := ({ s with evq := l } : State).evtHandle e
      if fatalCode e.code then (s1.updRve (fun r => { r with fatal := some e.code })).fatalGo else s1)

/-- EVT_RING_HEAD: a write of RVE_EVT_PTR.HEAD (R614): refused at or above the ring size or outside HEAD to TAIL in ring order; otherwise
it frees slots, and what waits is written. -/
def execEvtRingHead (w : Writer) (head : Nat) (s : State) : Res :=
  let n := 2 ^ s.rd RVE_EVT_RING_LOG2N
  let h := s.rd RVE_EVT_PTR_HEAD
  let tail := s.rd RVE_EVT_PTR_TAIL
  .next (if !rveWriter w then s
  else if n ≤ head || (tail + n - h) % n < (head + n - h) % n then s.wr RVE_EVT_PTR_REJECTED 0 1
  else
    let s1 := s.wr RVE_EVT_PTR_HEAD 0 head
    if s1.rve.up && !s1.reeveAway then s1.evtDrain else s1)

/-- The units whose control state an uncorrectable error makes hub fatal: a home, a stack controller, the Steward engine, a translation slice, the
endpoint (R613). -/
def fatalUnit (a : Nat) : Bool :=
  match kindOf a with
  | .home | .stackCtl | .xlt | .host => true
  | .steward => a = 0x190
  | _ => false

/-- HUB_FATAL_ERROR: an uncorrectable error in the control state of one of these units (R613). -/
def execHubFatalError (agent : Nat) (s : State) : Res := .next (if fatalUnit agent then s.raise 0x0071 4 agent else s)

/-- FATAL_RESET_TIMER: 1 ms after a hub-fatal event (R613). -/
def execFatalResetTimer (s : State) : Res :=
  .next (if s.rve.fatal.isSome || s.evq.any (fun e => fatalCode e.code) then (s.updRve (fun r => { r with fatalDue := true })).fatalGo else s)

/-! ### Service commands (R637) -/

/-- A write of RVE_SVC_CMD with GO: refused while GO is 1, else its fields are set and `f` performs the operation. Of ARG the bits
of `used`, those that the operation has, are set to `arg`; the others keep what was last written there. -/
def State.svc (s : State) (w : Writer) (op used arg : Nat) (f : State → State) : State :=
  if !rveWriter w then s
  else if s.flag RVE_SVC_CMD_GO then s.wr RVE_SVC_CMD_REJECTED 0 1
  else
    let a := (s.rd RVE_SVC_CMD_ARG &&& (0x1FF - used)) ||| arg
    f (((s.wr RVE_SVC_CMD_OP 0 op).wr RVE_SVC_CMD_ARG 0 a).wr RVE_SVC_CMD_GO 0 1)

/-- The number that a flag adds to ARG as bit 8. -/
def argBit (b : Bool) : Nat := if b then 256 else 0

def execSvcWarm (w : Writer) (s : State) : Res := .next (s.svc w 1 0 0 (fun t => t.bigReset 1 3 0))
def execSvcHubReset (w : Writer) (s : State) : Res := .next (s.svc w 2 0 0 (fun t => t.bigReset 2 3 0))

/-- Whether a domain may be reset now (R630): a site or tile always, a link while no anchor names it, a stack while every site is OFF and
its homes hold nothing. -/
def State.resetAllowed (s : State) (d : Nat) : Bool :=
  if 0xBB ≤ d && d ≤ 0xEA then
    (List.range 256).all (fun k => s.rd LNK_ANCHOR_LINK (k / 8) / 256 ^ (k % 8) % 64 ≠ d - 0xBB)
  else if stackDom d then
    (List.range 8).all (fun n => s.domSt (0xB3 + n) = domOff) && (List.range 4).all (fun q => (s.home (4 * (d - 0xAB) + q)).entries.isEmpty)
  else true

/-- SVC_DOMAIN_RESET (R630): discarded while a stronger reset runs (R631). -/
def execSvcDomainReset (w : Writer) (dom : Nat) (force : Bool) (s : State) : Res :=
  .next (s.svc w 3 0x1FF (dom % 256 + argBit force) (fun t =>
    if t.rve.reset = 2 || t.hep.flr then t.svcEnd 0
    else if !t.domExists dom || !(dom ≤ 0x43 || (0xAB ≤ dom && dom ≤ 0xEA)) then t.svcRefuse 2
    else if !t.resetAllowed dom then t.svcRefuse 1
    else (t.updRve (fun r => { r with domReset := some (dom, force), domPhase := 0 })).reeveTurn))

/-- Whether doze may be entered (R634). -/
def State.mayDoze (s : State) : Bool :=
  s.rve.dozeStep = 0 && (List.range 8).all (fun n => s.domSt (0xB3 + n) = domOff) && (s.stw.items.all (fun i => i.q = 0xFFFE)) &&
  (s.genState = 0 || s.genState = 3) && s.rve.swaps.isEmpty && s.rve.fw.isNone && s.rve.domReset.isNone &&
  (List.range 8).all (fun m => !(s.stack m).recentring) && s.rve.reset = 0 && !s.hep.flr

/-- The domains that doze closes, but for those of stacks: tiles, movers, Mill slices, Cellar banks and links. -/
def dozeDoms : List Nat := (List.range 0xAB) ++ (List.range 48).map (0xBB + ·)

/-- The entry into doze (R634): fetching stops, the domains of tiles, movers, Mill slices, Cellar banks and links close, the firmware cores
stop, and the stack domains close to FENCED. -/
def State.dozeStart (s : State) : State :=
  let ds := dozeDoms.filter (fun d => s.domState d = domOpen)
  let s1 : State := { s with stw := { s.stw with dozing := true }, rve := { s.rve with dozeStep := 1, dozed := ds } }
  let s2 := s1.wr STW_STAT_FW_UP 0 0
  let s3 := (List.range 4).foldl (fun t c => t.updRx (0x191 + c) (fun _ => {})) s2
  (ds ++ s3.stackDoms.filter (fun d => s3.domState d = domOpen)).foldl State.closeDom s3

def execSvcDoze (w : Writer) (s : State) : Res :=
  .next (s.svc w 4 0 0 (fun t => if t.mayDoze then t.dozeStart else t.svcRefuse 1))

/-- DOZE_ENTERED: every domain is down; VCORE falls to its lowest level and the endpoint reports DOZE (R634). -/
def execDozeEntered (s : State) : Res :=
  .next (if !(s.rve.dozeStep = 1 || s.rve.dozeStep = 4) then s
  else if dozeDoms.any (fun d => s.domState d = domOpen) then
    -- a domain that was still opening when doze began
    (let ds := dozeDoms.filter (fun d => s.domState d = domOpen)
     ds.foldl State.closeDom (s.updRve (fun r => { r with dozed := r.dozed ++ ds.filter (fun d => !r.dozed.contains d) })))
  else if !(s.rve.dozed.all (fun d => s.domSt d = domOff) && s.stackDoms.all (fun d => s.domSt d = domFenced || s.domSt d = domOff)) then s
  else
    let again : Bool := decide (s.rve.dozeStep = 4)
    let s0 := (List.range 8).foldl (fun t m =>
      if t.domSt (0xAB + m) = domFenced && t.rd HBM_STAT_STATE m = 3 then t.wr HBM_STAT_STATE m 5 else t) s
    let s1 := (((s0.updRve (fun r => { r with dozeStep := 2 })).setVcore).ltrTo 2).svcEnd 0
    if again then s1.wakeStart else s1)

/-- SVC_WAKE (R636): it ends with the wake; on a hub that is awake it ends at once. -/
def execSvcWake (w : Writer) (s : State) : Res :=
  .next (s.svc w 5 0 0 (fun t => if t.rve.dozeStep = 0 then t.svcEnd 0 else t.wake.reeveTurn))

/-- WAKE_COMPLETE: the images are reloaded; the Steward resumes fetching (R636). -/
def execWakeComplete (s : State) : Res :=
  .next (if s.rve.dozeStep ≠ 5 then s
  else
    let s1 : State := { s with stw := { s.stw with dozing := false }, rve := { s.rve with dozeStep := 0, dozed := [] } }
    (if s1.flag RVE_SVC_CMD_GO && s1.rd RVE_SVC_CMD_OP = 5 then s1.svcEnd 0 else s1).setVcore |>.stwTurn)

/-- SVC_UNIT_FAIL (R619): STATUS 2 for what is no spared unit, 1 for a unit that has failed. -/
def execSvcUnitFail (w : Writer) (unit : Nat) (s : State) : Res :=
  .next (s.svc w 6 0xFF (unit % 256) (fun t =>
    let p := 0x200 + unit % 256
    if (kindNo p).isNone then t.svcRefuse 2
    else if t.roll.bad.contains p then t.svcRefuse 1
    else ((t.unitFail p 4).svcEnd 0).reeveTurn))

/-- The version of an image in use. -/
def State.versionInUse (s : State) (slot : Nat) : Nat := if slot = 4 then s.rve.version else s.rd BOOT_IMG_VERSION slot

/-- SVC_FW_UPDATE (R624-R626): the active bank's image is checked, and the receivers are updated in turn; the Reeve restarts on slot 4. -/
def State.svcFwUpdate (s : State) (w : Writer) (slot : Nat) (allowOld : Bool) : State :=
  s.svc w 7 0x10F (slot % 16 + argBit allowOld) (fun t =>
    if 4 < slot then t.svcRefuse 2
    else if t.rve.dozeStep ≠ 0 || t.rve.reset = 2 || t.rve.fw.isSome then t.svcRefuse 1
    else match t.image slot with
      | none => t.svcRefuse 3
      | some i =>
        if i.version < t.versionInUse slot && !allowOld then t.svcRefuse 3
        else
          let f : FwUpdate := { slot := slot, left := if slot = 4 then [] else t.updateOrder slot }
          let t1 := t.updRve (fun r => { r with fw := some f })
          if slot = 4 then t1.updRve (fun r => { r with away := true }) else (t1.fwNext 0).reeveTurn)

def execSvcFwUpdate (w : Writer) (slot : Nat) (allowOld : Bool) (s : State) : Res := .next (s.svcFwUpdate w slot allowOld)

/-- SVC_RECAL (R627): a forced re-centre of a stack runs until RECENTRE_END; that of a link or a site module passes within the command. -/
def execSvcRecal (w : Writer) (target : Nat) (s : State) : Res :=
  .next (s.svc w 8 0xFF (target % 256) (fun t =>
    let k := target / 64 % 4
    let i := target % 64
    if k = 0 then
      if !(i < 8 && t.domExists (0xAB + i)) then t.svcRefuse 2
      else if t.rd HBM_STAT_STATE i ≠ 3 then t.svcRefuse 1
      else
        let t1 := t.updRve (fun r => { r with recal := insertNat r.recal i })
        if (t.stack i).recentring then t1
        else (t1.updStack i (fun x => { x with recentring := true })).raise 0x0014 0 (0x090 + i) target
    else if k = 1 then
      if !(i < 48 && t.domExists (0xBB + i)) then t.svcRefuse 2
      else if t.rd LNK_STAT_STATE i ≠ lnkUp || t.linkMode i ≠ 1 then t.svcRefuse 1
      else (t.raise 0x0014 0 (0x140 + i) target).svcEnd 0
    else if k = 2 then
      if !t.domExists (0xB3 + i / 8) then t.svcRefuse 2
      else if t.rd SITE_STAT_STATE (i / 8) ≠ 5 then t.svcRefuse 1
      else (t.raise 0x0014 0 (0x100 + i) target).svcEnd 0
    else t.svcRefuse 2))

/-- SVC_OP_INVALID (R637). -/
def execSvcOpInvalid (w : Writer) (op arg : Nat) (s : State) : Res :=
  .next (if op % 16 < 9 then s else s.svc w (op % 16) 0x1FF (arg % 512) (fun t => t.svcRefuse 2))

end Sys2Proof.Machine
end

