-- ==== Sys2Proof/Machine/Boot.lean ====
section
/-!
DEFINITION. Machine/Boot.lean: the boot steps (18_bringup.md R585-R602, R608-R610).
-/

namespace Sys2Proof.Machine

/-- The state that a result goes on in. -/
def stateOr (r : Res) (s : State) : State :=
  match r with
  | .next t => t
  | _ => s

/-! ### Issuing a step (R586) -/

/-- Who may write the BOOT_ and ROLL_ registers (R610): the driver and the Reeve, as which the management bus acts. -/
def bootWriter (w : Writer) : Bool :=
  match w with
  | .driver => true
  | .agent a => a = 0x1C1
  | .oob => true

/-- Whether the hub accepts GO for step k (R586): every step below k reads DONE, no step is BUSY and none above k has been issued, and k has
not run; or k is 7 to 10, the latest step issued, and has ended (log entry 91). -/
def State.bootAccepts (s : State) (k : Nat) : Bool :=
  let cur := s.rd BOOT_STAT_CURRENT
  decide (1 ≤ k ∧ k ≤ 11) && !s.flag BOOT_STAT_READY && !s.rve.inReset &&
  (List.range 11).all (fun j => s.bootStep (j + 1) ≠ 1) &&
  (List.range (k - 1)).all (fun j => s.bootStep (j + 1) = 2) &&
  ((s.bootStep k = 0 && cur ≤ k) || (decide (7 ≤ k ∧ k ≤ 10) && cur = k && 2 ≤ s.bootStep k))

/-- A GO that is refused. -/
def State.bootRefuse (s : State) (k : Nat) : State := (s.wr BOOT_CMD_REJECTED 0 1).bootErr (k % 16) 0x01 noAgent 0

/-- Step k starts: it is BUSY and the latest issued. Issuing the link-training step locks HUB (01_architecture.md R32). In END_OF_LIFE every step after the fuse load fails (R590). -/
def State.bootStart (s : State) (k arg : Nat) : State :=
  let s1 := (((s.wr BOOT_CMD_STEP 0 k).wr BOOT_CMD_ARG 0 arg).wr BOOT_CMD_GO 0 1).wr BOOT_STAT_CURRENT 0 k
  let s0 := if k = 8 then s1.wr HUB_NUMBER_LOCKED 0 1 else s1
  let s2 := (s0.setBootStep k 1).updRve (fun r => { r with t0 := s.time })
  if s.lcState = 3 && 3 ≤ k then s2.bootFail k 0x04 noAgent 0 else s2

/-- Perform step k: a step that a write of BOOT_CMD has started comes to its end; otherwise GO comes with the command. `us` is the time that
the step takes. -/
def State.bootRun (s : State) (w : Writer) (k arg us : Nat) (f : State → Nat → State) : State :=
  let go (t : State) (a : Nat) : State := f { t with time := t.time + us * 1000 } a
  if s.bootStep k = 1 then go s (s.rd BOOT_CMD_ARG)
  else if !bootWriter w then s
  else if !s.bootAccepts k then s.bootRefuse k
  else
    let s1 := s.bootStart k arg
    if s1.bootStep k = 1 then go s1 arg else s1

/-- BOOT_GO_REFUSED: a GO out of order, while a step is BUSY, after Ready, or with no such STEP (R586). -/
def execBootGoRefused (w : Writer) (step arg : Nat) (s : State) : Res :=
  .next (if bootWriter w && !s.bootAccepts (step % 16) then
    (if s.flag BOOT_CMD_GO then s else (s.wr BOOT_CMD_STEP 0 step).wr BOOT_CMD_ARG 0 arg).bootRefuse (step % 16) else s)

/-! ### Steps 1 to 4 (R590, R591) -/

/-- Run the mailbox command that waited for the firmware of the Vestry. -/
def State.vstGo (s : State) : State :=
  let w : Writer := .driver
  let n := s.rd VST_MBOX_CTL_LEN
  let run (r : State → Res) : State := let t := s.wr VST_MBOX_CTL_GO 0 0; stateOr (r t) t
  match s.rd VST_MBOX_CTL_CMD with
  | 1 => run (execLcTransition w n)
  | 2 => run (execDebugCert w n)
  | 3 => run (execEpochRaise w n)
  | 4 => run (execOwnerSet w n)
  | 5 => run (execSiteAttest w n)
  | 6 => run (execLedgerCheckpoint w n)
  | 7 => run (execPurge w n)
  | 8 => run (execIdentity w n)
  | _ => s

/-- Step 1, VESTRY: ROM digest, an interrupted life-cycle transition, firmware (R590, 17_security.md R551). -/
def execBootVestry (w : Writer) (arg us : Nat) (rom sig : Bool) (s : State) : Res :=
  .next (s.bootRun w 1 arg us (fun t _ =>
    if !rom then t.bootFail 1 0x02 noAgent 0
    else
      let open_ := (List.range 3).filter (fun k => Nat.testBit t.vst.otp.intent k && !Nat.testBit t.vst.otp.fin k)
      let t1 := open_.foldl (fun u k => (u.lcFinish k).wr LCS_STAT_RESUMED 0 1) t
      if !sig then t1.bootFail 1 0x03 noAgent 0
      else
        let t2 := (t1.wr VST_STAT_READY 0 1).bootEnd 1 true
        if t2.flag VST_MBOX_CTL_GO then t2.vstGo else t2))

/-- Step 2, FUSES: HUB_CONFIG and the factory defects (R585, R590). -/
def execBootFuses (w : Writer) (arg us : Nat) (good : Bool) (stks sites links : Nat) (bad : List Nat) (s : State) : Res :=
  .next (s.bootRun w 2 arg us (fun t _ =>
    if !good then t.bootFail 2 0x05 noAgent 0
    else
      let t1 := ((t.wr HUB_CONFIG_STACKS 0 stks).wr HUB_CONFIG_SITES 0 sites).wr HUB_CONFIG_LINKS 0 links
      let t2 := (bad.filter (fun p => (kindNo p).isSome)).foldl (fun u p => u.markFailed p 1 0) t1
      t2.showPopulated.bootEnd 2 true))

/-- Step 3, COMMONS (R591). -/
def execBootCommons (w : Writer) (arg us corr : Nat) (bad : Option (Nat × Nat × Nat)) (s : State) : Res :=
  .next (s.bootRun w 3 arg us (fun t _ =>
    let t1 := t.inc COM_ERR_CORR 0 corr
    match bad with
    | some (row, col, port) => t1.bootFail 3 0x06 noAgent (row % 16 * 256 + col % 8 * 16 + port % 8)
    | none => t1.bootEnd 3 true))

/-- Step 4, REEVE: its firmware is checked and started (R590). -/
def execBootReeve (w : Writer) (arg us : Nat) (sig : Bool) (s : State) : Res :=
  .next (s.bootRun w 4 arg us (fun t _ =>
    if !sig then t.bootFail 4 0x03 noAgent 0
    else
      let v := pktField (t.flashBytes (bankBase (t.bankOf 4) 4) 128) 8 4
      (t.updRve (fun r => { r with up := true, version := v })).bootEnd 4 true))

/-! ### Step 5: known-answer runs (R592, R593) -/

/-- Step 5, KAT: every spared unit that is not marked is opened and tested; one that fails is marked with its first mismatch and its domain
goes OFF; a failing home fails the step. The memory of the hub is zero after it. -/
def execBootKat (w : Writer) (arg us : Nat) (fails : List (Nat × Nat)) (homes : List Nat) (s : State) : Res :=
  .next (s.bootRun w 5 arg us (fun t _ =>
    let good := ((List.range 5).flatMap kindUnits).filter (fun p => !t.roll.bad.contains p)
    let t1 := good.foldl (fun u p => u.setDom ((agentDom p).getD 0) domOpen) t
    let t2 := (fails.filter (fun f => good.contains f.1)).foldl (fun u f =>
      ((u.markFailed f.1 2 f.2).inc BOOT_STAT_UNIT_FAILS 0 1).setDom ((agentDom f.1).getD 0) domOff) t1
    let t3 := t2.zeroSram
    match homes.filter (· < 32) with
    | h :: _ => t3.bootFail 5 0x07 (0x070 + h) 0
    | [] => t3.bootEnd 5 true))

/-! ### Step 6: the Roll (R594, R596, R598) -/

/-- The logical IDs of a kind with the physical units that carry them: the i-th good unit for logical unit i, and no agent where none is
left. -/
def State.mapKind (s : State) (k : Nat) : List (Nat × Nat) :=
  match sparedKinds[k]? with
  | some (l, n, _, _) =>
    let good := (kindUnits k).filter (fun p => !s.roll.bad.contains p)
    (List.range n).map (fun i => (l + i, good.getD i noAgent))
  | none => []

/-- Step 6, ROLL: mode 0 STRICT, 1 VACANT, 2 FLOORPLAN; 3 acts as 0. -/
def execBootRoll (w : Writer) (arg us : Nat) (s : State) : Res :=
  .next (s.bootRun w 6 arg us (fun t a =>
    let mode := if a % 4 = 3 then 0 else a % 4
    let map := (List.range 5).flatMap t.mapKind
    if mode = 0 && map.any (fun e => e.2 = noAgent) then t.bootFail 6 0x08 noAgent 0
    else
      let t1 : State := { t with roll := { t.roll with built := true, floorplan := decide (mode = 2), map := if mode = 2 then [] else map } }
      let t2 := (t1.wr ROLL_STAT_MODE 0 mode).wr ROLL_STAT_GEN 0 0
      let t3 := ((List.range 5).flatMap kindUnits).foldl State.physMark t2
      t3.rollCounts.bootEnd 6 true))

/-! ### Step 7: HBM (R599, 05_hbm.md R136, R137, R160, R161) -/

/-- Saturating addition within 8 bits, and subtraction down to 0. -/
def up8 (x n : Nat) : Nat := min 255 (x + n)

/-- What one stack's training leaves: the set in use, its source, and the stack's identity. A saved set is used when serial, pin rate and
version match, unless full training is asked for. -/
def State.trainStack (s : State) (full : Bool) (t : StackTrain) : State :=
  let m := t.m
  let old := (s.stack m).saved
  let use := match old with
    | some u => if !full && u.serial = t.serial && u.rate = t.rate && u.version = 1 then some u else none
    | none => none
  let src := if use.isSome then 2 else if full || old.isNone then 1 else 3
  -- R161: the envelope is widened by 5 °C and 10 mV on each side as it is captured
  let set : TrainSet := use.getD { serial := t.serial, rate := t.rate, version := 1, tMin := t.tMin - 5, tMax := up8 t.tMax 5
                                   vqMin := t.vqMin - 2, vqMax := up8 t.vqMax 2, ldMin := t.ldMin, ldMax := t.ldMax, laneMap := t.laneMap, eq := t.eq }
  let s1 := s.updStack m (fun x => { x with
    present := true, serial := t.serial, rate := t.rate, gib := t.gib, hardLeft := t.hardLeft, hotOnce := false, ueHere := 0
    laneMap := set.laneMap, eq := set.eq, recentring := false, vddq := t.vddq, lost := false })
  let s2 := ((((s1.wr HBM_TRAIN_T_MIN m set.tMin).wr HBM_TRAIN_T_MAX m set.tMax).wr HBM_TRAIN_VQ_MIN m set.vqMin).wr HBM_TRAIN_VQ_MAX m set.vqMax)
  let s3 := (((s2.wr HBM_TRAIN_LD_MIN m set.ldMin).wr HBM_TRAIN_LD_MAX m set.ldMax).wr HBM_TRAIN_SOURCE m src).wr HBM_TRAIN_OUT_ENV m 0
  (s3.wr HBM_REPAIR_LANES m set.laneMap.length).wr HBM_STAT_STATE m 3

/-- The training result of a stack position; one that is not given did not train. -/
def trainOf (ts : List StackTrain) (m : Nat) : StackTrain := (ts.find? (fun t => t.m = m)).getD { m := m }

/-- A stack trains when it says so, at a pin rate of R136 that is the first stack's. -/
def trainOk (ts : List StackTrain) (first m : Nat) : Bool :=
  let t := trainOf ts m
  t.ok && [64, 80, 92, 100].contains t.rate && t.rate = (trainOf ts first).rate

/-- Step 7, HBM: HBM holds nothing until it is written again, and the stack domains open once every stack is READY. -/
def execBootHbm (w : Writer) (arg us : Nat) (ts : List StackTrain) (s : State) : Res :=
  .next (s.bootRun w 7 arg us (fun t a =>
    let pop := t.populated
    let first := pop.headD 0
    let t0 := (t.wr HUB_HBM_SIZE_TOTAL_GIB 0 0).wr HUB_HBM_SIZE_STACK_GIB 0 0
    let t1 := t0.stackDoms.foldl (fun u d => (u.powerOff d).setDom d domOff) t0
    let t2 : State := { t1 with hbm := { t1.hbm with homes := [] } }
    let gib := (trainOf ts first).gib
    if !([1, 2, 4, 8].contains pop.length) then t2.bootFail 7 0x09 noAgent 0
    else match pop.find? (fun m => !([16, 24, 32, 48, 64].contains (trainOf ts m).gib) || (trainOf ts m).gib ≠ gib) with
      | some m => t2.bootFail 7 0x0E (0x090 + m) 0
      | none =>
        let good := pop.filter (trainOk ts first)
        -- STACK_GIB shows the capacity as the first stack completes training (01_architecture.md R19)
        let t3 := (good.foldl (fun u m => u.trainStack (a % 2 = 1) (trainOf ts m)) t2).wr HUB_HBM_SIZE_STACK_GIB 0 (if good.isEmpty then 0 else gib)
        match pop.find? (fun m => !trainOk ts first m) with
        | some m => t3.bootFail 7 0x0A (0x090 + m) 0
        | none =>
          let t4 := (t3.zeroRange 0 0x8000000000).wr HUB_HBM_SIZE_TOTAL_GIB 0 (gib * pop.length)
          (pop.foldl (fun u m => u.setDom (0xAB + m) domOpen) t4).bootEnd 7 true))

/-! ### Step 8: links (R600, 01_architecture.md R32) -/

/-- One link trains: its domain opens; a native link is seeded from a saved set that matches. -/
def State.bootLink (s : State) (full : Bool) (t : LinkTrain) : State :=
  let l := t.l
  let seeded : Bool := !full && s.linkMode l = 1 && (match SMap.get? s.rve.linkSets l with
    | some x => decide (x.mode = s.linkMode l ∧ x.peer = t.peer ∧ x.version = 1)
    | none => false)
  let s1 := (s.setDom (0xBB + l) domOpen).updLink l (fun x => { x with peer := t.peer, seeded := seeded })
  let s2 := (s1.retrainLink l).trainEnd l t.up t.lanes lnkFailed
  if s2.rd LNK_STAT_STATE l = lnkUp then s2 else s2.inc BOOT_STAT_UNIT_FAILS 0 1

/-- Step 8, LINKS: the domain of every populated link opens (an anchor needs no trained link of its own, 15_fabric_links.md R488, R499); every
link whose mode is not off and that is not UP trains; HUB_NUMBER locks. DEDUCED. -/
def execBootLinks (w : Writer) (arg us : Nat) (ts : List LinkTrain) (s : State) : Res :=
  .next (s.bootRun w 8 arg us (fun t a =>
    let t1 := t.wr HUB_NUMBER_LOCKED 0 1
    let ls := (List.range 48).filter (fun l => t1.domExists (0xBB + l) && t1.linkMode l ≠ 0 && t1.rd LNK_STAT_STATE l ≠ lnkUp)
    let t2 := ((List.range 48).filter (fun l => t1.domExists (0xBB + l))).foldl (fun u l => u.setDom (0xBB + l) domOpen) t1
    (ls.foldl (fun u l => u.bootLink (a % 2 = 1) ((ts.find? (fun x => x.l = l)).getD { l := l })) t2).bootEnd 8 true))

/-! ### Steps 9 to 11 -/

/-- Step 9: the site sequence starts on every populated site that reads FAILED or OFF; the step ends once none is in its sequence (R602). -/
def State.bootSites (s : State) : State :=
  ((List.range 8).foldl (fun t n =>
    let st := t.rd SITE_STAT_STATE n
    if t.domExists (siteDom n) && (st = 8 || st = 1) then t.openDom (siteDom n) else t) s).sitesBooted

/-- Step 10: the images that are not complete are broadcast (R587, R606). -/
def State.bootCrier (s : State) : State := State.crierSlots 0 4 0 s

/-- The start of a step by GO: steps 9 and 10 begin their work, and the others wait for the command that performs them. -/
def State.bootGo (s : State) (k arg : Nat) : State :=
  let s1 := s.bootStart k arg
  if s1.bootStep k ≠ 1 then s1
  else if k = 9 then s1.bootSites
  else if k = 10 then s1.bootCrier
  else s1

/-- A GO with STEP k. -/
def State.bootCommand (s : State) (w : Writer) (k arg : Nat) : State :=
  if !bootWriter w then s
  else if !s.bootAccepts k then s.bootRefuse k
  else s.bootGo k arg

def execBootSites (w : Writer) (arg : Nat) (s : State) : Res := .next (s.bootCommand w 9 arg)
def execBootCrier (w : Writer) (arg : Nat) (s : State) : Res := .next (s.bootCommand w 10 arg)

/-- The ready criteria of R608 that fail, as the bits of DETAIL. -/
def State.notReady (s : State) : Nat :=
  (if (List.range 10).all (fun j => s.bootStep (j + 1) = 2) then 0 else 1) + (if s.flag HUB_NUMBER_LOCKED then 0 else 2) +
  (if s.flag VST_STAT_READY then 0 else 4) + (if s.populated.all (fun m => s.rd HBM_STAT_STATE m = 3) then 0 else 8) +
  (if s.rd STW_STAT_FW_UP ≠ 0 then 0 else 16)

/-- Step 11, READY (R608). -/
def execBootReady (w : Writer) (arg us : Nat) (s : State) : Res :=
  .next (s.bootRun w 11 arg us (fun t _ =>
    let n := t.notReady
    if n = 0 then ((t.bootEnd 11 true).wr BOOT_STAT_READY 0 1).stwTurn else t.bootFail 11 0x0D noAgent n))

/-! ### BOOT_SAVE (R601) -/

/-- Store the set in use of every READY stack; the bit clears once the sets are in flash. -/
def execBootSaveHbm (w : Writer) (s : State) : Res :=
  .next (if bootWriter w then
    ((List.range 8).foldl (fun t m => if t.rd HBM_STAT_STATE m = 3 then t.saveSet m else t) s).wr BOOT_SAVE_HBM 0 0
  else s)

/-- Store the set of every UP native link. -/
def execBootSaveLinks (w : Writer) (s : State) : Res :=
  .next (if bootWriter w then
    ((List.range 48).foldl (fun t l =>
      if t.rd LNK_STAT_STATE l = lnkUp && t.linkMode l = 1 then
        t.updRve (fun r => { r with linkSets := SMap.put r.linkSets l { mode := 1, peer := (t.link l).peer, version := 1 } })
      else t) s).wr BOOT_SAVE_LINKS 0 0
  else s)

end Sys2Proof.Machine
end

