-- ==== Sys2Proof/Machine/Domains.lean ====
section
/-!
DEFINITION. Machine/Domains.lean: the steps of a Stile domain that the Reeve waits for (02_commons.md R58-R61, 18_bringup.md R602,
19_faults_resets.md R620-R636).
-/

namespace Sys2Proof.Machine

/-- STILE_ACK: a state report of an interface reaches the Stile controller, or its answer to a Roll update reaches the Reeve (R58, R65). -/
def execStileAck (agent st : Nat) (s : State) : Res :=
  let p : Pkt := { opc := 0x31, dst := 0x1C1, src := agent, data := natLe 8 st, note := 6 }
  .next (if s.com.out.contains p && s.lands p then (s.rollAck p).reeveTurn else s.stileAck agent st)

/-- DOMAIN_FENCED (R59); what waits for the domain goes on. -/
def execDomainFenced (dom : Nat) (s : State) : Res := .next ((s.domainFenced dom).reeveTurn)

/-- DOMAIN_POWER_OFF (R59, R61). -/
def execDomainPowerOff (dom : Nat) (s : State) : Res :=
  .next (((s.domainPowerOff dom).sitesBooted).reeveTurn.stwTurn)

/-- Whether the live update still loads the unit of a domain, which opens with its image (19_faults_resets.md R625). -/
def State.domLoads (s : State) (dom : Nat) : Bool :=
  match s.rve.fw.bind (·.cur) with
  | some a => agentDom a = some dom && (s.rxOf a).st ≠ 1
  | none => false

/-- A link whose domain opens begins to train where its MODE is not off (15_fabric_links.md R475, R512). -/
def State.linkOpened (s : State) (dom : Nat) : State :=
  if 0xBB ≤ dom && dom ≤ 0xEA && s.domSt dom = domOpen then
    let l := dom - 0xBB
    if s.linkMode l ≠ 0 && s.rd LNK_STAT_STATE l = 0 then s.retrainLink l else s
  else s

/-- DOMAIN_OPENED (R61). -/
def execDomainOpened (dom : Nat) (ok : Bool) (s : State) : Res :=
  .next (if s.domSt dom ≠ domOpening || (ok && s.domLoads dom) then s
  else (((s.domainOpened dom ok).linkOpened dom).sitesBooted).reeveTurn.stwTurn)

end Sys2Proof.Machine
end

