-- ==== Sys2Proof/Machine/Flash.lean ====
section
/-!
DEFINITION. Machine/Flash.lean: staging and activating images in flash (20_management_power.md R642-R646, R664).
-/

namespace Sys2Proof.Machine

/-- An operation of RVE_FLASH_CMD ends with a STATUS. -/
def State.flashEnd (s : State) (status : Nat) : State := (s.wr RVE_FLASH_CMD_GO 0 0).wr RVE_FLASH_CMD_STATUS 0 status

/-- A write of RVE_FLASH_CMD with GO: refused while GO is 1 (R664), and with STATUS 1 in PLDM update mode (R646). -/
def State.flashGo (s : State) (w : Writer) (op slot len : Nat) (f : State → State) : State :=
  if !rveWriter w then s
  else if s.flag RVE_FLASH_CMD_GO then s.wr RVE_FLASH_CMD_REJECTED 0 1
  else if s.rve.pldm ≠ 0 then (s.wr RVE_FLASH_CMD_REJECTED 0 1).wr RVE_FLASH_CMD_STATUS 0 1
  else f ((((s.wr RVE_FLASH_CMD_OP 0 op).wr RVE_FLASH_CMD_SLOT 0 slot).wr RVE_FLASH_CMD_LEN 0 len).wr RVE_FLASH_CMD_GO 0 1)

/-- The bytes of a slot that a command programs: at most the slot's region, so that no other slot is touched. -/
def slotBytes : Nat := 0x100000

/-- Copy header and image into the inactive bank and check them (R645): the STATUS, and the state after. `fault` is the flash offset at which
programming or verifying failed. -/
def State.stage (s : State) (slot : Nat) (d : List Byte) (fault : Option Nat) : Nat × State :=
  let bank := 1 - s.bankOf slot
  let s1 := (s.updRve (fun r => { r with staged := eraseNat r.staged slot })).flashPut (bankBase bank slot) (d.take slotBytes)
  match fault with
  | some a => (4, s1.raise 0x0069 3 0x1C1 a)
  | none =>
    if (s1.imageIn bank slot).isSome then (0, s1.updRve (fun r => { r with staged := insertNat r.staged slot })) else (3, s1)

/-- STAGE at work: the bytes are in HBM at RVE_FLASH_SRC. -/
def State.stageRun (s : State) (fault : Option Nat) : State :=
  let slot := s.rd RVE_FLASH_CMD_SLOT
  let len := s.rd RVE_FLASH_CMD_LEN
  if 6 ≤ slot then s.flashEnd 2
  else if 8192 + imgLimit slot < len then s.flashEnd 3
  else
    match s.snoopRead 0x1C1 (s.rd RVE_FLASH_SRC_HPA * 4096) len with
    | (.wait, s1) => s1
    | (.none, s1) => s1.flashEnd 3
    | (.data d bad, s1) =>
      if bad then s1.flashEnd 3
      else
        let (st, s2) := s1.stage slot d fault
        s2.flashEnd st

/-- FLASH_STAGE: a STAGE that a register write started comes to its end; otherwise GO comes with the command. -/
def execFlashStage (w : Writer) (slot len : Nat) (fault : Option Nat) (s : State) : Res :=
  .next (if s.flag RVE_FLASH_CMD_GO && s.rd RVE_FLASH_CMD_OP = 1 then s.stageRun fault
  else s.flashGo w 1 slot len (fun t => t.stageRun fault))

/-- The bytes of a directory copy (R644; log entry 104). -/
def dirBytes (seq banks : Nat) : List Byte :=
  let b := natLe 4 seq ++ natLe 1 banks ++ zeros 3
  b ++ natLe 4 (crc32c b)

/-- Make the other bank of a slot active: the copy that is not in force is written with SEQ + 1. -/
def State.flipBank (s : State) (slot : Nat) : State :=
  let (k, seq, banks) := s.imageDir
  (s.flashPut (0x1000 * (2 - k)) (dirBytes ((seq + 1) % 2 ^ 32) (banks ^^^ 2 ^ slot))).updRve (fun r =>
    { r with staged := eraseNat r.staged slot })

/-- ACTIVATE of a slot: the STATUS, and the state after. -/
def State.activate (s : State) (slot : Nat) : Nat × State :=
  if 6 ≤ slot then (2, s) else if !s.rve.staged.contains slot then (1, s) else (0, s.flipBank slot)

/-- FLASH_ACTIVATE (R645). -/
def execFlashActivate (w : Writer) (slot : Nat) (s : State) : Res :=
  .next (s.flashGo w 2 slot (s.rd RVE_FLASH_CMD_LEN) (fun t =>
    let (st, t1) := t.activate (slot % 8)
    t1.flashEnd st))

/-- FLASH_OP_INVALID: OP 3 and slots 6-7 end with STATUS 2, OP 0 at once with STATUS 0 (log entry 110). -/
def execFlashOpInvalid (w : Writer) (op slot : Nat) (s : State) : Res :=
  let bad : Bool := decide (op % 4 = 3 ∨ 6 ≤ slot % 8)
  .next (if (op % 4 = 1 || op % 4 = 2) && !bad then s
  else s.flashGo w (op % 4) slot (s.rd RVE_FLASH_CMD_LEN) (fun t => t.flashEnd (if bad then 2 else 0)))

end Sys2Proof.Machine
end

