-- ==== Sys2Proof/Machine/Csr.lean ====
section
/-!
DEFINITION. Machine/Csr.lean: reads of the registers of BAR0 (00_scope.md R7-R10, 01_architecture.md R22, R24, R666): what each status
field reports of the rest of the state.
-/

namespace Sys2Proof.Machine

/-! ### Where a register lies -/

/-- The register at an aligned offset, the index of the unit that holds it, and whether a unit is there: a logical tile, mover or Mill slice
is read at the physical unit that carries it, and in floor-plan mode the physical unit itself (01_architecture.md R666, 18_bringup.md R598). -/
def State.csrAt (s : State) (off : Nat) : Option (RegDef × Nat × Bool) :=
  let unit (r : RegDef) (i logical phys n : Nat) : Option (RegDef × Nat × Bool) :=
    if s.roll.floorplan then some (r, i, true)
    else if n ≤ i then none
    else match s.physOf (logical + i) with
      | some p => some (r, p - phys, true)
      | none => some (r, i, false)
  match findReg (off / 8 * 8) with
  | none => none
  | some (r, i) =>
    if (s.csrServer off).isNone then none
    else if r.far then unit r i 0x000 0x200 64
    else if r.base = MOV_STAT.base || r.base = MOV_BYTES.base then unit r i 0x040 0x250 32
    else if r.base = MILL_SLICE.base then unit r i 0x060 0x280 16
    else some (r, i, true)

/-! ### What a register reads -/

/-- A register's value with a field set. -/
def setF (v : Word) (f : RF) (x : Nat) : Word := setBits v f.hi f.lo x

/-- The value with a one-bit field set. -/
def setB (v : Word) (f : RF) (b : Bool) : Word := setF v f (if b then 1 else 0)

/-- A count that saturates at the field's width. -/
def setSat (v : Word) (f : RF) (n : Nat) : Word := setF v f (min n f.top)

/-- What COM_AGENT reads for a physical agent. -/
def State.agentView (s : State) (a : Nat) (v : Word) : Word :=
  let st := match agentDom a with
    | some d => if (s.iface a).isolated then 5 else if s.domExists d then s.domSt d else 7
    | none => if (s.iface a).isolated then 5 else 0
  let pl := placeOf a
  setF (setF (setF (setF (setF (setF v COM_AGENT_DOMAIN ((agentDom a).getD 0xFF)) COM_AGENT_STATE st) COM_AGENT_PHYS a)
    COM_AGENT_ROW pl.row) COM_AGENT_COL pl.col) COM_AGENT_PORT pl.port

/-- COM_AGENT: 6 for a logical ID, a spared kind's or 0x3FE, without a unit, and 7 for an ID that is not allocated. -/
def State.comAgent (s : State) (a : Nat) (v : Word) : Word :=
  let none_ (st : Nat) : Word := setF (setF (setF v COM_AGENT_DOMAIN 0xFF) COM_AGENT_STATE st) COM_AGENT_PHYS noAgent
  match s.physOf a with
  | some p => s.agentView p v
  | none => none_ (if isSpared a then 6 else 7)

/-- LOOM_STAT of a physical tile (08_loom_isa.md). -/
def State.loomState (s : State) (t : Nat) : Nat :=
  let x := s.tile t
  if s.domState t ≠ domOpen then 7
  else if x.parked then 3
  else if x.claim.isSome then 4
  else match x.run, x.wait with
    | none, _ => 0
    | some _, some (.ending _ _ _ _ _ _) => 5
    | some _, _ => if x.launches.isEmpty then 1 else 2

/-- Whether no running work uses a table of formats older than the active one (MOV_FMT_CTL.DRAINED). -/
def State.drained (s : State) : Bool :=
  let g := s.rd MOV_FMT_CTL_GEN
  s.tiles.all (fun e => e.2.run.isNone || e.2.fmtGen = g) &&
  s.movers.all (fun e => match e.2 with
    | j :: _ => j.phase = 5 || j.gen = none || j.gen = some g
    | [] => true) &&
  s.mill.items.all (fun i => !i.started || i.fate.isSome || i.gen = g)

/-- A list of conditions as bits, bit 0 first. -/
def boolBits : List Bool → Nat
  | [] => 0
  | b :: l => (if b then 1 else 0) + 2 * boolBits l

/-- The first queue of each mover as MOV_STAT shows them. -/
def State.movStat (s : State) (m : Nat) (v : Word) : Word :=
  let qs := (List.range 8).map (fun q => s.movQ m q)
  let head (f : MovJob → Bool) : Nat := boolBits (qs.map (fun l => match l with | j :: _ => f j | [] => false))
  setF (setF (setF (setF v MOV_STAT_BUSY (head (fun _ => true))) MOV_STAT_FAULTED (head (fun j => j.fault || j.busy)))
    MOV_STAT_ITEMS ((qs.map List.length).foldl (· + ·) 0)) MOV_STAT_STATE (s.domState (0x44 + m))

/-- STW_POOL_STAT of a pool that is READY (12_steward_resources.md R390-R394). -/
def State.poolStat (s : State) (p : Nat) (v : Word) : Word :=
  if s.rd STW_POOL_CFG_STATE p ≠ 2 then setF v STW_POOL_STAT_LARGEST 0xFF
  else
    let ord := s.rd STW_POOL_CFG_MAXORD p
    let bs := s.poolBlocks p
    let largest := (((List.range (ord + 1)).reverse).find? (fun o => (s.lowestFree p o).isSome)).getD 0xFF
    let held := (bs.map (fun b => 2 ^ b.ord)).foldl (· + ·) 0
    setF (setF (setF v STW_POOL_STAT_FREE (s.rd STW_POOL_CFG_COUNT p * 2 ^ ord - held)) STW_POOL_STAT_LIVE
      (bs.filter (fun b => !b.zeroing)).length) STW_POOL_STAT_LARGEST largest

/-- HEP_STAT. -/
def State.hepStat (s : State) (v : Word) : Word :=
  let h := s.hep
  setB (setB (setB (setB (setB (setB (setF (setB (setF v HEP_STAT_LTR_STATE h.ltrState) HEP_STAT_FLR_BUSY h.flr) HEP_STAT_RATE h.rate)
    HEP_STAT_D3HOT h.d3) HEP_STAT_BME h.bme) HEP_STAT_CXL h.cxlEn) HEP_STAT_FLIT (h.rate = 5)) HEP_STAT_WIDTH (s.flag HEP_CFGREC_X8))
    HEP_STAT_LINK_UP h.linkUp

/-- The oldest record of the fate log, as FATE_LOG_HDR and FATE_LOG_ENT show it. -/
def State.fateHdr (s : State) (v : Word) : Word :=
  match s.hep.log with
  | r :: _ => setF (setB (setB (setF v FATE_LOG_HDR_FSEQ r.fseq) FATE_LOG_HDR_VALID true) FATE_LOG_HDR_HELD r.held) FATE_LOG_HDR_CAUSE r.cause
  | [] => v
def State.fateEnt (s : State) (k : Nat) (v : Word) : Word :=
  match s.hep.log with
  | r :: _ => setF v FATE_LOG_ENT_REPLY (leNat ((r.reply.drop (8 * k)).take 8))
  | [] => v

/-- The oldest lost line of a home (04_coherence.md R134), and the entry of the table of POISONED pages that IDX selects (05_hbm.md R151). -/
def State.lostEnt (s : State) (h : Nat) (v : Word) : Word :=
  match (s.home h).lost with
  | e :: _ => setB (setF (setF (setF v HBM_HOME_LOST_ENT_CAUSE e.cause) HBM_HOME_LOST_ENT_AGENT e.agent) HBM_HOME_LOST_ENT_HPA (e.hpa / 128))
      HBM_HOME_LOST_ENT_VALID true
  | [] => v
def State.gpoisEnt (s : State) (v : Word) : Word :=
  match s.hbm.gpois[s.rd HBM_GPOIS_STAT_IDX]? with
  | some e => setB (setB (setF v HBM_GPOIS_ENT_HPA e.1) HBM_GPOIS_ENT_RESTORING e.2) HBM_GPOIS_ENT_VALID true
  | none => v

/-- The statuses that show other state, by register: the state, the index, and the value stored. -/
def csrViews : List (RegDef × (State → Nat → Word → Word)) :=
  [ (HUB_VERSION, fun _ _ v => setF (setF v HUB_VERSION_STEP Config.stepping.toNat) HUB_VERSION_METAL Config.metal.toNat),
    -- agents that always reach the CSR space: 0x190-0x194, 0x1C0 and 0x1C1 (01_architecture.md R22)
    (COM_CSR_ACC, fun _ k v => if k = 6 then setBits v 20 16 0x1F else if k = 7 then setBits v 1 0 3 else v),
    (COM_DOMAIN, fun s d v =>
      let out := ((domAgents d).map (fun a => (s.iface a).outstanding.length)).foldl (· + ·) 0
      let inb := ((domAgents d).map (fun a => (s.iface a).inbound.length)).foldl (· + ·) 0
      setF (setB (setSat (setSat v COM_DOMAIN_OUTBOUND out) COM_DOMAIN_INBOUND inb) COM_DOMAIN_ISO (s.domIso d)) COM_DOMAIN_STATE (s.domState d)),
    (COM_AGENT, fun s a v => s.comAgent a v),
    (HBM_HOME_SF, fun s h v =>
      let x := s.home h
      setSat (setF (setF v HBM_HOME_SF_ENTRIES x.entries.length) HBM_HOME_SF_OVF_SETS x.ovf.length) HBM_HOME_SF_BUSY x.busy.length),
    (HBM_HOME_UNTRK, fun s h v =>
      (List.range 9).foldl (fun w c => setBits w (7 * c + 6) (7 * c) (min 127 (SMap.getD (s.home h).untrk c 0))) v),
    (HBM_HOME_LOST_STAT, fun s h v => setF v HBM_HOME_LOST_STAT_COUNT (s.home h).lost.length),
    (HBM_HOME_LOST_ENT, fun s h v => s.lostEnt h v),
    (HBM_REPAIR, fun s m v => setF v HBM_REPAIR_HARD_LEFT (s.stack m).hardLeft),
    (HBM_GPOIS_STAT, fun s _ v => setF v HBM_GPOIS_STAT_COUNT s.hbm.gpois.length),
    (HBM_GPOIS_ENT, fun s _ v => s.gpoisEnt v),
    (MOV_FMT_CTL, fun s _ v => setB v MOV_FMT_CTL_DRAINED s.drained),
    (LOOM_STAT, fun s t v => setF (setF v LOOM_STAT_STATE (s.loomState t)) LOOM_STAT_QUEUE (s.tile t).vq.length),
    (MILL_SLICE, fun s k v =>
      setF (setF (setF (setF v MILL_SLICE_STAGING_KB (s.stagingOn k / 1024)) MILL_SLICE_ACCEPTED (s.mill.items.filter (fun i => i.lead = k)).length)
        MILL_SLICE_STRIPES (s.stripesOn k).length) MILL_SLICE_STATE (s.domState (0x66 + k))),
    (MOV_STAT, fun s m v => s.movStat m v),
    (MOV_FLT_STAT, fun s _ v => setF (setF v MOV_FLT_STAT_ENTRIES s.xlt.faults.length) MOV_FLT_STAT_HELD s.xlt.held.length),
    (STW_STAT, fun s _ v => setF (setB v STW_STAT_RETIRED s.stw.retired) STW_STAT_INFLIGHT (s.stw.items.filter (fun i => i.q ≠ 0xFFFE)).length),
    (STW_QSTAT, fun s q v => setSat v STW_QSTAT_INFLIGHT (s.stw.items.filter (fun i => i.q = q)).length),
    (STW_USAGE, fun s t v => setF (setF v STW_USAGE_HBM_USED (s.usage t 0)) STW_USAGE_CEL_USED (s.usage t 1)),
    (STW_POOL_STAT, fun s p v => s.poolStat p v),
    (STW_KV_STAT, fun s k v => setF v STW_KV_STAT_FREE (if s.flag STW_KV_CFG1_STATE k then s.kvFree k else 0)),
    (STW_GEN_STAT, fun s _ v => setF v STW_GEN_STAT_LIVE s.genSeqs.length),
    -- bit 62 of RES_DATA3 is STALE (11_steward_commands.md R382)
    (RES_DATA, fun s k v => if k = 3 then setBits v 62 62 (if s.rd RES_STAT_STATE = 2 then 0 else 1) else v),
    (LNK_RT_ACC, fun s _ v =>
      let e := SMap.get? s.fab.routes (s.rd LNK_RT_ACC_IDX)
      setF (setB v LNK_RT_ACC_VALID e.isSome) LNK_RT_ACC_SET (e.getD 0)),
    (LNK_XP_STAT, fun s _ v => setF (setF v LNK_XP_STAT_SEND_CTX s.fab.send.length) LNK_XP_STAT_RECV_CTX s.fab.recv.length),
    (HEP_STAT, fun s _ v => s.hepStat v),
    (FATE_LOG_STAT, fun s _ v => setF v FATE_LOG_STAT_COUNT s.hep.log.length),
    (FATE_LOG_HDR, fun s _ v => s.fateHdr v),
    (FATE_LOG_ENT, fun s k v => s.fateEnt k v),
    (VST_STAT, fun s _ v =>
      setF (setF v VST_STAT_EPOCH s.vst.otp.epoch) VST_STAT_MODELS ((List.range 32).filter (fun e => s.rd VST_MODEL_STATE e ≠ 0)).length),
    (VST_TALLY, fun s _ v =>
      setF (setF (setF (setF v VST_TALLY_LC_LEFT s.lcLeft) VST_TALLY_EPOCH_LEFT s.epochLeft) VST_TALLY_OWNER_LEFT s.ownerLeft)
        VST_TALLY_ANCHOR_FREE s.anchorFree),
    (LCS_STAT, fun s _ v => setF (setF (setF v LCS_STAT_DONE s.vst.otp.fin) LCS_STAT_INTENT s.vst.otp.intent) LCS_STAT_STATE s.lcState),
    (LDG_STAT, fun s _ v =>
      setF (setB (setF v LDG_STAT_SEQ s.ledger.nextSeq) LDG_STAT_FULL (ledgerRoom - ledgerReserve ≤ s.ledgerUsed)) LDG_STAT_PENDING
        s.ledger.sram.length),
    (LDG_PTR, fun s _ v => setF v LDG_PTR_OLDEST s.ledgerOldest),
    (RVE_DOM_RET, fun s k v =>
      v &&& BitVec.ofNat 64 (boolBits ((List.range 64).map (fun i => s.domExists (64 * k + i))))),
    (RVE_EVT_STAT, fun s _ v => setF v RVE_EVT_STAT_HELD s.rve.held.length),
    (RVE_OOB, fun s _ v => setB (setF v RVE_OOB_STATIC_ADDR (0x58 + s.rve.straps / 2 % 8)) RVE_OOB_BUS (s.rve.straps % 2 = 1)) ]

/-- What a register reads. -/
def State.csrValue (s : State) (r : RegDef) (i : Nat) : Word :=
  match csrViews.find? (fun e => e.1.base = r.base) with
  | some (_, f) => f s i (s.reg r i)
  | none => s.reg r i

/-- What a register reads whose unit is absent: its reset value, and the state of a domain that does not exist. -/
def RegDef.absent (r : RegDef) (i : Nat) : Word :=
  if r.base = MOV_STAT.base then setF (r.resetAt i) MOV_STAT_STATE 7
  else if r.base = MILL_SLICE.base then setF (r.resetAt i) MILL_SLICE_STATE 7
  else r.resetAt i

/-- The result of a tile that a sealed tenant owns reads 0, with a record in the Ledger (17_security.md R553). -/
def State.tileSecret (s : State) (r : RegDef) (t : Nat) : Bool :=
  (r.base = LOOM_RESULT.base || r.base = LOOM_LAST.base) && s.sealedTenant (s.rd LOOM_STAT_OWNER t)

/-- The endpoint's windows of 32-bit words in BAR0: CXL component and device registers, the MSI-X table and its PBA (16_host_endpoint.md
R520). -/
def epWindow (off : Nat) : Bool := (0x1D10000 ≤ off && off < 0x1D30000) || (0x1D40000 ≤ off && off < 0x1D48100)

/-- The HDM decoder registers that are stored, by offset among the component registers (log entry 60). -/
def hdmWritable (o : Nat) : Bool := o = 0x1204 || (0x1210 ≤ o && o ≤ 0x1220)

/-- A word of the endpoint's windows. Word 3 of an MSI-X entry holds the vector's mask in bit 0; a decoder that is committed says so in bit
10. -/
def State.epWord (s : State) (off : Nat) : Nat :=
  if 0x1D48000 ≤ off then
    boolBits ((List.range 32).map (fun k => s.hep.pba.contains ((off - 0x1D48000) * 8 + k)))
  else if 0x1D40000 ≤ off then
    let k := (off - 0x1D40000) / 4
    if k % 4 = 3 then (if s.hep.unmasked.contains (k / 4) then 0 else 1) else (SMap.getD s.hep.msixTab k 0).toNat
  else
    let o := off - 0x1D10000
    if hdmWritable o then
      let v := (SMap.getD s.hep.hdm o 0).toNat
      if o = 0x1220 && Nat.testBit v 9 then v ||| 1024 else v
    else (Config.cxlReg off).toNat

/-- A write of a word of the endpoint's windows. -/
def State.epSetWord (s : State) (off v : Nat) : State :=
  if 0x1D48000 ≤ off then s
  else if 0x1D40000 ≤ off then
    let k := (off - 0x1D40000) / 4
    if k % 4 = 3 then
      s.updHep (fun h => { h with unmasked := if v % 2 = 1 then eraseNat h.unmasked (k / 4) else insertNat h.unmasked (k / 4) })
    else s.updHep (fun h => { h with msixTab := SMap.set 0 h.msixTab k (BitVec.ofNat 32 v) })
  else
    let o := off - 0x1D10000
    if hdmWritable o then s.updHep (fun h => { h with hdm := SMap.set 0 h.hdm o (BitVec.ofNat 32 v) }) else s

/-- Whether a register is not readable: in END_OF_LIFE all but HUB_VERSION, LCS_STAT and the mailbox that IDENTITY needs (17_security.md R548). What a read
of another returns is a free value (log entry 143). -/
def State.eolHidden (s : State) (r : RegDef) : Bool :=
  s.lcState = 3 && !([HUB_VERSION, LCS_STAT, VST_MBOX_CTL, VST_MBOX_STAT, VST_MBOX_BUF].map (·.base)).contains r.base

/-- A read of `size` bytes at a BAR0 offset: the value, whether a register was read, and the state after (00_scope.md R7, 01_architecture.md
R24). -/
def State.regRead (s : State) (off size : Nat) : Nat × Bool × State :=
  let cut (v : Word) : Nat := v.toNat / 256 ^ (off % 8) % 256 ^ size
  if (size ≠ 4 && size ≠ 8) || off % size ≠ 0 then (256 ^ size - 1, false, s)
  else if epWindow off then ((s.epWord off + 2 ^ 32 * s.epWord (off + 4)) % 256 ^ size, true, s)
  else match s.csrAt off with
    | none => (0, false, s)
    | some (r, i, false) => (cut (r.absent i), true, s)
    | some (r, i, true) =>
      let v := s.csrValue r i
      if s.eolHidden r then (leNat (s.freeBytes size), true, s.fresh size)
      else if r.far && s.tileSecret r i then
        (cut (if r.base = LOOM_RESULT.base then 0 else setF (setF v LOOM_LAST_OFFSET 0) LOOM_LAST_MCAUSE 0), true,
          s.ledgerRefusal 3 (s.rd LOOM_STAT_OWNER i) (0xF0000000000 + off))
      else (cut v, true, s)

end Sys2Proof.Machine
end

