-- ==== Sys2Proof/Machine/Loss.lean ====
section
/-!
DEFINITION. Machine/Loss.lean: the commands that may lose a stack, and the retirement of the hub that follows (05_hbm.md R139-R142, R149-R165,
09_mill.md R301, 11_steward_commands.md R367).
-/

namespace Sys2Proof.Machine

/-- Once a stack is lost the hub retires (R165): the Mill aborts its collectives, and every other item in flight fails with STACK_LOST. -/
def State.lossTurn (s : State) : State :=
  if s.stw.retired || !(List.range 8).any s.stackLost then s
  else
    let s1 := s.millRetire
    let s2 : State := { s1 with stw := { s1.stw with retired := true } }
    (s2.failItems (fun i => !(i.st = 2 && kindOf ((s2.physOf i.unit).getD noAgent) = .mill)) stStackLost).stwTurn

/-- STACK_LOSS: a condition of R164 that no other command shows has lost the stack, with its cause. -/
def execStackLoss (m cause : Nat) (s : State) : Res := .next ((s.loseStack m cause).lossTurn)

/-- A DRAM read of a line returns at its home with what the outer code found (05_hbm.md R139-R142, R149, R150, R165): the
oldest read of the line. A granule that must be rebuilt waits until no member of its stripe is busy. -/
def execHomeReadComplete (h line : Nat) (c : CodeRead) (s : State) : Res :=
  .next (match (s.home h).reads.find? (fun r => r.line = line) with
  | none => s
  | some r =>
    if s.readWaits line r.data.length c then s
    else
      let s0 := if s.readsMembers line r.data.length c && !s.stackLost (s.stackOf (line * 128)) then s.chargeMembers r.req (line * 128 / 256 * 256) else s
      let s1 := s0.updHome h (fun x => { x with reads := x.reads.erase r })
      let (d, poison, st, s2) := s1.codeRead line r.data r.poison c false
      ((s2.sendRead h r.req d poison st).checkUes).lossTurn)

/-- The next waiting entry of a released line is served, and with it whatever goes before it in the order of the home (04_coherence.md R119, 13_sluice.md
R425). -/
def execLineWaiterServed (line : Nat) (s : State) : Res :=
  let h := s.homeOfLine line
  .next (match (s.home h).waiters.find? (fun w => w.lines.contains line) with
  | some w => ((s.pump h (fun t => !(t.home h).waiters.contains w) (s.home h).waiters.length).checkUes).lossTurn
  | none => s)

/-- The 1 ms temperature reading of a stack (R156, R157, R159, R162). `vddq` is in units of 5 mV. -/
def execStackTempRead (m temp refresh vddq : Nat) (s : State) : Res :=
  .next (if s.rd HBM_STAT_STATE m ≠ 3 then s
  else
    let s1 := ((s.wr HBM_STAT_TEMP_C m temp).wr HBM_STAT_REFRESH m refresh).updStack m (fun x =>
      { x with vddq := vddq, hotOnce := decide (s.catC m ≤ temp) })
    let s2 := if s.thrC m ≤ temp then s1.setStep m (min 3 (s.rd HBM_STAT_STEP m + 1)) else s1
    if s.catC m ≤ temp && (s.stack m).hotOnce then (s2.loseStack m 2).lossTurn else s2.checkEnv m)

/-- A scrub read of a granule, as a line transaction of its home, which waits for a busy line (R152, R154, 04_coherence.md R119). With SCRUB_H 0 no scrub
runs, so no scrub period ends (log entry 10). -/
def execScrubRead (m hpa : Nat) (c : CodeRead) (row : Nat) (s : State) : Res :=
  .next (if s.rd HBM_CFG_SCRUB_H m = 0 || s.stackOf hpa ≠ m || s.stackLost m then s
  else ((s.enterWait (s.homeOf hpa) (.scrub hpa c row)).checkUes).lossTurn)

/-- A failing lane moves to a spare lane of its channel, which enters the lane repair map, or the stack is lost (R153, R161, R164 cause 0). -/
def execLaneRepair (m : Nat) (fix : LaneFix) (s : State) : Res :=
  .next (match fix.spare with
  | some k => (s.updStack m (fun x => { x with laneMap := x.laneMap.filter (fun e => e.1 ≠ fix.lane) ++ [(fix.lane, k)] })).inc HBM_REPAIR_LANES m 1
  | none => (s.loseStack m 0).lossTurn)

/-- A stack has been silent toward its controller for 10 ms (R164 cause 1). -/
def execStackNoAnswerTimeout (m : Nat) (s : State) : Res := .next ((s.loseStack m 1).lossTurn)

end Sys2Proof.Machine
end

