-- ==== Sys2Proof/Machine/SluCmds.lean ====
section
/-!
DEFINITION. Machine/SluCmds.lean: the commands of the Sluice (13_sluice.md R424, R429-R434).
-/

namespace Sys2Proof.Machine

/-- What the regulators held goes on where their buckets allow it now: at every home, at every module in both directions, and at every link
(R425, R428). -/
def State.sluPump (s : State) : State :=
  let homes := (List.range 32).foldl (fun (t : State) h => if (t.home h).waiters.isEmpty then t else t.pumpAll h) s
  let modules := (List.range 64).foldl (fun (t : State) k =>
    let x := t.slot (k / 8) (k % 8)
    let t1 := if x.outHeld.isEmpty then t else t.pumpOut (k / 8) (k % 8)
    if x.inHeld.isEmpty then t1 else (t1.pumpIn (k / 8) (k % 8)).cxlGo (k / 8)) homes
  let links := (List.range 48).foldl (fun (t : State) l => if (t.link l).txq.isEmpty then t else t.drainLink l) modules
  links.checkUes.lossTurn

/-- Every 8 ns the buckets refill, to their depth at most (R424), and requests that waited for them go on. -/
def execBucketRefill (s : State) : Res :=
  let up (rate : Nat → Nat) (m : SMap Nat) : SMap Nat :=
    (m.map (fun e => (e.1, e.2 - rate e.1 * s.sluRate e.1))).filter (fun e => e.2 ≠ 0)
  .next ({ s with slu := { s.slu with g := up s.sluMin s.slu.g, x := up s.sluMax s.slu.x } } : State).sluPump

/-- Record a miss (R431): the register, the count, and the event. -/
def State.sluMiss (s : State) (kind dir unit which short : Nat) : State :=
  let r := (((((((s.wr SLU_MISS_VALID 0 1).wr SLU_MISS_KIND 0 kind).wr SLU_MISS_DIR 0 dir).wr SLU_MISS_UNIT 0 unit).wr
    SLU_MISS_WHICH 0 which).wr SLU_MISS_SHORT 0 (min short (2 ^ 18 - 1))).wr SLU_MISS_WHEN 0 (s.time / 1024 % 2 ^ 32))
  let c := match kind with
    | 0 => r.inc SLU_MISS_CNT_HBM 0 1
    | 1 => r.inc SLU_MISS_CNT_PORT 0 1
    | _ => r.inc SLU_MISS_CNT_DEADLINE 0 1
  c.raise 0x0020 0 noAgent (c.reg SLU_MISS 0).toNat

/-- Unit, direction and number of a regulator's key. -/
def sluName (key : Nat) : Nat × Nat × Nat :=
  if key < 100000 then (key / 16, 0, key % 16) else ((key - 100000) / 16, (key - 100000) / 8 % 2, (key - 100000) % 8)

/-- The steps in force at a regulator in the present window, in order. -/
def State.stepsOf (s : State) (key : Nat) : List Nat :=
  if key < 100000 then SMap.getD s.slu.steps (key / 64) [] ++ [s.rd HBM_STAT_STEP (key / 64)] else [0]

/-- The bytes by which a partition or class fell short of its guarantee (R429): `backlog` holds the ns of backlog under each step in turn, over
which the MIN rate is integrated. -/
def State.shortfall (s : State) (key : Nat) (backlog : List Nat) : Nat :=
  (((s.stepsOf key).zip backlog).map (fun e => s.sluMin key * s.sluRateAt key e.1 * e.2)).foldl (· + ·) 0 / (8 * sluByte) -
    s.sluDepth key - SMap.getD s.slu.served key 0

/-- SLU_WINDOW_END: `meas` is what the regulators measured of backlog in the window, in ns by partition or class, one entry for each step that was in
force at a home (R429-R431). -/
def execSluWindowEnd (meas : List (Nat × Nat)) (s : State) : Res :=
  let keys := ((meas.map (·.1)).filter (fun k => s.sluMin k ≠ 0)).eraseDups
  let short := (keys.map (fun k => (k, s.shortfall k ((meas.filter (fun m => m.1 = k)).map (·.2))))).filter (fun m => 0 < m.2)
  let limit := s.rd SLU_DLCFG_DL_LIMIT
  let late := s.slu.excess.filter (fun e => limit ≠ 0 && limit ≤ e.2)
  let s1 := short.foldl (fun t m =>
    let (u, d, w) := sluName m.1
    t.sluMiss (if m.1 < 100000 then 0 else 1) d u w (m.2 / 1024)) s
  let s2 := late.foldl (fun t e =>
    let (u, d, w) := if e.1 < 100000 then (e.1 / 8, 0, e.1 % 8) else sluName e.1
    t.sluMiss 2 d u w e.2) s1
  let regs := ((short.map (fun (m : Nat × Nat) => if m.1 < 100000 then m.1 / 16 else m.1 / 16 + 1000)) ++
    (late.map (fun (e : Nat × Nat) => if e.1 < 100000 then e.1 / 8 else e.1 / 16 + 1000))).eraseDups
  let s3 := regs.foldl (fun t _ => t.msix (t.rd SLU_CTL_VECTOR)) s2
  let s4 := (List.range 16).foldl (fun (t : State) p =>
    let kb := ((s.slu.served.filter (fun e => e.1 < 100000 && e.1 % 16 = p)).map (·.2)).foldl (· + ·) 0 / 1024
    let t1 := t.wr SLU_PSTAT_SERVED_KB p (min kb (2 ^ 32 - 1))
    if short.any (fun m => m.1 < 100000 && m.1 % 16 = p) then t1.inc SLU_PSTAT_MISSES p 1 else t1) s3
  .next { s4 with slu := { s4.slu with served := [], excess := [], steps := [] } }

/-- Whether the shadow settings may be applied (R433). -/
def State.sluLawful (s : State) : Bool :=
  let sum (l : List Nat) : Nat := l.foldl (· + ·) 0
  (List.range 16).all (fun p => s.rd SLU_PART_MIN p ≤ s.rd SLU_PART_MAX p && s.rd SLU_PART_MIN p ≤ 4096 && s.rd SLU_PART_MAX p ≤ 4096) &&
  (List.range 896).all (fun i => s.rd SLU_PORT_MIN i ≤ min 256 (s.rd SLU_PORT_MAX i)) &&
  sum ((List.range 16).map (fun p => s.rd SLU_PART_MIN p)) ≤ 3276 &&
  sum ((List.range 16).map (fun p => s.rd SLU_PART_ENT_MIN p)) ≤ 192 &&
  (List.range 112).all (fun k => sum ((List.range 8).map (fun c => s.rd SLU_PORT_MIN (8 * k + c))) ≤ 204)

/-- SLU_CTL.COMMIT (R433, R434). -/
def execSluCommit (w : Writer) (s : State) : Res :=
  .next (if !stwWriter w then s
  else if s.flag SLU_CTL_COMMIT || !s.sluLawful then s.wr SLU_CTL_REJECTED 0 1
  else (s.wr SLU_CTL_COMMIT 0 1).wr SLU_CTL_GEN 0 ((s.rd SLU_CTL_GEN + 1) % 65536))

/-- The keys of every bucket: of the homes, the links and the modules. -/
def sluKeys : List Nat :=
  List.range 512 ++ (List.range 768).map (fun i => portKey (8 + i / 16) (i / 8 % 2) (i % 8)) ++
    (List.range 1024).map (fun i => moduleKey (i / 16 % 8) (i / 128) (i / 8 % 2) (i % 8))

/-- Every regulator uses the new settings: levels stay, clipped to the new depths (R433). -/
def execSluCommitDone (s : State) : Res :=
  .next (if !s.flag SLU_CTL_COMMIT then s
  else
    let act := s.regs.filter (fun e => (0x200100 ≤ e.1 && e.1 < 0x200300) ||
      (0x201000 ≤ e.1 && e.1 < 0x201100 && e.1 % 16 = 0) || (0x204000 ≤ e.1 && e.1 < 0x205C00))
    let t : State := { s with slu := { s.slu with act := act } }
    let clip (m : SMap Nat) : SMap Nat := sluKeys.foldl (fun n k =>
      SMap.set 0 n k (SMap.getD m k 0 + t.sluDepth k * sluByte - s.sluDepth k * sluByte)) []
    (({ t with slu := { t.slu with g := clip t.slu.g, x := clip t.slu.x } } : State).wr SLU_CTL_COMMIT 0 0).sluPump)

/-- SLU_MISS_CNT.CLEAR. -/
def execSluMissClear (w : Writer) (s : State) : Res :=
  .next (if !stwWriter w then s
  else if s.flag SLU_CTL_COMMIT then s.wr SLU_CTL_REJECTED 0 1
  else s.resetReg SLU_MISS_CNT 0)

end Sys2Proof.Machine
end

