-- ==== Sys2Proof/Machine/XltEnd.lean ====
section
/-!
DEFINITION. Machine/XltEnd.lean: invalidation and the responses to faults (10_data_movers.md R338, R343-R346, 14_sites.md
R453-R455).
-/

namespace Sys2Proof.Machine

/-! ### Invalidation (R338, 14_sites.md R455) -/

/-- Site channels that wait on a BUSY page translate again (R346). -/
def State.siteBusyAgain (s : State) (x : XInv) : State :=
  s.sites.foldl (fun t e => e.2.slots.foldl (fun u y =>
    (y.2.xw.filter (fun c => c.2 = 3 && (x.scope = 0 || s.rd SITE_WQ_ASID (wqIdx e.1 c.1) = x.asid))).foldl (fun v c =>
      v.stlResume (moduleAgent e.1 y.1) c.1 none) u) t) s

/-- XLT_INV to the site logic of every slot that takes messages (14_sites.md R443, R455). -/
def State.siteInv (s : State) (x : XInv) : State :=
  (List.range 64).foldl (fun t k =>
    let n := k / 8
    let u := k % 8
    if !t.modAlive n u || ((t.slot n u).cxl && u ≠ 0) then t
    else
      let tag := (t.slot n u).freeTag
      (t.updSlot n u (fun y => { y with inv := some (tag, 0), nextTag := (tag + 1) % 4096 })).siteSend n u
        { typ := 0x36, tag := tag, data := natLe 2 x.asid ++ natLe 1 x.scope ++ zeros 5 ++ natLe 8 (x.va + x.count % 65536) }) s

/-- A write of MOV_XLT_INV with GO (R338, R352). COUNT 0 means 65,536 pages; SCOPE 3 invalidates nothing. -/
def execXltInvGo (w : Writer) (scope asid va count : Nat) (s : State) : Res :=
  .next (if !xltWriter w then s
  else if s.flag MOV_XLT_INV_GO then s.wr MOV_XLT_INV_REJECTED 0 1
  else
    let s1 := (((s.wr MOV_XLT_INV_SCOPE 0 scope).wr MOV_XLT_INV_ASID 0 asid).wr MOV_XLT_INV_VA_VA 0 (va / 65536)).wr MOV_XLT_INV_VA_COUNT 0 count
    if scope % 4 = 3 then s1
    else
      let x : XInv := { scope := scope % 4, asid := asid, va := va / 65536 * 65536, count := if count = 0 then 65536 else count
                        walks := s1.walksNow, descs := [] }
      let y : XInv := { x with descs := s1.pinsIn x }
      let s2 := ((s1.wr MOV_XLT_INV_GO 0 1).updXlt (fun t => { t with inv := some y })).dropScope y
      ((s2.busyAgain y).siteBusyAgain y).siteInv y)

/-- The invalidation ends: GO clears (R338). -/
def execXltInvComplete (s : State) : Res :=
  .next (match s.xlt.inv with
  | none => s
  | some x =>
    let sites := (List.range 64).all (fun k => (s.slot (k / 8) (k % 8)).inv.isNone || !s.modAlive (k / 8) (k % 8))
    if s.invClear x && !s.moverWrites && sites then
      ((s.dropScope x).updXlt (fun t => { t with inv := none })).wr MOV_XLT_INV_GO 0 0
    else s)

/-! ### Responses and timeouts (R343-R346) -/

/-- A waiter goes on, or fails with a code and its FID. -/
def State.resumeWaiter (s : State) (w : Waiter) (failWith : Option (Nat × Nat)) : State :=
  match kindOf w.agent with
  | .mover => s.resumeMover w failWith
  | .site n => (s.stlResume w.agent w.stream (failWith.map (·.1))).cxlGo n
  | .steward => s.stwResume w.stream failWith
  | _ => s

/-- Close an entry: every waiter goes on or fails. -/
def State.closeFault (s : State) (fid : Nat) (fail : Option Nat) : State :=
  match s.xlt.faults.find? (fun e => e.fid = fid) with
  | none => s
  | some e =>
    e.waiters.foldl (fun t w => t.resumeWaiter w (fail.map (fun st => (st, fid))))
      (s.updXlt (fun x => { x with faults := x.faults.filter (fun y => y.fid ≠ fid) }))

/-- A write of MOV_FLT_RESP with GO; GO clears within it, since every waiter is resumed or failed at once. -/
def State.faultResp (s : State) (w : Writer) (fid action : Nat) (fail : Option Nat) : State :=
  if !xltWriter w then s
  else
    let s1 := (s.wr MOV_FLT_RESP_FID 0 fid).wr MOV_FLT_RESP_ACTION 0 action
    if s.xlt.faults.all (fun e => e.fid ≠ fid) then s1.wr MOV_FLT_RESP_REJECTED 0 1 else s1.closeFault fid fail

def execFltRespRetry (w : Writer) (fid : Nat) (s : State) : Res := .next (s.faultResp w fid 0 none)
def execFltRespFail (w : Writer) (fid : Nat) (s : State) : Res := .next (s.faultResp w fid 1 (some stXltFault))

/-- An entry still open after TMO_MS (R345); TIMEOUTS counts it. -/
def execFaultEntryTimeout (fid : Nat) (s : State) : Res :=
  .next (if s.xlt.faults.any (fun e => e.fid = fid) then (s.inc MOV_FLT_STAT_TIMEOUTS 0 1).closeFault fid (some stXltTmo) else s)

/-- A write that waits on a BUSY page translates again, or fails after TMO_MS (R346): of queue `q` of a mover, or of channel `q` of a
module. -/
def execBusyPageRetry (agent q : Nat) (expired : Bool) (s : State) : Res :=
  .next (match kindOf agent with
  | .mover =>
    (match s.movQ (agent - 0x250) q with
     | j :: _ =>
       if !j.busy then s
       else if expired then s.failJob (agent - 0x250) q stXltTmo 0
       else s.updJob (agent - 0x250) q (fun x => { x with busy := false, phase := 0, pins := [] })
     | [] => s)
  | .site _ =>
    if SMap.getD (s.slot (siteOf agent) (slotOf agent)).xw q 0 ≠ 3 then s
    else s.stlResume agent q (if expired then some stXltTmo else none)
  | _ => s)

end Sys2Proof.Machine
end

