-- ==== Sys2Proof/Machine/CsrSet.lean ====
section
/-!
DEFINITION. Machine/CsrSet.lean: writes of the registers of BAR0 (00_scope.md R7-R9, 01_architecture.md R22, R24, R666) and the commands
that their strobes start.
-/

namespace Sys2Proof.Machine

/-- A write as it reaches a register: its writer, the register's index, the bits written, and their values. -/
structure RegWr where
  w : Writer
  i : Nat
  m : Word
  v : Word
  deriving DecidableEq, Repr

/-- The bits of a register whose fields have an access type. -/
def RegDef.bitsWith (r : RegDef) (a : Access) : Word :=
  r.fields.foldl (fun x f => if f.acc = a then setBits x f.hi f.lo (2 ^ (f.hi - f.lo + 1) - 1) else x) 0

/-- Whether the write covers a field. -/
def RegWr.covers (c : RegWr) (f : RF) : Bool := bitsOf c.m f.hi f.lo ≠ 0

/-- Whether the write puts a 1 into a one-bit field. -/
def RegWr.strobe (c : RegWr) (f : RF) : Bool := bitsOf (c.m &&& c.v) f.hi f.lo = 1

/-- The register with the bits written merged in. -/
def RegWr.merged (c : RegWr) (s : State) (r : RegDef) : Word := (s.reg r c.i &&& ~~~ c.m) ||| (c.v &&& c.m)

/-- A field of the merged register. -/
def RegWr.get (c : RegWr) (s : State) (f : RF) : Nat := bitsOf (c.merged s f.reg) f.hi f.lo

/-- Clear the W1C bits that the write names (00_scope.md R9). -/
def State.clearBits (s : State) (r : RegDef) (c : RegWr) : State :=
  s.setReg r c.i (s.reg r c.i &&& ~~~ (r.bitsWith .w1c &&& c.m &&& c.v))

/-- Store the RW fields but those of `keep`, and clear W1C bits. -/
def State.storeBut (s : State) (r : RegDef) (keep : List RF) (c : RegWr) : State :=
  let held : Word := keep.foldl (fun x f => setF x f f.top) 0
  let m := r.bitsWith .rw &&& c.m &&& ~~~ held
  (s.setReg r c.i ((s.reg r c.i &&& ~~~ m) ||| (c.v &&& m))).clearBits r c

/-- Store the RW fields and clear W1C bits. -/
def State.store (s : State) (r : RegDef) (c : RegWr) : State := s.storeBut r [] c

/-- Whether the write changes an RW field but those of `but`. -/
def RegWr.changes (c : RegWr) (s : State) (r : RegDef) (but : List RF) : Bool :=
  let held : Word := but.foldl (fun x f => setF x f f.top) 0
  let m := r.bitsWith .rw &&& c.m &&& ~~~ held
  c.v &&& m ≠ s.reg r c.i &&& m

/-- Perform a command as part of a write. -/
def State.doing (s : State) (f : State → Res) : State := stateOr (f s) s

/-- The meaning of a write of one register. -/
abbrev RegEffect := RegWr → State → State

/-- Only some writers have an effect. -/
def onlyBy (ok : Writer → Bool) (f : RegEffect) : RegEffect := fun c s => if ok c.w then f c s else s

/-- A register that is stored. -/
def stored (r : RegDef) : RegEffect := fun c s => s.store r c

/-! ### Commons, homes and stacks -/

def wrHubNumber : RegEffect := fun c s =>
  if s.flag HUB_NUMBER_LOCKED then s else s.wr HUB_NUMBER_HUB 0 (c.get s HUB_NUMBER_HUB)

/-- 02_commons.md R61, R68. -/
def wrStileCmd : RegEffect := fun c s =>
  if s.flag COM_STILE_CMD_GO then s.wr COM_STILE_CMD_REJECTED 0 1
  else
    let s1 := s.store COM_STILE_CMD c
    if !c.strobe COM_STILE_CMD_GO then s1
    else
      let d := s1.rd COM_STILE_CMD_DOMAIN
      match s1.rd COM_STILE_CMD_OP with
      | 0 => s1.doing (execStileClose d)
      | 1 => s1.doing (execStileOpen d)
      | 2 => s1.doing (execStileForceOff d)
      | op => s1.doing (execStileOpReserved op d)

def wrIsoCmd : RegEffect := fun c s =>
  let s1 := s.store COM_ISO_CMD c
  let a := s1.rd COM_ISO_CMD_AGENT
  let s2 := if c.strobe COM_ISO_CMD_ISOLATE then s1.doing (execIsoIsolate a) else s1
  if c.strobe COM_ISO_CMD_RELEASE then s2.doing (execIsoRelease a) else s2

/-- 02_commons.md R55: DEAD_US reads at most 524,287, and REQ_US at least twice the DEAD_US in use. -/
def wrComTmo : RegEffect := fun c s =>
  let s1 := s.store COM_TMO c
  let dead := min (s1.rd COM_TMO_DEAD_US 0) 524287
  (s1.wr COM_TMO_DEAD_US 0 dead).wr COM_TMO_REQ_US 0 (max (s1.rd COM_TMO_REQ_US 0) (2 * max 1 dead))

def wrComErr : RegEffect := fun c s =>
  let s1 := s.store COM_ERR c
  if c.strobe COM_ERR_CLEAR then s1.doing execComErrClear else s1

def wrHomeCfg : RegEffect := fun c s =>
  let s1 := s.store HBM_HOME_CFG c
  if c.strobe HBM_HOME_CFG_CNT_CLEAR then s1.doing (execHomeCntClear c.i) else s1

def wrLostStat : RegEffect := fun c s => if c.strobe HBM_HOME_LOST_STAT_POP then s.doing (execLostLinePop c.i) else s

def wrHbmErr : RegEffect := fun c s => if c.strobe HBM_ERR_CLEAR then s.doing (execHbmErrClear c.i) else s

def wrHbmRepair : RegEffect := fun c s =>
  let s1 := s.store HBM_REPAIR c
  if c.strobe HBM_REPAIR_BURN then s1.doing (execHbmBurn c.i) else s1

def wrHbmTrain : RegEffect := fun c s => if c.strobe HBM_TRAIN_SAVE then s.doing (execHbmTrainSave c.i) else s

/-- 05_hbm.md R148. -/
def wrGranCfg : RegEffect := fun c s =>
  if !granWriter c.w then s.wr HBM_GRAN_CFG_REJECTED 0 1
  else if !c.changes s HBM_GRAN_CFG [] then s.store HBM_GRAN_CFG c
  else if s.hbm.gran.any (fun e => e.2.st ≠ 0) || (c.get s HBM_GRAN_CFG_COUNT ≠ 0 && s.populated.length ≠ 8) then
    s.wr HBM_GRAN_CFG_REJECTED 0 1
  else s.store HBM_GRAN_CFG c

/-- 05_hbm.md R147, R148. -/
def wrGranCmd : RegEffect := fun c s =>
  if !granWriter c.w || s.flag HBM_GRAN_CMD_GO then s.wr HBM_GRAN_CMD_REJECTED 0 1
  else
    let s1 := s.store HBM_GRAN_CMD c
    if !c.strobe HBM_GRAN_CMD_GO then s1
    else
      let b := s1.rd HBM_GRAN_CMD_BLOCK
      let p := s1.rd HBM_GRAN_CMD_PAGE
      match s1.rd HBM_GRAN_CMD_OP with
      | 0 => s1.doing (execGranQuery c.w b)
      | 1 => s1.doing (execGranFill c.w b)
      | 2 => s1.doing (execGranSeal c.w b)
      | 3 => s1.doing (execGranRelease c.w b)
      | 4 => s1.doing (execGranRestoreBegin c.w b p)
      | 5 => s1.doing (execGranRestoreEnd c.w b p)
      | op => s1.doing (execGranOpNone c.w op b)

/-! ### Formats, Mill, translation -/

/-- 06_number_formats.md R179. -/
def wrFmtDesc : RegEffect := fun c s => if s.flag MOV_FMT_CTL_COMMIT then s.wr MOV_FMT_CTL_REJECTED 0 1 else s.store MOV_FMT_DESC c

def wrFmtCtl : RegEffect := fun c s =>
  let s1 := s.store MOV_FMT_CTL c
  if c.strobe MOV_FMT_CTL_COMMIT then s1.doing execFmtCommit else s1

def wrMillCfg : RegEffect := fun c s =>
  let s1 := s.store MILL_CFG c
  if c.strobe MILL_CFG_CNT_CLEAR then s1.doing execMillCntClear else s1

/-- 09_mill.md R277, R307. -/
def wrGroup (r : RegDef) : RegEffect := fun c s =>
  if !grpWriter c.w || s.groupUsed c.i then s.wr MILL_GRP_CFG_REJECTED c.i 1
  else
    let s1 := s.store r c
    if r.base = MILL_GRP_CFG.base && c.strobe MILL_GRP_CFG_COMMIT then s1.doing (execMillGrpCommit c.w c.i) else s1

/-- 10_data_movers.md R338, R352. -/
def wrXltInv : RegEffect := fun c s =>
  if s.flag MOV_XLT_INV_GO then s.wr MOV_XLT_INV_REJECTED 0 1
  else
    let s1 := s.store MOV_XLT_INV c
    if c.strobe MOV_XLT_INV_GO then
      s1.doing (execXltInvGo c.w (s1.rd MOV_XLT_INV_SCOPE) (s1.rd MOV_XLT_INV_ASID) (s1.rd MOV_XLT_INV_VA_VA * 65536) (s1.rd MOV_XLT_INV_VA_COUNT))
    else s1

def wrXltInvVa : RegEffect := fun c s => if s.flag MOV_XLT_INV_GO then s.wr MOV_XLT_INV_REJECTED 0 1 else s.store MOV_XLT_INV_VA c

def wrFltRing : RegEffect := fun c s => let s1 := s.store MOV_FLT_RING c; State.ringDrain s1.xlt.held.length s1

def wrFltPtr : RegEffect := fun c s =>
  let h := c.get s MOV_FLT_PTR_HEAD
  let s1 := s.clearBits MOV_FLT_PTR c
  if c.covers MOV_FLT_PTR_HEAD then s1.doing (execFaultRingHead c.w h) else s1

def wrFltResp : RegEffect := fun c s =>
  let s1 := s.store MOV_FLT_RESP c
  let fid := s1.rd MOV_FLT_RESP_FID
  if !c.strobe MOV_FLT_RESP_GO then s1
  else if s1.rd MOV_FLT_RESP_ACTION = 0 then s1.doing (execFltRespRetry c.w fid)
  else s1.doing (execFltRespFail c.w fid)

/-! ### Steward -/

/-- VALID clears with the other fields of a first-error register (STW_ERR, SITE_ERR). -/
def wrFirstErr (r : RegDef) (valid : RF) : RegEffect := fun c s => if c.strobe valid then s.resetReg r c.i else s

def wrMboxCmd : RegEffect := fun c s =>
  if s.rd RES_STAT_STATE ≠ 0 then s.wr STW_MBOX_CTL_REJECTED 0 1 else s.store STW_MBOX_CMD c

def wrResAck : RegEffect := fun c s => if c.strobe RES_ACK_ACK then s.doing (execResAck c.w) else s

def wrMboxCtl : RegEffect := fun c s =>
  let s1 := s.store STW_MBOX_CTL c
  if c.strobe STW_MBOX_CTL_GO then s1.doing (execMboxGo c.w) else s1

/-- 11_steward_commands.md R357. -/
def wrQbase : RegEffect := fun c s =>
  if s.rd STW_QCFG_STATE c.i ≠ 0 then s.wr STW_QCFG_REJECTED c.i 1 else s.store STW_QBASE c

def wrQcfg : RegEffect := fun c s =>
  let q := c.i
  let s1 := s.clearBits STW_QCFG c
  let s2 := if !c.changes s STW_QCFG [STW_QCFG_ENABLE] then s1
    else if s.rd STW_QCFG_STATE q ≠ 0 then s1.wr STW_QCFG_REJECTED q 1
    else s1.storeBut STW_QCFG [STW_QCFG_ENABLE] { c with v := c.v &&& ~~~ STW_QCFG.bitsWith .w1c }
  if !c.covers STW_QCFG_ENABLE then s2
  else if c.strobe STW_QCFG_ENABLE then s2.doing (execQueueEnable c.w q)
  else s2.doing (execQueueDisable c.w q)

def wrCqbase : RegEffect := fun c s => s.doing (execCqbaseWrite c.w c.i (c.merged s STW_CQBASE).toNat)
def wrEvt : RegEffect := fun c s => s.doing (execEvtRegWrite c.w c.i (c.merged s STW_EVT).toNat)
def wrSqdb : RegEffect := fun c s => if c.covers STW_SQDB_TAIL then s.doing (execSqDoorbell c.w c.i (c.get s STW_SQDB_TAIL)) else s
def wrCqdb : RegEffect := fun c s => if c.covers STW_CQDB_HEAD then s.doing (execCqDoorbell c.w c.i (c.get s STW_CQDB_HEAD)) else s

/-- A commit value: the merged fields, with the W1C bits as they were written. -/
def RegWr.commit (c : RegWr) (s : State) (r : RegDef) : Nat :=
  ((c.merged s r &&& ~~~ r.bitsWith .w1c) ||| (c.m &&& c.v &&& r.bitsWith .w1c)).toNat

/-- 12_steward_resources.md R388, R391, R396, R418. -/
def wrRsv : RegEffect := fun c s =>
  if c.changes s STW_RSV [] then s.doing (execRsvWrite c.w (c.commit s STW_RSV)) else s.clearBits STW_RSV c

def wrPoolCfg : RegEffect := fun c s =>
  if c.strobe STW_POOL_CFG_COMMIT then s.doing (execPoolCommit c.w c.i (c.commit s STW_POOL_CFG))
  else
    let s1 := s.clearBits STW_POOL_CFG c
    if c.changes s STW_POOL_CFG [] then s1.wr STW_POOL_CFG_REJECTED c.i 1 else s1

def wrKvCfg0 : RegEffect := fun c s =>
  if !c.changes s STW_KV_CFG0 [] then s
  else if s.flag STW_KV_CFG1_STATE c.i then s.wr STW_KV_CFG1_REJECTED c.i 1
  else s.store STW_KV_CFG0 c

def wrKvCfg1 : RegEffect := fun c s =>
  if c.strobe STW_KV_CFG1_COMMIT then
    s.doing (execKvPoolCommit c.w c.i (s.reg STW_KV_CFG0 c.i).toNat (c.commit s STW_KV_CFG1))
  else
    let s1 := s.clearBits STW_KV_CFG1 c
    if c.changes s STW_KV_CFG1 [] then s1.wr STW_KV_CFG1_REJECTED c.i 1 else s1

/-- STW_GEN_OUT takes no change while the service runs; a write of the ring's base starts the ring anew, as R356 has it (12_steward_resources.md R414). -/
def wrGenOut : RegEffect := fun c s =>
  if s.genRuns then s
  else (((s.store STW_GEN_OUT c).wr STW_GEN_OUTPTR_HEAD 0 0).updGen (fun g => { g with tail := 0, phase := true }))

def wrGenOutptr : RegEffect := fun c s =>
  let s1 := s.storeBut STW_GEN_OUTPTR [STW_GEN_OUTPTR_HEAD] c
  if c.covers STW_GEN_OUTPTR_HEAD then s1.doing (execGenOutHead c.w (c.get s STW_GEN_OUTPTR_HEAD)) else s1

/-! ### Sluice, sites, links -/

/-- 13_sluice.md R434: a write while COMMIT is 1 is rejected. -/
def slu (f : RegEffect) : RegEffect := onlyBy stwWriter (fun c s => if s.flag SLU_CTL_COMMIT then s.wr SLU_CTL_REJECTED 0 1 else f c s)

def wrSluCtl : RegEffect := fun c s =>
  let s1 := s.store SLU_CTL c
  if c.strobe SLU_CTL_COMMIT then s1.doing (execSluCommit c.w) else s1

def wrMissCnt : RegEffect := fun c s => if c.strobe SLU_MISS_CNT_CLEAR then s.doing (execSluMissClear c.w) else s

/-- 14_sites.md R474. -/
def wrSiteCfg : RegEffect := fun c s =>
  if s.domSt (siteDom c.i) ≠ domOff then s.wr SITE_CFG_REJECTED c.i 1 else s.store SITE_CFG c

def wrSiteIrq : RegEffect := fun c s =>
  let s1 := s.storeBut SITE_IRQ [SITE_IRQ_MASK] c
  if c.covers SITE_IRQ_MASK then s1.doing (execSiteIrqUnmask c.w c.i (c.get s SITE_IRQ_MASK)) else s1

/-- 14_sites.md R456. -/
def wrSiteWq : RegEffect := fun c s =>
  let busy : Bool := s.flag SITE_WQ_ENABLE c.i || (s.site (c.i / 16)).work.any (fun x => x.wq = c.i % 16)
  let moved (f : RF) : Bool := c.get s f ≠ s.rd f c.i
  if busy && (moved SITE_WQ_TENANT || moved SITE_WQ_ASID || moved SITE_WQ_TRUST) then s.wr SITE_WQ_REJECTED c.i 1
  else s.store SITE_WQ c

/-- 15_fabric_links.md R476, R512. -/
def wrLnkCfg : RegEffect := fun c s =>
  let l := c.i
  let bad : Bool := c.get s LNK_CFG_MODE ≠ s.rd LNK_CFG_MODE l && s.domSt (0xBB + l) ≠ domOff
  let s1 := s.storeBut LNK_CFG (if bad then [LNK_CFG_MODE] else []) c
  let s2 := if bad then s1.wr LNK_CFG_REJECTED l 1 else s1
  if c.strobe LNK_CFG_RETRAIN then s2.doing (execLinkRetrain l) else s2

def wrLnkErr : RegEffect := fun c s => if c.strobe LNK_ERR_CLEAR then s.doing (execLnkErrClear c.i) else s

def wrRtAcc : RegEffect := fun c s =>
  let idx := c.get s LNK_RT_ACC_IDX
  if c.strobe LNK_RT_ACC_WRITE then s.doing (execRouteWrite idx (c.get s LNK_RT_ACC_VALID = 1) (c.get s LNK_RT_ACC_SET))
  else s.wr LNK_RT_ACC_IDX 0 idx

/-- Bits 7:6 of each byte read 0. -/
def wrAnchor : RegEffect := fun c s => s.store LNK_ANCHOR { c with v := c.v &&& 0x3F3F3F3F3F3F3F3F }

def wrWinCtl : RegEffect := fun c s =>
  let s1 := s.store LNK_WIN_CTL c
  if c.strobe LNK_WIN_CTL_COMMIT then s1.doing (execWindowCommit c.i) else s1

/-- The Reeve also writes LNK_TIME_CFG, 15_fabric_links.md R516. -/
def timeWriter (w : Writer) : Bool := stwWriter w || (match w with | .driver => false | .agent a => a = 0x1C1 | .oob => true)

/-! ### Host endpoint and Vestry -/

def wrUnsup : RegEffect := fun c s => if c.strobe HEP_UNSUP_CLEAR then s.doing (execHepUnsupClear c.w) else s
def wrFateStat : RegEffect := fun c s => if c.strobe FATE_LOG_STAT_POP then s.doing (execFatePop c.w) else s
def wrFateCtl : RegEffect := fun c s => if c.strobe FATE_CTL_ACK then s.doing (execFateAck c.w) else s

/-- A Vestry command by its number (17_security.md R583). -/
def State.vstCommand (s : State) (w : Writer) (cmd len : Nat) : State :=
  match cmd with
  | 1 => s.doing (execLcTransition w len)
  | 2 => s.doing (execDebugCert w len)
  | 3 => s.doing (execEpochRaise w len)
  | 4 => s.doing (execOwnerSet w len)
  | 5 => s.doing (execSiteAttest w len)
  | 6 => s.doing (execLedgerCheckpoint w len)
  | 7 => s.doing (execPurge w len)
  | 8 => s.doing (execIdentity w len)
  | _ => s

/-- 17_security.md R583: a write of CMD, LEN or GO while STATE is not FREE is rejected. -/
def wrVstMboxCtl : RegEffect := fun c s =>
  let s1 := s.clearBits VST_MBOX_CTL c
  let s2 := if c.strobe VST_MBOX_CTL_ACK then s1.doing (execVstMboxAck c.w) else s1
  let go := c.strobe VST_MBOX_CTL_GO
  if !go && !c.changes s2 VST_MBOX_CTL [] then s2
  else if s2.rd VST_MBOX_CTL_STATE ≠ 0 then s2.wr VST_MBOX_CTL_REJECTED 0 1
  else
    let s3 := s2.store VST_MBOX_CTL { c with v := c.v &&& ~~~ VST_MBOX_CTL.bitsWith .w1c }
    if go then s3.vstCommand c.w (s3.rd VST_MBOX_CTL_CMD) (s3.rd VST_MBOX_CTL_LEN) else s3

/-- 17_security.md R568: the region may not move while a directory entry is in use. -/
def wrVstDir : RegEffect := fun c s =>
  if c.changes s VST_DIR [] && (List.range 32).any (fun e => s.rd VST_MODEL_STATE e ≠ 0) then s.wr VST_DIR_REJECTED 0 1
  else s.store VST_DIR c

def wrLdgPtr : RegEffect := fun c s =>
  if c.covers LDG_PTR_EXPORTED then s.doing (execLedgerExport c.w (c.get s LDG_PTR_EXPORTED)) else s

/-! ### Boot, Reeve -/

/-- 18_bringup.md R586: the fields of a running step stay. -/
def wrBootCmd : RegEffect := fun c s =>
  let s1 := if s.flag BOOT_CMD_GO then s.clearBits BOOT_CMD c else s.store BOOT_CMD c
  if c.strobe BOOT_CMD_GO then s1.bootCommand c.w (c.get s BOOT_CMD_STEP) (c.get s BOOT_CMD_ARG) else s1

def wrBootSave : RegEffect := fun c s =>
  let s1 := if c.strobe BOOT_SAVE_HBM then s.doing (execBootSaveHbm c.w) else s
  if c.strobe BOOT_SAVE_LINKS then s1.doing (execBootSaveLinks c.w) else s1

/-- 19_faults_resets.md R637. OP 0 ends at once. -/
def wrSvcCmd : RegEffect := fun c s =>
  if s.flag RVE_SVC_CMD_GO then s.wr RVE_SVC_CMD_REJECTED 0 1
  else
    let s1 := s.store RVE_SVC_CMD c
    let arg := s1.rd RVE_SVC_CMD_ARG
    let high : Bool := 256 ≤ arg
    if !c.strobe RVE_SVC_CMD_GO then s1
    else match s1.rd RVE_SVC_CMD_OP with
      | 0 => s1.svcEnd 0
      | 1 => s1.doing (execSvcWarm c.w)
      | 2 => s1.doing (execSvcHubReset c.w)
      | 3 => s1.doing (execSvcDomainReset c.w (arg % 256) high)
      | 4 => s1.doing (execSvcDoze c.w)
      | 5 => s1.doing (execSvcWake c.w)
      | 6 => s1.doing (execSvcUnitFail c.w (arg % 256))
      | 7 => s1.doing (execSvcFwUpdate c.w (arg % 16) high)
      | 8 => s1.doing (execSvcRecal c.w (arg % 256))
      | op => s1.doing (execSvcOpInvalid c.w op arg)

def wrEvtRing : RegEffect := fun c s =>
  let s1 := s.store RVE_EVT_RING c
  if s1.rve.up && !s1.reeveAway then s1.evtDrain else s1

def wrEvtPtr : RegEffect := fun c s =>
  let h := c.get s RVE_EVT_PTR_HEAD
  let s1 := s.clearBits RVE_EVT_PTR c
  if c.covers RVE_EVT_PTR_HEAD then s1.doing (execEvtRingHead c.w h) else s1

/-- 20_management_power.md R645, R646, R664. STAGE leaves GO set until FLASH_STAGE performs it, unless its slot is none. -/
def wrFlashCmd : RegEffect := fun c s =>
  if s.flag RVE_FLASH_CMD_GO then s.wr RVE_FLASH_CMD_REJECTED 0 1
  else
    let s1 := s.store RVE_FLASH_CMD c
    let slot := s1.rd RVE_FLASH_CMD_SLOT
    let op := s1.rd RVE_FLASH_CMD_OP
    if !c.strobe RVE_FLASH_CMD_GO then s1
    else if op = 1 then s1.flashGo c.w 1 slot (s1.rd RVE_FLASH_CMD_LEN) (fun t => if 6 ≤ slot then t.flashEnd 2 else t)
    else if op = 2 then s1.doing (execFlashActivate c.w slot)
    else s1.doing (execFlashOpInvalid c.w op slot)

/-! ### Every register that takes writes -/

/-- The registers with writable fields and what a write of each does. -/
def regEffects : List (RegDef × RegEffect) :=
  [ (HUB_NUMBER, wrHubNumber), (COM_CSR_ACC, stored COM_CSR_ACC), (COM_STILE_CMD, wrStileCmd), (COM_STILE_TMO, stored COM_STILE_TMO),
    (COM_TMO, wrComTmo), (COM_ISO_CMD, wrIsoCmd), (COM_ERR, wrComErr), (COM_DOMAIN, stored COM_DOMAIN),
    (HBM_HOME_CFG, wrHomeCfg), (HBM_HOME_LOST_STAT, wrLostStat), (HBM_CFG, stored HBM_CFG), (HBM_ERR, wrHbmErr),
    (HBM_ERR_LOG, stored HBM_ERR_LOG), (HBM_REPAIR, wrHbmRepair), (HBM_TRAIN, wrHbmTrain), (HBM_GRAN_CFG, wrGranCfg),
    (HBM_GRAN_CMD, wrGranCmd), (HBM_GPOIS_STAT, stored HBM_GPOIS_STAT), (HBM_EVAC, stored HBM_EVAC),
    (MOV_FMT_DESC, wrFmtDesc), (MOV_FMT_CTL, wrFmtCtl), (MILL_CFG, wrMillCfg), (MILL_LOSS, stored MILL_LOSS),
    (MILL_GRP_CFG, wrGroup MILL_GRP_CFG), (MILL_GRP_LIST, wrGroup MILL_GRP_LIST), (MILL_GRP_ID, wrGroup MILL_GRP_ID) ] ++
  [ (MOV_XLT_CTX, stored MOV_XLT_CTX), (MOV_XLT_INV, wrXltInv), (MOV_XLT_INV_VA, wrXltInvVa), (MOV_FLT_CFG, stored MOV_FLT_CFG),
    (MOV_FLT_RING, wrFltRing), (MOV_FLT_PTR, wrFltPtr), (MOV_FLT_RESP, wrFltResp) ].map (fun e => (e.1, onlyBy xltWriter e.2)) ++
  [ (STW_CTL, stored STW_CTL), (STW_ERR, wrFirstErr STW_ERR STW_ERR_VALID), (STW_MBOX_CMD, wrMboxCmd), (RES_ACK, wrResAck),
    (STW_MBOX_CTL, wrMboxCtl), (STW_QBASE, wrQbase), (STW_QCFG, wrQcfg), (STW_CQBASE, wrCqbase), (STW_CQCFG, stored STW_CQCFG),
    (STW_EVT, wrEvt), (STW_SCHED, stored STW_SCHED), (STW_TENANT, stored STW_TENANT), (STW_RSV, wrRsv), (STW_POOL_CFG, wrPoolCfg),
    (STW_KV_CFG0, wrKvCfg0), (STW_KV_CFG1, wrKvCfg1), (STW_GEN_OUT, wrGenOut), (STW_GEN_OUTPTR, wrGenOutptr),
    (SITE_CFG, wrSiteCfg), (SITE_TMO, stored SITE_TMO), (SITE_IRQ, wrSiteIrq), (SITE_ERR, wrFirstErr SITE_ERR SITE_ERR_VALID),
    (SITE_WQ, wrSiteWq) ].map (fun e => (e.1, onlyBy stwWriter e.2)) ++
  [ (STW_SQDB, wrSqdb), (STW_CQDB, wrCqdb),
    (SLU_CTL, slu wrSluCtl), (SLU_DLCFG, slu (stored SLU_DLCFG)), (SLU_MISS, slu (stored SLU_MISS)), (SLU_MISS_CNT, slu wrMissCnt),
    (SLU_MAP, slu (stored SLU_MAP)), (SLU_PART, slu (stored SLU_PART)), (SLU_PORT, slu (stored SLU_PORT)) ] ++
  [ (LNK_CFG, wrLnkCfg), (LNK_ERR, wrLnkErr), (LNK_ETH_MAC, stored LNK_ETH_MAC), (LNK_ETH_GW, stored LNK_ETH_GW),
    (LNK_XP_CFG, stored LNK_XP_CFG), (LNK_IP_PFX0, stored LNK_IP_PFX0), (LNK_IP_PFX1, stored LNK_IP_PFX1), (LNK_RT_ACC, wrRtAcc),
    (LNK_ANCHOR, wrAnchor), (LNK_SET, stored LNK_SET), (LNK_WIN_IN, stored LNK_WIN_IN), (LNK_WIN_TGT, stored LNK_WIN_TGT),
    (LNK_WIN_CTL, wrWinCtl), (HEP_BAR2, stored HEP_BAR2), (HEP_UNSUP, wrUnsup), (HEP_LTR, stored HEP_LTR),
    (FATE_LOG_STAT, wrFateStat), (FATE_CTL, wrFateCtl) ].map (fun e => (e.1, onlyBy stwWriter e.2)) ++
  [ (LNK_TIME_CFG, onlyBy timeWriter (stored LNK_TIME_CFG)) ] ++
  [ (VST_MBOX_CTL, wrVstMboxCtl), (VST_MBOX_BUF, stored VST_MBOX_BUF), (VST_DIR, wrVstDir), (LDG_PTR, wrLdgPtr),
    (RVE_GRP_RET, stored RVE_GRP_RET), (RVE_DOM_RET, stored RVE_DOM_RET), (RVE_SVC_CMD, wrSvcCmd), (RVE_EVT_RING, wrEvtRing),
    (RVE_EVT_PTR, wrEvtPtr), (RVE_EVT_CFG, stored RVE_EVT_CFG), (PWR_CFG, stored PWR_CFG), (PWR_PMB, stored PWR_PMB),
    (RVE_OOB, stored RVE_OOB), (RVE_FLASH_SRC, stored RVE_FLASH_SRC), (RVE_FLASH_CMD, wrFlashCmd),
    (RVE_PTP_CFG, stored RVE_PTP_CFG) ].map (fun e => (e.1, onlyBy rveWriter e.2)) ++
  [ (BOOT_CMD, wrBootCmd), (BOOT_ERR, stored BOOT_ERR), (BOOT_SAVE, wrBootSave) ].map (fun e => (e.1, onlyBy bootWriter e.2))

/-- Whether doze leaves a register to be written: those of the endpoint, the Reeve, the Vestry and the Commons, and the doorbells
(19_faults_resets.md R635). -/
def dozeOpen (off : Nat) : Bool := (0x1C00000 ≤ off && off < 0x2000000) || (0x4000000 ≤ off && off < 0x8000000)

/-- A write of `size` bytes at a BAR0 offset: whether a register was written, and the state after. -/
def State.regWrite (s : State) (w : Writer) (off size value : Nat) : Bool × State :=
  if (size ≠ 4 && size ≠ 8) || off % size ≠ 0 then (false, s)
  else if epWindow off then
    let s1 := s.epSetWord off (value % 2 ^ 32)
    (true, if size = 8 then s1.epSetWord (off + 4) (value / 2 ^ 32) else s1)
  else match s.csrAt off with
    | none => (false, s)
    | some (_, _, false) => (true, s)
    | some (r, i, true) =>
      if s.rve.dozeStep = 2 && !dozeOpen off then
        (true, (((s.inc HEP_UNSUP_COUNT 0 1).wr HEP_UNSUP_REGION 0 0).wr HEP_UNSUP_WRITE 0 1).wr HEP_UNSUP_OFFSET 0 off)
      else match regEffects.find? (fun e => e.1.base = r.base) with
        | none => (true, s)
        | some (_, f) =>
          let sh := 8 * (off % 8)
          (true, f { w := w, i := i, m := BitVec.ofNat 64 ((256 ^ size - 1) <<< sh), v := BitVec.ofNat 64 (value <<< sh) } s)

/-- A register access through BAR0 by the host, in which one that reaches no register, or is not an aligned access of 4 or 8 bytes, is
counted (00_scope.md R7, 01_architecture.md R24). -/
def State.hostRegRead (s : State) (off size : Nat) : Nat × State :=
  let (v, ok, s1) := s.regRead off size
  (v, if ok then s1 else s1.hepUnsup 0 false off)
def State.hostRegWrite (s : State) (off size value : Nat) : State :=
  let (ok, s1) := s.regWrite .driver off size value
  if ok then s1 else s1.hepUnsup 0 true off

/-- REGISTER_WRITE (00_scope.md R9): the driver's writes come through BAR0, an agent's are refused without its CSR-access bit, and the
management bus acts as the Reeve. -/
def execRegisterWrite (w : Writer) (off size : Nat) (value : Word) (s : State) : Res :=
  .next (if s.rve.inReset then s
  else match w with
    | .driver => s.hostRegWrite off size value.toNat
    | .agent a => if s.csrAllowed a then (s.regWrite w off size value.toNat).2 else s
    | .oob => (s.regWrite w off size value.toNat).2)

/-! ### CSR_RD and CSR_WR (01_architecture.md R22, R666) -/

/-- Whether an agent has this register access outstanding without an answer. -/
def State.csrOpen (s : State) (q : Pkt) : Bool :=
  (s.iface q.src).outstanding.any (fun x => x.opc = q.opc && x.txn = q.txn && x.addr = q.addr) &&
  s.com.out.all (fun x => !(x.dst = q.src && x.txn = q.txn && (x.opc = 0x28 || x.opc = 0x29)))

/-- Issue a register access that its agent has not issued yet, then serve it. -/
def State.csrServe (s : State) (q : Pkt) (f : State → Nat → State) : State :=
  let s1 := if s.csrOpen q then s else s.request q
  match s1.spaceOf q.addr with
  | .csr off => if s1.csrOpen q then f s1 off else s1
  | _ => s1

def execCsrRd (p : Pkt) (s : State) : Res :=
  let q := { p with opc := 0x09 }
  .next (s.csrServe q (fun t off =>
    let (v, _, t1) := t.regRead off q.len
    t1.send (mkAnswer q ((t.csrServer off).getD q.src) stOk (natLe q.len v) false)))

def execCsrWr (p : Pkt) (s : State) : Res :=
  let q := { p with opc := 0x0A }
  .next (s.csrServe q (fun t off =>
    (t.regWrite (.agent q.src) off q.data.length (leNat q.data)).2.send (mkAnswer q ((t.csrServer off).getD q.src) stOk [] false)))

end Sys2Proof.Machine
end

