-- ==== Sys2Proof/Machine/HostMem.lean ====
section
/-!
DEFINITION. Machine/HostMem.lean: memory requests of the host (16_host_endpoint.md R523-R526, R535, 03_memory_model.md R94, 04_coherence.md R128, R129).
-/

namespace Sys2Proof.Machine

/-- The requests of the endpoint for the host: stream 1, which is all that the host issues (03_memory_model.md R79), marked as BAR2 accesses. -/
def hostPkt : Pkt := { src := 0x180, stream := 1, note := 1 }

/-- The global address of an HPA of this hub. -/
def State.here (s : State) (hpa : Nat) : Nat := s.hubNo * 2 ^ 48 + hpa

/-- The AOP of a host AtomicOp: FetchAdd, Swap and CAS; none for any other (R523, 04_coherence.md R124). -/
def hostAop (op : Nat) : Option Nat :=
  match op with
  | 0 => some 1
  | 1 => some 0
  | 2 => some 9
  | _ => none

/-- The endpoint issues a CXL.mem request for the host as caching agent 0x180. -/
def State.cxlIssue (s : State) (r : HostIn) (p : Pkt) : State :=
  let q := { p with txn := s.freeTxn 0x180 }
  let now (c : Nat × List Nat) : Nat × List Nat := (c.1, c.2.map (fun x => if c.1 / 2 = r.off / 128 && x = 4096 + r.tag then q.txn else x))
  (s.updHep (fun h => { h with
    cxl := h.cxl ++ [{ txn := q.txn, tag := r.tag, line := r.off / 64, kind := r.kind }], conflicts := h.conflicts.map now })).issue q

/-- Issue a request of CXL.mem, or the parts of a BAR2 request, split at granules (R523). -/
def State.hostParts (s : State) (r : HostIn) : State :=
  if let some p := r.cxl then s.cxlIssue r p
  else if r.kind = 0 then s.dmaRead hostPkt false (s.here r.addr) r.len
  else if r.kind = 1 then s.dmaWrite hostPkt false false (s.here r.addr) r.data (fun _ => r.ep)
  else
    s.issue { hostPkt with opc := 0x08, addr := s.here r.addr, len := r.len, mask := (hostAop r.op).getD 0 + 256 * r.len, data := r.data
                           txn := s.freeTxn 0x180 }

/-- The completion of a BAR2 request whose parts are answered (R523, R524); that of CXL.mem has left with its answer. -/
def State.hostEnd (s : State) (r : HostIn) : State :=
  if r.cxl.isSome then s
  else if r.kind = 1 then (if r.err = 0 then s else s.hepUnsup 1 true r.off)
  else if r.err = 0 then s.hostSend (.completion r.tag 0 (gotBytes r.got false r.addr r.len) r.bad)
  else if r.err = stDecodeError || r.err = stDenied then
    (s.hepUnsup 1 (r.kind ≠ 0) r.off).hostSend (.completion r.tag 0 (List.replicate r.len 0xFF))
  else (s.aer 15).hostSend (.completion r.tag 4 [])

/-- A BAR0 request (00_scope.md R7, 01_architecture.md R24). -/
def State.hostBar0 (s : State) (r : HostIn) : State :=
  if r.kind = 0 then
    let (v, s1) := s.hostRegRead r.off r.len
    s1.hostSend (.completion r.tag 0 (natLe r.len v))
  else s.hostRegWrite r.off r.data.length (leNat r.data)

/-- Serve the host's requests in order: the next is begun once the one before it is performed (03_memory_model.md R94). -/
def State.hostServe : Nat → State → State
  | 0, s => s
  | k + 1, s =>
    match s.hep.hq with
    | [] => s
    | r :: l =>
      let s1 := if r.sent then s
        else if r.bar = 0 then s
        else (s.updHep (fun h => { h with hq := { r with sent := true } :: l })).hostParts r
      match s1.hep.hq with
      | [] => s1
      | x :: l1 =>
        if r.bar = 0 then State.hostServe k ((s1.updHep (fun h => { h with hq := l1 })).hostBar0 x)
        else if s1.streamIdle 0x180 1 then State.hostServe k ((s1.updHep (fun h => { h with hq := l1 })).hostEnd x)
        else s1

/-- The host's requests go on. -/
def State.hostTurn (s : State) : State := s.hostServe s.hep.hq.length

/-- The answer to one part of the request that is served: its data, or its status. A sealed read's pattern carries no poison. -/
def State.hostAnswer (s : State) (q p : Pkt) : State :=
  match s.hep.hq with
  | [] => s
  | r :: l =>
    let good : Bool := p.status = stOk || p.status = stMemPoison || p.status = stGranPoison
    let hpa := q.addr % 2 ^ 48
    let open_ : Bool := decide (s.readVerdict hpa 0 false = .data)
    let x : HostIn :=
      if good then { r with got := r.got ++ [{ addr := hpa, data := p.data, poison := p.poison }], bad := r.bad || (p.poison && open_) }
      else { r with err := if r.err = 0 then p.status else r.err }
    (s.updHep (fun h => { h with hq := x :: l })).hostTurn

/-- Whether a host memory request is served at all: not while a reset of the function runs, with Memory Space Enable clear, in D3hot, or to no
region of the function. -/
def State.hostOpen (s : State) (bar : Nat) : Bool := !s.hep.flr && s.hep.memEn && !s.hep.d3 && (bar = 0 || bar = 2)

/-- A host request is refused: a read or AtomicOp completes with Unsupported Request, a write is discarded and, during a reset, counted. -/
def State.hostRefuse (s : State) (r : HostIn) : State :=
  if r.kind = 1 then (if s.hep.flr then s.hepUnsup (if r.bar = 0 then 0 else 1) true r.off else s)
  else (s.aer 20).hostSend (.completion r.tag 1 [])

/-- A host request arrives, while the link is up (R535: DL_Down and reset lose it). -/
def State.hostArrive (s : State) (r : HostIn) : State :=
  if s.rve.inReset || !s.hep.linkUp then s
  else if !s.hostOpen r.bar then s.hostRefuse r
  else
    let x := { r with addr := s.rd HEP_BAR2_BASE * 2 ^ 30 + r.off }
    (s.updHep (fun h => { h with hq := h.hq ++ [x] })).hostTurn

def execHostMemRead (bar tag off len : Nat) (s : State) : Res :=
  .next (s.hostArrive { kind := 0, bar := bar, tag := tag, off := off, len := len })

def execHostMemWrite (bar off : Nat) (data : List Byte) (ep : Bool) (s : State) : Res :=
  .next (s.hostArrive { kind := 1, bar := bar, off := off, len := data.length, data := data, ep := ep })

/-- A host AtomicOp (R523): `a` is the addend, the new value of a swap, or the compare value of a compare-and-swap, whose swap value is `b`. -/
def execHostAtomicop (tag off op size a b : Nat) (s : State) : Res :=
  let r : HostIn := { kind := 2, tag := tag, off := off, len := size, op := op
                      data := if op = 2 then natLe 8 b ++ natLe 8 a else natLe 8 a ++ natLe 8 b }
  .next (if s.rve.inReset || !s.hep.linkUp then s
  else if (hostAop op).isNone || (size ≠ 4 && size ≠ 8) then s.hostRefuse r
  else s.hostArrive r)

/-! ### CXL.mem (R525, R526, 04_coherence.md R128-R130) -/

/-- A CXL.mem request joins the host's requests, in order (03_memory_model.md R94). -/
def State.cxlEnter (s : State) (tag line kind : Nat) (p : Pkt) : State :=
  let r : HostIn := { kind := kind, tag := tag, off := line * 64, addr := line * 64, len := 64, cxl := some { p with src := 0x180, stream := 1 } }
  (s.updHep (fun h => { h with hq := h.hq ++ [r] })).hostTurn

/-- MemRd of a 64-byte block: MetaValue 0 I, 2 A, 3 S, anything else none. A line of the Granary, or any line while HOST_CACHE is 0, is
read without a grant (04_coherence.md R128, R129). -/
def execCxlMemrd (tag line mval : Nat) (s : State) : Res :=
  let hpa := line * 64
  .next (if !s.hep.cxlEn || s.hep.flr then s
  else if !s.cxlReaches line then
    ((s.hostSend (.cxl 1 tag line 0 (s.freeBytes 64) true)).fresh 64).hepUnsup 2 false hpa
  else
    let caching := s.flag HBM_HOME_CFG_HOST_CACHE (s.homeOf hpa) && !s.inGranary (blockOf hpa)
    let opc := if !caching then 0x01 else if mval = 3 then 0x10 else if mval = 2 then 0x11 else 0x01
    s.cxlEnter tag line 0 { opc := opc, addr := s.here (hpa / 128 * 128), len := 128 })

/-- MemWr or MemWrPtl of a 64-byte block: a writeback of a line that the host owns, else a non-caching write (04_coherence.md R128,
R667). -/
def execCxlMemwr (tag line mask : Nat) (data : List Byte) (ep : Bool) (s : State) : Res :=
  let hpa := line * 64
  .next (if !s.hep.cxlEn || s.hep.flr then s
  else if !s.cxlReaches line then (s.hostSend (.cxl 2 tag line 0 [])).hepUnsup 2 true hpa
  else
    let opc := if s.owns (s.homeOf hpa) (hpa / 128) 8 then 0x13 else 0x06
    s.cxlEnter tag line 1 { opc := opc, addr := s.here hpa, mask := mask % 2 ^ 64, data := (data ++ zeros 64).take 64, poison := ep })

/-- MemClnEvct: EVICT_CLEAN has no answer at the home, so the host's completion leaves at once. -/
def execCxlMemclnevct (tag line : Nat) (s : State) : Res :=
  .next (if !s.hep.cxlEn || s.hep.flr then s
  else if !s.cxlReaches line then (s.hostSend (.cxl 2 tag line 0 [])).hepUnsup 2 false (line * 64)
  else (s.issue { opc := 0x14, src := 0x180, stream := 1, addr := s.here (line / 2 * 128) }).hostSend (.cxl 2 tag line 0 []))

/-- Writebacks of a line that still wait in the host's order go to their home before the host's answer to its snoop, which needs them (04_coherence.md
R128). -/
def State.cxlFlush (s : State) (l : Nat) : State :=
  let wbs := s.hep.hq.filter (fun r => !r.sent && r.addr / 128 = l && (r.cxl.map (·.opc)) = some 0x13)
  wbs.foldl (fun t r => t.hostParts r) (s.updHep (fun h => { h with hq := h.hq.filter (fun r => !wbs.contains r) }))

/-- BIRspI (0) or BIRspS (1): the host's answer to a back-invalidate snoop of a 128-byte line goes to its home as SNP_RSP. -/
def execCxlBirsp (line st : Nat) (s : State) : Res :=
  .next (match (s.iface 0x180).snoops.find? (fun q => q.addr % 2 ^ 48 / 128 = line / 2) with
  | some q => (s.cxlFlush (line / 2)).send { opc := 0x2D, dst := q.src, src := 0x180, addr := q.addr, keep := st % 2 }
  | none => s)

end Sys2Proof.Machine
end

