-- ==== Sys2Proof/Machine/Pairs.lean ====
section
/-!
DEFINITION. Machine/Pairs.lean: the timers of a pair of hubs that may lose it (15_fabric_links.md R489, R492).
-/

namespace Sys2Proof.Machine

/-- RTO_US has passed without progress of a pair that has unacknowledged messages: the stream is sent again, and after RETRY_MAX
resends in a row the pair is lost (R492). -/
def execXpRto (hub : Nat) (s : State) : Res :=
  .next (match s.sendCtx hub with
  | none => s
  | some c =>
    if c.unReq.isEmpty && c.unRsp.isEmpty then s
    else if max 1 (s.rd LNK_XP_CFG_RETRY_MAX) ≤ c.resends then s.losePair hub (fun t => t.millHubLost hub)
    else s.resend hub c)

/-- A pair whose OPEN was answered BUSY repeats it, or is lost once OPEN_MS has passed (R489, R492). -/
def execXpOpenRetry (hub : Nat) (expired : Bool) (s : State) : Res :=
  .next (match s.sendCtx hub with
  | none => s
  | some c =>
    if !c.busy then s
    else if expired then s.losePair hub (fun t => t.millHubLost hub)
    else ((c.unReq ++ c.unRsp).filter (fun m => m.opens)).foldl (fun t m => t.transmit m) (s.putSend hub { c with busy := false }))

/-- What the fabric does as time passes: links send what a pair's rate held (R486), and a PERF that had to wait leaves (R494). -/
def State.fabricTurn (s : State) : State :=
  let s1 := (s.fab.links.filter (fun e => !e.2.txq.isEmpty)).foldl (fun t e => t.drainLink e.1) s
  s1.fab.recv.foldl (fun t e => t.sendPerf e.1) s1

/-- A nanosecond of bell time passes: the vector units go on (log entry 22), and the fabric. -/
def State.tick (s : State) : State := s.tickLanes.fabricTurn

end Sys2Proof.Machine
end

