-- ==== Sys2Proof/Machine/Answers.lean ====
section
/-!
DEFINITION. Machine/Answers.lean: responses, EVENT packets and STOP as they reach their agents (02_commons.md R52-R66, 03_memory_model.md
R84-R88, 04_coherence.md R107, R117, 11_steward_commands.md R366, R378, R380, 16_host_endpoint.md R528).
-/

namespace Sys2Proof.Machine

/-- The answer `p` of a request `r` is handed to the agent that issued it. -/
def State.handAnswer (s : State) (r p : Pkt) : State :=
  let a := r.src
  match kindOf a with
  | .tile => s.coreAnswer (a - 0x200) r p
  | .mover => s.moverAnswer r p
  | .mill => s.millAnswer r p
  | .site n => if p.opc = 0x2C then s.siteGrant r p else (s.siteAnswer r p).cxlGo n
  | .link => s.linkAnswer a p
  | .steward => if a = 0x190 then (((s.stwAnswer r p).announced).stwTurn).reeveTurn else s
  | .xlt => s.xltResume a
  | .keeper => s.announced
  | .host =>
    match s.hep.cxl.find? (fun c => c.txn = r.txn) with
    | some c => (s.cxlAnswer c r p).hostTurn
    | none => if r.note = 1 then s.hostAnswer r p else s
  | _ => s

/-- A write failure is handed to the source of the posted write (02_commons.md R64). -/
def State.handWfail (s : State) (a : Nat) (p : Pkt) : State :=
  let s1 := s.updIface a (fun i => { i with writeFails := i.writeFails ++ [p] })
  match kindOf a with
  | .tile => s1.coreWfail (a - 0x200) p.status
  | .mover => s1.moverWfail a p
  | .site _ => s1.siteWfail p
  | _ => s1

/-- A response reaches the interface of its agent: delivered once for a request that is outstanding, absorbed otherwise (R52, R58, R66). -/
def State.respond (s : State) (p : Pkt) : State :=
  let a := p.dst
  if !s.takesAnswers a then s.absorbRsp p
  else if p.opc = 0x2B then s.handWfail a p
  else match (s.iface a).outstanding.find? (fun q => q.txn = p.txn) with
    | none => s.absorbRsp p
    | some r =>
      let s1 := s.updIface a (fun i => { i with outstanding := i.outstanding.erase r, answers := i.answers ++ [p] })
      (s1.handAnswer r p).releaseWaiting a

/-- A response packet: one that is on the Commons arrives once it can be delivered; any other is an answer that its source agent gives now, behind
what is on its way to the same agent, which its interface refuses where the agent may send nothing, and which isolates an agent that holds no such
request (R49, R51, R58, R66). -/
def State.response (s : State) (p : Pkt) : State :=
  s.delivering p (fun t => t.respond p)
    (if !s.takesAnswers p.src then s
    else match (s.iface p.src).inbound.find? (fun q => q.src = p.dst && q.txn = p.txn) with
      | none => s.isolate p.src 2
      | some q =>
        let s1 := s.updIface p.src (fun i => { i with inbound := i.inbound.erase q })
        if s1.com.out.any (sameFlow p) then s1.send p else s1.respond p)

def execRsp (p : Pkt) (s : State) : Res := .next (s.response { p with opc := 0x28 })
def execRspData (p : Pkt) (s : State) : Res := .next (s.response { p with opc := 0x29 })
def execRspData2 (p : Pkt) (s : State) : Res := .next (s.response { p with opc := 0x2A })
def execWfail (p : Pkt) (s : State) : Res := .next (s.response { p with opc := 0x2B })

/-- A grant reaches its cache (04_coherence.md R117). -/
def execGrant (p : Pkt) (s : State) : Res := .next (s.response { p with opc := 0x2C })

/-- REQ_US have passed without a response (R54): the sender's interface answers TIMEOUT and holds the TXN. -/
def execReqTimeout (agent txn : Nat) (s : State) : Res :=
  .next (match (s.iface agent).outstanding.find? (fun q => q.txn = txn) with
  | none => s
  | some r =>
    ((s.updIface agent (fun i => { i with txnHold := insertNat i.txnHold txn })).respond
      (mkAnswer r agent stTimeout [] false)))

/-- A fence completes where its condition holds: its agent goes on (03_memory_model.md R84). -/
def execFenceComplete (agent stream : Nat) (s : State) : Res :=
  let s1 := s.endFence agent stream
  .next (if s1.iface agent = s.iface agent then s
  else match kindOf agent with
    | .tile => s1.coreFenced (agent - 0x200)
    | .site n => (s1.siteFenced agent stream).cxlGo n
    | _ => s1)

/-! ### EVENT packets (11_steward_commands.md R378, R380) -/

/-- A wake EVENT with its handle reaches an agent: a core that waits in LWAIT returns, a site receives WAKE on the slot of the module,
and any other discards it. -/
def State.wakeAgent (s : State) (a handle : Nat) : State :=
  match kindOf a with
  | .tile =>
    let t := a - 0x200
    (match (s.tile t).wait with
     | some (.event rd len _) =>
       (((s.updTile t (fun x => { x with wait := none })).retire t rd 0 len).coreFence t false).awaitFence t
     | _ => s)
  | .site n =>
    let u := slotOf a
    let s1 := match (s.slot n u).evWait with
      | some ch => (s.updSlot n u (fun x => { x with evWait := none })).siteFence n u ch 0 0 false
      | none => s
    s1.siteSend n u { typ := 0x25, addr := handle }
  | _ => s

/-- An EVENT packet at its agent: a completion at the Steward, an interrupt at the host endpoint, or a wake; absorbed where the agent
takes none (02_commons.md R65). -/
def State.event (s : State) (p : Pkt) : State :=
  let kind := leNat (p.data.take 1)
  if !s.takesAnswers p.dst then s.absorb
  else if kind = 0 && p.dst = 0x190 then (s.completionEvent p).reeveTurn
  else if kind = 2 && p.dst = 0x180 then
    s.msix (min 2032 (s.rd SITE_IRQ_BASE (siteOf p.src)) + leNat ((p.data.drop 4).take 4))
  else if kind = 1 then s.wakeAgent p.dst (leNat ((p.data.drop 24).take 8))
  else s

/-- An EVENT packet arrives: one that is on the Commons once it can be delivered, any other as its source sends it now. -/
def State.eventArrives (s : State) (p : Pkt) : State := s.delivering p (fun t => t.event p) (s.event p)

def execEvent (p : Pkt) (s : State) : Res := .next (s.eventArrives { p with opc := 0x32 })

/-- A wake EVENT of the Steward: KIND 1. -/
def execWakeEvent (p : Pkt) (s : State) : Res :=
  .next (s.eventArrives { p with opc := 0x32, src := 0x190, data := 1 :: p.data.drop 1 })

/-! ### STOP (11_steward_commands.md R366) -/

/-- STOP at a tile: the kernel of the item stops as 07_loom_model.md R236 lays down, and a record of it that has not started is
returned. -/
def State.tileStop (s : State) (t item : Nat) : State :=
  let x := s.tile t
  let mine (r : Launch) : Bool := r.item = item
  let back := (x.launches ++ x.claim.toList ++ x.park.toList).filter mine
  let s1 := s.updTile t (fun y => { y with
    launches := y.launches.filter (fun r => !mine r), claim := y.claim.filter (fun r => !mine r), park := y.park.filter (fun r => !mine r) })
  let s2 := back.foldl (fun u r => u.send (completionPkt (tileAgent t) r.item fateFailed stCancelled false 0)) s1
  match x.run with
  | some r => if r.item = item then s2.stopKernel t stCancelled 4 else s2
  | none => s2

/-- A STOP that a unit has accepted: it is answered, and the item of data bytes 3:0 stops. -/
def State.unitStop (s : State) (d : Nat) (q : Pkt) : State :=
  let item := leNat (q.data.take 4)
  match kindOf d with
  | .tile => (s.answer d q stOk).tileStop (d - 0x200) item
  | .mover => (s.answer d q stOk).stopMover (d - 0x250) item stCancelled
  | .mill => (s.answer d q stOk).millCancel (d - 0x280) item
  | .site _ => (s.answer d q stOk).siteStop d item
  | _ => s.answer d q stUnsupported

def execUnitStop (p : Pkt) (s : State) : Res := .next (s.deliverUnit { p with opc := 0x0D } (fun u d q => u.unitStop d q))

end Sys2Proof.Machine
end

