-- ==== Sys2Proof/Machine/Manage.lean ====
section
/-!
DEFINITION. Machine/Manage.lean: power-up and cold reset, the thermal trip, the management bus, the debug port and the pins
(20_management_power.md, 17_security.md R553, R556, 19_faults_resets.md R628).
-/

namespace Sys2Proof.Machine

/-! ### Power-up and cold reset (R628, R651, R652) -/

/-- What a cold reset leaves: every register at its reset value, but for what flash, the OTP, the stacks' own counters, the straps and bell
time hold; records of the Ledger keep their numbering. Records made since power-up that flash does not hold are gone. -/
def State.coldBase (s : State) : State :=
  let keep : Stack → Stack := fun x => { hardLeft := x.hardLeft, saved := x.saved }
  ({ State.reset with
    time := s.time, free := s.free, pending := s.pending
    vst := { otp := s.vst.otp, out := s.vst.out }
    ledger := { flash := s.ledger.flash, nextSeq := s.ledger.nextSeq, anchors := s.ledger.anchors }
    hep := { bus := s.hep.bus }
    hbm := { stks := s.hbm.stks.map (fun e => (e.1, keep e.2)) }
    rve := { log := s.rve.log.filter (fun r => r.saved), logged := s.rve.logged, linkSets := s.rve.linkSets, flash := s.rve.flash
             straps := s.rve.straps, oob := s.rve.oob, ibis := s.rve.ibis, jtag := s.rve.jtag, pps := s.rve.pps } } : State).wr LDG_PTR_EXPORTED 0
    (s.rd LDG_PTR_EXPORTED)

/-- A cold reset with its SOURCE; the hub stays in it while COLD_RST_N is low. The trip of R655 outlasts one that PWRGOOD does not make. -/
def State.coldReset (s : State) (source : Nat) (inReset : Bool) : State :=
  let t := s.coldBase.noteReset 0 source
  t.updRve (fun r => { r with inReset := inReset, pw := { r.pw with trip := decide (source ≠ 0) && s.rve.pw.trip } })

/-- POWER_ON: PWRGOOD rises, and the straps are sampled: bit 0 MGMT_SEL, bits 3:1 MGMT_ADDR (R638, R651). -/
def execPowerOn (straps : Nat) (s : State) : Res :=
  .next ((s.coldReset 0 true).updRve (fun r => { r with straps := straps % 16 }))

/-- POWER_FAIL: a PWRGOOD that falls while the hub runs is a cold reset at that moment (R652). -/
def execPowerFail (s : State) : Res := .next (s.coldReset 0 true)

/-- COLD_RESET_ASSERT: COLD_RST_N driven low holds the hub in cold reset (R652). -/
def execColdResetAssert (s : State) : Res := .next (if s.rve.inReset then s else s.coldReset 1 true)

/-- The endpoint record of flash offset 0 (16_host_endpoint.md R521): valid where MAGIC, VERSION and CRC match and each enabled base is
aligned to its region. -/
def State.endpointRecord (s : State) : State :=
  let b := s.flashBytes 0 36
  let f (lo n : Nat) : Nat := pktField b lo n
  let ea : Bool := decide (f 5 1 % 2 = 1)
  let ok : Bool := decide (f 0 4 = 0x5A484550 ∧ f 4 1 = 1 ∧ f 32 4 = crc32c (b.take 32)) &&
    (!ea || decide (f 16 8 % 2 ^ 28 = 0 ∧ f 24 8 % 2 ^ 36 = 0))
  if !ok then s
  else
    let bit (b : Bool) : Nat := if b then 1 else 0
    let s1 := (((((s.wr HEP_CFGREC_VALID 0 1).wr HEP_CFGREC_X8 0 (f 5 1 / 2 % 2)).wr HEP_CFGREC_EA 0 (bit ea)).wr HEP_CFGREC_SSVID 0
      (f 6 2)).wr HEP_CFGREC_SSID 0 (f 8 2))
    if ea then ((s1.wr HEP_EA0_BASE 0 (f 16 8 / 2 ^ 28)).wr HEP_EA0_ENABLE 0 1).wr HEP_EA2_BASE 0 (f 24 8 / 2 ^ 36) else s1

/-- COLD_RESET: COLD_RST_N is released: the endpoint reads its record, and the host link trains to `rate` (R521, R628, R651). -/
def execColdReset (rate : Nat) (s : State) : Res :=
  let s1 := if s.rve.inReset then s else s.coldReset 1 true
  .next ((((s1.updRve (fun r => { r with inReset := false })).endpointRecord).updHep (fun h => { h with linkUp := true, rate := rate % 8 })))

/-- THERMAL_TRIP: the comparator trips (R655): THERMTRIP_N and every SITE_PWREN go low, and the host link and every link go down. -/
def execThermalTrip (sensor : Nat) (s : State) : Res :=
  .next (if s.rve.pw.trip then s
  else
    let s1 := s.updPw (fun p => { p with trip := true })
    let s2 := (List.range 8).foldl (fun t n => if (t.site n).pwren then t.updSite n (fun x => { x with pwren := false }) else t) s1
    let s3 := (List.range 48).foldl (fun t l =>
      if t.rd LNK_STAT_STATE l = lnkUp || t.rd LNK_STAT_STATE l = lnkTraining then t.setLink l lnkDown else t) s2
    (if s3.hep.linkUp then s3.functionReset 2 else s3).raise 0x0066 4 0x1C1 sensor)

/-! ### The management bus (R638-R641, R646) -/

/-- The Reeve answers a requester. -/
def State.oobSay (s : State) (via code : Nat) (data : List Byte := []) : State :=
  s.oobPut { dest := via, code := code, data := data }

/-- Completion codes of R641. -/
def oobOk : Nat := 0
def oobRefused : Nat := 1
def oobInvalid : Nat := 2
def oobBusy : Nat := 3

/-- A reading with its operational state: 0 enabled, 2 unavailable (PRESUMED: DSP0248). -/
def sensorData (ok : Bool) (v n : Nat) : List Byte := natLe 1 (if ok then 0 else 2) ++ natLe n v

/-- A temperature in 1/16 °C, of 16 bits in two's complement, as °C. -/
def celsius (t : Nat) : Nat := t % 65536 / 16 + (if 32768 ≤ t % 65536 then 0xF000 else 0)

/-- The numeric sensors (R640). -/
def State.pldmSensor (s : State) (k : Nat) : Option (List Byte) :=
  if k = 0 then some (sensorData true (s.rd PWR_STAT_POWER_W) 2)
  else if k = 1 then some (sensorData true (s.rd PWR_STAT_VCORE_MV) 2)
  else if k = 2 then some (sensorData true (s.rd PWR_STAT_TJ_C) 2)
  else if k ≤ 34 then some (sensorData (s.flag PWR_TEMP_VALID (k - 3)) (celsius (s.rd PWR_TEMP_TEMP (k - 3))) 2)
  else if k ≤ 42 then some (sensorData (decide (s.rd HBM_STAT_STATE (k - 35) = 3)) (s.rd HBM_STAT_TEMP_C (k - 35)) 2)
  else if k = 43 then some (sensorData (s.flag HUB_STAGE_VALID) (s.rd HUB_STAGE_STAGE_FS / 1000) 2)
  else none

/-- The state sensors (R640). -/
def State.pldmState (s : State) (k : Nat) : Option Nat :=
  if k = 0 then some (s.rd BOOT_STAT_READY)
  else if k ≤ 8 then some (s.rd HBM_STAT_STATE (k - 1))
  else if k ≤ 16 then some (s.rd SITE_STAT_STATE (k - 9))
  else if k ≤ 64 then some (s.rd LNK_STAT_STATE (k - 17))
  else none

/-- A PLDM request (R640). PRESUMED of the standards: completion codes 0 success, 0x02 invalid data, 0x80 no such sensor. -/
def State.pldm (s : State) (via : Nat) (ask : PldmAsk) : State :=
  match ask with
  | .base t c a => s.oobSay via 0 (Config.pldmBase t c a)
  | .getPdr r => s.oobSay via 0 (Config.pdr r)
  | .getSensor k => (match s.pldmSensor k with | some d => s.oobSay via 0 d | none => s.oobSay via 0x80)
  | .getStateSensor k => (match s.pldmState k with | some v => s.oobSay via 0 (natLe 1 v) | none => s.oobSay via 0x80)
  | .getEffecter => s.oobSay via 0 (natLe 2 (s.rd PWR_STAT_CAP_OOB_W))
  | .setEffecter w => if 300 ≤ w && w ≤ 720 then (s.wr PWR_STAT_CAP_OOB_W 0 w).oobSay via 0 else s.oobSay via 0x02
  | .setEventReceiver e => (s.updRve (fun r => { r with evtTo := some e })).oobSay via 0
  | .cancelUpdate => if s.rve.pldm = 0 then s.oobSay via 0x80 else (s.updRve (fun r => { r with pldm := 0 })).oobSay via 0

/-- An MCTP control request (R639). PRESUMED of DSP0236: commands 1 Set Endpoint ID, 2 Get Endpoint ID, 4 Get Version, 5 Get Message Types;
code 5 for any other. -/
def State.mctpControl (s : State) (via cmd arg : Nat) : State :=
  match cmd with
  | 1 => (s.wr RVE_OOB_EID 0 arg).oobSay via 0 (natLe 1 0 ++ natLe 1 arg ++ natLe 1 0)
  | 2 => s.oobSay via 0 (natLe 1 (s.rd RVE_OOB_EID) ++ natLe 1 0 ++ natLe 1 0)
  | 4 => s.oobSay via 0 (Config.pldmBase 0 4 arg)
  | 5 => s.oobSay via 0 [4, 0x01, 0x05, 0x06, 0x7E]
  | _ => s.oobSay via 5

/-- The records of the out-of-band event log from the oldest that it holds, up to 64 from `index` (R641, R647). -/
def State.logRecords (s : State) (index : Nat) : List Byte :=
  ((s.rve.log.drop index).take 64).flatMap (fun r => r.ev.head ++ natLe 1 r.pass)

/-- Read `n` registers in order. -/
def State.readRegs (s : State) (off : Nat) : Nat → List Byte × State
  | 0 => ([], s)
  | n + 1 =>
    let (v, _, s1) := s.regRead off 8
    let (l, s2) := s1.readRegs (off + 8) n
    (natLe 8 v ++ l, s2)

/-- ApplyComplete (R646): the image is staged in the inactive bank and checked, and ACTIVATE follows. -/
def State.applyComplete (s : State) (via slot : Nat) (image : List Byte) (fault : Option Nat) : State :=
  if s.rve.pldm = 0 then s.oobSay via 0x80
  else if 6 ≤ slot then s.oobSay via 2
  else if 8192 + imgLimit slot < image.length then s.oobSay via 3
  else
    let (st, s1) := s.stage slot image fault
    if st ≠ 0 then s1.oobSay via st
    else
      let (st2, s2) := s1.activate slot
      s2.oobSay via st2

/-- What every response to a vendor-defined message begins with: the command and the instance of the request (R641). -/
def askHead : OobAsk → List Byte
  | .vendor c i _ => natLe 1 c ++ natLe 1 i
  | _ => []

/-- The answer that the Reeve has just made to a request, its first new message, begins with `h`. -/
def State.oobHead (s : State) (sent : Nat) (h : List Byte) : State :=
  s.updRve (fun r => { r with oob := r.oob.take sent ++ match r.oob.drop sent with
    | m :: l => { m with data := h ++ m.data } :: l
    | [] => [] })

/-- The Reeve handles a request. -/
def State.oobDo (s : State) (via : Nat) (ask : OobAsk) : State :=
  match ask with
  | .vendor c i a => (s.oobDo via a).oobHead s.rve.oob.length (askHead (.vendor c i a))
  | .control c a => s.mctpControl via c a
  | .pldm a => s.pldm via a
  | .requestUpdate =>
    -- PRESUMED of DSP0267: 0x8A RETRY_REQUEST_UPDATE, 0x81 ALREADY_IN_UPDATE_MODE, 0x80 NOT_IN_UPDATE_MODE
    if s.flag RVE_FLASH_CMD_GO then s.oobSay via 0x8A
    else if s.rve.pldm ≠ 0 then s.oobSay via 0x81
    else (s.updRve (fun r => { r with pldm := 1 })).oobSay via 0
  | .applyComplete k d f => s.applyComplete via k d f
  | .activate k =>
    if s.rve.pldm = 0 then s.oobSay via 0x80
    else
      let s1 := (s.updRve (fun r => { r with pldm := 0 })).oobSay via 0
      if k ≤ 4 then s1.svcFwUpdate .oob k false else s1
  | .getEvents i => s.oobSay via oobOk (s.logRecords i)
  | .reset k =>
    if !s.flag RVE_OOB_RESET_EN then s.oobSay via oobRefused
    else if k ≠ 1 && k ≠ 2 then s.oobSay via oobInvalid
    else ((s.oobSay via oobOk).raise 0x006A 0 0x1C1 2).bigReset k 5 0
  | .wake => ((s.oobSay via oobOk).raise 0x006A 0 0x1C1 3).wake.reeveTurn
  | .readReg off n =>
    if n = 0 || 64 < n || off % 8 ≠ 0 then s.oobSay via oobInvalid
    else
      let (d, s1) := s.readRegs off n
      s1.oobSay via oobOk d
  | .writeReg off v =>
    if !s.flag RVE_OOB_WR_EN then s.oobSay via oobRefused
    else if off % 8 ≠ 0 then s.oobSay via oobInvalid
    else (s.regWrite .oob off 8 v.toNat).2.oobSay via oobOk
  | .getBoot =>
    s.oobSay via oobOk (natLe 8 (s.csrValue BOOT_STAT 0).toNat ++ natLe 8 (s.csrValue BOOT_ERR 0).toNat ++
      natLe 8 (s.csrValue RVE_RESET_CAUSE 0).toNat)

/-- A request arrives: the Reeve holds one of each requester, and handles it at once unless it is away (R626, R639). -/
def State.oobAsk (s : State) (via : Nat) (ask : OobAsk) : State :=
  if !s.rve.up then s
  else if s.rve.mctp.contains via || s.rve.waiting.any (fun e => e.1 = via) then s.oobSay via oobBusy (askHead ask)
  else if s.reeveAway then s.updRve (fun r => { r with waiting := r.waiting ++ [(via, ask)] })
  else s.oobDo via ask

/-- Requests that waited for the Reeve are handled. -/
def State.oobTurn (s : State) : State :=
  if s.reeveAway then s
  else s.rve.waiting.foldl (fun t e => t.oobDo e.1 e.2) (s.updRve (fun r => { r with waiting := [] }))

/-- A vendor-defined message (R641): Vendor ID 0xD0A5, command, instance, and the request's fields (PRESUMED: the ID in network order, an offset of
4 bytes and a count of one). -/
def vendorAsk (d : List Byte) : Option OobAsk :=
  let b (lo n : Nat) : Nat := pktField d lo n
  let msg (a : OobAsk) : Option OobAsk := some (.vendor (b 2 1) (b 3 1) a)
  match b 2 1 with
  | 0x01 => msg (.getEvents (b 4 4))
  | 0x02 => msg (.reset (b 4 1))
  | 0x03 => msg .wake
  | 0x04 => msg (.readReg (b 4 4) (b 8 1))
  | 0x05 => msg (.writeReg (b 4 4) (BitVec.ofNat 64 (b 8 8)))
  | 0x06 => msg .getBoot
  | _ => none

/-- MCTP_MESSAGE: a message by its type (R639): control and vendor-defined messages are handled, SPDM and secured messages go to the Vestry,
and those of PLDM are the commands PLDM_. Any other type is not supported, and a foreign Vendor ID is not the hub's; nor is a message of more than
4,096 bytes one that it takes. -/
def execMctpMessage (via typ : Nat) (data : List Byte) (s : State) : Res :=
  .next (if 4096 < data.length then s else match typ with
  | 0x00 => s.oobAsk via (.control (pktField data 1 1) (pktField data 3 1))
  | 0x7E =>
    if pktField data 0 2 ≠ 0xA5D0 then s
    else match vendorAsk data with
      | some a => s.oobAsk via a
      | none => if s.rve.up && !s.reeveAway then s.oobSay via oobInvalid ((data.drop 2).take 2) else s
  | _ =>
    if typ ≠ 0x05 && typ ≠ 0x06 then s
    else if !s.rve.up || s.reeveAway then s
    else if s.rve.mctp.contains via || s.rve.waiting.any (fun e => e.1 = via) then s.oobSay via oobBusy
    else s.updRve (fun r => { r with mctp := r.mctp ++ [via] }))

/-- The requester of an answer to the I3C controller. -/
def i3cController : Nat := 0x100

/-- The target's answer to a common command code. -/
def State.cccSay (s : State) (d : List Byte) : State :=
  s.updRve (fun r => { r with oob := r.oob ++ [{ dest := i3cController, code := 0, data := d }] })

/-- I3C_CCC (R638): the common command codes of the target, where the strap selects I3C. PRESUMED of MIPI I3C: ENEC 0x00 and 0x80, DISEC 0x01
and 0x81, RSTDAA 0x06, ENTDAA 0x07, SETMWL 0x09 and 0x89, SETDASA 0x87, GETMWL 0x8B, GETPID 0x8D, GETBCR 0x8E, GETDCR 0x8F, GETSTATUS
0x90; bit 0 of an event byte is the in-band interrupt. `arg` is the event byte, the length or the dynamic address. -/
def execI3cCcc (code arg : Nat) (s : State) : Res :=
  .next (if s.rve.inReset || s.rve.straps % 2 = 0 then s
  else match code with
    | 0x00 | 0x80 => if arg % 2 = 1 then s.updRve (fun r => { r with ibi := true }) else s
    | 0x01 | 0x81 => if arg % 2 = 1 then s.updRve (fun r => { r with ibi := false }) else s
    | 0x06 => s.wr RVE_OOB_DYN_ADDR 0 0
    | 0x07 | 0x87 => if s.rd RVE_OOB_DYN_ADDR = 0 then s.wr RVE_OOB_DYN_ADDR 0 arg else s
    | 0x09 | 0x89 => s.updRve (fun r => { r with mwl := arg % 65536 })
    | 0x8B => s.cccSay (natLe 1 (s.rve.mwl / 256) ++ natLe 1 s.rve.mwl)
    | 0x8D | 0x8E | 0x8F | 0x90 => s.cccSay (Config.i3c code)
    | _ => s)

def execPldmRequest (via : Nat) (ask : PldmAsk) (s : State) : Res := .next (s.oobAsk via (.pldm ask))
def execPldmRequestUpdate (via : Nat) (s : State) : Res := .next (s.oobAsk via .requestUpdate)
def execPldmApplyComplete (via slot : Nat) (image : List Byte) (fault : Option Nat) (s : State) : Res :=
  .next (s.oobAsk via (.applyComplete slot image fault))
def execPldmActivateFirmware (via slot : Nat) (s : State) : Res := .next (s.oobAsk via (.activate slot))

/-! The rows of R641's commands name no instance; they carry instance 0 (log entry 101). -/

def execGetEvents (via index : Nat) (s : State) : Res := .next (s.oobAsk via (.vendor 1 0 (.getEvents index)))
def execOobReset (via kind : Nat) (s : State) : Res := .next (s.oobAsk via (.vendor 2 0 (.reset kind)))
def execOobWake (via : Nat) (s : State) : Res := .next (s.oobAsk via (.vendor 3 0 .wake))
def execReadReg (via off count : Nat) (s : State) : Res := .next (s.oobAsk via (.vendor 4 0 (.readReg off count)))
def execWriteReg (via off : Nat) (value : Word) (s : State) : Res := .next (s.oobAsk via (.vendor 5 0 (.writeReg off value)))
def execGetBoot (via : Nat) (s : State) : Res := .next (s.oobAsk via (.vendor 6 0 .getBoot))

/-- OOB_LOG_FLUSH: the records of the event log reach flash (R647). -/
def execOobLogFlush (s : State) : Res :=
  .next (if !s.rve.up || s.reeveAway then s
  else s.updRve (fun r => { r with log := r.log.map (fun x => { x with saved := true }) }))

/-- FW_RECEIVER_VERIFIED: the receiver's new image is verified, so it starts, and the update moves on (19_faults_resets.md R625). The Reeve
itself comes back on its new image and handles what waited (R626). -/
def execFwReceiverVerified (agent : Nat) (s : State) : Res :=
  .next (match s.rve.fw with
  | some f =>
    if f.slot = 4 then
      (if agent = 0x1C1 && s.rve.away then (((s.updRve (fun r => { r with away := false })).fwNext 0).evtDrain.reeveTurn).oobTurn else s)
    else if f.cur = some agent && f.closing && s.rve.crier.isNone && (s.rxOf agent).st = 1 then
      (let s1 := match agentDom agent with
         | some d => if s.domSt d = domOpening then s.domainOpened d true else s
         | none => s
       if (agentDom agent).all (fun d => s1.domSt d = domOpen) then ((s1.fwNext 0).reeveTurn).stwTurn else s1)
    else s
  | none => s)

/-! ### The debug port (R659, 17_security.md R542, R553, R556) -/

/-- What the port shifts out. -/
def State.jtagOut (s : State) (d : List Byte) : State := s.updRve (fun r => { r with jtag := r.jtag ++ [d] })

/-- IDCODE (R659). -/
def idcode : Nat := Config.stepping.toNat % 16 * 2 ^ 28 + 0x4801 * 2 ^ 12 + Config.manufacturer.toNat * 2 + 1

/-- The pins as the boundary scan samples them: SITE_PWREN, then VR_HOT_N, THROTTLE_N and THERMTRIP_N in bits 0 to 2 and the straps in bits
7:4. -/
def State.pins (s : State) : List Byte :=
  let p := s.rve.pw
  let high (b : Bool) : Nat := if b then 0 else 1
  natLe 1 ((List.range 8).foldl (fun n k => n + if (s.site k).pwren then 2 ^ k else 0) 0) ++
  natLe 1 (high p.vrHot + 2 * high p.throttle + 4 * high p.trip + 16 * s.rve.straps)

/-- The HPA of a global address of this hub. -/
def ownHpa (addr : Nat) : Nat := addr % 2 ^ 48

/-- A debug read of memory, granule by granule: sealed data reads as the poison pattern, and the read is written to the Ledger. -/
def State.debugRead (s : State) (addr n : Nat) : List Byte × State :=
  (granules addr n).foldl (fun (acc : List Byte × State) g =>
    let (d, t) := acc
    match t.cell g.1 with
    | none => (d ++ t.freeBytes g.2, t.fresh g.2)
    | some c =>
      if t.readVerdict (ownHpa g.1) 0 false = .data then (d ++ t.bytes c g.2, t)
      else (d ++ poisonAt g.1 g.2, t.ledgerRefusal 3 0 (ownHpa g.1))) ([], s)

/-- The lines of a debug read of local HBM that a cache holds: their homes fetch them back first, and the access is then made again (log entry 24). -/
def State.debugHeld (s : State) (addr n : Nat) : List Nat :=
  match s.spaceOf addr with
  | .hbm hpa => s.heldLines hpa n
  | _ => []

/-- A debug write of memory, of HBM at its home: what sealing protects takes none. -/
def State.debugWrite (s : State) (addr : Nat) (d : List Byte) : State :=
  (granules addr d.length).foldl (fun t g =>
    match t.cell g.1 with
    | none => t
    | some c =>
      if t.writeRefused (ownHpa g.1) 0 false false false then t
      else
        let b := (d.drop (g.1 - addr)).take g.2
        match t.spaceOf g.1 with
        | .hbm hpa => t.homeWrite 0x1C1 walkStream hpa b
        | _ => t.setBytes c b) s

/-- Whether the core of a tile serves a sealed tenant. -/
def State.coreSealed (s : State) (t : Nat) : Bool := s.sealedTenant (s.rd LOOM_STAT_OWNER t)

/-- Write an access to the core of a sealed tile to the Ledger. -/
def State.noteInspect (s : State) (t : Nat) : State :=
  if s.coreSealed t then s.ledgerRefusal 3 (s.rd LOOM_STAT_OWNER t) (0xF0000000000 + LOOM_STAT.off t) else s

/-- Halt or release a core: a tile's, a Steward firmware core or the Reeve. -/
def State.setHalt (s : State) (a : Nat) (b : Bool) : State :=
  if kindOf a = .tile then (s.updTile (a - 0x200) (fun x => { x with halted := b })).noteInspect (a - 0x200)
  else if (0x191 ≤ a && a ≤ 0x194) || a = 0x1C1 then
    s.updRve (fun r => { r with halted := if b then insertNat r.halted a else eraseNat r.halted a })
  else s

/-- An instruction of the port. -/
def State.jtag (s : State) (ask : JtagAsk) : State :=
  let pinsFree (t : State) : State := t.updRve (fun r => { r with extest := false })
  match ask with
  | .bypass => pinsFree s
  | .idcode => (pinsFree s).jtagOut (natLe 4 idcode)
  | .sample => (pinsFree s).jtagOut s.pins
  | .preload d => (pinsFree s).updRve (fun r => { r with scan := d })
  | .extest => s.updRve (fun r => { r with extest := true })
  | .readReg off size =>
    let (v, _, s1) := s.regRead off size
    s1.jtagOut (natLe size v)
  | .writeReg off size v => (s.regWrite .driver off size v.toNat).2
  | .readMem addr n =>
    match s.debugHeld addr n with
    | [] =>
      let (d, s1) := s.debugRead addr n
      s1.jtagOut d
    | ls => ls.foldl (fun t l => t.recall 0x1C1 l) s
  | .writeMem addr d => s.debugWrite addr d
  | .halt a => s.setHalt a true
  | .resume a =>
    let s1 := s.setHalt a false
    if a = 0x1C1 && s1.rve.up then (s1.evtDrain.reeveTurn).oobTurn else s1
  | .step t w =>
    if !(s.tile t).halted then s
    else ((s.updTile t (fun x => { x with halted := false })).coreWord t w.toNat).updTile t (fun x => { x with halted := true })
  | .inspect t r =>
    let x := s.tile t
    if !x.halted then s
    else if s.coreSealed t then (s.noteInspect t).jtagOut (zeros 8)
    else s.jtagOut (natLe 8 (if r = 32 then x.pc else if r = 0 then 0 else SMap.getD x.x r 0))
  | .right k arg => if Nat.testBit s.rights k then s.jtagOut (Config.debugRead k arg) else s

/-- JTAG_DEBUG_ACCESS: one instruction of the debug port. -/
def execJtagDebugAccess (ask : JtagAsk) (s : State) : Res := .next (s.jtag ask)

/-- PPS_PULSE: a pulse on PPS_OUT (R658). -/
def execPpsPulse (s : State) : Res := .next (if s.rve.inReset then s else s.updRve (fun r => { r with pps := r.pps + 1 }))

end Sys2Proof.Machine
end

