-- ==== Sys2Proof/Machine/Dispatch.lean ====
section
/-!
DEFINITION. Machine/Dispatch.lean: one arm per command, each a direct call of its meaning.
-/

namespace Sys2Proof.Machine

def exec (i : Instr) (s : State) : Host.Outcome State Fault Refusal :=
  match i with
  | .registerWrite w off size value => Sys2Proof.Machine.execRegisterWrite w off size value s
  | .stageWindowEnd stageFs => Sys2Proof.Machine.execStageWindowEnd stageFs s
  | .flitReceive code row col port p => Sys2Proof.Machine.execFlitReceive code row col port p s
  | .rd p => Sys2Proof.Machine.execRd p s
  | .rdLine p => Sys2Proof.Machine.execRdLine p s
  | .rd2line p => Sys2Proof.Machine.execRd2line p s
  | .wr p => Sys2Proof.Machine.execWr p s
  | .wrLine p => Sys2Proof.Machine.execWrLine p s
  | .wr2line p => Sys2Proof.Machine.execWr2line p s
  | .wrn p => Sys2Proof.Machine.execWrn p s
  | .wrnLine p => Sys2Proof.Machine.execWrnLine p s
  | .atom p => Sys2Proof.Machine.execAtom p s
  | .csrRd p => Sys2Proof.Machine.execCsrRd p s
  | .csrWr p => Sys2Proof.Machine.execCsrWr p s
  | .rsp p => Sys2Proof.Machine.execRsp p s
  | .rspData p => Sys2Proof.Machine.execRspData p s
  | .rspData2 p => Sys2Proof.Machine.execRspData2 p s
  | .wfail p => Sys2Proof.Machine.execWfail p s
  | .inboundAcceptResume agent => Sys2Proof.Machine.execInboundAcceptResume agent s
  | .deadTimeout agent => Sys2Proof.Machine.execDeadTimeout agent s
  | .reqTimeout agent txn => Sys2Proof.Machine.execReqTimeout agent txn s
  | .txnHoldEnd agent txn => Sys2Proof.Machine.execTxnHoldEnd agent txn s
  | .stileClose dom => Sys2Proof.Machine.execStileClose dom s
  | .stileOpen dom => Sys2Proof.Machine.execStileOpen dom s
  | .stileForceOff dom => Sys2Proof.Machine.execStileForceOff dom s
  | .stileOpReserved op dom => Sys2Proof.Machine.execStileOpReserved op dom s
  | .stile op agent => Sys2Proof.Machine.execStile op agent s
  | .stileAck agent st => Sys2Proof.Machine.execStileAck agent st s
  | .agentIdle agent => Sys2Proof.Machine.execAgentIdle agent s
  | .domainFenced dom => Sys2Proof.Machine.execDomainFenced dom s
  | .domainPowerOff dom => Sys2Proof.Machine.execDomainPowerOff dom s
  | .domainOpened dom ok => Sys2Proof.Machine.execDomainOpened dom ok s
  | .drainTimeout dom => Sys2Proof.Machine.execDrainTimeout dom s
  | .isoIsolate agent => Sys2Proof.Machine.execIsoIsolate agent s
  | .isoRelease agent => Sys2Proof.Machine.execIsoRelease agent s
  | .comErrClear => Sys2Proof.Machine.execComErrClear s
  | .event p => Sys2Proof.Machine.execEvent p s
  | .flushProbe p => Sys2Proof.Machine.execFlushProbe p s
  | .flushProbeAnswer agent src txn => Sys2Proof.Machine.execFlushProbeAnswer agent src txn s
  | .fence agent stream => Sys2Proof.Machine.execFence agent stream s
  | .fenceComplete agent stream => Sys2Proof.Machine.execFenceComplete agent stream s
  | .fenceRemote agent stream => Sys2Proof.Machine.execFenceRemote agent stream s
  | .homeReadComplete h line c => Sys2Proof.Machine.execHomeReadComplete h line c s
  | .rdShared p => Sys2Proof.Machine.execRdShared p s
  | .rdUnique p => Sys2Proof.Machine.execRdUnique p s
  | .claim p => Sys2Proof.Machine.execClaim p s
  | .wbDirty p => Sys2Proof.Machine.execWbDirty p s
  | .evictClean p => Sys2Proof.Machine.execEvictClean p s
  | .atomP p => Sys2Proof.Machine.execAtomP p s
  | .grant p => Sys2Proof.Machine.execGrant p s
  | .snpRsp p => Sys2Proof.Machine.execSnpRsp p s
  | .snpRspData p => Sys2Proof.Machine.execSnpRspData p s
  | .cmpAck p => Sys2Proof.Machine.execCmpAck p s
  | .lineWaiterServed line => Sys2Proof.Machine.execLineWaiterServed line s
  | .ackTimeout line => Sys2Proof.Machine.execAckTimeout line s
  | .biTimeout line => Sys2Proof.Machine.execBiTimeout line s
  | .filterWalkDone h cache => Sys2Proof.Machine.execFilterWalkDone h cache s
  | .lostLinePop h => Sys2Proof.Machine.execLostLinePop h s
  | .homeCntClear h => Sys2Proof.Machine.execHomeCntClear h s
  | .cxlMemrd tag line mval => Sys2Proof.Machine.execCxlMemrd tag line mval s
  | .cxlMemwr tag line mask data ep => Sys2Proof.Machine.execCxlMemwr tag line mask data ep s
  | .cxlMemclnevct tag line => Sys2Proof.Machine.execCxlMemclnevct tag line s
  | .cxlBirsp line st => Sys2Proof.Machine.execCxlBirsp line st s
  | .cxlBiconflict tag line => Sys2Proof.Machine.execCxlBiconflict tag line s
  | .stackTempRead m temp refresh vddq => Sys2Proof.Machine.execStackTempRead m temp refresh vddq s
  | .capRiseTimer m => Sys2Proof.Machine.execCapRiseTimer m s
  | .scrubRead m hpa c row => Sys2Proof.Machine.execScrubRead m hpa c row s
  | .laneRepair m fix => Sys2Proof.Machine.execLaneRepair m fix s
  | .hbmBurn m => Sys2Proof.Machine.execHbmBurn m s
  | .hbmErrClear m => Sys2Proof.Machine.execHbmErrClear m s
  | .hbmTrainSave m => Sys2Proof.Machine.execHbmTrainSave m s
  | .recentreStart m => Sys2Proof.Machine.execRecentreStart m s
  | .recentreEnd m => Sys2Proof.Machine.execRecentreEnd m s
  | .stackNoAnswerTimeout m => Sys2Proof.Machine.execStackNoAnswerTimeout m s
  | .stackLoss m cause => Sys2Proof.Machine.execStackLoss m cause s
  | .granQuery w block => Sys2Proof.Machine.execGranQuery w block s
  | .granFill w block => Sys2Proof.Machine.execGranFill w block s
  | .granSeal w block => Sys2Proof.Machine.execGranSeal w block s
  | .granRelease w block => Sys2Proof.Machine.execGranRelease w block s
  | .granRestoreBegin w block page => Sys2Proof.Machine.execGranRestoreBegin w block page s
  | .granRestoreEnd w block page => Sys2Proof.Machine.execGranRestoreEnd w block page s
  | .granOpNone w op block => Sys2Proof.Machine.execGranOpNone w op block s
  | .parityPassEnd block uncorrectable => Sys2Proof.Machine.execParityPassEnd block uncorrectable s
  | .wipeEnd block => Sys2Proof.Machine.execWipeEnd block s
  | .restoreParityEnd block page stillBad => Sys2Proof.Machine.execRestoreParityEnd block page stillBad s
  | .fmtCommit => Sys2Proof.Machine.execFmtCommit s
  | .fmtCommitDone => Sys2Proof.Machine.execFmtCommitDone s
  | .loomDispatch p => Sys2Proof.Machine.execLoomDispatch p s
  | .loomLaunch tile => Sys2Proof.Machine.execLoomLaunch tile s
  | .loomClaimRecord tile => Sys2Proof.Machine.execLoomClaimRecord tile s
  | .loomParkRecord tile => Sys2Proof.Machine.execLoomParkRecord tile s
  | .loomBudgetExpire tile => Sys2Proof.Machine.execLoomBudgetExpire tile s
  | .unitStop p => Sys2Proof.Machine.execUnitStop p s
  | .scalarInstruction tile w => Sys2Proof.Machine.execScalarInstruction tile w s
  | .mret tile => Sys2Proof.Machine.execMret tile s
  | .fenceI tile => Sys2Proof.Machine.execFenceI tile s
  | .globalLoad tile rd rs1 imm size uns => Sys2Proof.Machine.execGlobalLoad tile rd rs1 imm size uns s
  | .globalStore tile rs1 rs2 imm size => Sys2Proof.Machine.execGlobalStore tile rs1 rs2 imm size s
  | .globalAmo tile aop rd rs1 rs2 size aq rl => Sys2Proof.Machine.execGlobalAmo tile aop rd rs1 rs2 size aq rl s
  | .lr tile rd rs1 size => Sys2Proof.Machine.execLr tile rd rs1 size s
  | .sc tile rd rs1 rs2 size => Sys2Proof.Machine.execSc tile rd rs1 rs2 size s
  | .vadd tile f => Sys2Proof.Machine.execVadd tile f s
  | .vsub tile f => Sys2Proof.Machine.execVsub tile f s
  | .vmul tile f => Sys2Proof.Machine.execVmul tile f s
  | .vfma tile f => Sys2Proof.Machine.execVfma tile f s
  | .vfms tile f => Sys2Proof.Machine.execVfms tile f s
  | .vfnma tile f => Sys2Proof.Machine.execVfnma tile f s
  | .vfnms tile f => Sys2Proof.Machine.execVfnms tile f s
  | .vmin tile f => Sys2Proof.Machine.execVmin tile f s
  | .vmax tile f => Sys2Proof.Machine.execVmax tile f s
  | .vabs tile f => Sys2Proof.Machine.execVabs tile f s
  | .vneg tile f => Sys2Proof.Machine.execVneg tile f s
  | .vsel tile f => Sys2Proof.Machine.execVsel tile f s
  | .vand tile f => Sys2Proof.Machine.execVand tile f s
  | .vor tile f => Sys2Proof.Machine.execVor tile f s
  | .vxor tile f => Sys2Proof.Machine.execVxor tile f s
  | .vsll tile f => Sys2Proof.Machine.execVsll tile f s
  | .vsrl tile f => Sys2Proof.Machine.execVsrl tile f s
  | .vsra tile f => Sys2Proof.Machine.execVsra tile f s
  | .vmulh tile f => Sys2Proof.Machine.execVmulh tile f s
  | .vcmpeq tile f => Sys2Proof.Machine.execVcmpeq tile f s
  | .vcmpne tile f => Sys2Proof.Machine.execVcmpne tile f s
  | .vcmplt tile f => Sys2Proof.Machine.execVcmplt tile f s
  | .vcmple tile f => Sys2Proof.Machine.execVcmple tile f s
  | .vcmpun tile f => Sys2Proof.Machine.execVcmpun tile f s
  | .vcvt tile f => Sys2Proof.Machine.execVcvt tile f s
  | .vrcp tile f => Sys2Proof.Machine.execVrcp tile f s
  | .vrsqrt tile f => Sys2Proof.Machine.execVrsqrt tile f s
  | .vsqrt tile f => Sys2Proof.Machine.execVsqrt tile f s
  | .vdiv tile f => Sys2Proof.Machine.execVdiv tile f s
  | .vexp tile f => Sys2Proof.Machine.execVexp tile f s
  | .vexp2 tile f => Sys2Proof.Machine.execVexp2 tile f s
  | .vln tile f => Sys2Proof.Machine.execVln tile f s
  | .vlog2 tile f => Sys2Proof.Machine.execVlog2 tile f s
  | .vtanh tile f => Sys2Proof.Machine.execVtanh tile f s
  | .vsigm tile f => Sys2Proof.Machine.execVsigm tile f s
  | .vsin tile f => Sys2Proof.Machine.execVsin tile f s
  | .vcos tile f => Sys2Proof.Machine.execVcos tile f s
  | .verf tile f => Sys2Proof.Machine.execVerf tile f s
  | .vrand tile f => Sys2Proof.Machine.execVrand tile f s
  | .vperm tile f => Sys2Proof.Machine.execVperm tile f s
  | .vslideup tile f => Sys2Proof.Machine.execVslideup tile f s
  | .vslidedn tile f => Sys2Proof.Machine.execVslidedn tile f s
  | .vcompress tile f => Sys2Proof.Machine.execVcompress tile f s
  | .lbcast tile f => Sys2Proof.Machine.execLbcast tile f s
  | .lext tile f => Sys2Proof.Machine.execLext tile f s
  | .vld tile f => Sys2Proof.Machine.execVld tile f s
  | .vst tile f => Sys2Proof.Machine.execVst tile f s
  | .vldx tile f => Sys2Proof.Machine.execVldx tile f s
  | .vstx tile f => Sys2Proof.Machine.execVstx tile f s
  | .vmld tile f => Sys2Proof.Machine.execVmld tile f s
  | .vmst tile f => Sys2Proof.Machine.execVmst tile f s
  | .vredAdd tile f => Sys2Proof.Machine.execVredAdd tile f s
  | .vredExact tile f => Sys2Proof.Machine.execVredExact tile f s
  | .vredIadd tile f => Sys2Proof.Machine.execVredIadd tile f s
  | .vredMax tile f => Sys2Proof.Machine.execVredMax tile f s
  | .vredMin tile f => Sys2Proof.Machine.execVredMin tile f s
  | .vredArgmax tile f => Sys2Proof.Machine.execVredArgmax tile f s
  | .vredArgmin tile f => Sys2Proof.Machine.execVredArgmin tile f s
  | .vredAnd tile f => Sys2Proof.Machine.execVredAnd tile f s
  | .vredOr tile f => Sys2Proof.Machine.execVredOr tile f s
  | .vredXor tile f => Sys2Proof.Machine.execVredXor tile f s
  | .lrbcast tile f => Sys2Proof.Machine.execLrbcast tile f s
  | .vmand tile f => Sys2Proof.Machine.execVmand tile f s
  | .vmor tile f => Sys2Proof.Machine.execVmor tile f s
  | .vmxor tile f => Sys2Proof.Machine.execVmxor tile f s
  | .vmandn tile f => Sys2Proof.Machine.execVmandn tile f s
  | .lmpop tile f => Sys2Proof.Machine.execLmpop tile f s
  | .lmfirst tile f => Sys2Proof.Machine.execLmfirst tile f s
  | .lsetvl tile rd rs1 rs2 ww => Sys2Proof.Machine.execLsetvl tile rd rs1 rs2 ww s
  | .lrreset tile rd rs1 rs2 => Sys2Proof.Machine.execLrreset tile rd rs1 rs2 s
  | .lrd tile rd rs1 rs2 => Sys2Proof.Machine.execLrd tile rd rs1 rs2 s
  | .lrdi tile rd rs1 rs2 => Sys2Proof.Machine.execLrdi tile rd rs1 rs2 s
  | .lrsave tile rd rs1 rs2 => Sys2Proof.Machine.execLrsave tile rd rs1 rs2 s
  | .lrmerge tile rd rs1 rs2 => Sys2Proof.Machine.execLrmerge tile rd rs1 rs2 s
  | .lpload tile rd rs1 rs2 => Sys2Proof.Machine.execLpload tile rd rs1 rs2 s
  | .lprun tile rd rs1 rs2 => Sys2Proof.Machine.execLprun tile rd rs1 rs2 s
  | .lvsync tile rd rs1 rs2 => Sys2Proof.Machine.execLvsync tile rd rs1 rs2 s
  | .lsignal tile rd rs1 rs2 => Sys2Proof.Machine.execLsignal tile rd rs1 rs2 s
  | .lwait tile rd rs1 rs2 => Sys2Proof.Machine.execLwait tile rd rs1 rs2 s
  | .lwaitLimit tile => Sys2Proof.Machine.execLwaitLimit tile s
  | .lend tile rd rs1 rs2 => Sys2Proof.Machine.execLend tile rd rs1 rs2 s
  | .lfail tile rd rs1 rs2 => Sys2Proof.Machine.execLfail tile rd rs1 rs2 s
  | .millDispatch p => Sys2Proof.Machine.execMillDispatch p s
  | .millItemStart slice item => Sys2Proof.Machine.execMillItemStart slice item s
  | .collJoin p => Sys2Proof.Machine.execCollJoin p s
  | .collExp p => Sys2Proof.Machine.execCollExp p s
  | .collData p => Sys2Proof.Machine.execCollData p s
  | .collCredit p => Sys2Proof.Machine.execCollCredit p s
  | .collKeep p => Sys2Proof.Machine.execCollKeep p s
  | .collLate p => Sys2Proof.Machine.execCollLate p s
  | .collAbort p => Sys2Proof.Machine.execCollAbort p s
  | .collNack p => Sys2Proof.Machine.execCollNack p s
  | .joinRetryTimer slice item => Sys2Proof.Machine.execJoinRetryTimer slice item s
  | .keepTimer slice item => Sys2Proof.Machine.execKeepTimer slice item s
  | .lateTimer => Sys2Proof.Machine.execLateTimer s
  | .millStartDeadline slice item rank => Sys2Proof.Machine.execMillStartDeadline slice item rank s
  | .millProgressDeadline slice item rank => Sys2Proof.Machine.execMillProgressDeadline slice item rank s
  | .millItemEnd slice item => Sys2Proof.Machine.execMillItemEnd slice item s
  | .millGrpCommit w g => Sys2Proof.Machine.execMillGrpCommit w g s
  | .millCntClear => Sys2Proof.Machine.execMillCntClear s
  | .moverDispatch p => Sys2Proof.Machine.execMoverDispatch p s
  | .movDescStart mover q => Sys2Proof.Machine.execMovDescStart mover q s
  | .movDescEnd mover q => Sys2Proof.Machine.execMovDescEnd mover q s
  | .movItemComplete mover q => Sys2Proof.Machine.execMovItemComplete mover q s
  | .xltRequest p => Sys2Proof.Machine.execXltRequest p s
  | .walkStep slice walk => Sys2Proof.Machine.execWalkStep slice walk s
  | .faultOpen => Sys2Proof.Machine.execFaultOpen s
  | .faultRecordWrite fid => Sys2Proof.Machine.execFaultRecordWrite fid s
  | .faultEntryTimeout fid => Sys2Proof.Machine.execFaultEntryTimeout fid s
  | .fltRespRetry w fid => Sys2Proof.Machine.execFltRespRetry w fid s
  | .fltRespFail w fid => Sys2Proof.Machine.execFltRespFail w fid s
  | .faultRingHead w head => Sys2Proof.Machine.execFaultRingHead w head s
  | .xltInvGo w scope asid va count => Sys2Proof.Machine.execXltInvGo w scope asid va count s
  | .xltInvComplete => Sys2Proof.Machine.execXltInvComplete s
  | .busyPageRetry agent q expired => Sys2Proof.Machine.execBusyPageRetry agent q expired s
  | .sqDoorbell w q tail => Sys2Proof.Machine.execSqDoorbell w q tail s
  | .cqDoorbell w q head => Sys2Proof.Machine.execCqDoorbell w q head s
  | .packetFetch data bad => Sys2Proof.Machine.execPacketFetch data bad s
  | .itemDispatch => Sys2Proof.Machine.execItemDispatch s
  | .busyRetryTimer q item => Sys2Proof.Machine.execBusyRetryTimer q item s
  | .nop q item => Sys2Proof.Machine.execNop q item s
  | .loomRun q item => Sys2Proof.Machine.execLoomRun q item s
  | .loomClaim q item => Sys2Proof.Machine.execLoomClaim q item s
  | .loomPark q item => Sys2Proof.Machine.execLoomPark q item s
  | .move q item => Sys2Proof.Machine.execMove q item s
  | .collective q item => Sys2Proof.Machine.execCollective q item s
  | .siteWork q item => Sys2Proof.Machine.execSiteWork q item s
  | .writeImm q item => Sys2Proof.Machine.execWriteImm q item s
  | .barrier q item => Sys2Proof.Machine.execBarrier q item s
  | .evtSignal q item => Sys2Proof.Machine.execEvtSignal q item s
  | .evtWait q item => Sys2Proof.Machine.execEvtWait q item s
  | .evtWaitTimeout q item => Sys2Proof.Machine.execEvtWaitTimeout q item s
  | .evtReset q item => Sys2Proof.Machine.execEvtReset q item s
  | .cancel q item => Sys2Proof.Machine.execCancel q item s
  | .itemQuery q item => Sys2Proof.Machine.execItemQuery q item s
  | .alloc q item => Sys2Proof.Machine.execAlloc q item s
  | .free q item => Sys2Proof.Machine.execFree q item s
  | .blockZeroDone hpa => Sys2Proof.Machine.execBlockZeroDone hpa s
  | .kvAlloc q item => Sys2Proof.Machine.execKvAlloc q item s
  | .kvFree q item => Sys2Proof.Machine.execKvFree q item s
  | .prefetch q item => Sys2Proof.Machine.execPrefetch q item s
  | .advise q item => Sys2Proof.Machine.execAdvise q item s
  | .evacuate q item => Sys2Proof.Machine.execEvacuate q item s
  | .weightLoad q item => Sys2Proof.Machine.execWeightLoad q item s
  | .weightChunk q item => Sys2Proof.Machine.execWeightChunk q item s
  | .weightRelease q item => Sys2Proof.Machine.execWeightRelease q item s
  | .seqOpen q item => Sys2Proof.Machine.execSeqOpen q item s
  | .seqFeed q item => Sys2Proof.Machine.execSeqFeed q item s
  | .seqClose q item => Sys2Proof.Machine.execSeqClose q item s
  | .genStart q item => Sys2Proof.Machine.execGenStart q item s
  | .genStop q item => Sys2Proof.Machine.execGenStop q item s
  | .completionEvent p => Sys2Proof.Machine.execCompletionEvent p s
  | .evtOp p => Sys2Proof.Machine.execEvtOp p s
  | .wakeEvent p => Sys2Proof.Machine.execWakeEvent p s
  | .evtRegWrite w e value => Sys2Proof.Machine.execEvtRegWrite w e value s
  | .queueEnable w q => Sys2Proof.Machine.execQueueEnable w q s
  | .queueDisable w q => Sys2Proof.Machine.execQueueDisable w q s
  | .queueDrained q => Sys2Proof.Machine.execQueueDrained q s
  | .cqbaseWrite w c value => Sys2Proof.Machine.execCqbaseWrite w c value s
  | .cqCoalTimeout c => Sys2Proof.Machine.execCqCoalTimeout c s
  | .mboxGo w => Sys2Proof.Machine.execMboxGo w s
  | .mboxReady => Sys2Proof.Machine.execMboxReady s
  | .resAck w => Sys2Proof.Machine.execResAck w s
  | .rsvWrite w value => Sys2Proof.Machine.execRsvWrite w value s
  | .poolCommit w pool value => Sys2Proof.Machine.execPoolCommit w pool value s
  | .poolZeroDone pool => Sys2Proof.Machine.execPoolZeroDone pool s
  | .kvPoolCommit w pool cfg0 cfg1 => Sys2Proof.Machine.execKvPoolCommit w pool cfg0 cfg1 s
  | .genStepBoundary => Sys2Proof.Machine.execGenStepBoundary s
  | .genSample => Sys2Proof.Machine.execGenSample s
  | .genStepRetry => Sys2Proof.Machine.execGenStepRetry s
  | .genRecordsWrite => Sys2Proof.Machine.execGenRecordsWrite s
  | .genOutHead w head => Sys2Proof.Machine.execGenOutHead w head s
  | .bucketRefill => Sys2Proof.Machine.execBucketRefill s
  | .sluWindowEnd meas => Sys2Proof.Machine.execSluWindowEnd meas s
  | .sluCommit w => Sys2Proof.Machine.execSluCommit w s
  | .sluCommitDone => Sys2Proof.Machine.execSluCommitDone s
  | .sluMissClear w => Sys2Proof.Machine.execSluMissClear w s
  | .siteDispatch p => Sys2Proof.Machine.execSiteDispatch p s
  | .stlRd n u m => Sys2Proof.Machine.execStlRd n u m s
  | .stlWr n u m => Sys2Proof.Machine.execStlWr n u m s
  | .stlWrn n u m => Sys2Proof.Machine.execStlWrn n u m s
  | .stlAtom n u m => Sys2Proof.Machine.execStlAtom n u m s
  | .stlRdShared n u m => Sys2Proof.Machine.execStlRdShared n u m s
  | .stlRdUnique n u m => Sys2Proof.Machine.execStlRdUnique n u m s
  | .stlClaim n u m => Sys2Proof.Machine.execStlClaim n u m s
  | .stlWbDirty n u m => Sys2Proof.Machine.execStlWbDirty n u m s
  | .stlEvictClean n u m => Sys2Proof.Machine.execStlEvictClean n u m s
  | .stlAtomP n u m => Sys2Proof.Machine.execStlAtomP n u m s
  | .stlFence n u m => Sys2Proof.Machine.execStlFence n u m s
  | .stlFenceRemote n u m => Sys2Proof.Machine.execStlFenceRemote n u m s
  | .xltReq n u m => Sys2Proof.Machine.execXltReq n u m s
  | .stlEvt n u m => Sys2Proof.Machine.execStlEvt n u m s
  | .stlIrq n u m => Sys2Proof.Machine.execStlIrq n u m s
  | .wqDone n u m => Sys2Proof.Machine.execWqDone n u m s
  | .stlErr n u m => Sys2Proof.Machine.execStlErr n u m s
  | .stlSnpRsp n u m => Sys2Proof.Machine.execStlSnpRsp n u m s
  | .stlSnpRspData n u m => Sys2Proof.Machine.execStlSnpRspData n u m s
  | .stlCmpAck n u m => Sys2Proof.Machine.execStlCmpAck n u m s
  | .wRsp n u m => Sys2Proof.Machine.execWRsp n u m s
  | .wRspData n u m => Sys2Proof.Machine.execWRspData n u m s
  | .xltInvDone n u m => Sys2Proof.Machine.execXltInvDone n u m s
  | .echo n u m => Sys2Proof.Machine.execEcho n u m s
  | .credit n u m => Sys2Proof.Machine.execCredit n u m s
  | .siteCxlRequest n r => Sys2Proof.Machine.execSiteCxlRequest n r s
  | .sidebandIdle n => Sys2Proof.Machine.execSidebandIdle n s
  | .sidebandSelftest n result => Sys2Proof.Machine.execSidebandSelftest n result s
  | .sidebandFatal n => Sys2Proof.Machine.execSidebandFatal n s
  | .credTimeout n u => Sys2Proof.Machine.execCredTimeout n u s
  | .invTimeout n => Sys2Proof.Machine.execInvTimeout n s
  | .stopTimeout n item => Sys2Proof.Machine.execStopTimeout n item s
  | .siteTrainTimeout n => Sys2Proof.Machine.execSiteTrainTimeout n s
  | .echoTimeout n u => Sys2Proof.Machine.execEchoTimeout n u s
  | .moduleRetrain n u ok => Sys2Proof.Machine.execModuleRetrain n u ok s
  | .siteIrqUnmask w n mask => Sys2Proof.Machine.execSiteIrqUnmask w n mask s
  | .siteBringup n t => Sys2Proof.Machine.execSiteBringup n t s
  | .rightRevoke n tenant => Sys2Proof.Machine.execRightRevoke n tenant s
  | .linkFlitReceive l f => Sys2Proof.Machine.execLinkFlitReceive l f s
  | .linkReplayTimeout l => Sys2Proof.Machine.execLinkReplayTimeout l s
  | .ethFrameReceive l port f => Sys2Proof.Machine.execEthFrameReceive l port f s
  | .ethCnp hub => Sys2Proof.Machine.execEthCnp hub s
  | .ethRateRise hub => Sys2Proof.Machine.execEthRateRise hub s
  | .anchorSend p => Sys2Proof.Machine.execAnchorSend p s
  | .xpRd m => Sys2Proof.Machine.execXpRd m s
  | .xpWr m => Sys2Proof.Machine.execXpWr m s
  | .xpWrn m => Sys2Proof.Machine.execXpWrn m s
  | .xpAtom m => Sys2Proof.Machine.execXpAtom m s
  | .xpColl m => Sys2Proof.Machine.execXpColl m s
  | .xpClose m => Sys2Proof.Machine.execXpClose m s
  | .xpRsp m => Sys2Proof.Machine.execXpRsp m s
  | .xpRspData m => Sys2Proof.Machine.execXpRspData m s
  | .xpWfail m => Sys2Proof.Machine.execXpWfail m s
  | .xpAck m => Sys2Proof.Machine.execXpAck m s
  | .xpPerf m => Sys2Proof.Machine.execXpPerf m s
  | .xpBusy m => Sys2Proof.Machine.execXpBusy m s
  | .xpAckTimer hub => Sys2Proof.Machine.execXpAckTimer hub s
  | .xpRto hub => Sys2Proof.Machine.execXpRto hub s
  | .xpOpenRetry hub expired => Sys2Proof.Machine.execXpOpenRetry hub expired s
  | .xpIdleClose hub => Sys2Proof.Machine.execXpIdleClose hub s
  | .intermediateForward l vc m => Sys2Proof.Machine.execIntermediateForward l vc m s
  | .timeSyncTimer => Sys2Proof.Machine.execTimeSyncTimer s
  | .linkTimeMsg l t1 r1 r2 => Sys2Proof.Machine.execLinkTimeMsg l t1 r1 r2 s
  | .ptpFrame l port offset => Sys2Proof.Machine.execPtpFrame l port offset s
  | .linkLaneFail l lane => Sys2Proof.Machine.execLinkLaneFail l lane s
  | .linkRetrainTimer l => Sys2Proof.Machine.execLinkRetrainTimer l s
  | .linkRetrain l => Sys2Proof.Machine.execLinkRetrain l s
  | .lnkErrClear l => Sys2Proof.Machine.execLnkErrClear l s
  | .routeWrite idx valid set => Sys2Proof.Machine.execRouteWrite idx valid set s
  | .windowCommit w => Sys2Proof.Machine.execWindowCommit w s
  | .hostMemRead bar tag off len => Sys2Proof.Machine.execHostMemRead bar tag off len s
  | .hostMemWrite bar off data ep => Sys2Proof.Machine.execHostMemWrite bar off data ep s
  | .hostAtomicop tag off op size a b => Sys2Proof.Machine.execHostAtomicop tag off op size a b s
  | .hostCompletion tag status data ep => Sys2Proof.Machine.execHostCompletion tag status data ep s
  | .hostCplTimeout tag => Sys2Proof.Machine.execHostCplTimeout tag s
  | .bmeClear d3 => Sys2Proof.Machine.execBmeClear d3 s
  | .bmeDrainTimeout => Sys2Proof.Machine.execBmeDrainTimeout s
  | .bmeSet d0 => Sys2Proof.Machine.execBmeSet d0 s
  | .msixPendingSend vector => Sys2Proof.Machine.execMsixPendingSend vector s
  | .functionLevelReset kind => Sys2Proof.Machine.execFunctionLevelReset kind s
  | .flrUnitWaitTimeout => Sys2Proof.Machine.execFlrUnitWaitTimeout s
  | .ltrIdleTimer => Sys2Proof.Machine.execLtrIdleTimer s
  | .fatePop w => Sys2Proof.Machine.execFatePop w s
  | .fateAck w => Sys2Proof.Machine.execFateAck w s
  | .hepUnsupClear w => Sys2Proof.Machine.execHepUnsupClear w s
  | .lcTransition w len => Sys2Proof.Machine.execLcTransition w len s
  | .debugCert w len => Sys2Proof.Machine.execDebugCert w len s
  | .epochRaise w len => Sys2Proof.Machine.execEpochRaise w len s
  | .ownerSet w len => Sys2Proof.Machine.execOwnerSet w len s
  | .siteAttest w len => Sys2Proof.Machine.execSiteAttest w len s
  | .ledgerCheckpoint w len => Sys2Proof.Machine.execLedgerCheckpoint w len s
  | .purge w len => Sys2Proof.Machine.execPurge w len s
  | .purgeEnd => Sys2Proof.Machine.execPurgeEnd s
  | .identity w len => Sys2Proof.Machine.execIdentity w len s
  | .vstMboxAck w => Sys2Proof.Machine.execVstMboxAck w s
  | .spdmRequest via ask => Sys2Proof.Machine.execSpdmRequest via ask s
  | .ledgerExport w value => Sys2Proof.Machine.execLedgerExport w value s
  | .bootVestry w arg us rom sig => Sys2Proof.Machine.execBootVestry w arg us rom sig s
  | .bootFuses w arg us good stks sites links bad => Sys2Proof.Machine.execBootFuses w arg us good stks sites links bad s
  | .bootCommons w arg us corr bad => Sys2Proof.Machine.execBootCommons w arg us corr bad s
  | .bootReeve w arg us sig => Sys2Proof.Machine.execBootReeve w arg us sig s
  | .bootKat w arg us fails homes => Sys2Proof.Machine.execBootKat w arg us fails homes s
  | .bootRoll w arg us => Sys2Proof.Machine.execBootRoll w arg us s
  | .bootHbm w arg us ts => Sys2Proof.Machine.execBootHbm w arg us ts s
  | .bootLinks w arg us ts => Sys2Proof.Machine.execBootLinks w arg us ts s
  | .bootSites w arg => Sys2Proof.Machine.execBootSites w arg s
  | .bootCrier w arg => Sys2Proof.Machine.execBootCrier w arg s
  | .bootReady w arg us => Sys2Proof.Machine.execBootReady w arg us s
  | .bootGoRefused w step arg => Sys2Proof.Machine.execBootGoRefused w step arg s
  | .bootSaveHbm w => Sys2Proof.Machine.execBootSaveHbm w s
  | .bootSaveLinks w => Sys2Proof.Machine.execBootSaveLinks w s
  | .rollUpd agent logical phys gen => Sys2Proof.Machine.execRollUpd agent logical phys gen s
  | .crier agent p => Sys2Proof.Machine.execCrier agent p s
  | .crierReport p => Sys2Proof.Machine.execCrierReport p s
  | .imageDigestDone agent => Sys2Proof.Machine.execImageDigestDone agent s
  | .evtRecordWrite => Sys2Proof.Machine.execEvtRecordWrite s
  | .evtRingHead w head => Sys2Proof.Machine.execEvtRingHead w head s
  | .hubFatalError agent => Sys2Proof.Machine.execHubFatalError agent s
  | .fatalResetTimer => Sys2Proof.Machine.execFatalResetTimer s
  | .unitFailure agent => Sys2Proof.Machine.execUnitFailure agent s
  | .unitDrainTimeout agent => Sys2Proof.Machine.execUnitDrainTimeout agent s
  | .unitSwapped => Sys2Proof.Machine.execUnitSwapped s
  | .svcWarm w => Sys2Proof.Machine.execSvcWarm w s
  | .svcHubReset w => Sys2Proof.Machine.execSvcHubReset w s
  | .svcDomainReset w dom force => Sys2Proof.Machine.execSvcDomainReset w dom force s
  | .svcDoze w => Sys2Proof.Machine.execSvcDoze w s
  | .svcWake w => Sys2Proof.Machine.execSvcWake w s
  | .svcUnitFail w unit => Sys2Proof.Machine.execSvcUnitFail w unit s
  | .svcFwUpdate w slot allowOld => Sys2Proof.Machine.execSvcFwUpdate w slot allowOld s
  | .svcRecal w target => Sys2Proof.Machine.execSvcRecal w target s
  | .svcOpInvalid w op arg => Sys2Proof.Machine.execSvcOpInvalid w op arg s
  | .fwUpdateWaitTimeout => Sys2Proof.Machine.execFwUpdateWaitTimeout s
  | .fwReceiverVerified agent => Sys2Proof.Machine.execFwReceiverVerified agent s
  | .warmReset => Sys2Proof.Machine.execWarmReset s
  | .dozeEntered => Sys2Proof.Machine.execDozeEntered s
  | .wakeComplete => Sys2Proof.Machine.execWakeComplete s
  | .powerOn straps => Sys2Proof.Machine.execPowerOn straps s
  | .coldReset rate => Sys2Proof.Machine.execColdReset rate s
  | .powerFail => Sys2Proof.Machine.execPowerFail s
  | .powerEval reads => Sys2Proof.Machine.execPowerEval reads s
  | .thermalSensorRead k temp ok => Sys2Proof.Machine.execThermalSensorRead k temp ok s
  | .thermalCeilingTick rise => Sys2Proof.Machine.execThermalCeilingTick rise s
  | .stageMissTimer => Sys2Proof.Machine.execStageMissTimer s
  | .pinThrottle pin low => Sys2Proof.Machine.execPinThrottle pin low s
  | .thermalTrip sensor => Sys2Proof.Machine.execThermalTrip sensor s
  | .mctpMessage via typ data => Sys2Proof.Machine.execMctpMessage via typ data s
  | .i3cCcc code arg => Sys2Proof.Machine.execI3cCcc code arg s
  | .pldmRequest via ask => Sys2Proof.Machine.execPldmRequest via ask s
  | .pldmRequestUpdate via => Sys2Proof.Machine.execPldmRequestUpdate via s
  | .pldmApplyComplete via slot image fault => Sys2Proof.Machine.execPldmApplyComplete via slot image fault s
  | .pldmActivateFirmware via slot => Sys2Proof.Machine.execPldmActivateFirmware via slot s
  | .getEvents via index => Sys2Proof.Machine.execGetEvents via index s
  | .oobReset via kind => Sys2Proof.Machine.execOobReset via kind s
  | .oobWake via => Sys2Proof.Machine.execOobWake via s
  | .readReg via off count => Sys2Proof.Machine.execReadReg via off count s
  | .writeReg via off value => Sys2Proof.Machine.execWriteReg via off value s
  | .getBoot via => Sys2Proof.Machine.execGetBoot via s
  | .oobLogFlush => Sys2Proof.Machine.execOobLogFlush s
  | .flashStage w slot len fault => Sys2Proof.Machine.execFlashStage w slot len fault s
  | .flashActivate w slot => Sys2Proof.Machine.execFlashActivate w slot s
  | .flashOpInvalid w op slot => Sys2Proof.Machine.execFlashOpInvalid w op slot s
  | .ppsPulse => Sys2Proof.Machine.execPpsPulse s
  | .hostConfigRequest tag write off be value => Sys2Proof.Machine.execHostConfigRequest tag write off be value s
  | .loadClassWindowEnd m share => Sys2Proof.Machine.execLoadClassWindowEnd m share s
  | .siteSpdmResponse n result meas => Sys2Proof.Machine.execSiteSpdmResponse n result meas s
  | .ledgerRecordInFlash => Sys2Proof.Machine.execLedgerRecordInFlash s
  | .linkTrainingEnd l ok lanes => Sys2Proof.Machine.execLinkTrainingEnd l ok lanes s
  | .coldResetAssert => Sys2Proof.Machine.execColdResetAssert s
  | .jtagDebugAccess ask => Sys2Proof.Machine.execJtagDebugAccess ask s
  | .markerLock l gained => Sys2Proof.Machine.execMarkerLock l gained s

end Sys2Proof.Machine
end

