-- ==== Sys2Proof/Safety.lean ====
section
/-!
DEFINITION. Safety.lean: what the statements call a sound state of the hub and an unstopped run.
-/

namespace Sys2Proof.Safety

open Sys2Proof.Machine

/-- The domain states that COM_DOMAIN gives the Stile (02_commons.md R58), stored in canonical form: OPEN, DRAINING, FENCED, OFF or OPENING. -/
def domainsLegal (dom : SMap Nat) : Prop := SMap.rising none dom = true ∧ ∀ e ∈ dom, e.2 ≤ domOpening

/-- A sound state: memory in canonical form, the register file listed in rising order of its offsets, the poisoned lines in rising order,
and every Stile domain in one of the states of R58. -/
def Sound (s : State) : Prop :=
  Memory.wf s.mem = true ∧ SMap.rising none s.regs = true ∧ s.poison.Pairwise (· < ·) ∧ domainsLegal s.com.dom

/-- A step stops the hub: it faults or is refused. -/
def stops (s : State) : Bool :=
  match step s with
  | .next _ => false
  | .fault _ => true
  | .refused _ => true

/-! ### Instructions of a Loom tile -/

/-- The core of tile `t` takes an instruction of `len` bytes at its pc (07_loom_model.md R199, R211, R233): a kernel runs, the core waits for nothing
and is not halted, no vector trap is pending, and the instruction lies in the tile's own scratchpad. -/
def TakesInstruction (s : State) (t len : Nat) : Prop :=
  (s.tile t).ready = true ∧ (s.tile t).vtrap = none ∧ (s.padOff t (s.tile t).pc len).isSome = true

/-- From `s` to `u` an instruction of `len` bytes has entered the vector queue of tile `t` as its last entry (R201): the pc has passed it, lsridx is `r`,
and nothing else has changed. -/
def Entered (s u : State) (t len r : Nat) (e : VqEntry) : Prop :=
  u.tile t = { s.tile t with vq := (s.tile t).vq ++ [e], pc := ((s.tile t).pc + len) % 2 ^ 64, lsridx := r } ∧
  (∀ k, k ≠ t → u.tile k = s.tile k) ∧ u = { s with tiles := u.tiles }

/-- A V64 instruction completes at its core: it enters the queue with its offset, vl, the mode and seed, and the integer registers that it names; lsridx
passes vl elements where it rounds under RSR (R201, R208, 08_loom_isa.md R248). -/
def EntersQueue (s : State) (t op : Nat) (f : VOp) (o : Host.Outcome State Fault Refusal) : Prop :=
  let x := s.tile t
  let rsr : Bool := match opInfo op with | some i => usesRsr x.lrm i f | none => false
  ∃ u, o = .next u ∧ Entered s u t 8 (if rsr then (x.lsridx + x.vl) % 2 ^ 64 else x.lsridx)
    { off := s.offOf t x.pc, ins := .v64 op f
      c := { vl := x.vl, lrm := x.lrm, seed := x.lseed, sri := x.lsridx, x1 := x.xr f.vs1, x2 := x.xr f.vs2, x3 := x.xr f.vs3 } }

/-- The lane of element `i` of a vector register whose lane parts are `lw` wide. -/
def lane (x : Tile) (r lw i : Nat) : Nat := eltOf (x.vreg r) lw lw i

/-- From `s` to `v` a vector instruction has written VD: element `i` below vl holds `g i` where it is active, 0 or its old lane where it is not (R207); the
lanes from vl up, the other vector registers, the other tiles and memory stay. -/
def WritesVector (s v : State) (t : Nat) (f : VOp) (vl lw : Nat) (g : Nat → Option Nat) : Prop :=
  let x := s.tile t
  let y := v.tile t
  (∀ i, i < vl → lane y f.vd lw i =
    if x.active f vl i then (match g i with | some p => p % 2 ^ lw | none => lane x f.vd lw i) else if f.kz then 0 else lane x f.vd lw i) ∧
  (∀ i, vl ≤ i → lane y f.vd lw i = lane x f.vd lw i) ∧
  (∀ r, r ≠ f.vd → y.vreg r = x.vreg r) ∧ (∀ k, k ≠ t → v.tile k = s.tile k) ∧ v.mem = s.mem

/-- From `s` to `v` an instruction has written mask VD: bit `i` below vl is `g i` where the element is active, 0 or its old value where it is not, and the bits
from vl up are 0; vm0 takes no write (R206, R207); vector registers, the other tiles and memory stay. -/
def WritesMask (s v : State) (t : Nat) (f : VOp) (vl : Nat) (g : Nat → Bool) : Prop :=
  let x := s.tile t
  let y := v.tile t
  (f.vd ≠ 0 → (∀ i, i < vl → (y.mask f.vd).testBit i = if x.active f vl i then g i else if f.kz then false else (x.mask f.vd).testBit i) ∧
    (∀ i, vl ≤ i → (y.mask f.vd).testBit i = false)) ∧
  (f.vd = 0 → y.vm = x.vm) ∧ (∀ r, r ≠ f.vd → y.mask r = x.mask r) ∧ y.v = x.v ∧ (∀ k, k ≠ t → v.tile k = s.tile k) ∧ v.mem = s.mem

/-- Bit `k` of the scratchpad of tile `t`, bit 0 of a byte first. -/
def padBit (s : State) (t k : Nat) : Bool := (s.byte (scratchCell t + k / 8)).getLsbD (k % 8)

/-- From `s` to `v` an instruction has stored fields of bits, each with its number, in the order of the list, so that the last one to touch a bit stays
(R255); every other bit of memory, the vector registers and the other tiles stay. -/
def StoresBits (s v : State) (t : Nat) (ws : List (BitSpan × Nat)) : Prop :=
  (∀ k, padBit v t k = match ws.reverse.find? (fun w => decide (w.1.1 ≤ k ∧ k < w.1.1 + w.1.2)) with
    | some w => w.2.testBit (k - w.1.1)
    | none => padBit s t k) ∧
  (∀ a, a < scratchCell t → v.byte a = s.byte a) ∧ (∀ r, (v.tile t).vreg r = (s.tile t).vreg r) ∧ (∀ k, k ≠ t → v.tile k = s.tile k)

end Sys2Proof.Safety
end

