-- ==== Sys2Proof/Certificates/Slice0/Obligations.lean ====
section
/-!
DEFINITION. Certificates/Slice0/Obligations.lean: the statements for the provers. The first part says what each group of commands does:
for every command, on every state and for every operand, exec answers the next state that the command's rule gives. The second part states
properties of the operations and of the whole machine.
-/

open Sys2Proof Sys2Proof.Machine

/-! ### Every command takes its effect -/

/-- Register accesses, the stage ring, flits and the requests of the Commons take their effect: on every state and for every operand, each command of the group answers the next state that its rule gives. -/
def Obligations.CommonsRequestsEffects : Prop :=
    (∀ (w : Writer) (off size : Nat) (value : Word) (s : State), exec (.registerWrite w off size value) s = (
      .next (if s.rve.inReset then s
      else match w with
        | .driver => s.hostRegWrite off size value.toNat
        | .agent a => if s.csrAllowed a then (s.regWrite w off size value.toNat).2 else s
        | .oob => (s.regWrite w off size value.toNat).2))) ∧
    (∀ (stageFs : Nat) (s : State), exec (.stageWindowEnd stageFs) s = .next (if s.bootStep 4 = 2 then (s.wr HUB_STAGE_STAGE_FS 0 stageFs).wr HUB_STAGE_VALID 0 1 else s)) ∧
    (∀ (code : FlitCode) (row col port : Nat) (p : Pkt) (s : State), exec (.flitReceive code row col port p) s = (
      let s0 := s.putOut p
      let q := if s.travels p then p else s.stamp p
      let here := s0.com.out.contains q && (pathOf q.src (goalOf q)).contains (col, row, port)
      let met := here || s0.com.casts.any (fun c => c.1 = q)
      let go (t : State) (x : Pkt) : State := if here then t.hop x col row port else t
      .next (match code with
      | .good => go s0 q
      | .single => (go s0 q).inc COM_ERR_CORR 0 1
      | .payloadDouble =>
        let s1 := (s0.inc COM_ERR_PAY_UE 0 1).lastError row col port
        if met then go (s1.spoil q col row port) { q with poison := true } else s1
      | .headerDouble =>
        let s1 := if met then s0.dropFlit q col row port else s0
        let s2 := ((s1.inc COM_ERR_HDR_UE 0 1).wr COM_ERR_HDR_FLAG 0 1).lastError row col port
        s2.raise 0x0001 4 noAgent ((s2.reg COM_ERR 0).toNat / 32 % 1024)))) ∧
    (∀ (p : Pkt) (s : State), exec (.rd p) s = .next (s.request { p with opc := 0x00 })) ∧
    (∀ (p : Pkt) (s : State), exec (.rdLine p) s = .next (s.request { p with opc := 0x01, len := 128 })) ∧
    (∀ (p : Pkt) (s : State), exec (.rd2line p) s = .next (s.request { p with opc := 0x02, len := 256 })) ∧
    (∀ (p : Pkt) (s : State), exec (.wr p) s = .next (s.request { p with opc := 0x03 })) ∧
    (∀ (p : Pkt) (s : State), exec (.wrLine p) s = .next (s.request { p with opc := 0x04 })) ∧
    (∀ (p : Pkt) (s : State), exec (.wr2line p) s = .next (s.request { p with opc := 0x05 })) ∧
    (∀ (p : Pkt) (s : State), exec (.wrn p) s = .next (s.request { p with opc := 0x06 })) ∧
    (∀ (p : Pkt) (s : State), exec (.wrnLine p) s = .next (s.request { p with opc := 0x07 })) ∧
    (∀ (p : Pkt) (s : State), exec (.atom p) s = .next (s.request { p with opc := 0x08 }))

/-- CSR accesses, responses and the timeouts of interfaces take their effect: on every state and for every operand, each command of the group answers the next state that its rule gives. -/
def Obligations.CommonsAnswersEffects : Prop :=
    (∀ (p : Pkt) (s : State), exec (.csrRd p) s = (
      let q := { p with opc := 0x09 }
      .next (s.csrServe q (fun t off =>
        let (v, _, t1) := t.regRead off q.len
        t1.send (mkAnswer q ((t.csrServer off).getD q.src) stOk (natLe q.len v) false))))) ∧
    (∀ (p : Pkt) (s : State), exec (.csrWr p) s = (
      let q := { p with opc := 0x0A }
      .next (s.csrServe q (fun t off =>
        (t.regWrite (.agent q.src) off q.data.length (leNat q.data)).2.send (mkAnswer q ((t.csrServer off).getD q.src) stOk [] false))))) ∧
    (∀ (p : Pkt) (s : State), exec (.rsp p) s = .next (s.response { p with opc := 0x28 })) ∧
    (∀ (p : Pkt) (s : State), exec (.rspData p) s = .next (s.response { p with opc := 0x29 })) ∧
    (∀ (p : Pkt) (s : State), exec (.rspData2 p) s = .next (s.response { p with opc := 0x2A })) ∧
    (∀ (p : Pkt) (s : State), exec (.wfail p) s = .next (s.response { p with opc := 0x2B })) ∧
    (∀ (agent : Nat) (s : State), exec (.inboundAcceptResume agent) s = (
      .next (match (s.iface agent).blocked with
      | p :: r =>
        let s1 := s.updIface agent (fun i => { i with blocked := r })
        if s.agentState agent ≠ domOpen then s1.refuse agent p (if s.agentState agent = 5 then stTargetDead else stDomainDown)
        else if s.inboundFull agent p then s
        else s1.accept agent p
      | [] => s))) ∧
    (∀ (agent : Nat) (s : State), exec (.deadTimeout agent) s = .next (if (s.iface agent).inbound.isEmpty && (s.iface agent).snoops.isEmpty then s else s.isolate agent 0)) ∧
    (∀ (agent txn : Nat) (s : State), exec (.reqTimeout agent txn) s = (
      .next (match (s.iface agent).outstanding.find? (fun q => q.txn = txn) with
      | none => s
      | some r =>
        ((s.updIface agent (fun i => { i with txnHold := insertNat i.txnHold txn })).respond
          (mkAnswer r agent stTimeout [] false))))) ∧
    (∀ (agent txn : Nat) (s : State), exec (.txnHoldEnd agent txn) s = .next ((s.updIface agent (fun i => { i with txnHold := i.txnHold.erase txn })).releaseWaiting agent))

/-- The Stile, its acknowledgements and isolation take their effect: on every state and for every operand, each command of the group answers the next state that its rule gives. -/
def Obligations.StileEffects : Prop :=
    (∀ (dom : Nat) (s : State), exec (.stileClose dom) s = .next (s.stileCmd dom 0 (fun t => if t.domState dom = domOpen then t.closeDom dom else t.stileEnd dom 0))) ∧
    (∀ (dom : Nat) (s : State), exec (.stileOpen dom) s = (
      .next (s.stileCmd dom 1 (fun t =>
        let st := t.domSt dom
        if t.domIso dom || st = domOpen then t.stileEnd dom 1
        else if st = domDraining || st = domFenced then
          let t1 := t.openDom dom
          let t2 := if 0xB3 ≤ dom && dom ≤ 0xBA then
              (t1.updSite (dom - 0xB3) (fun x => { x with
                quiesced := false, side := if x.quiesced then x.side ++ [0x02] else x.side })).wr SITE_STAT_STATE
                (dom - 0xB3) 5
            else t1
          t2.stileEnd dom 1
        else t.openDom dom)))) ∧
    (∀ (dom : Nat) (s : State), exec (.stileForceOff dom) s = .next (s.stileCmd dom 2 (fun t => t.forceOff dom))) ∧
    (∀ (op dom : Nat) (s : State), exec (.stileOpReserved op dom) s = .next (if op % 4 = 3 || !s.domExists dom then s.stileCmd dom (op % 4) id else s)) ∧
    (∀ (op agent : Nat) (s : State), exec (.stile op agent) s = (
      let p : Pkt := { opc := 0x30, dst := agent, src := 0x1C1, data := natLe 8 op }
      .next (s.delivering p (fun t =>
        let t1 := if op = 2 then t.isolate agent 3 else t
        t1.send { opc := 0x31, dst := 0x1C1, src := agent, data := natLe 8 (t1.agentState agent) }) s))) ∧
    (∀ (agent st : Nat) (s : State), exec (.stileAck agent st) s = (
      let p : Pkt := { opc := 0x31, dst := 0x1C1, src := agent, data := natLe 8 st, note := 6 }
      .next (if s.com.out.contains p && s.lands p then (s.rollAck p).reeveTurn else s.stileAck agent st))) ∧
    (∀ (agent : Nat) (s : State), exec (.agentIdle agent) s = (
      match agentDom agent with
      | none => .next s
      | some d =>
        if s.domSt d ≠ domDraining || s.anchors agent then .next s
        else
          let s1 := s.updIface agent (fun i => { i with idle := true })
          let all := (domAgents d).all (fun a => (s1.iface a).idle)
          .next (if all && 0xB3 ≤ d && d ≤ 0xBA then s1.drainWalk (d - 0xB3) else s1))) ∧
    (∀ (dom : Nat) (s : State), exec (.domainFenced dom) s = .next ((s.domainFenced dom).reeveTurn)) ∧
    (∀ (dom : Nat) (s : State), exec (.domainPowerOff dom) s = .next (((s.domainPowerOff dom).sitesBooted).reeveTurn.stwTurn)) ∧
    (∀ (dom : Nat) (ok : Bool) (s : State), exec (.domainOpened dom ok) s = (
      .next (if s.domSt dom ≠ domOpening || (ok && s.domLoads dom) then s
      else (((s.domainOpened dom ok).linkOpened dom).sitesBooted).reeveTurn.stwTurn))) ∧
    (∀ (dom : Nat) (s : State), exec (.drainTimeout dom) s = (
      .next (if s.domSt dom ≠ domDraining || s.rd COM_STILE_TMO_DRAIN_US = 0 then s
      else
        let s1 := (s.wr COM_DOMAIN_STUCK dom 1).raise 0x0003 0 noAgent dom
        if s1.flag COM_STILE_TMO_AUTO_FORCE then s1.forceOff dom
        else
          let s2 : State := { s1 with com := { s1.com with stuck := insertNat s1.com.stuck dom } }
          if s2.flag COM_STILE_CMD_GO && s2.rd COM_STILE_CMD_DOMAIN = dom then s2.stileEnd dom 0 else s2))) ∧
    (∀ (agent : Nat) (s : State), exec (.isoIsolate agent) s = (
      let s1 := s.wr COM_ISO_CMD_AGENT 0 agent
      .next (if agent = 0x1C0 || agent = 0x1C1 then s1.wr COM_ISO_CMD_REJECTED 0 1
      else match s.physOf agent with
        | some a => s1.isolate a 4
        | none => s1))) ∧
    (∀ (agent : Nat) (s : State), exec (.isoRelease agent) s = .next (s.isoRelease agent)) ∧
    (∀ (s : State), exec .comErrClear s = .next ((((s.wr COM_ERR_CORR 0 0).wr COM_ERR_HDR_UE 0 0).wr COM_ERR_PAY_UE 0 0).wr COM_ERR_ABSORBED 0 0))

/-- EVENT packets, flush probes and fences take their effect: on every state and for every operand, each command of the group answers the next state that its rule gives. -/
def Obligations.EventsAndFencesEffects : Prop :=
    (∀ (p : Pkt) (s : State), exec (.event p) s = .next (s.eventArrives { p with opc := 0x32 })) ∧
    (∀ (p : Pkt) (s : State), exec (.flushProbe p) s = .next (s.request { p with opc := 0x06, mask := 0 })) ∧
    (∀ (agent src txn : Nat) (s : State), exec (.flushProbeAnswer agent src txn) s = (
      .next (match (s.iface agent).inbound.find? (fun q => isProbe q && q.src = src && q.txn = txn) with
      | some p => if s.probeReady agent p then s.answer agent p stOk else s
      | none => s))) ∧
    (∀ (agent stream : Nat) (s : State), exec (.fence agent stream) s = .next (s.startFence agent stream false)) ∧
    (∀ (agent stream : Nat) (s : State), exec (.fenceComplete agent stream) s = (
      let s1 := s.endFence agent stream
      .next (if s1.iface agent = s.iface agent then s
      else match kindOf agent with
        | .tile => s1.coreFenced (agent - 0x200)
        | .site n => (s1.siteFenced agent stream).cxlGo n
        | _ => s1))) ∧
    (∀ (agent stream : Nat) (s : State), exec (.fenceRemote agent stream) s = .next (s.startFence agent stream true))

/-- The requests, answers, timers and counters of a home take their effect: on every state and for every operand, each command of the group answers the next state that its rule gives. -/
def Obligations.HomeEffects : Prop :=
    (∀ (h line : Nat) (c : CodeRead) (s : State), exec (.homeReadComplete h line c) s = (
      .next (match (s.home h).reads.find? (fun r => r.line = line) with
      | none => s
      | some r =>
        if s.readWaits line r.data.length c then s
        else
          let s0 := if s.readsMembers line r.data.length c && !s.stackLost (s.stackOf (line * 128)) then s.chargeMembers r.req (line * 128 / 256 * 256) else s
          let s1 := s0.updHome h (fun x => { x with reads := x.reads.erase r })
          let (d, poison, st, s2) := s1.codeRead line r.data r.poison c false
          ((s2.sendRead h r.req d poison st).checkUes).lossTurn))) ∧
    (∀ (p : Pkt) (s : State), exec (.rdShared p) s = .next (s.request { p with opc := 0x10 })) ∧
    (∀ (p : Pkt) (s : State), exec (.rdUnique p) s = .next (s.request { p with opc := 0x11 })) ∧
    (∀ (p : Pkt) (s : State), exec (.claim p) s = .next (s.request { p with opc := 0x12 })) ∧
    (∀ (p : Pkt) (s : State), exec (.wbDirty p) s = .next (s.request { p with opc := 0x13 })) ∧
    (∀ (p : Pkt) (s : State), exec (.evictClean p) s = .next (s.request { p with opc := 0x14 })) ∧
    (∀ (p : Pkt) (s : State), exec (.atomP p) s = .next (s.request { p with opc := 0x15 })) ∧
    (∀ (p : Pkt) (s : State), exec (.grant p) s = .next (s.response { p with opc := 0x2C })) ∧
    (∀ (p : Pkt) (s : State), exec (.snpRsp p) s = (
      let q := { p with opc := 0x2D }
      .next (s.fromCache q (fun t => t.snoopReply q false)))) ∧
    (∀ (p : Pkt) (s : State), exec (.snpRspData p) s = (
      let q := { p with opc := 0x2E }
      .next (s.fromCache q (fun t => t.snoopReply q true)))) ∧
    (∀ (p : Pkt) (s : State), exec (.cmpAck p) s = (
      let q := { p with opc := 0x2F }
      .next (s.fromCache q (fun t => t.cmpAck q)))) ∧
    (∀ (line : Nat) (s : State), exec (.lineWaiterServed line) s = (
      let h := s.homeOfLine line
      .next (match (s.home h).waiters.find? (fun w => w.lines.contains line) with
      | some w => ((s.pump h (fun t => !(t.home h).waiters.contains w) (s.home h).waiters.length).checkUes).lossTurn
      | none => s))) ∧
    (∀ (line : Nat) (s : State), exec (.ackTimeout line) s = (
      let h := s.homeOfLine line
      .next (match SMap.get? (s.home h).busy line with
      | some t =>
        (match t.phase with
         | .ack c =>
           let s1 := if s.owns h line c then s else s.lostLine h 2 (cacheAgent c line) line
           let s2 := (s1.release h line).cacheGone h 2 c
           (if c < 8 then s2.isolate (cacheAgent c line) 4 else s2).retryAlloc h (s.setOf (line * 128))
         | _ => s)
      | none => s))) ∧
    (∀ (line : Nat) (s : State), exec (.biTimeout line) s = (
      let h := s.homeOfLine line
      .next (match SMap.get? (s.home h).busy line with
      | some t =>
        if !(t.phase.owes 8 || t.phase.owesWb 8) then s
        else
          let s1 := s.updIface 0x180 (fun i => { i with snoops := i.snoops.filter (fun q => q.addr % 2 ^ 48 / 128 ≠ line) })
          let s2 := if s1.owns h line 8 then s1 else s1.lostLine h 3 0x180 line
          ((s2.cacheGone h 3 8).updBusy h line (fun ph => (ph.answered 8 false).wbDone 8)).goOn h line
      | none => s))) ∧
    (∀ (h cache : Nat) (s : State), exec (.filterWalkDone h cache) s = (
      .next (if s.walkLeft h cache then s
      else s.updHome h (fun x => { x with walks := eraseNat x.walks cache, untrk := SMap.del x.untrk cache })))) ∧
    (∀ (h : Nat) (s : State), exec (.lostLinePop h) s = .next (s.updHome h (fun x => { x with lost := x.lost.drop 1 }))) ∧
    (∀ (h : Nat) (s : State), exec (.homeCntClear h) s = .next (((s.resetReg HBM_HOME_CNT0 h).resetReg HBM_HOME_CNT1 h).resetReg HBM_HOME_CNT2 h))

/-- The CXL.mem commands of the host take their effect: on every state and for every operand, each command of the group answers the next state that its rule gives. -/
def Obligations.CxlMemEffects : Prop :=
    (∀ (tag line mval : Nat) (s : State), exec (.cxlMemrd tag line mval) s = (
      let hpa := line * 64
      .next (if !s.hep.cxlEn || s.hep.flr then s
      else if !s.cxlReaches line then
        ((s.hostSend (.cxl 1 tag line 0 (s.freeBytes 64) true)).fresh 64).hepUnsup 2 false hpa
      else
        let caching := s.flag HBM_HOME_CFG_HOST_CACHE (s.homeOf hpa) && !s.inGranary (blockOf hpa)
        let opc := if !caching then 0x01 else if mval = 3 then 0x10 else if mval = 2 then 0x11 else 0x01
        s.cxlEnter tag line 0 { opc := opc, addr := s.here (hpa / 128 * 128), len := 128 }))) ∧
    (∀ (tag line mask : Nat) (data : List Byte) (ep : Bool) (s : State), exec (.cxlMemwr tag line mask data ep) s = (
      let hpa := line * 64
      .next (if !s.hep.cxlEn || s.hep.flr then s
      else if !s.cxlReaches line then (s.hostSend (.cxl 2 tag line 0 [])).hepUnsup 2 true hpa
      else
        let opc := if s.owns (s.homeOf hpa) (hpa / 128) 8 then 0x13 else 0x06
        s.cxlEnter tag line 1 { opc := opc, addr := s.here hpa, mask := mask % 2 ^ 64, data := (data ++ zeros 64).take 64, poison := ep }))) ∧
    (∀ (tag line : Nat) (s : State), exec (.cxlMemclnevct tag line) s = (
      .next (if !s.hep.cxlEn || s.hep.flr then s
      else if !s.cxlReaches line then (s.hostSend (.cxl 2 tag line 0 [])).hepUnsup 2 false (line * 64)
      else (s.issue { opc := 0x14, src := 0x180, stream := 1, addr := s.here (line / 2 * 128) }).hostSend (.cxl 2 tag line 0 [])))) ∧
    (∀ (line st : Nat) (s : State), exec (.cxlBirsp line st) s = (
      .next (match (s.iface 0x180).snoops.find? (fun q => q.addr % 2 ^ 48 / 128 = line / 2) with
      | some q => (s.cxlFlush (line / 2)).send { opc := 0x2D, dst := q.src, src := 0x180, addr := q.addr, keep := st % 2 }
      | none => s))) ∧
    (∀ (tag line : Nat) (s : State), exec (.cxlBiconflict tag line) s = (
      let txns := (s.hep.cxl.filter (fun c => c.line / 2 = line / 2)).map (·.txn) ++
        ((s.hep.hq.filter (fun r => r.cxl.isSome && !r.sent && r.off / 128 = line / 2)).map (fun r => 4096 + r.tag))
      .next (if txns.isEmpty then s.hostSend (.cxl 3 tag line 0 [])
      else s.updHep (fun h => { h with conflicts := h.conflicts ++ [(line, txns)] }))))

/-- The commands of a stack and its controller take their effect: on every state and for every operand, each command of the group answers the next state that its rule gives. -/
def Obligations.StackEffects : Prop :=
    (∀ (m temp refresh vddq : Nat) (s : State), exec (.stackTempRead m temp refresh vddq) s = (
      .next (if s.rd HBM_STAT_STATE m ≠ 3 then s
      else
        let s1 := ((s.wr HBM_STAT_TEMP_C m temp).wr HBM_STAT_REFRESH m refresh).updStack m (fun x =>
          { x with vddq := vddq, hotOnce := decide (s.catC m ≤ temp) })
        let s2 := if s.thrC m ≤ temp then s1.setStep m (min 3 (s.rd HBM_STAT_STEP m + 1)) else s1
        if s.catC m ≤ temp && (s.stack m).hotOnce then (s2.loseStack m 2).lossTurn else s2.checkEnv m))) ∧
    (∀ (m : Nat) (s : State), exec (.capRiseTimer m) s = (
      .next (if s.rd HBM_STAT_STATE m = 3 && s.rd HBM_STAT_TEMP_C m + 3 ≤ s.thrC m then
        s.setStep m (s.rd HBM_STAT_STEP m - 1) else s))) ∧
    (∀ (m hpa : Nat) (c : CodeRead) (row : Nat) (s : State), exec (.scrubRead m hpa c row) s = (
      .next (if s.rd HBM_CFG_SCRUB_H m = 0 || s.stackOf hpa ≠ m || s.stackLost m then s
      else ((s.enterWait (s.homeOf hpa) (.scrub hpa c row)).checkUes).lossTurn))) ∧
    (∀ (m : Nat) (fix : LaneFix) (s : State), exec (.laneRepair m fix) s = (
      .next (match fix.spare with
      | some k => (s.updStack m (fun x => { x with laneMap := x.laneMap.filter (fun e => e.1 ≠ fix.lane) ++ [(fix.lane, k)] })).inc HBM_REPAIR_LANES m 1
      | none => (s.loseStack m 0).lossTurn))) ∧
    (∀ (m : Nat) (s : State), exec (.hbmBurn m) s = (
      .next (if !(s.bootStep 7 = 1 || s.domSt (0xAB + m) = domFenced) then s.wr HBM_REPAIR_REJECTED m 1
      else match (s.stack m).pendHard with
        | [] => s
        | row :: r =>
          if (s.stack m).hardLeft = 0 then s
          -- each use of a Tally counter writes an anchored Ledger record before its effect (17_security.md R578; log entry 63)
          else
            let s1 := s.ledgerAdd { kind := 1, anchored := true, arg := 3 + m }
            let s2 := s1.updStack m (fun x => { x with hardLeft := x.hardLeft - 1, pendHard := r, softRows := eraseNat x.softRows row, passes := SMap.del x.passes row })
            s2.wr HBM_REPAIR_HARD_PEND m (s.rd HBM_REPAIR_HARD_PEND m - 1)))) ∧
    (∀ (m : Nat) (s : State), exec (.hbmErrClear m) s = .next (s.resetReg HBM_ERR m)) ∧
    (∀ (m : Nat) (s : State), exec (.hbmTrainSave m) s = .next (if s.rd HBM_STAT_STATE m = 3 then s.saveSet m else s)) ∧
    (∀ (m : Nat) (s : State), exec (.recentreStart m) s = (
      .next (if s.rd HBM_STAT_STATE m = 3 && s.flag HBM_TRAIN_OUT_ENV m && !(s.stack m).recentring then
        (s.updStack m (fun x => { x with recentring := true })).raise 0x0014 0 (0x090 + m) m
      else s))) ∧
    (∀ (m : Nat) (s : State), exec (.recentreEnd m) s = (
      .next (if !(s.stack m).recentring then s
      else if s.rve.recal.contains m then
        ({ s.endRecentre m with rve := { s.rve with recal := eraseNat s.rve.recal m } } : State).wr RVE_SVC_CMD_GO 0 0
      else s.endRecentre m))) ∧
    (∀ (m : Nat) (s : State), exec (.stackNoAnswerTimeout m) s = .next ((s.loseStack m 1).lossTurn)) ∧
    (∀ (m cause : Nat) (s : State), exec (.stackLoss m cause) s = .next ((s.loseStack m cause).lossTurn))

/-- The Granary commands and the commit of the format table take their effect: on every state and for every operand, each command of the group answers the next state that its rule gives. -/
def Obligations.GranaryEffects : Prop :=
    (∀ (w : Writer) (block : Nat) (s : State), exec (.granQuery w block) s = .next (s.granCmd w 0 block none (fun t => t.granEnd block 0))) ∧
    (∀ (w : Writer) (block : Nat) (s : State), exec (.granFill w block) s = (
      .next (s.granCmd w 1 block none (fun t =>
        if (t.gblock block).st = 0 then (t.updBlock block (fun b => { b with st := 1 })).granEnd block 0
        else t.granEnd block 1)))) ∧
    (∀ (w : Writer) (block : Nat) (s : State), exec (.granSeal w block) s = (
      .next (s.granCmd w 2 block none (fun t =>
        if (t.gblock block).st = 1 then
          ((t.updBlock block (fun b => { b with st := 2 })).wr HBM_GRAN_CMD_GO 0 1).wr HBM_GRAN_CMD_RESULT 0 0
        else t.granEnd block 1)))) ∧
    (∀ (w : Writer) (block : Nat) (s : State), exec (.granRelease w block) s = (
      .next (s.granCmd w 3 block none (fun t =>
        if (t.gblock block).st = 0 then t.granEnd block 0
        else ((t.releaseBlock block).wr HBM_GRAN_CMD_GO 0 1).wr HBM_GRAN_CMD_RESULT 0 0)))) ∧
    (∀ (w : Writer) (block page : Nat) (s : State), exec (.granRestoreBegin w block page) s = (
      .next (s.granCmd w 4 block (some page) (fun t =>
        if (t.gblock block).st ≠ 3 then t.granEnd block 1
        else if !t.hbm.poisonPages.contains (pageOf block page) then t.granEnd block 4
        else (t.beginRestore block page).granEnd block 0)))) ∧
    (∀ (w : Writer) (block page : Nat) (s : State), exec (.granRestoreEnd w block page) s = (
      .next (s.granCmd w 5 block (some page) (fun t =>
        if (t.gblock block).st = 5 && (t.gblock block).page = some page then (t.endRestore block page).granEnd block 0
        else t.granEnd block 1)))) ∧
    (∀ (w : Writer) (op block : Nat) (s : State), exec (.granOpNone w op block) s = .next (s.granCmd w (6 + op % 2) block none id)) ∧
    (∀ (block : Nat) (uncorrectable : Bool) (s : State), exec (.parityPassEnd block uncorrectable) s = (
      .next (if (s.gblock block).st ≠ 2 then s
      else if uncorrectable then (s.updBlock block (fun b => { b with st := 1 })).granEndIf block 3
      else ((s.writeParity block (fun _ => true)).updBlock block (fun b => { b with st := 3 })).granEndIf block 0))) ∧
    (∀ (block : Nat) (s : State), exec (.wipeEnd block) s = .next (if (s.gblock block).st ≠ 4 then s else ((s.wiped block).granEndIf block 0).freeModels)) ∧
    (∀ (block page : Nat) (stillBad : List Nat) (s : State), exec (.restoreParityEnd block page stillBad) s = (
      .next (if !(s.gblock block).restored.contains page then s
      else
        let same (p : Nat) : Bool := decide (p / 32 = block) && decide (p % 4 = page % 4) && !stillBad.contains (p % 32)
        ((s.writeParity block (fun o => o / 2 ^ 21 = page % 4)).dropMarks same).updBlock block (fun b =>
          { b with restored := eraseNat b.restored page })))) ∧
    (∀ (s : State), exec .fmtCommit s = (
      .next (if s.flag MOV_FMT_CTL_COMMIT then s.wr MOV_FMT_CTL_REJECTED 0 1
      else
        let ds := (List.range 16).map (fun k => s.reg MOV_FMT_DESC k)
        let bad := (ds.zipIdx).foldl (fun n (d, k) => n + (if descBits d 63 63 = 1 && !descOk d then 2 ^ k else 0)) 0
        let s1 : State := { s with fmtTable := ds.map (fun d => if descBits d 63 63 = 1 && descOk d then d else 0) }
        ((s1.wr MOV_FMT_CTL_BAD 0 bad).wr MOV_FMT_CTL_GEN 0 ((s.rd MOV_FMT_CTL_GEN + 1) % 65536)).wr MOV_FMT_CTL_COMMIT 0 1))) ∧
    (∀ (s : State), exec .fmtCommitDone s = .next (s.wr MOV_FMT_CTL_COMMIT 0 0))

/-- Dispatch to a tile, its records and the scalar instructions take their effect: on every state and for every operand, each command of the group answers the next state that its rule gives. -/
def Obligations.TileControlEffects : Prop :=
    (∀ (p : Pkt) (s : State), exec (.loomDispatch p) s = .next (s.deliverUnit { p with opc := 0x0B } (fun u d q => if kindOf d = .tile then u.tileDispatch d q else u))) ∧
    (∀ (tile : Nat) (s : State), exec (.loomLaunch tile) s = (
      let x := s.tile tile
      .next (match x.run, x.launches with
      | none, r :: _ => s.startKernel tile r
      | _, _ => s))) ∧
    (∀ (tile : Nat) (s : State), exec (.loomClaimRecord tile) s = (
      .next (match (s.tile tile).claim with
      | some r =>
        let s1 := s.updTile tile (fun y => { y with claim := none })
        let s2 := if r.tenant ≠ s.rd LOOM_STAT_OWNER tile then s1.wipeTile tile else s1
        (s2.wr LOOM_STAT_OWNER tile r.tenant).send (completionPkt (tileAgent tile) r.item fateDone 0 true 0)
      | none => s))) ∧
    (∀ (tile : Nat) (s : State), exec (.loomParkRecord tile) s = (
      .next (match (s.tile tile).park with
      | some r =>
        (s.updTile tile (fun y => { y.volatileReset with parked := true })).send
          (completionPkt (tileAgent tile) r.item fateDone 0 true 0)
      | none => s))) ∧
    (∀ (tile : Nat) (s : State), exec (.loomBudgetExpire tile) s = (
      .next (match (s.tile tile).run with
      | some r => if r.budget ≠ 0 && !r.persist then s.stopKernel tile stLoomBudget 3 else s
      | none => s))) ∧
    (∀ (p : Pkt) (s : State), exec (.unitStop p) s = .next (s.deliverUnit { p with opc := 0x0D } (fun u d q => u.unitStop d q))) ∧
    (∀ (tile : Nat) (w : Word) (s : State), exec (.scalarInstruction tile w) s = .next (s.coreWord tile w.toNat)) ∧
    (∀ (tile : Nat) (s : State), exec (.mret tile) s = .next (s.core tile 4 (fun u => u.mret tile))) ∧
    (∀ (tile : Nat) (s : State), exec (.fenceI tile) s = .next (s.core tile 4 (fun u => u.advance tile 4))) ∧
    (∀ (tile rd rs1 imm size : Nat) (uns : Bool) (s : State), exec (.globalLoad tile rd rs1 imm size uns) s = .next (s.core tile 4 (fun u => u.coreLoad tile rd (add64 ((u.tile tile).xr rs1) (sx 12 imm)) size 4 uns))) ∧
    (∀ (tile rs1 rs2 imm size : Nat) (s : State), exec (.globalStore tile rs1 rs2 imm size) s = (
      .next (s.core tile 4 (fun u =>
        u.coreStore tile ((u.tile tile).xr rs2) (add64 ((u.tile tile).xr rs1) (sx 12 imm)) size 4)))) ∧
    (∀ (tile aop rd rs1 rs2 size : Nat) (aq rl : Bool) (s : State), exec (.globalAmo tile aop rd rs1 rs2 size aq rl) s = .next (s.core tile 4 (fun u => u.coreAmo tile aop rd ((u.tile tile).xr rs1) ((u.tile tile).xr rs2) size 4 aq rl))) ∧
    (∀ (tile rd rs1 size : Nat) (s : State), exec (.lr tile rd rs1 size) s = .next (s.core tile 4 (fun u => u.coreLr tile rd ((u.tile tile).xr rs1) size 4))) ∧
    (∀ (tile rd rs1 rs2 size : Nat) (s : State), exec (.sc tile rd rs1 rs2 size) s = .next (s.core tile 4 (fun u => u.coreSc tile rd ((u.tile tile).xr rs1) ((u.tile tile).xr rs2) size 4)))

/-- Every vector instruction runs at its core as the operation its encoding names: on every state and for every operand, each command of the group answers the next state that its rule gives. -/
def Obligations.VectorEffects : Prop :=
    (∀ (tile : Nat) (f : VOp) (s : State), exec (.vadd tile f) s = .next (s.vec tile 0x00 f)) ∧
    (∀ (tile : Nat) (f : VOp) (s : State), exec (.vsub tile f) s = .next (s.vec tile 0x01 f)) ∧
    (∀ (tile : Nat) (f : VOp) (s : State), exec (.vmul tile f) s = .next (s.vec tile 0x02 f)) ∧
    (∀ (tile : Nat) (f : VOp) (s : State), exec (.vfma tile f) s = .next (s.vec tile 0x03 f)) ∧
    (∀ (tile : Nat) (f : VOp) (s : State), exec (.vfms tile f) s = .next (s.vec tile 0x04 f)) ∧
    (∀ (tile : Nat) (f : VOp) (s : State), exec (.vfnma tile f) s = .next (s.vec tile 0x05 f)) ∧
    (∀ (tile : Nat) (f : VOp) (s : State), exec (.vfnms tile f) s = .next (s.vec tile 0x06 f)) ∧
    (∀ (tile : Nat) (f : VOp) (s : State), exec (.vmin tile f) s = .next (s.vec tile 0x07 f)) ∧
    (∀ (tile : Nat) (f : VOp) (s : State), exec (.vmax tile f) s = .next (s.vec tile 0x08 f)) ∧
    (∀ (tile : Nat) (f : VOp) (s : State), exec (.vabs tile f) s = .next (s.vec tile 0x09 f)) ∧
    (∀ (tile : Nat) (f : VOp) (s : State), exec (.vneg tile f) s = .next (s.vec tile 0x0A f)) ∧
    (∀ (tile : Nat) (f : VOp) (s : State), exec (.vsel tile f) s = .next (s.vec tile 0x0B f)) ∧
    (∀ (tile : Nat) (f : VOp) (s : State), exec (.vand tile f) s = .next (s.vec tile 0x10 f)) ∧
    (∀ (tile : Nat) (f : VOp) (s : State), exec (.vor tile f) s = .next (s.vec tile 0x11 f)) ∧
    (∀ (tile : Nat) (f : VOp) (s : State), exec (.vxor tile f) s = .next (s.vec tile 0x12 f)) ∧
    (∀ (tile : Nat) (f : VOp) (s : State), exec (.vsll tile f) s = .next (s.vec tile 0x13 f)) ∧
    (∀ (tile : Nat) (f : VOp) (s : State), exec (.vsrl tile f) s = .next (s.vec tile 0x14 f)) ∧
    (∀ (tile : Nat) (f : VOp) (s : State), exec (.vsra tile f) s = .next (s.vec tile 0x15 f)) ∧
    (∀ (tile : Nat) (f : VOp) (s : State), exec (.vmulh tile f) s = .next (s.vec tile 0x16 f)) ∧
    (∀ (tile : Nat) (f : VOp) (s : State), exec (.vcmpeq tile f) s = .next (s.vec tile 0x20 f)) ∧
    (∀ (tile : Nat) (f : VOp) (s : State), exec (.vcmpne tile f) s = .next (s.vec tile 0x21 f)) ∧
    (∀ (tile : Nat) (f : VOp) (s : State), exec (.vcmplt tile f) s = .next (s.vec tile 0x22 f)) ∧
    (∀ (tile : Nat) (f : VOp) (s : State), exec (.vcmple tile f) s = .next (s.vec tile 0x23 f)) ∧
    (∀ (tile : Nat) (f : VOp) (s : State), exec (.vcmpun tile f) s = .next (s.vec tile 0x24 f)) ∧
    (∀ (tile : Nat) (f : VOp) (s : State), exec (.vcvt tile f) s = .next (s.vec tile 0x28 f)) ∧
    (∀ (tile : Nat) (f : VOp) (s : State), exec (.vrcp tile f) s = .next (s.vec tile 0x30 f)) ∧
    (∀ (tile : Nat) (f : VOp) (s : State), exec (.vrsqrt tile f) s = .next (s.vec tile 0x31 f)) ∧
    (∀ (tile : Nat) (f : VOp) (s : State), exec (.vsqrt tile f) s = .next (s.vec tile 0x32 f)) ∧
    (∀ (tile : Nat) (f : VOp) (s : State), exec (.vdiv tile f) s = .next (s.vec tile 0x33 f)) ∧
    (∀ (tile : Nat) (f : VOp) (s : State), exec (.vexp tile f) s = .next (s.vec tile 0x34 f)) ∧
    (∀ (tile : Nat) (f : VOp) (s : State), exec (.vexp2 tile f) s = .next (s.vec tile 0x35 f)) ∧
    (∀ (tile : Nat) (f : VOp) (s : State), exec (.vln tile f) s = .next (s.vec tile 0x36 f)) ∧
    (∀ (tile : Nat) (f : VOp) (s : State), exec (.vlog2 tile f) s = .next (s.vec tile 0x37 f)) ∧
    (∀ (tile : Nat) (f : VOp) (s : State), exec (.vtanh tile f) s = .next (s.vec tile 0x38 f)) ∧
    (∀ (tile : Nat) (f : VOp) (s : State), exec (.vsigm tile f) s = .next (s.vec tile 0x39 f)) ∧
    (∀ (tile : Nat) (f : VOp) (s : State), exec (.vsin tile f) s = .next (s.vec tile 0x3A f)) ∧
    (∀ (tile : Nat) (f : VOp) (s : State), exec (.vcos tile f) s = .next (s.vec tile 0x3B f)) ∧
    (∀ (tile : Nat) (f : VOp) (s : State), exec (.verf tile f) s = .next (s.vec tile 0x3C f)) ∧
    (∀ (tile : Nat) (f : VOp) (s : State), exec (.vrand tile f) s = .next (s.vec tile 0x3D f)) ∧
    (∀ (tile : Nat) (f : VOp) (s : State), exec (.vperm tile f) s = .next (s.vec tile 0x40 f)) ∧
    (∀ (tile : Nat) (f : VOp) (s : State), exec (.vslideup tile f) s = .next (s.vec tile 0x41 f)) ∧
    (∀ (tile : Nat) (f : VOp) (s : State), exec (.vslidedn tile f) s = .next (s.vec tile 0x42 f)) ∧
    (∀ (tile : Nat) (f : VOp) (s : State), exec (.vcompress tile f) s = .next (s.vec tile 0x43 f)) ∧
    (∀ (tile : Nat) (f : VOp) (s : State), exec (.lbcast tile f) s = .next (s.vec tile 0x44 f)) ∧
    (∀ (tile : Nat) (f : VOp) (s : State), exec (.lext tile f) s = .next (s.vec tile 0x45 f)) ∧
    (∀ (tile : Nat) (f : VOp) (s : State), exec (.vld tile f) s = .next (s.vec tile 0x50 f)) ∧
    (∀ (tile : Nat) (f : VOp) (s : State), exec (.vst tile f) s = .next (s.vec tile 0x51 f)) ∧
    (∀ (tile : Nat) (f : VOp) (s : State), exec (.vldx tile f) s = .next (s.vec tile 0x52 f)) ∧
    (∀ (tile : Nat) (f : VOp) (s : State), exec (.vstx tile f) s = .next (s.vec tile 0x53 f)) ∧
    (∀ (tile : Nat) (f : VOp) (s : State), exec (.vmld tile f) s = .next (s.vec tile 0x54 f)) ∧
    (∀ (tile : Nat) (f : VOp) (s : State), exec (.vmst tile f) s = .next (s.vec tile 0x55 f)) ∧
    (∀ (tile : Nat) (f : VOp) (s : State), exec (.vredAdd tile f) s = .next (s.vec tile 0x58 f)) ∧
    (∀ (tile : Nat) (f : VOp) (s : State), exec (.vredExact tile f) s = .next (s.vec tile 0x59 f)) ∧
    (∀ (tile : Nat) (f : VOp) (s : State), exec (.vredIadd tile f) s = .next (s.vec tile 0x5A f)) ∧
    (∀ (tile : Nat) (f : VOp) (s : State), exec (.vredMax tile f) s = .next (s.vec tile 0x5B f)) ∧
    (∀ (tile : Nat) (f : VOp) (s : State), exec (.vredMin tile f) s = .next (s.vec tile 0x5C f)) ∧
    (∀ (tile : Nat) (f : VOp) (s : State), exec (.vredArgmax tile f) s = .next (s.vec tile 0x5D f)) ∧
    (∀ (tile : Nat) (f : VOp) (s : State), exec (.vredArgmin tile f) s = .next (s.vec tile 0x5E f)) ∧
    (∀ (tile : Nat) (f : VOp) (s : State), exec (.vredAnd tile f) s = .next (s.vec tile 0x5F f)) ∧
    (∀ (tile : Nat) (f : VOp) (s : State), exec (.vredOr tile f) s = .next (s.vec tile 0x60 f)) ∧
    (∀ (tile : Nat) (f : VOp) (s : State), exec (.vredXor tile f) s = .next (s.vec tile 0x61 f)) ∧
    (∀ (tile : Nat) (f : VOp) (s : State), exec (.lrbcast tile f) s = .next (s.vec tile 0x62 f)) ∧
    (∀ (tile : Nat) (f : VOp) (s : State), exec (.vmand tile f) s = .next (s.vec tile 0x68 f)) ∧
    (∀ (tile : Nat) (f : VOp) (s : State), exec (.vmor tile f) s = .next (s.vec tile 0x69 f)) ∧
    (∀ (tile : Nat) (f : VOp) (s : State), exec (.vmxor tile f) s = .next (s.vec tile 0x6A f)) ∧
    (∀ (tile : Nat) (f : VOp) (s : State), exec (.vmandn tile f) s = .next (s.vec tile 0x6B f)) ∧
    (∀ (tile : Nat) (f : VOp) (s : State), exec (.lmpop tile f) s = .next (s.vec tile 0x6C f)) ∧
    (∀ (tile : Nat) (f : VOp) (s : State), exec (.lmfirst tile f) s = .next (s.vec tile 0x6D f))

/-- The system instructions of a tile take their effect: on every state and for every operand, each command of the group answers the next state that its rule gives. -/
def Obligations.TileSystemEffects : Prop :=
    (∀ (tile rd rs1 rs2 ww : Nat) (s : State), exec (.lsetvl tile rd rs1 rs2 ww) s = .next (s.lsetvl tile rd rs1 rs2 ww)) ∧
    (∀ (tile rd rs1 rs2 : Nat) (s : State), exec (.lrreset tile rd rs1 rs2) s = .next (s.queue32 tile 1 0 rd rs1 rs2)) ∧
    (∀ (tile rd rs1 rs2 : Nat) (s : State), exec (.lrd tile rd rs1 rs2) s = .next (s.lrd tile rd rs1 rs2 false)) ∧
    (∀ (tile rd rs1 rs2 : Nat) (s : State), exec (.lrdi tile rd rs1 rs2) s = .next (s.lrd tile rd rs1 rs2 true)) ∧
    (∀ (tile rd rs1 rs2 : Nat) (s : State), exec (.lrsave tile rd rs1 rs2) s = .next (s.queue32 tile 1 3 rd rs1 rs2)) ∧
    (∀ (tile rd rs1 rs2 : Nat) (s : State), exec (.lrmerge tile rd rs1 rs2) s = .next (s.queue32 tile 1 4 rd rs1 rs2)) ∧
    (∀ (tile rd rs1 rs2 : Nat) (s : State), exec (.lpload tile rd rs1 rs2) s = .next (s.queue32 tile 2 0 rd rs1 rs2)) ∧
    (∀ (tile rd rs1 rs2 : Nat) (s : State), exec (.lprun tile rd rs1 rs2) s = .next (s.lprunEnter tile rd rs1 rs2)) ∧
    (∀ (tile rd rs1 rs2 : Nat) (s : State), exec (.lvsync tile rd rs1 rs2) s = .next (s.lvsync tile rd rs1 rs2)) ∧
    (∀ (tile rd rs1 rs2 : Nat) (s : State), exec (.lsignal tile rd rs1 rs2) s = .next (s.lsignal tile rd rs1 rs2)) ∧
    (∀ (tile rd rs1 rs2 : Nat) (s : State), exec (.lwait tile rd rs1 rs2) s = .next (s.lwait tile rd rs1 rs2)) ∧
    (∀ (tile : Nat) (s : State), exec (.lwaitLimit tile) s = (
      .next (match (s.tile tile).wait with
      | some (.event rd len limit) =>
        if limit = 0 then s else (s.updTile tile (fun x => { x with wait := none })).retire tile rd 1 len
      | _ => s))) ∧
    (∀ (tile rd rs1 rs2 : Nat) (s : State), exec (.lend tile rd rs1 rs2) s = .next (s.lend tile rd rs1 rs2 false)) ∧
    (∀ (tile rd rs1 rs2 : Nat) (s : State), exec (.lfail tile rd rs1 rs2) s = .next (s.lend tile rd rs1 rs2 true))

/-- The Mill items, messages and timers take their effect: on every state and for every operand, each command of the group answers the next state that its rule gives. -/
def Obligations.MillEffects : Prop :=
    (∀ (p : Pkt) (s : State), exec (.millDispatch p) s = .next (s.deliverUnit { p with opc := 0x0B } (fun u d q => if kindOf d = .mill then u.millDispatch d q else u))) ∧
    (∀ (slice item : Nat) (s : State), exec (.millItemStart slice item) s = .next (s.millStart slice item)) ∧
    (∀ (p : Pkt) (s : State), exec (.collJoin p) s = .next (s.collAccept p State.collJoin)) ∧
    (∀ (p0 : Pkt) (s : State), exec (.collExp p0) s = (
      .next (s.collAccept p0 (fun u p => u.collRecv p (fun t it h =>
        let x := t.millCtxOf it h.stripe
        let ws := payloadWords p 1 (p.data.length - 16)
        let old := ((it.stripes[h.stripe]?).map (·.rx)).getD []
        t.storeBlocks it h ((ws.zipIdx).map (fun (w, k) =>
          let b := h.arg + k
          let part := (x.srcs 0 b).contains h.rank && !old.any (fun o => o.pass = 0 && o.src = h.rank && o.block = b)
          ({ pass := if part then 0 else 3, src := h.rank, block := b, ws := [w] } : MillRx)))))))) ∧
    (∀ (p0 : Pkt) (s : State), exec (.collData p0) s = (
      .next (s.collAccept p0 (fun u p => u.collRecv p (fun t it h =>
        let x := t.millCtxOf it h.stripe
        let w := x.c.wire
        let n := if w = 0 then 0 else (p.data.length - 16) / w
        let lens := (List.range x.blocks).map (fun b => x.blockLen b)
        let cut := if w = 0 then [[]] else (cutWords (lens.drop h.arg) (payloadWords p w n)).filter (fun l => !l.isEmpty)
        t.storeBlocks it h ((cut.zipIdx).map (fun (l, k) =>
          ({ pass := h.phase, src := h.rank, block := h.arg + k, ws := l } : MillRx)))))))) ∧
    (∀ (p0 : Pkt) (s : State), exec (.collCredit p0) s = (
      .next (s.collAccept p0 (fun u p => u.collRecv p (fun t it h => t.updStripe it.seq h.stripe (fun x => { x with
        credits := SMap.put x.credits h.rank (SMap.getD x.credits h.rank 0 + h.arg) })))))) ∧
    (∀ (p0 : Pkt) (s : State), exec (.collKeep p0) s = .next (s.collAccept p0 (fun u p => u.collRecv p (fun t _ _ => t)))) ∧
    (∀ (p : Pkt) (s : State), exec (.collLate p) s = .next (s.collAccept p State.collLate)) ∧
    (∀ (p : Pkt) (s : State), exec (.collAbort p) s = .next (s.collAccept p State.collAbort)) ∧
    (∀ (p : Pkt) (s : State), exec (.collNack p) s = .next (s.collAccept p State.collNack)) ∧
    (∀ (slice item : Nat) (s : State), exec (.joinRetryTimer slice item) s = (
      .next (match s.millItem slice item with
      | some it =>
        if !it.runs then s
        else (it.stripes.zipIdx).foldl (fun t (x, i) =>
          x.retry.foldl (fun u r => (u.sendJoin it i r).updStripe it.seq i (fun y => { y with retry := y.retry.erase r })) t) s
      | none => s))) ∧
    (∀ (slice item : Nat) (s : State), exec (.keepTimer slice item) s = (
      let quiet := max 4 (s.rd MILL_CFG_PROGRESS_MS) * 1000000 / 4
      .next (match s.millItem slice item with
      | some it =>
        if !it.runs then s
        else (it.stripes.zipIdx).foldl (fun t (x, i) =>
          (s.millCtxOf it i).peers.foldl (fun u r =>
            if SMap.getD x.sentAt r 0 + quiet ≤ s.time then u.collSend it i r 0x05 0 0 [] 0 else u) t) s
      | none => s))) ∧
    (∀ (s : State), exec .lateTimer s = (
      .next (if !s.throttled then s
      else
        let s1 := (s.mill.items.filter (·.runs)).foldl (fun t it =>
          (List.range it.stripes.length).foldl (fun u i => u.sendLate it i) t) s
        s.mill.joins.foldl (fun t j =>
          match (List.range 256).find? (fun g => s.rd MILL_GRP_CFG_STATE g = 1 && s.rd MILL_GRP_ID_GROUP_ID g = j.gid) with
          | none => t
          | some g =>
            let me := s.rd MILL_GRP_ID_RANK g
            (((SMap.getD s.mill.groups g []).zipIdx).filter (fun e => e.2 ≠ me)).foldl (fun u (hub, _) =>
              (u.collOut { src := s.anySlice j.stripe } hub
                (collBytes 0x06 j.stripe 0 me j.gid j.tag s.lateMs []) 0).inc MILL_CNT1_LATE_SENT 0 1) t) s1))) ∧
    (∀ (slice item rank : Nat) (s : State), exec (.millStartDeadline slice item rank) s = (
      .next (match s.millItem slice item with
      | some it =>
        let missing := (it.stripes.zipIdx).any (fun (x, i) => (s.millCtxOf it i).peers.contains rank && !x.joined.contains rank)
        if it.runs && it.startDue ≤ s.time && missing then s.millLoss it rank 0 else s
      | none => s))) ∧
    (∀ (slice item rank : Nat) (s : State), exec (.millProgressDeadline slice item rank) s = (
      .next (match s.millItem slice item with
      | some it =>
        (match SMap.get? it.due rank with
         | some d => if it.runs && d ≤ s.time && s.awaits it rank then s.millLoss it rank 1 else s
         | none => s)
      | none => s))) ∧
    (∀ (slice item : Nat) (s : State), exec (.millItemEnd slice item) s = (
      .next (match s.millItem slice item with
      | none => s
      | some it =>
        let fate : Option (Nat × Nat × Nat) :=
          match it.fate with
          | some f => some f
          | none =>
            if it.runs && s.stripesDone it then
              let p := (s.millMembers it).length
              some (if it.bad then (fateFailed, stMemPoison, 0)
                else (fateDone, 0, it.flags + it.coll.algorithm p * 256 + (p - 1) % 65536 * 65536))
            else none
        match fate with
        | none => s
        | some (f, st, r) =>
          if (s.millAgents it).all (fun a => s.streamIdle a it.seq) then
            let s1 := s.updMill (fun m => { m with items := m.items.filter (fun x => x.seq ≠ it.seq) })
            ((s1.inc (if f = fateDone then MILL_CNT0_DONE else MILL_CNT0_FAILED) 0 1).send
              (completionPkt (sliceAgent slice) item f st it.started r)).millFetch slice
          else s))) ∧
    (∀ (w : Writer) (g : Nat) (s : State), exec (.millGrpCommit w g) s = (
      .next (if !grpWriter w || s.groupUsed g then s.wr MILL_GRP_CFG_REJECTED g 1
      else
        let n := s.rd MILL_GRP_CFG_SIZE g
        match s.snoopRead 0x190 (s.rd MILL_GRP_LIST_BASE g * 128) (2 * n) with
        | (.wait, s1) => s1.wr MILL_GRP_CFG_COMMIT g 1
        | (.none, s1) => (s1.wr MILL_GRP_CFG_COMMIT g 0).wr MILL_GRP_CFG_STATE g 3
        | (.data bytes bad, s0) =>
        let s1 := s0.wr MILL_GRP_CFG_COMMIT g 0
        let l := halfWords bytes
        let valid : Bool := !bad && decide (1 ≤ n ∧ n ≤ 65536) && decide l.Nodup && l.contains s.hubNo
        let s2 := s1.wr MILL_GRP_CFG_STATE g (if valid then 1 else 3)
        let s3 := s2.wr MILL_GRP_DIGEST_DIGEST g (crc32c bytes)
        if valid then (s3.wr MILL_GRP_ID_RANK g (l.findIdx (· = s.hubNo))).updMill (fun m => { m with groups := SMap.put m.groups g l })
        else s3))) ∧
    (∀ (s : State), exec .millCntClear s = .next ((s.resetReg MILL_CNT0 0).resetReg MILL_CNT1 0))

/-- Mover items, translation walks and fault entries take their effect: on every state and for every operand, each command of the group answers the next state that its rule gives. -/
def Obligations.MoverEffects : Prop :=
    (∀ (p : Pkt) (s : State), exec (.moverDispatch p) s = .next (s.deliverUnit { p with opc := 0x0B } (fun u d r => match kindOf d with | .mover => u.moverDispatch d r | _ => u))) ∧
    (∀ (mover q : Nat) (s : State), exec (.movDescStart mover q) s = .next (s.descStart mover q)) ∧
    (∀ (mover q : Nat) (s : State), exec (.movDescEnd mover q) s = .next (s.descEnd mover q)) ∧
    (∀ (mover q : Nat) (s : State), exec (.movItemComplete mover q) s = (
      let a := moverAgent mover
      .next (match s.movQ mover q with
      | [] => s
      | j :: r =>
        if j.phase ≠ 5 || s.fencing a q || !s.streamIdle a q then s
        else
          let (f, st, x) := j.verdict
          ((s.setMovQ mover q r).send (completionPkt a j.item f st j.moved x)).fetchDescs mover q 3))) ∧
    (∀ (p : Pkt) (s : State), exec (.xltRequest p) s = .next (s.deliverUnit { p with opc := 0x0E } (fun u d q => match kindOf d with | .xlt => u.xltAccept d q | _ => u))) ∧
    (∀ (slice walk : Nat) (s : State), exec (.walkStep slice walk) s = (
      .next (match (s.xslice slice).walks.find? (fun w => w.id = walk) with
      | none => s
      | some w =>
        match s.snoopRead (0x1A0 + slice) (w.table + 8 * levelIndex w.level w.va) 8 with
        | (.wait, t) => t
        | (.none, t) => t.badWalk slice w 3
        | (.data b bad, t) =>
        let e := leNat b
        if bad then t.badWalk slice w 3
        else if e % 2 = 0 then t.badWalk slice w 0
        else if pteMalformed w.level e then t.badWalk slice w 2
        else if pteLeaf e then
          let n := levelBits w.level
          (t.updSlice slice (fun x => { x with
            walks := x.walks.filter (fun y => y.id ≠ w.id)
            tlb := keepNew 4096 { asid := w.asid, base := w.va / 2 ^ n * 2 ^ n, bits := n, pte := e } x.tlb })).xltServe slice
        else
          let next := e / 256 % 2 ^ 40 * 256
          t.updSlice slice (fun x => { x with
            wc := keepNew 512 { asid := w.asid, level := w.level + 1, base := w.va / 2 ^ levelBits w.level, table := next } x.wc
            walks := x.walks.map (fun y => if y.id = w.id then { y with level := w.level + 1, table := next } else y) })))) ∧
    (∀ (s : State), exec .faultOpen s = (
      .next (match s.xlt.inbox with
      | [] => s
      | f :: rest =>
        let acc := if f.write then 2 else 1
        if s.xlt.faults.any (fun e => e.first.asid = f.asid && e.first.page = f.page) then
          s.updXlt (fun x => { x with inbox := rest, stalled := 0, faults := x.faults.map (fun e =>
            if e.first.asid = f.asid && e.first.page = f.page then
              { e with waiters := e.waiters ++ [f.waiter], count := if e.recorded then e.count else satAdd e.count 1 65535
                       access := if e.recorded then e.access else e.access ||| acc }
            else e) })
        else if 256 ≤ s.xlt.faults.length then
          (if s.xlt.stalled = 0 then (s.updXlt (fun x => { x with stalled := 1 })).inc MOV_FLT_STAT_FULL_STALLS 0 1 else s)
        else
          s.updXlt (fun x => { x with inbox := rest, stalled := 0, nextFid := (x.nextFid + 1) % 2 ^ 32
                                      faults := x.faults ++ [{ fid := x.nextFid, first := f, access := acc, count := 1
                                                               waiters := [f.waiter] }] })))) ∧
    (∀ (fid : Nat) (s : State), exec (.faultRecordWrite fid) s = (
      .next (match s.xlt.faults.find? (fun e => e.fid = fid && !e.recorded) with
      | none => s
      | some e =>
        let s1 := s.updXlt (fun x => { x with
          faults := x.faults.map (fun y => if y.fid = fid then { y with recorded := true } else y)
          held := x.held ++ [s.faultBytes e] })
        s1.ringDrain s1.xlt.held.length))) ∧
    (∀ (fid : Nat) (s : State), exec (.faultEntryTimeout fid) s = .next (if s.xlt.faults.any (fun e => e.fid = fid) then (s.inc MOV_FLT_STAT_TIMEOUTS 0 1).closeFault fid (some stXltTmo) else s)) ∧
    (∀ (w : Writer) (fid : Nat) (s : State), exec (.fltRespRetry w fid) s = .next (s.faultResp w fid 0 none)) ∧
    (∀ (w : Writer) (fid : Nat) (s : State), exec (.fltRespFail w fid) s = .next (s.faultResp w fid 1 (some stXltFault))) ∧
    (∀ (w : Writer) (head : Nat) (s : State), exec (.faultRingHead w head) s = (
      let n := 2 ^ s.rd MOV_FLT_RING_LOG2N
      let h := s.rd MOV_FLT_PTR_HEAD
      let t := s.rd MOV_FLT_PTR_TAIL
      .next (if !xltWriter w then s
      else if n ≤ head || (t + n - h) % n < (head + n - h) % n then s.wr MOV_FLT_PTR_REJECTED 0 1
      else (s.wr MOV_FLT_PTR_HEAD 0 head).ringDrain s.xlt.held.length))) ∧
    (∀ (w : Writer) (scope asid va count : Nat) (s : State), exec (.xltInvGo w scope asid va count) s = (
      .next (if !xltWriter w then s
      else if s.flag MOV_XLT_INV_GO then s.wr MOV_XLT_INV_REJECTED 0 1
      else
        let s1 := (((s.wr MOV_XLT_INV_SCOPE 0 scope).wr MOV_XLT_INV_ASID 0 asid).wr MOV_XLT_INV_VA_VA 0 (va / 65536)).wr MOV_XLT_INV_VA_COUNT 0 count
        if scope % 4 = 3 then s1
        else
          let x : XInv := { scope := scope % 4, asid := asid, va := va / 65536 * 65536, count := if count = 0 then 65536 else count
                            walks := s1.walksNow, descs := [] }
          let y : XInv := { x with descs := s1.pinsIn x }
          let s2 := ((s1.wr MOV_XLT_INV_GO 0 1).updXlt (fun t => { t with inv := some y })).dropScope y
          ((s2.busyAgain y).siteBusyAgain y).siteInv y))) ∧
    (∀ (s : State), exec .xltInvComplete s = (
      .next (match s.xlt.inv with
      | none => s
      | some x =>
        let sites := (List.range 64).all (fun k => (s.slot (k / 8) (k % 8)).inv.isNone || !s.modAlive (k / 8) (k % 8))
        if s.invClear x && !s.moverWrites && sites then
          ((s.dropScope x).updXlt (fun t => { t with inv := none })).wr MOV_XLT_INV_GO 0 0
        else s))) ∧
    (∀ (agent q : Nat) (expired : Bool) (s : State), exec (.busyPageRetry agent q expired) s = (
      .next (match kindOf agent with
      | .mover =>
        (match s.movQ (agent - 0x250) q with
         | j :: _ =>
           if !j.busy then s
           else if expired then s.failJob (agent - 0x250) q stXltTmo 0
           else s.updJob (agent - 0x250) q (fun x => { x with busy := false, phase := 0, pins := [] })
         | [] => s)
      | .site _ =>
        if SMap.getD (s.slot (siteOf agent) (slotOf agent)).xw q 0 ≠ 3 then s
        else s.stlResume agent q (if expired then some stXltTmo else none)
      | _ => s)))

/-- Doorbells, packet fetch, dispatch and the run and move items take their effect: on every state and for every operand, each command of the group answers the next state that its rule gives. -/
def Obligations.QueueEffects : Prop :=
    (∀ (w : Writer) (q tail : Nat) (s : State), exec (.sqDoorbell w q tail) s = (
      .next (if !s.doorWriter w then s
      else
        let s1 := (s.ltrActive.wr STW_SQDB_TAIL q tail).wake
        let st := s.rd STW_QCFG_STATE q
        if st ≠ 1 && st ≠ 2 then s1
        else if s.sqSize q ≤ tail then s1.queueError q 1
        else s1.wr STW_QPTR_TAIL q tail))) ∧
    (∀ (w : Writer) (q head : Nat) (s : State), exec (.cqDoorbell w q head) s = (
      .next (if !s.doorWriter w then s
      else
        let s1 := (s.ltrActive.wr STW_CQDB_HEAD q head).wake
        let n := s.cqSize q
        let h := s.rd STW_CQPTR_HEAD q
        if n ≤ head then s1.cqError q 1
        else if (s.rd STW_CQPTR_TAIL q + n - h) % n < (head + n - h) % n then s1.cqError q 4
        else s1.wr STW_CQPTR_HEAD q head))) ∧
    (∀ (data : List Byte) (bad : Bool) (s : State), exec (.packetFetch data bad) s = (
      .next (if s.flag STW_CTL_HOLD || s.stw.dozing || s.hep.flr || !s.flag BOOT_STAT_READY then s
      else (s.fetchQueue).elim s (fun q => s.fetchFrom q data bad)))) ∧
    (∀ (s : State), exec .itemDispatch s = .next (s.fwTurn.itemDispatch)) ∧
    (∀ (q item : Nat) (s : State), exec (.busyRetryTimer q item) s = (
      .next (match s.item q item with
      | some i => if i.st = 3 then s.sendUnit i else s
      | none => s))) ∧
    (∀ (q item : Nat) (s : State), exec (.nop q item) s = .next (s.runItem q item 0x00 (fun t i => t.doneItem i 0))) ∧
    (∀ (q item : Nat) (s : State), exec (.loomRun q item) s = .next (s.runItem q item 0x01 State.sendUnit)) ∧
    (∀ (q item : Nat) (s : State), exec (.loomClaim q item) s = .next (s.runItem q item 0x02 State.sendUnit)) ∧
    (∀ (q item : Nat) (s : State), exec (.loomPark q item) s = .next (s.runItem q item 0x03 State.sendUnit)) ∧
    (∀ (q item : Nat) (s : State), exec (.move q item) s = .next (s.runItem q item 0x04 State.sendUnit)) ∧
    (∀ (q item : Nat) (s : State), exec (.collective q item) s = .next (s.runItem q item 0x05 State.sendUnit)) ∧
    (∀ (q item : Nat) (s : State), exec (.siteWork q item) s = .next (s.runItem q item 0x06 State.sendUnit)) ∧
    (∀ (q item : Nat) (s : State), exec (.writeImm q item) s = (
      .next (s.runLong q item 0x07 (fun t i =>
        let a := i.prm 24 8
        let d := (i.pkt.drop 40).take (i.prm 32 1)
        if i.phase = 1 then t.doneItem i 0
        else if i.phase = 2 then t
        else
          let put (u : State) (host : Bool) (addr : Nat) : State :=
            (u.dmaWrite (u.stwPkt i) host false addr d (fun _ => false)).updOrder i.order (fun x => { x with phase := 1 })
          if i.prm 33 1 = 1 then
            if i.tenant ≠ 0 && !t.padRange a d.length then t.failItem i stSpaceDenied
            else match t.route 0x190 a with
              | .answer st => t.failItem i st
              | .toAgent _ => put t false a
          else match t.stwWalk i.asid i.tenant a with
            | (.wait, u) => u
            | (.denied, u) => u.failItem i stAsidDenied
            | (.fault kind level, u) => u.stwFault i a kind level
            | (.leaf _ l e, u) =>
              if pteBusy e then u.stwBusy i
              else if !pteW e then u.stwFault i a 1 l
              else put u (u.leafPlace l e a).1 (u.leafPlace l e a).2))))

/-- Barriers, events, cancellation and queries take their effect: on every state and for every operand, each command of the group answers the next state that its rule gives. -/
def Obligations.ControlItemEffects : Prop :=
    (∀ (q item : Nat) (s : State), exec (.barrier q item) s = (
      .next (s.runItem q item 0x08 (fun t i =>
        let earlier := t.stw.items.any (fun x => x.order < i.order &&
          (if i.prm 24 1 = 0 then x.q = i.q else x.tenant = i.tenant && x.q < 1024))
        if earlier then t else t.doneItem i 0)))) ∧
    (∀ (q item : Nat) (s : State), exec (.evtSignal q item) s = (
      .next (s.runItem q item 0x10 (fun t i =>
        let e := i.prm 24 2
        if !t.evtMay e i.tenant then t.failItem i stEventDenied
        else
          let t1 := if i.prm 26 1 = 1 then t.wr STW_EVT_FAILED e 1 else t.evtAdd e (max 1 (i.prm 28 4))
          t1.doneItem i (t1.rd STW_EVT_COUNT e))))) ∧
    (∀ (q item : Nat) (s : State), exec (.evtWait q item) s = (
      .next (s.runItem q item 0x11 (fun t i =>
        let e := i.prm 24 2
        let v := i.prm 32 6
        if t.stw.waits.any (fun w => w.agent.isNone && w.q = i.q && w.id = i.id) then t
        else if !t.evtMay e i.tenant then t.failItem i stEventDenied
        else if t.flag STW_EVT_FAILED e then t.failItem i stDepFailed
        else if t.evtOk e v then t.doneItem i (t.rd STW_EVT_COUNT e)
        else { t with stw := { t.stw with waits := t.stw.waits ++ [{ evt := e, value := v, q := i.q, id := i.id }] } })))) ∧
    (∀ (q item : Nat) (s : State), exec (.evtWaitTimeout q item) s = (
      .next (s.runItem q item 0x11 (fun t i =>
        if i.prm 40 4 ≠ 0 && t.stw.waits.any (fun w => w.agent.isNone && w.q = i.q && w.id = i.id) then t.failItem i stWaitTimeout
        else t)))) ∧
    (∀ (q item : Nat) (s : State), exec (.evtReset q item) s = (
      .next (s.runItem q item 0x12 (fun t i =>
        let e := i.prm 24 2
        if !t.evtMay e i.tenant then t.failItem i stEventDenied
        else ((t.wr STW_EVT_COUNT e (i.prm 32 6)).wr STW_EVT_FAILED e 0).doneItem i 0)))) ∧
    (∀ (q item : Nat) (s : State), exec (.cancel q item) s = (
      .next (s.runItem q item 0x18 (fun t i =>
        let (r, t1) := t.cancel i (i.prm 24 2) (i.prm 28 4)
        t1.doneItem i r)))) ∧
    (∀ (q item : Nat) (s : State), exec (.itemQuery q item) s = (
      .next (s.runItem q item 0x19 (fun t i =>
        t.doneItem i (match t.item (i.prm 24 2) (i.prm 28 4) with
          | none => 0
          | some x => if x.st = 0 || x.st = 3 then 1 else 2)))))

/-- Allocation, weights and sequence items take their effect: on every state and for every operand, each command of the group answers the next state that its rule gives. -/
def Obligations.ResourceItemEffects : Prop :=
    (∀ (q item : Nat) (s : State), exec (.alloc q item) s = (
      .next (s.runItem q item 0x20 (fun t i =>
        let p := i.prm 26 2
        let o := i.prm 25 1
        if !t.flag STW_RSV_VALID then t.failItem i stNoMemory
        else if t.rd STW_POOL_CFG_STATE p ≠ 2 || t.rd STW_POOL_CFG_SPACE p ≠ i.prm 24 1 || t.rd STW_POOL_CFG_MAXORD p < o ||
            (i.tenant ≠ 0 && t.rd STW_POOL_CFG_TENANT p ≠ i.tenant) then t.failItem i stParamInvalid
        else match t.allocate p o i.tenant with
          | (.inl st, u) => u.failItem i st
          | (.inr a, u) => u.doneItem i a)))) ∧
    (∀ (q item : Nat) (s : State), exec (.free q item) s = (
      .next (s.runItem q item 0x21 (fun t i =>
        match t.stw.blocks.find? (fun b => b.hpa = i.prm 24 8 && !b.zeroing) with
        | some b =>
          if (b.tenant ≠ i.tenant && i.tenant ≠ 0) || t.kvIn b then t.failItem i stParamInvalid
          else (t.freeBlock b).doneItem i 0
        | none => t.failItem i stParamInvalid)))) ∧
    (∀ (hpa : Nat) (s : State), exec (.blockZeroDone hpa) s = (
      .next (match s.stw.blocks.find? (fun b => b.hpa = hpa && b.zeroing) with
      | some b =>
        let t := s.zeroHpa hpa (ordBytes b.ord)
        if t.written 0x190 walkStream then t.updStw (fun x => { x with blocks := x.blocks.erase b }) else t
      | none => s))) ∧
    (∀ (q item : Nat) (s : State), exec (.kvAlloc q item) s = (
      .next (s.runItem q item 0x22 (fun t i =>
        let n := i.prm 28 4
        if !t.flag STW_RSV_VALID then t.failItem i stNoMemory
        else match t.seqSlot (i.prm 24 4) i.tenant with
          | none => t.failItem i stSeqInvalid
          | some slot =>
            let len := (t.seq slot).table.length
            if (t.seq slot).service then t.failItem i stSeqInvalid
            else if t.kvFree (t.seq slot).pool < n then t.failItem i stNoMemory
            else if 4096 < len + n then t.failItem i stQuota
            else ((State.growTable slot n t).2.writeTable slot 0).doneTable i len)))) ∧
    (∀ (q item : Nat) (s : State), exec (.kvFree q item) s = (
      .next (s.runItem q item 0x23 (fun t i =>
        match t.seqSlot (i.prm 24 4) i.tenant with
        | none => t.failItem i stSeqInvalid
        | some slot =>
          if (t.seq slot).service then t.failItem i stSeqInvalid
          else (t.shrinkTable slot (if i.prm 28 4 = 0 then 4096 else i.prm 28 4)).doneTable i 0)))) ∧
    (∀ (q item : Nat) (s : State), exec (.prefetch q item) s = (
      .next (s.runLong q item 0x24 (fun t i =>
        let va := i.prm 24 8 + 65536 * i.k
        let toHost := i.prm 36 1 = 1
        if i.prm 32 4 ≤ i.k then t.doneTable i i.acc
        else match t.stwWalk i.asid i.tenant va with
          | (.wait, u) => u
          | (.denied, u) => u.failItem i stAsidDenied
          | (.fault _ _, u) => u.failItem i stXltFault
          | (.leaf a l e, u) =>
            let (host, old) := u.leafPlace l e va
            match i.phase with
            | 0 =>
              if pteAdv e = 4 || l ≠ 3 || pteBusy e then u.nextPage i 1
              else if host = toHost then u.nextPage i 0
              else
                let w := if pteW e then 1 else 0
                let busy (v : State) (n : Nat) : State :=
                  let v1 := (v.writeLeaf a (setField (setField e 5 1 1) 4 1 0)).dropScope (pageInv i.asid va)
                  let v2 := v1.updOrder i.order (fun x => { x with phase := 1, aux := w + 2 * n })
                  v2.dmaRead (v2.stwPkt i) host old 65536
                if toHost then busy u (i.prm 40 8 + 65536 * i.k)
                else
                  let ps := u.pagePools i.tenant
                  if ps.isEmpty then u.failItem i stNoMemory
                  else match u.fresh.allocate (ps.getD (u.freeNat % ps.length) 0) 0 i.tenant with
                    | (.inl st, v) => v.failItem i st
                    | (.inr n, v) => busy v n
            | 1 =>
              if !gotAll i.got host old 65536 || !(u.pinsIn (pageInv i.asid va)).isEmpty then u
              else
                (u.dmaWrite (u.stwPkt i) toHost false (i.aux / 2 + if toHost then 0 else u.hubNo * 2 ^ 48) (gotBytes i.got host old 65536)
                  (fun _ => false)).updOrder i.order (fun x => { x with phase := 2 })
            | _ =>
              let new := i.aux / 2
              let e1 := setField (setField (setField (setField e 5 1 0) 4 1 (i.aux % 2)) 2 2 (if toHost then 2 else 0)) 16 32 (new / 65536)
              let u1 := (u.writeLeaf a (setField e1 48 16 (new / 2 ^ 48))).dropScope (pageInv i.asid va) |>.busyAgain (pageInv i.asid va)
              let u2 := match u1.stw.blocks.find? (fun b => !host && b.hpa = old % 2 ^ 48 && !b.zeroing && b.ord = 0) with
                | some b => u1.freeBlock b
                | none => u1
              u2.nextPage i 0)))) ∧
    (∀ (q item : Nat) (s : State), exec (.advise q item) s = (
      .next (s.runItem q item 0x25 (fun t i =>
        let base := i.prm 24 8
        let r := (List.range (i.prm 32 4)).foldl (fun (x : Bool × Bool × State) k =>
          match x.2.2.stwWalk i.asid i.tenant (base + 65536 * k) with
          | (.wait, u) => (x.1, true, u)
          | (.denied, u) => (true, x.2.1, u)
          | (.fault _ _, u) => (x.1, x.2.1, u)
          | (.leaf a _ e, u) => (x.1, x.2.1, u.writeLeaf a (setField e 8 4 (i.prm 36 1)))) (false, false, t)
        if r.1 then r.2.2.failItem i stAsidDenied else if r.2.1 then r.2.2 else r.2.2.doneTable i 0)))) ∧
    (∀ (q item : Nat) (s : State), exec (.evacuate q item) s = (
      .next (s.runItem q item 0x26 (fun t i =>
        if t.goesOn i then
          (match i.phase with
           | 0 => t.evacStart i
           | 1 => t.evacCopy i
           | 2 => ((t.startFence 0x190 (i.order + 1) true).settleFence 0x190).updOrder i.order (fun x => { x with phase := 3 })
           | _ => if t.fencing 0x190 (i.order + 1) then t else (t.wr HBM_EVAC_STATE 0 2).doneItem i i.acc)
        else if !t.itemIdle i then t
        else
          let u := t.wr HBM_EVAC_STATE 0 3
          match i.stop, i.fails with
          | some st, _ => u.failItem i st
          | none, st :: _ => u.fixFate i fateFailed st i.aux
          | none, [] => u)))) ∧
    (∀ (q item : Nat) (s : State), exec (.weightLoad q item) s = (
      .next (s.runItem q item 0x28 (fun t i =>
        let hpa := i.prm 24 8
        if t.vstBusy then t
        else if t.weightsClosed then t.failItem i stLcDenied
        else match t.readManifest hpa with
          | (.inl st, u) => u.failRead i st
          | (.inr (m, b), u) =>
            match u.readHpa (hpa + m.sigOff) (sigLen m.alg) with
            | (some st, _, v) => v.failRead i st
            | (none, sig, v) =>
              if !Config.keySigned m.alg (part b m.keyOff (keyLen m.alg)) b sig then v.failItem i stManifestInvalid
              else match m.binding b with
                | none => v.failItem i stNotBound
                | some bind =>
                  if i.tenant = 0 then v.failItem i stPrivileged
                  else
                    let old := v.present (sha384 b)
                    let unshared : Bool := match old with
                      | some e => !v.flag VST_MODEL_SHARE e
                      | none => false
                    if unshared || v.stw.items.any (fun x => x.tenant = i.tenant && x.order ≠ i.order) then v.failItem i stSealPolicy
                    else match old with
                      | none => v.loadNew i hpa m b bind
                      | some e =>
                        match v.readTable hpa m b with
                        | (.inl st, z) => z.failRead i st
                        | (.inr d, z) => ((z.dirWrite (z.digestHpa e 0) d).bindModel i.tenant e).doneItem i (z.loadResult e))))) ∧
    (∀ (q item : Nat) (s : State), exec (.weightChunk q item) s = (
      .next (s.runItem q item 0x29 (fun t i =>
        let k := i.prm 32 4
        match i.stop with
        | some st => t.failItem i st
        | none =>
          if i.phase = 2 then t.walkRead 0x1C0 (t.bitHpa i.aux i.k) 1 (fun t =>
            (let e := i.aux
             if t.rd VST_MODEL_STATE e = 3 then (t.chunkRestored e i.k).doneItem i 0
             else if t.rd VST_MODEL_STATE e ≠ 1 then t.failItem i stSealPolicy
             else
               let u := t.chunkWritten e i.k
               if (SMap.getD u.vst.models e {}).left = 0 then u.updOrder i.order (fun x => { x with phase := 3 }) else u.doneItem i 0))
          else if i.phase = 3 then
            (let e := i.aux
             if t.rd VST_MODEL_STATE e ≠ 1 && t.rd VST_MODEL_STATE e ≠ 2 then t.failItem i stSealPolicy
             else if (t.modelBlocks e).all (fun n => (t.gblock n).st = 3) then (t.wr VST_MODEL_STATE e 2).doneItem i 0
             else t)
          else if t.vstBusy then t
          else if t.weightsClosed then t.failItem i stLcDenied
          else match t.chunkModel i.tenant with
            | none => t.failItem i stSealPolicy
            | some e =>
              if (SMap.getD t.vst.models e {}).chunks ≤ k then t.failItem i stParamInvalid
              else if t.rd VST_MODEL_STATE e = 3 && !t.chunkOnPage e k then t.failItem i stSealPolicy
              else t.startChunk i e k)))) ∧
    (∀ (q item : Nat) (s : State), exec (.weightRelease q item) s = (
      .next (s.runItem q item 0x2A (fun t i =>
        let n := i.tenant
        if i.phase = 1 then (t.unseal n).doneItem i 0
        else if t.vstBusy then t
        else if t.lcState ≠ 2 then t.failItem i stLcDenied
        else match t.readManifest (i.prm 24 8) with
          | (.inl st, u) => u.failRead i st
          | (.inr (_, b), u) =>
            match u.present (sha384 b) with
            | none => u.failItem i stSealPolicy
            | some e =>
              if !u.mapped n e || (u.stw.gen.tenant = n && u.genRuns) then u.failItem i stSealPolicy
              else
                let u1 := u.mapModel n e false
                let u2 := if (u1.mappers e).isEmpty then u1.releaseModel e else u1
                if u2.rd VST_TENANT_MODELS n = 0 then (u2.wr VST_TENANT_UNSEALING n 1).updOrder i.order (fun x => { x with phase := 1 })
                else u2.doneItem i 0)))) ∧
    (∀ (q item : Nat) (s : State), exec (.seqOpen q item) s = .next (s.runLong q item 0x30 State.seqOpenItem)) ∧
    (∀ (q item : Nat) (s : State), exec (.seqFeed q item) s = (
      .next (s.runLong q item 0x31 (fun t i =>
        match t.seqSlot (i.prm 24 4) i.tenant with
        | none => t.failItem i stSeqInvalid
        | some slot =>
          if 4096 < (t.seq slot).toks.length + i.prm 28 4 then t.failItem i stSeqInvalid
          else match t.feedToks i with
            | (.fail st, u) => u.failItem i st
            | (.wait, u) => u
            | (.data d, u) =>
              if u.genRuns then u.updOrder i.order (fun x => { x with phase := 2 })
              else u.feed i ((List.range (i.prm 28 4)).map (fun j => pktField d (4 * j) 4)))))) ∧
    (∀ (q item : Nat) (s : State), exec (.seqClose q item) s = (
      .next (s.runItem q item 0x32 (fun t i =>
        match t.seqSlot (i.prm 24 4) i.tenant with
        | none => t.failItem i stSeqInvalid
        | some slot =>
          let x := t.seq slot
          if t.sealedTenant i.tenant && !x.service then t.failItem i stSealPolicy
          else if x.ended || !x.service then (t.closeSeq slot).doneTable i x.made
          else t.updOrder i.order (fun y => { y with phase := 2 }))))) ∧
    (∀ (q item : Nat) (s : State), exec (.genStart q item) s = (
      let hpa (t : State) (a : Nat) : Nat := t.hubNo * 2 ^ 48 + a % 2 ^ 48
      .next (s.runLong q item 0x33 (fun t i =>
        if !t.flag STW_RSV_VALID then t.failItem i stNoMemory
        else match t.need i false (hpa t (i.prm 24 8)) 128 with
        | (none, u) => u
        | (some d, u) =>
          let k := pktField d 3 1
          let n := pktField d 6 1
          let st := u.genState
          let tiles := (List.range 64).filter (fun j => Nat.testBit (pktField d 40 8) j)
          let own (j : Nat) : Bool := match u.physOf (u.unitNo 0 0x200 j) with
            | some p => u.rd LOOM_STAT_OWNER (p - 0x200) = i.tenant
            | none => false
          let log2n := u.rd STW_GEN_OUT_LOG2N
          if st = 1 || st = 2 || !genDescOk d || !tiles.all own || !u.flag STW_KV_CFG1_STATE k || u.rd STW_KV_CFG1_TENANT k ≠ i.tenant ||
              log2n < 4 || 20 < log2n then u.failItem i stSeqInvalid
          else match u.need i false (hpa u (pktField d 32 8)) (64 * n) with
            | (none, v) => v
            | (some plan, v) =>
              let g : Gen := { v.stw.gen with tenant := i.tenant, asid := i.asid, desc := d, plan := plan, stage := 0, retries := 0
                                              fail := 0, held := [], pausing := false, lastFate := 0 }
              if v.genSealed g plan then v.failItem i stSealPolicy
              else if !(List.range n).all (fun j => v.planOk g ((plan.drop (64 * j)).take 64) j) then v.failItem i stSeqInvalid
              else (((v.updGen (fun _ => g)).wr STW_GEN_STAT_STATE 0 1).wr STW_GEN_STAT_STATUS 0 0).doneItem i 0)))) ∧
    (∀ (q item : Nat) (s : State), exec (.genStop q item) s = (
      .next (s.runItem q item 0x34 (fun t i =>
        let drain := i.prm 24 1 % 2 = 1
        let st := t.genState
        let wait (u : State) : State := u.updOrder i.order (fun x => { x with phase := 1 })
        if st = 0 || st = 4 || (st = 3 && !drain) then t.doneItem i 0
        else if drain then wait (t.wr STW_GEN_STAT_STATE 0 2)
        else wait (t.updGen (fun g => { g with pausing := true }))))))

/-- Steward events, queue registers and the mailbox take their effect: on every state and for every operand, each command of the group answers the next state that its rule gives. -/
def Obligations.StewardRegisterEffects : Prop :=
    (∀ (p : Pkt) (s : State), exec (.completionEvent p) s = .next (s.delivering p (fun t => (t.completionEvent p).fwTurn) ((s.completionEvent p).fwTurn))) ∧
    (∀ (p : Pkt) (s : State), exec (.evtOp p) s = .next (s.deliverUnit { p with opc := 0x0C, dst := 0x190 } (fun u _ q => (u.evtOp q).stwTurn))) ∧
    (∀ (p : Pkt) (s : State), exec (.wakeEvent p) s = .next (s.eventArrives { p with opc := 0x32, src := 0x190, data := 1 :: p.data.drop 1 })) ∧
    (∀ (w : Writer) (e value : Nat) (s : State), exec (.evtRegWrite w e value) s = (
      .next (if !stwWriter w then s
      else
        let s1 := ((s.wr STW_EVT_VALID e (value / 2 ^ 63 % 2)).wr STW_EVT_FAILED e (value / 2 ^ 62 % 2)).wr STW_EVT_TENANT e
          (value / 2 ^ 48 % 64)
        ((s1.wr STW_EVT_COUNT e (value % 2 ^ 48)).settleWaits).stwTurn))) ∧
    (∀ (w : Writer) (q : Nat) (s : State), exec (.queueEnable w q) s = (
      let st := s.rd STW_QCFG_STATE q
      .next (if !stwWriter w || st = 1 then s
      else if st ≠ 0 || !ringOk (s.rd STW_QBASE_LOG2N q) || !ringOk (s.rd STW_CQBASE_LOG2N (s.rd STW_QCFG_CQ q)) then
        s.wr STW_QCFG_REJECTED q 1
      else
        let s1 := ((((s.wr STW_QCFG_STATE q 1).wr STW_QCFG_ENABLE q 1).wr STW_QPTR_HEAD q 0).wr STW_QPTR_TAIL q 0).resetReg STW_QSTAT q
        { s1 with stw := { s1.stw with ended := s1.stw.ended.filter (fun e => e.1 ≠ q) } }))) ∧
    (∀ (w : Writer) (q : Nat) (s : State), exec (.queueDisable w q) s = (
      let st := s.rd STW_QCFG_STATE q
      .next (if !stwWriter w || (st ≠ 1 && st ≠ 3) then s
      else ((s.wr STW_QCFG_STATE q 2).wr STW_QCFG_ENABLE q 0).wr STW_QSTAT_CAUSE q 0))) ∧
    (∀ (q : Nat) (s : State), exec (.queueDrained q) s = .next (if s.rd STW_QCFG_STATE q = 2 && s.stw.items.all (fun i => i.q ≠ q) then s.wr STW_QCFG_STATE q 0 else s)) ∧
    (∀ (w : Writer) (c value : Nat) (s : State), exec (.cqbaseWrite w c value) s = (
      .next (if !stwWriter w then s
      else if (s.namers c).any (fun q => s.rd STW_QCFG_STATE q ≠ 0) then s.wr STW_QCFG_REJECTED c 1
      else
        let s1 := ((s.wr STW_CQBASE_BASE c (value / 4096)).wr STW_CQBASE_LOC c (value / 256 % 2)).wr STW_CQBASE_LOG2N c (value % 32)
        let s2 := ((s1.wr STW_CQPTR_PHASE c 1).wr STW_CQPTR_TAIL c 0).wr STW_CQPTR_HEAD c 0
        ({ s2 with stw := { s2.stw with cqCount := SMap.del s2.stw.cqCount c } } : State).holdRecords (fun r => r.cq = c)))) ∧
    (∀ (c : Nat) (s : State), exec (.cqCoalTimeout c) s = (
      .next (if s.flag STW_CQCFG_IRQ_EN c && s.rd STW_CQCFG_COAL_US c ≠ 0 && SMap.getD s.stw.cqSince c 0 ≠ 0 then
        { s with stw := { s.stw with cqSince := SMap.del s.stw.cqSince c } }.msixAfter 0x190 (replyStream c) (s.rd STW_CQCFG_VECTOR c)
      else s))) ∧
    (∀ (w : Writer) (s : State), exec (.mboxGo w) s = (
      .next (if !stwWriter w then s
      else if s.rd RES_STAT_STATE ≠ 0 then s.wr STW_MBOX_CTL_REJECTED 0 1
      else
        let pkt := (List.range 8).flatMap (fun k => natLe 8 (s.rd STW_MBOX_CMD_PKT k))
        let s1 := ((s.wr RES_STAT_STATE 0 1).wr RES_STAT_ITEM 0 (pktField pkt 4 4)).wr STW_MBOX_CTL_GO 0 0
        ((s1.wr RES_STAT_STATUS 0 0).wr RES_STAT_FATE 0 0 |>.takeIn 0xFFFF 0 0 0 pkt).stwTurn))) ∧
    (∀ (s : State), exec .mboxReady s = (
      .next (match s.stw.mbox with
      | none => s
      | some (r, fate, status, irq) =>
        let s0 : State := { s with stw := { s.stw with mbox := none } }
        let s1 := (List.range 4).foldl (fun t k => t.wr RES_DATA_REPLY k (leNat ((r.drop (8 * k)).take 8))) s0
        let s2 := ((s1.wr RES_STAT_STATE 0 2).wr RES_STAT_FATE 0 fate).wr RES_STAT_STATUS 0 status
        if irq then s2.msix (s2.rd STW_CTL_VECTOR) else s2))) ∧
    (∀ (w : Writer) (s : State), exec (.resAck w) s = (
      .next (if stwWriter w && s.rd RES_STAT_STATE = 2 then
        ((s.wr RES_STAT_STATE 0 0).wr RES_STAT_FATE 0 0).wr RES_STAT_STATUS 0 0
      else s))) ∧
    (∀ (w : Writer) (value : Nat) (s : State), exec (.rsvWrite w value) s = (
      let base := value / 2 ^ 28 % 2 ^ 20 * 2 ^ 28
      let used := (List.range 32).any (fun p => s.rd STW_POOL_CFG_STATE p ≠ 0) ||
        (List.range 16).any (fun k => s.rd STW_KV_CFG1_STATE k ≠ 0) || s.stw.seqs.any (fun e => e.2.isOpen)
      let s0 := if value / 2 ^ 63 % 2 = 1 then s.wr STW_RSV_REJECTED 0 0 else s
      .next (if !stwWriter w then s
      else if used || (value % 2 = 1 && (s.meetsGranary base (2 ^ 28) || s.hbmBytes < base + 2 ^ 28)) then s0.wr STW_RSV_REJECTED 0 1
      else (s0.wr STW_RSV_BASE 0 (base / 2 ^ 28)).wr STW_RSV_VALID 0 (value % 2))))

/-- Pools and the steps of the generation service take their effect: on every state and for every operand, each command of the group answers the next state that its rule gives. -/
def Obligations.PoolAndGenerationEffects : Prop :=
    (∀ (w : Writer) (pool value : Nat) (s : State), exec (.poolCommit w pool value) s = (
      let v (lo n : Nat) : Nat := value / 2 ^ lo % 2 ^ n
      let count := v 0 16
      let base := v 16 32 * 65536
      let ord := v 48 4
      let space := v 58 1
      let n := count * ordBytes ord
      let st := s.rd STW_POOL_CFG_STATE pool
      let live := (s.poolBlocks pool).any (fun b => !b.zeroing)
      let inside : Bool := count = 0 || (if space = 0 then decide (base + n ≤ s.hbmBytes)
        else decide (0x10000000000 ≤ base ∧ base + n ≤ 0x10000000000 + 48 * 0x800000))
      let clash := count ≠ 0 && ((List.range 32).any (fun p => p ≠ pool && s.rd STW_POOL_CFG_STATE p ≠ 0 &&
          meets base n (s.poolBase p) (s.poolBytes p)) ||
        (s.flag STW_RSV_VALID && meets base n s.rsvBase (2 ^ 28)) || s.meetsGranary base n)
      let s0 := if v 63 1 = 1 then s.wr STW_POOL_CFG_REJECTED pool 0 else s
      let put (t : State) : State := ((((((t.wr STW_POOL_CFG_ZERO pool (v 59 1)).wr STW_POOL_CFG_SPACE pool space).wr
        STW_POOL_CFG_TENANT pool (v 52 6)).wr STW_POOL_CFG_MAXORD pool ord).wr STW_POOL_CFG_BASE pool (v 16 32)).wr
        STW_POOL_CFG_COUNT pool count)
      .next (if !stwWriter w then s
      else if (st ≠ 0 && (count ≠ 0 || live)) || (space = 1 && 7 < ord) || 14 < ord || base % ordBytes ord ≠ 0 || !inside || clash then
        s0.wr STW_POOL_CFG_REJECTED pool 1
      else if count = 0 then
        -- a confined pool is zeroed first, whatever its ZERO (17_security.md R573)
        ((put (if st ≠ 0 && s.sealedTenant (s.rd STW_POOL_CFG_TENANT pool) then s0.zeroHpa (s.poolBase pool) (s.poolBytes pool) else s0)).wr
          STW_POOL_CFG_STATE pool 0).updStw (fun x => { x with blocks := x.blocks.filter (fun b => b.pool ≠ pool) })
      else (put s0).wr STW_POOL_CFG_STATE pool (if v 59 1 = 1 then 1 else 2)))) ∧
    (∀ (pool : Nat) (s : State), exec (.poolZeroDone pool) s = (
      .next (if s.rd STW_POOL_CFG_STATE pool = 1 then
        let t := s.zeroHpa (s.poolBase pool) (s.poolBytes pool)
        if t.written 0x190 walkStream then t.wr STW_POOL_CFG_STATE pool 2 else t
      else s))) ∧
    (∀ (w : Writer) (pool cfg0 cfg1 : Nat) (s : State), exec (.kvPoolCommit w pool cfg0 cfg1) s = (
      let count := cfg1 % 2 ^ 24
      let tenant := cfg1 / 2 ^ 24 % 64
      let base := cfg0 / 2 ^ 16 % 2 ^ 32 * 65536
      let size := let b := cfg0 / 2 ^ 48 % 256; if b = 0 then 256 else b
      let ready := s.flag STW_KV_CFG1_STATE pool
      let inBlock := s.stw.blocks.any (fun b => !b.zeroing && b.tenant = tenant && s.rd STW_POOL_CFG_SPACE b.pool = 0 &&
        b.hpa ≤ base && base + count * size * 65536 ≤ b.hpa + ordBytes b.ord)
      let sum := ((List.range 16).map (fun k => if k ≠ pool && s.flag STW_KV_CFG1_STATE k then s.rd STW_KV_CFG1_COUNT k else 0)).foldl (· + ·) 0
      let s0 := if cfg1 / 2 ^ 63 % 2 = 1 then s.wr STW_KV_CFG1_REJECTED pool 0 else s
      let bad : State := s0.wr STW_KV_CFG1_REJECTED pool 1
      .next (if !stwWriter w then s
      else if ready && 0 < s.kvUsed pool then bad
      else if count = 0 then (if ready then (s0.wr STW_KV_CFG1_STATE pool 0).wr STW_KV_CFG1_COUNT pool 0 else bad)
      else if !inBlock || 2 ^ 24 < sum + count then bad
      else
        let s1 := ((s0.wr STW_KV_CFG0_TOKENS pool (cfg0 / 2 ^ 56)).wr STW_KV_CFG0_BLOCK pool (cfg0 / 2 ^ 48)).wr STW_KV_CFG0_BASE pool
          (cfg0 / 2 ^ 16)
        ((s1.wr STW_KV_CFG1_TENANT pool tenant).wr STW_KV_CFG1_COUNT pool count).wr STW_KV_CFG1_STATE pool 1))) ∧
    (∀ (s : State), exec .genStepBoundary s = (
      .next (if !s.genRuns || !s.stw.gen.recs.isEmpty then s
      else match s.stw.gen.stage with
        | 0 => s.genStep
        | 2 => s.genGo
        | 3 => s.genTables
        | _ => s))) ∧
    (∀ (s : State), exec .genSample s = (
      .next (if !s.planEnded || s.stw.planFates.any (fun f => f.2.1 ≠ fateDone) then s
      else
        let s1 := (s.stw.gen.batch.zipIdx).foldl (fun t e => t.settleEntry e.2 e.1) s
        (s1.updGen (fun g => { g with stage := 0, step := g.step + 1, batch := [] })).wr STW_GEN_STAT_STEP 0 (s1.stw.gen.step + 1)))) ∧
    (∀ (s : State), exec .genStepRetry s = (
      .next (match s.planEnded, s.stw.planFates.find? (fun f => f.2.1 ≠ fateDone) with
      | true, some f =>
        if s.stw.planFates.any (fun x => x.2.2 = stWeightPoison) then
          let held := if s.stw.gen.held.isEmpty then s.hbm.poisonPages else s.stw.gen.held
          if held.all (fun p => !s.hbm.poisonPages.contains p) then s.startPlan else s.updGen (fun g => { g with held := held })
        else if s.stw.gen.retries < s.genField 7 1 then
          (s.updGen (fun g => { g with retries := g.retries + 1, fail := s.firstFailure f.2.2 })).startPlan
        else
          let st := s.firstFailure f.2.2
          let s1 := s.endSeqs (fun _ => true) 7 st
          ((s1.updGen (fun g => { g with stage := 0, batch := [] })).wr STW_GEN_STAT_STATE 0 4).wr STW_GEN_STAT_STATUS 0 st
      | _, _ => s))) ∧
    (∀ (s : State), exec .genRecordsWrite s = (
      let n := 2 ^ s.rd STW_GEN_OUT_LOG2N
      let g := s.stw.gen
      let room := n - 1 - (g.tail + n - s.rd STW_GEN_OUTPTR_HEAD % n) % n
      let host := !s.flag STW_GEN_OUT_LOC
      .next (if g.recs.isEmpty || room < g.recs.length || (host && !s.mastering) then s
      else
        let s1 := g.recs.foldl (fun (t : State) r =>
          let x := t.stw.gen
          let a := t.rd STW_GEN_OUT_BASE * 4096 + 16 * x.tail
          let d := r ++ natLe 1 (if x.phase then 128 else 0)
          let t1 := if host then t.hostSend (.write a d) else t.stwWrite a d
          t1.updGen (fun y => { y with tail := (y.tail + 1) % n, phase := if (y.tail + 1) % n = 0 then !y.phase else y.phase })) s
        (s1.updGen (fun y => { y with recs := [] })).msixAfter 0x190 walkStream (s.rd STW_GEN_OUTPTR_VECTOR)))) ∧
    (∀ (w : Writer) (head : Nat) (s : State), exec (.genOutHead w head) s = (
      let n := 2 ^ s.rd STW_GEN_OUT_LOG2N
      let h := s.rd STW_GEN_OUTPTR_HEAD
      .next (if !stwWriter w then s
      else if n ≤ head || (s.stw.gen.tail + n - h % n) % n < (head + n - h % n) % n then s.wr STW_GEN_OUTPTR_REJECTED 0 1
      else s.wr STW_GEN_OUTPTR_HEAD 0 head)))

/-- The Sluice takes its windows, commits and clears: on every state and for every operand, each command of the group answers the next state that its rule gives. -/
def Obligations.SluiceEffects : Prop :=
    (∀ (s : State), exec .bucketRefill s = (
      let up (rate : Nat → Nat) (m : SMap Nat) : SMap Nat :=
        (m.map (fun e => (e.1, e.2 - rate e.1 * s.sluRate e.1))).filter (fun e => e.2 ≠ 0)
      .next ({ s with slu := { s.slu with g := up s.sluMin s.slu.g, x := up s.sluMax s.slu.x } } : State).sluPump)) ∧
    (∀ (meas : List (Nat × Nat)) (s : State), exec (.sluWindowEnd meas) s = (
      let keys := ((meas.map (·.1)).filter (fun k => s.sluMin k ≠ 0)).eraseDups
      let short := (keys.map (fun k => (k, s.shortfall k ((meas.filter (fun m => m.1 = k)).map (·.2))))).filter (fun m => 0 < m.2)
      let limit := s.rd SLU_DLCFG_DL_LIMIT
      let late := s.slu.excess.filter (fun e => limit ≠ 0 && limit ≤ e.2)
      let s1 := short.foldl (fun t m =>
        let (u, d, w) := sluName m.1
        t.sluMiss (if m.1 < 100000 then 0 else 1) d u w (m.2 / 1024)) s
      let s2 := late.foldl (fun t e =>
        let (u, d, w) := if e.1 < 100000 then (e.1 / 8, 0, e.1 % 8) else sluName e.1
        t.sluMiss 2 d u w e.2) s1
      let regs := ((short.map (fun (m : Nat × Nat) => if m.1 < 100000 then m.1 / 16 else m.1 / 16 + 1000)) ++
        (late.map (fun (e : Nat × Nat) => if e.1 < 100000 then e.1 / 8 else e.1 / 16 + 1000))).eraseDups
      let s3 := regs.foldl (fun t _ => t.msix (t.rd SLU_CTL_VECTOR)) s2
      let s4 := (List.range 16).foldl (fun (t : State) p =>
        let kb := ((s.slu.served.filter (fun e => e.1 < 100000 && e.1 % 16 = p)).map (·.2)).foldl (· + ·) 0 / 1024
        let t1 := t.wr SLU_PSTAT_SERVED_KB p (min kb (2 ^ 32 - 1))
        if short.any (fun m => m.1 < 100000 && m.1 % 16 = p) then t1.inc SLU_PSTAT_MISSES p 1 else t1) s3
      .next { s4 with slu := { s4.slu with served := [], excess := [], steps := [] } })) ∧
    (∀ (w : Writer) (s : State), exec (.sluCommit w) s = (
      .next (if !stwWriter w then s
      else if s.flag SLU_CTL_COMMIT || !s.sluLawful then s.wr SLU_CTL_REJECTED 0 1
      else (s.wr SLU_CTL_COMMIT 0 1).wr SLU_CTL_GEN 0 ((s.rd SLU_CTL_GEN + 1) % 65536)))) ∧
    (∀ (s : State), exec .sluCommitDone s = (
      .next (if !s.flag SLU_CTL_COMMIT then s
      else
        let act := s.regs.filter (fun e => (0x200100 ≤ e.1 && e.1 < 0x200300) ||
          (0x201000 ≤ e.1 && e.1 < 0x201100 && e.1 % 16 = 0) || (0x204000 ≤ e.1 && e.1 < 0x205C00))
        let t : State := { s with slu := { s.slu with act := act } }
        let clip (m : SMap Nat) : SMap Nat := sluKeys.foldl (fun n k =>
          SMap.set 0 n k (SMap.getD m k 0 + t.sluDepth k * sluByte - s.sluDepth k * sluByte)) []
        (({ t with slu := { t.slu with g := clip t.slu.g, x := clip t.slu.x } } : State).wr SLU_CTL_COMMIT 0 0).sluPump))) ∧
    (∀ (w : Writer) (s : State), exec (.sluMissClear w) s = (
      .next (if !stwWriter w then s
      else if s.flag SLU_CTL_COMMIT then s.wr SLU_CTL_REJECTED 0 1
      else s.resetReg SLU_MISS_CNT 0)))

/-- Every message of a site takes its effect at its module: on every state and for every operand, each command of the group answers the next state that its rule gives. -/
def Obligations.SiteMessageEffects : Prop :=
    (∀ (p : Pkt) (s : State), exec (.siteDispatch p) s = .next (s.deliverUnit { p with opc := 0x0B } (fun t d q => match kindOf d with | .site _ => t.siteDispatch d q | _ => t))) ∧
    (∀ (n u : Nat) (m : StlMsg) (s : State), exec (.stlRd n u m) s = .next (s.stlIn n u 0x01 m (fun t x => t.stlRequest n u x))) ∧
    (∀ (n u : Nat) (m : StlMsg) (s : State), exec (.stlWr n u m) s = .next (s.stlIn n u 0x02 m (fun t x => t.stlRequest n u x))) ∧
    (∀ (n u : Nat) (m : StlMsg) (s : State), exec (.stlWrn n u m) s = .next (s.stlIn n u 0x03 m (fun t x => t.stlRequest n u x))) ∧
    (∀ (n u : Nat) (m : StlMsg) (s : State), exec (.stlAtom n u m) s = .next (s.stlIn n u 0x04 m (fun t x => t.stlRequest n u x))) ∧
    (∀ (n u : Nat) (m : StlMsg) (s : State), exec (.stlRdShared n u m) s = .next (s.stlIn n u 0x05 m (fun t x => t.stlRequest n u x))) ∧
    (∀ (n u : Nat) (m : StlMsg) (s : State), exec (.stlRdUnique n u m) s = .next (s.stlIn n u 0x06 m (fun t x => t.stlRequest n u x))) ∧
    (∀ (n u : Nat) (m : StlMsg) (s : State), exec (.stlClaim n u m) s = .next (s.stlIn n u 0x07 m (fun t x => t.stlRequest n u x))) ∧
    (∀ (n u : Nat) (m : StlMsg) (s : State), exec (.stlWbDirty n u m) s = .next (s.stlIn n u 0x08 m (fun t x => t.stlRequest n u x))) ∧
    (∀ (n u : Nat) (m : StlMsg) (s : State), exec (.stlEvictClean n u m) s = .next (s.stlIn n u 0x09 m (fun t x => t.stlRequest n u x))) ∧
    (∀ (n u : Nat) (m : StlMsg) (s : State), exec (.stlAtomP n u m) s = .next (s.stlIn n u 0x0A m (fun t x => t.stlRequest n u x))) ∧
    (∀ (n u : Nat) (m : StlMsg) (s : State), exec (.stlFence n u m) s = .next (s.stlIn n u 0x0B m (fun t x => t.stlRequest n u x))) ∧
    (∀ (n u : Nat) (m : StlMsg) (s : State), exec (.stlFenceRemote n u m) s = .next (s.stlIn n u 0x0C m (fun t x => t.stlRequest n u x))) ∧
    (∀ (n u : Nat) (m : StlMsg) (s : State), exec (.xltReq n u m) s = .next (s.stlIn n u 0x0D m (fun t x => t.stlRequest n u x))) ∧
    (∀ (n u : Nat) (m : StlMsg) (s : State), exec (.stlEvt n u m) s = .next (s.stlIn n u 0x0E m (fun t x => t.stlRequest n u x))) ∧
    (∀ (n u : Nat) (m : StlMsg) (s : State), exec (.stlIrq n u m) s = .next (s.stlIn n u 0x0F m (fun t x => t.stlRequest n u x))) ∧
    (∀ (n u : Nat) (m : StlMsg) (s : State), exec (.wqDone n u m) s = .next (s.stlIn n u 0x10 m (fun t x => t.stlRequest n u x))) ∧
    (∀ (n u : Nat) (m : StlMsg) (s : State), exec (.stlErr n u m) s = .next (s.stlIn n u 0x11 m (fun t x => t.stlErr n u x))) ∧
    (∀ (n u : Nat) (m : StlMsg) (s : State), exec (.stlSnpRsp n u m) s = .next (s.stlIn n u 0x18 m (fun t x => t.stlSnp n u x))) ∧
    (∀ (n u : Nat) (m : StlMsg) (s : State), exec (.stlSnpRspData n u m) s = .next (s.stlIn n u 0x19 m (fun t x => t.stlSnp n u x))) ∧
    (∀ (n u : Nat) (m : StlMsg) (s : State), exec (.stlCmpAck n u m) s = (
      .next (s.stlIn n u 0x1A m (fun t x =>
        match (t.slot n u).acks.find? (fun e => e.1 = x.tag) with
        | none => (t.creditBack n u x).inc COM_ERR_ABSORBED 0 1
        | some e =>
          ((t.updSlot n u (fun y => { y with acks := y.acks.erase e })).creditBack n u x).send
            { opc := 0x2F, dst := homeAgent (t.homeOfLine e.2), src := moduleAgent n u, addr := e.2 * 128, status := x.aux % 256 })))) ∧
    (∀ (n u : Nat) (m : StlMsg) (s : State), exec (.wRsp n u m) s = .next (s.winIn n u 0x1B m)) ∧
    (∀ (n u : Nat) (m : StlMsg) (s : State), exec (.wRspData n u m) s = .next (s.winIn n u 0x1C m)) ∧
    (∀ (n u : Nat) (m : StlMsg) (s : State), exec (.xltInvDone n u m) s = .next (s.stlIn n u 0x1D m (fun t x => t.stlInvDone n u x))) ∧
    (∀ (n u : Nat) (m : StlMsg) (s : State), exec (.echo n u m) s = (
      let x := { m with typ := 0x1E }
      .next (if (s.site n).step = 7 then
        (if !(x.tag < 16 && Nat.testBit (s.slot n u).echoes x.tag) then (s.siteFault n u 3 0 0x1E).siteFail n
         else if x.data ≠ echoData n u x.tag then s.echoFail n u
         else
           let s1 := (s.updSlot n u (fun y => { y with echoes := y.echoes - 2 ^ x.tag })).creditBack n u x
           if (List.range 8).all (fun k => (s1.slot n k).echoes = 0) then s1.siteTested n else s1)
      else s.stlIn n u 0x1E m (fun t y => t.siteFault n u 3 0 y.typ)))) ∧
    (∀ (n u : Nat) (m : StlMsg) (s : State), exec (.credit n u m) s = (
      let c := creditsOf m.addr
      let st := (s.site n).step
      let bringing : Bool := decide (s.domSt (siteDom n) = domOpening) && decide (5 ≤ st)
      .next (if !(bringing || s.modAlive n u) then s
      else if !stlOk { m with typ := 0x3F } then s.siteFault n u 1 0 0x3F
      else if c.init && bringing && (c.reqH < 8 || c.reqD < 64 || c.snpH < 16 || c.rspH < 32 || c.rspD < 256) then s.siteFail n
      else
        let s1 := (if c.init then s else s.reqReturned n u c.reqH).updSlot n u (fun x => x.credit c)
        (s1.siteDrain n u (s1.slot n u).waiting.length).siteChecks n)))

/-- Sidebands, timers and bring-up of a site take their effect: on every state and for every operand, each command of the group answers the next state that its rule gives. -/
def Obligations.SiteControlEffects : Prop :=
    (∀ (n : Nat) (r : SiteCxl) (s : State), exec (.siteCxlRequest n r) s = (
      let carried := match r.op with
        | .stl x => x.typ = 0x0E || x.typ = 0x0F || x.typ = 0x10 || x.typ = 0x11
        | .atomic op _ _ _ _ => op = 0 || op = 1 || op = 9
        | _ => true
      .next (if !s.modAlive n 0 || !s.flag SITE_STAT_PROTO_NOW n || !carried then s else (cxlStl r).foldl (fun t m => t.cxlIn n m) s))) ∧
    (∀ (n : Nat) (s : State), exec (.sidebandIdle n) s = (
      .next (if s.domSt (0xB3 + n) ≠ domDraining || !(s.site n).quiesced then s
      else ((List.range 8).foldl (fun t u => t.updIface (moduleAgent n u) (fun i => { i with idle := true })) s).drainWalk n))) ∧
    (∀ (n result : Nat) (s : State), exec (.sidebandSelftest n result) s = (
      let st := (s.site n).step
      .next (if s.domSt (siteDom n) ≠ domOpening || !(1 ≤ st && st ≤ 5) then s.wr SITE_STAT_SELFTEST n result
      else
        let s1 := s.wr SITE_STAT_SELFTEST n result
        if result % 65536 ≠ 0 && !s.flag SITE_CFG_IGNORE_ST n then s1.siteFail n
        else (s1.updSite n (fun x => { x with selftest := some result })).siteChecks n))) ∧
    (∀ (n : Nat) (s : State), exec (.sidebandFatal n) s = .next (s.siteFault n 0 7 0 0)) ∧
    (∀ (n u : Nat) (s : State), exec (.credTimeout n u) s = .next (if (s.slot n u).waiting.any (fun m => txClass m.typ = 2) then s.siteFault n u 8 0 0 else s)) ∧
    (∀ (n : Nat) (s : State), exec (.invTimeout n) s = (
      .next (match (List.range 8).find? (fun u => match (s.slot n u).inv with | some (_, 0) => true | _ => false) with
      | some u => s.siteFault n u 8 0 0x36
      | none => s))) ∧
    (∀ (n item : Nat) (s : State), exec (.stopTimeout n item) s = (
      .next (match (s.site n).work.find? (fun w => w.item = item && w.stopping) with
      | some w => s.siteFault n (w.wq % 8) 8 0 0x35
      | none => s))) ∧
    (∀ (n : Nat) (s : State), exec (.siteTrainTimeout n) s = .next (if s.domSt (siteDom n) = domOpening && (s.site n).pwren && (s.site n).step ≤ 7 then s.siteFail n else s)) ∧
    (∀ (n u : Nat) (s : State), exec (.echoTimeout n u) s = .next (if (s.site n).step = 7 && (s.slot n u).echoes ≠ 0 then s.echoFail n u else s)) ∧
    (∀ (n u : Nat) (ok : Bool) (s : State), exec (.moduleRetrain n u ok) s = (
      let s1 := s.inc SITE_MOD_RETRAINS (n * 8 + u) 1
      .next (if ok then s1 else s1.siteFault n u 7 0 0))) ∧
    (∀ (w : Writer) (n mask : Nat) (s : State), exec (.siteIrqUnmask w n mask) s = (
      .next (if !stwWriter w then s
      else
        let s1 := s.wr SITE_IRQ_MASK n mask
        (List.range 16).foldl (fun t k =>
          if Nat.testBit (t.rd SITE_IRQ_PEND n) k && !Nat.testBit mask k then
            (t.wr SITE_IRQ_PEND n (t.rd SITE_IRQ_PEND n - 2 ^ k)).send (irqPkt (moduleAgent n 0) k)
          else t) s1))) ∧
    (∀ (n : Nat) (t : SiteTrain) (s : State), exec (.siteBringup n t) s = (
      let st := (s.site n).step
      .next (if !s.domExists (siteDom n) || 8 ≤ n || s.domSt (siteDom n) ≠ domOpening then s
      else if st = 0 then
        ((List.range 8).foldl (fun x u => x.wr SITE_MOD_KAT_FAIL (n * 8 + u) 0) (s.updSite n (fun x => { x with
          pwren := true, repeated := false, selftest := none, quiesced := false, cxlq := [] }))).siteTrain n t
      else if st = 1 then s.siteTrain n t
      else s))) ∧
    (∀ (n tenant : Nat) (s : State), exec (.rightRevoke n tenant) s = (
      let s1 := s.revokeRight n tenant
      .next (if (s1.site n).owed && !s1.flag SITE_ATT_PENDING n && s1.domSt (siteDom n) = domOpen then
          (s1.updSite n (fun x => { x with owed := false })).giveRights n
        else s1)))

/-- Link flits, frames and the transport messages take their effect: on every state and for every operand, each command of the group answers the next state that its rule gives. -/
def Obligations.LinkEffects : Prop :=
    (∀ (l : Nat) (f : LinkFlit) (s : State), exec (.linkFlitReceive l f) s = (
      .next (if s.rd LNK_STAT_STATE l ≠ lnkUp || s.linkMode l ≠ 1 || !(s.link l).locked then s
      else
        let s1 := (s.inc LNK_ERR_FEC_CORR l f.corrected).inc LNK_ERR_FEC_UNCORR l f.uncorrected
        if f.failed then
          (s1.updLink l (fun x => { x with nak := true })).linkIdle l 0 0
        else if 5 ≤ f.cvc then s1.retrainLink l
        else
          let s2 := s1.linkAck l f
          if f.idle then s2
          else if f.seq = (s2.link l).exp then
            ((s2.updLink l (fun x => { x with exp := (x.exp + 1) % 4096 })).rxAdd l f.msgs).linkIdle l 0 0
          else (s2.updLink l (fun x => { x with nak := true })).linkIdle l 0 0))) ∧
    (∀ (l : Nat) (s : State), exec (.linkReplayTimeout l) s = .next (if (s.link l).retry.isEmpty || s.rd LNK_STAT_STATE l ≠ lnkUp then s else s.replay l)) ∧
    (∀ (l port : Nat) (f : EthFrame) (s : State), exec (.ethFrameReceive l port f) s = (
      .next (if s.rd LNK_STAT_STATE l ≠ lnkUp || s.linkMode l < 2 then s
      else match f.pfc with
      | some mask =>
        let held := ((List.range 8).filter (fun c => Nat.testBit mask c && s.pfcOn l port c)).map (fun c => 8 * port + c)
        (s.updLink l (fun x => { x with paused := x.paused.filter (fun k => k / 8 ≠ port) ++ held })).drainLink l
      | none =>
        if f.mac ≠ s.rd LNK_ETH_MAC_MAC (2 * l + port) || f.v6 ≠ s.flag LNK_XP_CFG_IPV6 || f.ip ≠ s.ipOf s.hubNo || f.udp ≠ 4791 ||
            !(f.opcode = 0xC0 || f.opcode = 0x81) then s.inc LNK_ERR_FOREIGN l 1
        else if f.opcode = 0x81 then s.halveRate f.srcHub
        else match s.bufferFrame l port f with
        | none => s
        | some s1 =>
          let due := match SMap.get? s.fab.cnps f.srcHub with | some t => decide (t + 50000 ≤ s.time) | none => true
          if f.ce && due then
            let s2 : State := { s1 with fab := { s1.fab with cnps := SMap.put s1.fab.cnps f.srcHub s.time } }
            s2.sendFrame l f.srcHub (s2.frameTo l port f.srcHub 0 0x81 [])
          else s1))) ∧
    (∀ (hub : Nat) (s : State), exec (.ethCnp hub) s = .next (s.halveRate hub)) ∧
    (∀ (hub : Nat) (s : State), exec (.ethRateRise hub) s = .next { s with fab := { s.fab with rates := SMap.upd 1000000 s.fab.rates hub (fun x => min 1000000 (x + 50000)) } }) ∧
    (∀ (p : Pkt) (s : State), exec (.anchorSend p) s = (
      .next (if (s.iface p.dest).inbound.contains p then s.anchorSend p.dest p
      else
        let s1 := s.request p
        let a := s.namedAnchor (hubOf p)
        match (s1.iface a).inbound.find? (fun q => q.opc = p.opc && q.src = p.src && q.txn = p.txn && (s1.iface a).unsent q) with
        | some q => s1.anchorSend a q
        | none => s1))) ∧
    (∀ (m : XMsg) (s : State), exec (.xpRd m) s = .next (s.xpReceive { m with typ := 0x01 })) ∧
    (∀ (m : XMsg) (s : State), exec (.xpWr m) s = .next (s.xpReceive { m with typ := 0x02 })) ∧
    (∀ (m : XMsg) (s : State), exec (.xpWrn m) s = .next (s.xpReceive { m with typ := 0x03 })) ∧
    (∀ (m : XMsg) (s : State), exec (.xpAtom m) s = .next (s.xpReceive { m with typ := 0x04 })) ∧
    (∀ (m : XMsg) (s : State), exec (.xpColl m) s = .next (s.xpReceive { m with typ := 0x05 })) ∧
    (∀ (m : XMsg) (s : State), exec (.xpClose m) s = .next (s.xpReceive { m with typ := 0x06 })) ∧
    (∀ (m : XMsg) (s : State), exec (.xpRsp m) s = .next (s.xpReceive { m with typ := 0x10 })) ∧
    (∀ (m : XMsg) (s : State), exec (.xpRspData m) s = .next (s.xpReceive { m with typ := 0x11 })) ∧
    (∀ (m : XMsg) (s : State), exec (.xpWfail m) s = .next (s.xpReceive { m with typ := 0x12 })) ∧
    (∀ (m : XMsg) (s : State), exec (.xpAck m) s = (
      let hub := m.srcHub
      let s0 := s.takeRx m
      .next (match s0.sendCtx hub with
      | none => s0
      | some c =>
        if c.epoch ≠ m.epoch || !s0.anchorLives (s0.anchorOf hub) then s0
        else
          let q := m.addr % 2 ^ 24
          let r := m.addr / 2 ^ 32 % 2 ^ 24
          let unReq := c.unReq.filter (fun x => psnBefore q x.psn)
          let unRsp := c.unRsp.filter (fun x => psnBefore r x.psn)
          let moved := unReq.length < c.unReq.length || unRsp.length < c.unRsp.length
          let c1 := { c with unReq := unReq, unRsp := unRsp, resends := if moved then 0 else c.resends, busy := false }
          let s1 := s0.putSend hub c1
          (if c.closing && unReq.isEmpty && unRsp.isEmpty then s1.freeSend hub else s1).drainPairs hub))) ∧
    (∀ (m : XMsg) (s : State), exec (.xpPerf m) s = (
      let hub := m.srcHub
      let s0 := s.takeRx m
      .next (match s0.sendCtx hub with
      | some c =>
        if c.epoch ≠ m.epoch || !s0.anchorLives (s0.anchorOf hub) then s0
        else (s0.putSend hub { c with perfs := c.perfs ++ [(m.addr % 2 ^ 24, m.addr / 2 ^ 32 % 2 ^ 24)] }).applyPerfs hub
      | none => s0))) ∧
    (∀ (m : XMsg) (s : State), exec (.xpBusy m) s = (
      let s0 := s.takeRx m
      .next (match s0.sendCtx m.srcHub with
      | some c => if c.epoch = m.epoch then s0.putSend m.srcHub { c with busy := true } else s0
      | none => s0)))

/-- Transport timers, time, lanes, routes and windows take their effect: on every state and for every operand, each command of the group answers the next state that its rule gives. -/
def Obligations.LinkTimerEffects : Prop :=
    (∀ (hub : Nat) (s : State), exec (.xpAckTimer hub) s = (
      .next (match s.recvCtx hub with
      | some c => if 0 < c.due then s.sendAck hub else s
      | none => s))) ∧
    (∀ (hub : Nat) (s : State), exec (.xpRto hub) s = (
      .next (match s.sendCtx hub with
      | none => s
      | some c =>
        if c.unReq.isEmpty && c.unRsp.isEmpty then s
        else if max 1 (s.rd LNK_XP_CFG_RETRY_MAX) ≤ c.resends then s.losePair hub (fun t => t.millHubLost hub)
        else s.resend hub c))) ∧
    (∀ (hub : Nat) (expired : Bool) (s : State), exec (.xpOpenRetry hub expired) s = (
      .next (match s.sendCtx hub with
      | none => s
      | some c =>
        if !c.busy then s
        else if expired then s.losePair hub (fun t => t.millHubLost hub)
        else ((c.unReq ++ c.unRsp).filter (fun m => m.opens)).foldl (fun t m => t.transmit m) (s.putSend hub { c with busy := false })))) ∧
    (∀ (hub : Nat) (s : State), exec (.xpIdleClose hub) s = (
      .next (match s.sendCtx hub with
      | some c =>
        let i := s.iface (s.anchorOf hub)
        let open_ := i.sent.any (fun f => hubOf f.req = hub) || i.remote.any (fun r => r.2 / 2 ^ 24 = hub)
        if c.unReq.isEmpty && c.unRsp.isEmpty && c.waiting.isEmpty && !c.closing && !open_ then
          s.ctxSend hub { c with closing := true } { typ := 0x06 }
        else s
      | none => s))) ∧
    (∀ (l vc : Nat) (m : XMsg) (s : State), exec (.intermediateForward l vc m) s = (
      .next (if m.dstHub = s.hubNo then s
      else s.ingress m (fun s0 =>
        if vc = 1 || vc = 3 then s0.inc LNK_ERR_HOP l 1
        else match s0.chooseLink m.dstHub with
          | some k => s0.linkPush k (if isReqType m.typ then 1 else 3) m
          | none => s0.inc LNK_ERR_NOROUTE l 1)))) ∧
    (∀ (s : State), exec .timeSyncTimer s = (
      let up := (List.range 48).filter (fun l => s.rd LNK_STAT_STATE l = lnkUp && s.linkMode l = 1)
      .next (if s.rd LNK_TIME_CFG_MODE ≠ 1 then s
      else up.foldl (fun t l => t.updLink l (fun x => { x with tx := x.tx ++ [.time s.time x.t1 x.t2] })) s))) ∧
    (∀ (l t1 r1 r2 : Nat) (s : State), exec (.linkTimeMsg l t1 r1 r2) s = (
      let t2 := s.time
      let s1 := s.updLink l (fun x => { x with t1 := t1, t2 := t2 })
      .next (if s.rd LNK_STAT_STATE l ≠ lnkUp || s.linkMode l ≠ 1 then s
      else if r1 = 0 && r2 = 0 then s1
      else if s.rd LNK_TIME_CFG_MODE = 1 && !s.flag LNK_TIME_CFG_GM && s.rd LNK_TIME_CFG_UPLINK = l then
        s1.timeOffset ((((t2 : Int) - t1) - ((r2 : Int) - r1)) / 2)
      else s1))) ∧
    (∀ (l port : Nat) (offset : Option Int) (s : State), exec (.ptpFrame l port offset) s = (
      .next (if s.rd LNK_TIME_CFG_MODE = 2 && s.rd LNK_TIME_CFG_UPLINK = l && s.rd LNK_TIME_CFG_PORT = port && 2 ≤ s.linkMode l &&
          Nat.testBit (s.rd LNK_STAT_PORTS l) port then
        (match offset with
         | some o => s.timeOffset o
         | none => s)
      else s))) ∧
    (∀ (l lane : Nat) (s : State), exec (.linkLaneFail l lane) s = (
      let lanes := s.rd LNK_STAT_LANES l
      let left := if Nat.testBit lanes lane then lanes - 2 ^ lane else lanes
      let s1 := s.wr LNK_STAT_LANES l left
      .next (if s.rd LNK_STAT_STATE l ≠ lnkUp then s
      else if s.linkMode l = 1 then s1.retrainLink l
      else
        let ports := s.rd LNK_STAT_PORTS l &&& portsOf (s.linkMode l) left
        let s2 := s1.wr LNK_STAT_PORTS l ports
        if ports = 0 then s2.linkLost l lnkDown else s2))) ∧
    (∀ (l : Nat) (s : State), exec (.linkRetrainTimer l) s = (
      .next (if s.rd LNK_STAT_STATE l = lnkDown && (s.link l).retrains < s.rd LNK_CFG_RETRAIN_MAX l then
        (s.updLink l (fun x => { x with retrains := x.retrains + 1 })).retrainLink l
      else s))) ∧
    (∀ (l : Nat) (s : State), exec (.linkRetrain l) s = (
      .next (if s.rd LNK_STAT_STATE l = lnkDown then
        ((s.updLink l (fun x => { x with retrains := 0 })).wr LNK_CFG_RETRAIN l 0).retrainLink l
      else s))) ∧
    (∀ (l : Nat) (s : State), exec (.lnkErrClear l) s = .next (s.resetReg LNK_ERR l)) ∧
    (∀ (idx : Nat) (valid : Bool) (set : Nat) (s : State), exec (.routeWrite idx valid set) s = (
      let s1 := ((s.wr LNK_RT_ACC_IDX 0 idx).wr LNK_RT_ACC_VALID 0 (if valid then 1 else 0)).wr LNK_RT_ACC_SET 0 set
      let routes := if valid then SMap.put s1.fab.routes idx set else SMap.del s1.fab.routes idx
      .next { s1 with fab := { s1.fab with routes := routes } })) ∧
    (∀ (w : Nat) (s : State), exec (.windowCommit w) s = (
      let valid := s.flag LNK_WIN_IN_VALID w
      .next (if s.flag LNK_WIN_CTL_OLD_BUSY w || (valid && (!s.winLawful w || s.winOverlaps w)) then
        s.wr LNK_WIN_CTL_REJECTED w 1
      else
        let g := s.rd LNK_WIN_CTL_GEN w
        let busy := s.fab.recv.any (fun e => e.2.pend.any (fun x => x.win = w && x.gen = g))
        let wins := if valid then SMap.put s.fab.wins w { inw := s.reg LNK_WIN_IN w, tgt := s.reg LNK_WIN_TGT w }
          else SMap.del s.fab.wins w
        let s1 : State := { s with fab := { s.fab with wins := wins } }
        ((s1.wr LNK_WIN_CTL_GEN w ((g + 1) % 65536)).wr LNK_WIN_CTL_OPEN w (if valid then 1 else 0)).wr
          LNK_WIN_CTL_OLD_BUSY w (if busy then 1 else 0))))

/-- Host requests, completions, mastering and function-level reset take their effect: on every state and for every operand, each command of the group answers the next state that its rule gives. -/
def Obligations.HostEffects : Prop :=
    (∀ (bar tag off len : Nat) (s : State), exec (.hostMemRead bar tag off len) s = .next (s.hostArrive { kind := 0, bar := bar, tag := tag, off := off, len := len })) ∧
    (∀ (bar off : Nat) (data : List Byte) (ep : Bool) (s : State), exec (.hostMemWrite bar off data ep) s = .next (s.hostArrive { kind := 1, bar := bar, off := off, len := data.length, data := data, ep := ep })) ∧
    (∀ (tag off op size a b : Nat) (s : State), exec (.hostAtomicop tag off op size a b) s = (
      let r : HostIn := { kind := 2, tag := tag, off := off, len := size, op := op
                          data := if op = 2 then natLe 8 b ++ natLe 8 a else natLe 8 a ++ natLe 8 b }
      .next (if s.rve.inReset || !s.hep.linkUp then s
      else if (hostAop op).isNone || (size ≠ 4 && size ≠ 8) then s.hostRefuse r
      else s.hostArrive r))) ∧
    (∀ (tag status : Nat) (data : List Byte) (ep : Bool) (s : State), exec (.hostCompletion tag status data ep) s = (
      .next (match s.hep.outstanding.find? (fun r => r.tag = tag) with
      | none => s
      | some r =>
        let s1 := s.freeHostTag tag
        if r.dead then s1.inc HEP_BME_DISCARDED 0 1
        else if status ≠ 0 then s1.answer 0x180 r.req stHostUr
        else s1.answer 0x180 r.req (if ep then stHostPoison else stOk) ((data ++ zeros r.req.len).take r.req.len) ep))) ∧
    (∀ (tag : Nat) (s : State), exec (.hostCplTimeout tag) s = (
      .next (match s.hep.outstanding.find? (fun r => r.tag = tag) with
      | none => s
      | some r =>
        let s1 := s.freeHostTag tag
        if r.dead then s1 else s1.answer 0x180 r.req stHostCplTimeout))) ∧
    (∀ (d3 : Bool) (s : State), exec (.bmeClear d3) s = .next (s.bmeClear d3)) ∧
    (∀ (s : State), exec .bmeDrainTimeout s = .next (if s.mastering then s else s.hostDrop)) ∧
    (∀ (d0 : Bool) (s : State), exec (.bmeSet d0) s = .next (s.bmeSet d0)) ∧
    (∀ (vector : Nat) (s : State), exec (.msixPendingSend vector) s = (
      .next (if s.hep.pba.contains vector && s.msixOpen vector then
        (s.updHep (fun h => { h with pba := eraseNat h.pba vector })).hostSend (.msix vector)
      else s))) ∧
    (∀ (kind : Nat) (s : State), exec (.functionLevelReset kind) s = .next (s.functionReset kind)) ∧
    (∀ (s : State), exec .flrUnitWaitTimeout s = (
      .next (if !s.hep.flr then s
      else
        let us := (s.stw.items.filter (fun i => i.st = 2)).map (fun i => if i.opc = 0x06 then i.unit + i.prm 25 1 % 8 else i.unit)
        let s1 := us.foldl (fun t u => match t.physOf u with | some p => t.isolate p 4 | none => t) s
        (s1.failItems (fun _ => true) stFlrAbandon).resetEnd))) ∧
    (∀ (s : State), exec .ltrIdleTimer s = .next (if s.hep.ltrState = 0 && s.stw.items.isEmpty && !s.unfetched then s.ltrTo 1 else s)) ∧
    (∀ (w : Writer) (s : State), exec (.fatePop w) s = (
      .next (if !stwWriter w then s
      else match s.hep.log with
        | [] => s
        | r :: l =>
          let s1 := s.updHep (fun h => { h with log := l })
          if r.q < 1024 then s1.wr STW_CQPTR_RESERVED r.cq (s1.rd STW_CQPTR_RESERVED r.cq - 1) else s1))) ∧
    (∀ (w : Writer) (s : State), exec (.fateAck w) s = (
      .next (if !stwWriter w then s
      else (List.range 1024).foldl (fun t q => t.resetReg FATE_SUM q) ((s.resetReg FATE_LOST 0).wr FATE_LOG_STAT_LOST 0 0)))) ∧
    (∀ (w : Writer) (s : State), exec (.hepUnsupClear w) s = .next (if stwWriter w then s.resetReg HEP_UNSUP 0 else s))

/-- The Vestry mailbox commands and SPDM take their effect: on every state and for every operand, each command of the group answers the next state that its rule gives. -/
def Obligations.VestryEffects : Prop :=
    (∀ (w : Writer) (len : Nat) (s : State), exec (.lcTransition w len) s = (
      .next (s.vstCmd w 0x01 len [0, 1, 2] (fun t b =>
        let k := t.lcState
        if bufNat b 0 1 ≠ k + 1 || t.flag LCS_STAT_LOCKOUT then t.vstDone stLcDenied 0
        else if sha384 ((b.drop 32).take 32) ≠ Config.tokenDigest k then
          let n := min 16 (t.rd LCS_STAT_FAILS + 1)
          ((t.wr LCS_STAT_FAILS 0 n).wr LCS_STAT_LOCKOUT 0 (if n = 16 then 1 else 0)).vstDone stLcDenied 0
        else
          let t1 := (t.updOtp (fun o => { o with intent := o.intent ||| 2 ^ k })).ledgerAdd { kind := 2, anchored := true, arg := 0 }
          if k = 2 then t1.purge else (t1.lcFinish k).vstDone 0 0)))) ∧
    (∀ (w : Writer) (len : Nat) (s : State), exec (.debugCert w len) s = (
      .next (s.vstCmd w 0x02 len [0, 1, 2, 3] (fun t b =>
        if t.lcState ≠ 2 || !t.certOk b then t.vstDone stCertInvalid 0
        else if t.anchorFree ≤ t.tallySum then t.vstDone stTallyExhausted 0
        else
          let r := bufNat b 16 8
          let t1 := t.ledgerAdd { kind := 4, anchored := true, arg := r }
          if r = 0 then t1.vstDone 0 t1.rights
          else (t1.updVst (fun v => { v with rights := some r })).purge)))) ∧
    (∀ (w : Writer) (len : Nat) (s : State), exec (.epochRaise w len) s = (
      .next (s.vstCmd w 0x03 len [2] (fun t b =>
        let e := bufNat b 0 1
        let old := t.vst.otp.epoch
        if e ≤ old || bufNat b 8 8 ≠ Config.serial.toNat || 1 < bufNat b 16 1 || 1 < bufNat b 17 1 ||
            !t.signedBy (bufNat b 16 1) (bufNat b 17 1) (b.take 64) (b.drop 64) then t.vstDone stCertInvalid 0
        else if t.epochLeft < e - old then t.vstDone stTallyExhausted 0
        else (((List.range (e - old)).foldl (fun u _ => u.tallyUse 1) t).updOtp (fun o => { o with epoch := e })).vstDone 0 e)))) ∧
    (∀ (w : Writer) (len : Nat) (s : State), exec (.ownerSet w len) s = (
      .next (s.vstCmd w 0x04 len [2] (fun t b =>
        let alg := bufNat b 0 1
        let d := sha384 ((b.drop 16).take (keyLen alg))
        let sig := (b.drop (16 + keyLen alg)).take (sigLen alg)
        let signed := match t.owner with
          | none => true
          | some o => Config.ownerSigned alg o d sig || Config.dunaomSigned alg d sig
        if 1 < alg || !signed then t.vstDone stCertInvalid 0
        else if t.ownerLeft = 0 then t.vstDone stTallyExhausted 0
        else
          let n := t.vst.otp.owners.length
          ((t.tallyUse 2).updOtp (fun o => { o with owners := o.owners ++ [d] })).vstDone 0 n)))) ∧
    (∀ (w : Writer) (len : Nat) (s : State), exec (.siteAttest w len) s = (
      .next (s.vstCmd w 0x05 len [2] (fun t b =>
        let n := bufNat b 0 1
        if 8 ≤ n || !t.domExists (siteDom n) || !(t.domSt (siteDom n) = domOpen || (t.site n).step = 8) then t.vstDone 0 2
        else (t.updSite n (fun x => { x with attesting := true })).updVst (fun v => { v with mboxSite := some n }))))) ∧
    (∀ (w : Writer) (len : Nat) (s : State), exec (.ledgerCheckpoint w len) s = .next (s.vstCmd w 0x06 len [0, 1, 2] (fun t _ => t.checkpoint.vstDone 0 t.ledger.nextSeq))) ∧
    (∀ (w : Writer) (len : Nat) (s : State), exec (.purge w len) s = .next (s.vstCmd w 0x07 len [2] (fun t _ => t.purge))) ∧
    (∀ (s : State), exec .purgeEnd s = (
      .next (if !s.flag VST_STAT_PURGING || s.hbm.gran.any (fun b => b.2.st ≠ 0) then s
      else
        let s1 := (List.range 64).foldl (fun t k => if t.flag VST_TENANT_UNSEALING k then t.unseal k else t) s
        let s2 := s1.wr VST_STAT_PURGING 0 0
        let s3 := if Nat.testBit s2.vst.otp.intent 2 && !Nat.testBit s2.vst.otp.fin 2 then s2.lcFinish 2 else s2
        let s4 := match s3.vst.rights with
          | some r => s3.openRights r
          | none => s3
        if s4.rd VST_MBOX_CTL_STATE = 1 && [0x01, 0x02, 0x07].contains (s4.rd VST_MBOX_CTL_CMD) then
          s4.vstDone 0 (if s4.rd VST_MBOX_CTL_CMD = 0x02 then s4.rights else 0)
        else s4))) ∧
    (∀ (w : Writer) (len : Nat) (s : State), exec (.identity w len) s = (
      .next (s.vstCmd w 0x08 len [0, 1, 2, 3] (fun t _ =>
        let has := t.lcState = 2 && !t.vst.noId
        let d := if has then (Config.bindingDigest ++ zeros 48).take 48 ++ (List.range 3).flatMap (fun k => (Config.certDigest k ++ zeros 48).take 48)
          else t.freeBytes 192
        ((if has then t else t.fresh 192).putBuf (natLe 8 Config.serial.toNat ++ d)).vstDone 0 0)))) ∧
    (∀ (w : Writer) (s : State), exec (.vstMboxAck w) s = .next (if rveWriter w && s.rd VST_MBOX_CTL_STATE = 2 then s.wr VST_MBOX_CTL_STATE 0 0 else s)) ∧
    (∀ (via : Nat) (ask : SpdmAsk) (s : State), exec (.spdmRequest via ask) s = (
      let std := some (Config.spdm (spdmOp ask).1 (spdmOp ask).2)
      let ident (d : Option (List Byte)) : State := s.spdmAnswer via ask (if s.hasIdentity then d else none)
      let inSession (k : Nat) : State := s.spdmAnswer via ask (if s.vst.sessions.contains k then std else none)
      .next (if !s.flag VST_STAT_READY then s
      else match ask with
        | .getVersion => s.spdmAnswer via ask (some [0x12, 0x13])
        | .getCapabilities => s.spdmAnswer via ask std
        | .negotiateAlgorithms => s.spdmAnswer via ask std
        | .getDigests => ident (some ((List.range 3).flatMap Config.certDigest))
        | .getCertificate k => ident (if k ≤ 2 then std else none)
        | .challenge k => ident (if k ≤ 1 then std else none)
        | .getMeasurements k => ident (if 1 ≤ k && k ≤ 8 then some (s.measure k) else none)
        | .keyExchange =>
          (match s.freeSession with
           | some k => if s.hasIdentity then
                (s.updVst (fun v => { v with sessions := insertNat v.sessions k })).spdmAnswer via ask (some (natLe 2 k))
              else s.spdmAnswer via ask none
           | none => s.spdmAnswer via ask none)
        | .finish k => inSession k
        | .heartbeat k => inSession k
        | .keyUpdate k => inSession k
        | .endSession k => (inSession k).updVst (fun v => { v with sessions := eraseNat v.sessions k })
        | .other _ => s.spdmAnswer via ask none))) ∧
    (∀ (w : Writer) (value : Nat) (s : State), exec (.ledgerExport w value) s = (
      let v := value % 2 ^ 32
      let o := s.ledgerOldest
      .next (if !rveWriter w then s
      else if (v + 2 ^ 32 - o) % 2 ^ 32 ≤ (s.ledger.nextSeq + 2 ^ 32 - o) % 2 ^ 32 then s.wr LDG_PTR_EXPORTED 0 v else s)))

/-- The boot steps and saves take their effect: on every state and for every operand, each command of the group answers the next state that its rule gives. -/
def Obligations.BootEffects : Prop :=
    (∀ (w : Writer) (arg us : Nat) (rom sig : Bool) (s : State), exec (.bootVestry w arg us rom sig) s = (
      .next (s.bootRun w 1 arg us (fun t _ =>
        if !rom then t.bootFail 1 0x02 noAgent 0
        else
          let open_ := (List.range 3).filter (fun k => Nat.testBit t.vst.otp.intent k && !Nat.testBit t.vst.otp.fin k)
          let t1 := open_.foldl (fun u k => (u.lcFinish k).wr LCS_STAT_RESUMED 0 1) t
          if !sig then t1.bootFail 1 0x03 noAgent 0
          else
            let t2 := (t1.wr VST_STAT_READY 0 1).bootEnd 1 true
            if t2.flag VST_MBOX_CTL_GO then t2.vstGo else t2)))) ∧
    (∀ (w : Writer) (arg us : Nat) (good : Bool) (stks sites links : Nat) (bad : List Nat) (s : State), exec (.bootFuses w arg us good stks sites links bad) s = (
      .next (s.bootRun w 2 arg us (fun t _ =>
        if !good then t.bootFail 2 0x05 noAgent 0
        else
          let t1 := ((t.wr HUB_CONFIG_STACKS 0 stks).wr HUB_CONFIG_SITES 0 sites).wr HUB_CONFIG_LINKS 0 links
          let t2 := (bad.filter (fun p => (kindNo p).isSome)).foldl (fun u p => u.markFailed p 1 0) t1
          t2.showPopulated.bootEnd 2 true)))) ∧
    (∀ (w : Writer) (arg us corr : Nat) (bad : Option (Nat × Nat × Nat)) (s : State), exec (.bootCommons w arg us corr bad) s = (
      .next (s.bootRun w 3 arg us (fun t _ =>
        let t1 := t.inc COM_ERR_CORR 0 corr
        match bad with
        | some (row, col, port) => t1.bootFail 3 0x06 noAgent (row % 16 * 256 + col % 8 * 16 + port % 8)
        | none => t1.bootEnd 3 true)))) ∧
    (∀ (w : Writer) (arg us : Nat) (sig : Bool) (s : State), exec (.bootReeve w arg us sig) s = (
      .next (s.bootRun w 4 arg us (fun t _ =>
        if !sig then t.bootFail 4 0x03 noAgent 0
        else
          let v := pktField (t.flashBytes (bankBase (t.bankOf 4) 4) 128) 8 4
          (t.updRve (fun r => { r with up := true, version := v })).bootEnd 4 true)))) ∧
    (∀ (w : Writer) (arg us : Nat) (fails : List (Nat × Nat)) (homes : List Nat) (s : State), exec (.bootKat w arg us fails homes) s = (
      .next (s.bootRun w 5 arg us (fun t _ =>
        let good := ((List.range 5).flatMap kindUnits).filter (fun p => !t.roll.bad.contains p)
        let t1 := good.foldl (fun u p => u.setDom ((agentDom p).getD 0) domOpen) t
        let t2 := (fails.filter (fun f => good.contains f.1)).foldl (fun u f =>
          ((u.markFailed f.1 2 f.2).inc BOOT_STAT_UNIT_FAILS 0 1).setDom ((agentDom f.1).getD 0) domOff) t1
        let t3 := t2.zeroSram
        match homes.filter (· < 32) with
        | h :: _ => t3.bootFail 5 0x07 (0x070 + h) 0
        | [] => t3.bootEnd 5 true)))) ∧
    (∀ (w : Writer) (arg us : Nat) (s : State), exec (.bootRoll w arg us) s = (
      .next (s.bootRun w 6 arg us (fun t a =>
        let mode := if a % 4 = 3 then 0 else a % 4
        let map := (List.range 5).flatMap t.mapKind
        if mode = 0 && map.any (fun e => e.2 = noAgent) then t.bootFail 6 0x08 noAgent 0
        else
          let t1 : State := { t with roll := { t.roll with built := true, floorplan := decide (mode = 2), map := if mode = 2 then [] else map } }
          let t2 := (t1.wr ROLL_STAT_MODE 0 mode).wr ROLL_STAT_GEN 0 0
          let t3 := ((List.range 5).flatMap kindUnits).foldl State.physMark t2
          t3.rollCounts.bootEnd 6 true)))) ∧
    (∀ (w : Writer) (arg us : Nat) (ts : List StackTrain) (s : State), exec (.bootHbm w arg us ts) s = (
      .next (s.bootRun w 7 arg us (fun t a =>
        let pop := t.populated
        let first := pop.headD 0
        let t0 := (t.wr HUB_HBM_SIZE_TOTAL_GIB 0 0).wr HUB_HBM_SIZE_STACK_GIB 0 0
        let t1 := t0.stackDoms.foldl (fun u d => (u.powerOff d).setDom d domOff) t0
        let t2 : State := { t1 with hbm := { t1.hbm with homes := [] } }
        let gib := (trainOf ts first).gib
        if !([1, 2, 4, 8].contains pop.length) then t2.bootFail 7 0x09 noAgent 0
        else match pop.find? (fun m => !([16, 24, 32, 48, 64].contains (trainOf ts m).gib) || (trainOf ts m).gib ≠ gib) with
          | some m => t2.bootFail 7 0x0E (0x090 + m) 0
          | none =>
            let good := pop.filter (trainOk ts first)
            -- STACK_GIB shows the capacity as the first stack completes training (01_architecture.md R19)
            let t3 := (good.foldl (fun u m => u.trainStack (a % 2 = 1) (trainOf ts m)) t2).wr HUB_HBM_SIZE_STACK_GIB 0 (if good.isEmpty then 0 else gib)
            match pop.find? (fun m => !trainOk ts first m) with
            | some m => t3.bootFail 7 0x0A (0x090 + m) 0
            | none =>
              let t4 := (t3.zeroRange 0 0x8000000000).wr HUB_HBM_SIZE_TOTAL_GIB 0 (gib * pop.length)
              (pop.foldl (fun u m => u.setDom (0xAB + m) domOpen) t4).bootEnd 7 true)))) ∧
    (∀ (w : Writer) (arg us : Nat) (ts : List LinkTrain) (s : State), exec (.bootLinks w arg us ts) s = (
      .next (s.bootRun w 8 arg us (fun t a =>
        let t1 := t.wr HUB_NUMBER_LOCKED 0 1
        let ls := (List.range 48).filter (fun l => t1.domExists (0xBB + l) && t1.linkMode l ≠ 0 && t1.rd LNK_STAT_STATE l ≠ lnkUp)
        let t2 := ((List.range 48).filter (fun l => t1.domExists (0xBB + l))).foldl (fun u l => u.setDom (0xBB + l) domOpen) t1
        (ls.foldl (fun u l => u.bootLink (a % 2 = 1) ((ts.find? (fun x => x.l = l)).getD { l := l })) t2).bootEnd 8 true)))) ∧
    (∀ (w : Writer) (arg : Nat) (s : State), exec (.bootSites w arg) s = .next (s.bootCommand w 9 arg)) ∧
    (∀ (w : Writer) (arg : Nat) (s : State), exec (.bootCrier w arg) s = .next (s.bootCommand w 10 arg)) ∧
    (∀ (w : Writer) (arg us : Nat) (s : State), exec (.bootReady w arg us) s = (
      .next (s.bootRun w 11 arg us (fun t _ =>
        let n := t.notReady
        if n = 0 then ((t.bootEnd 11 true).wr BOOT_STAT_READY 0 1).stwTurn else t.bootFail 11 0x0D noAgent n)))) ∧
    (∀ (w : Writer) (step arg : Nat) (s : State), exec (.bootGoRefused w step arg) s = (
      .next (if bootWriter w && !s.bootAccepts (step % 16) then
        (if s.flag BOOT_CMD_GO then s else (s.wr BOOT_CMD_STEP 0 step).wr BOOT_CMD_ARG 0 arg).bootRefuse (step % 16) else s))) ∧
    (∀ (w : Writer) (s : State), exec (.bootSaveHbm w) s = (
      .next (if bootWriter w then
        ((List.range 8).foldl (fun t m => if t.rd HBM_STAT_STATE m = 3 then t.saveSet m else t) s).wr BOOT_SAVE_HBM 0 0
      else s))) ∧
    (∀ (w : Writer) (s : State), exec (.bootSaveLinks w) s = (
      .next (if bootWriter w then
        ((List.range 48).foldl (fun t l =>
          if t.rd LNK_STAT_STATE l = lnkUp && t.linkMode l = 1 then
            t.updRve (fun r => { r with linkSets := SMap.put r.linkSets l { mode := 1, peer := (t.link l).peer, version := 1 } })
          else t) s).wr BOOT_SAVE_LINKS 0 0
      else s)))

/-- Roll updates, the Crier, the event ring and failures in service take their effect: on every state and for every operand, each command of the group answers the next state that its rule gives. -/
def Obligations.RollAndCrierEffects : Prop :=
    (∀ (agent logical phys gen : Nat) (s : State), exec (.rollUpd agent logical phys gen) s = (
      let p := rollPkt agent logical phys gen
      .next (s.delivering p (fun t => (t.updSwap (fun w => { w with took := insertNat w.took agent })).send
        { opc := 0x31, dst := 0x1C1, src := agent, data := natLe 8 (s.agentState agent), note := 6 }) s))) ∧
    (∀ (agent : Nat) (p0 : Pkt) (s : State), exec (.crier agent p0) s = (
      let p := { p0 with opc := 0x34 }
      let read (t : State) : State := if p.poison then t else t.crierAt agent p.data
      .next (match s.nextCast agent with
      | some c => if c.1 = p then read (s.castTaken c agent)
                  else if goalOf p = agent && p.src = 0x1C1 then s.delivering p read s else s
      | none => if goalOf p = agent && p.src = 0x1C1 then s.delivering p read s else s))) ∧
    (∀ (p : Pkt) (s : State), exec (.crierReport p) s = (
      let q := { p with opc := 0x34 }
      .next (s.delivering q (fun t => if q.poison then t else (t.takeReport q).reeveTurn) s))) ∧
    (∀ (agent : Nat) (s : State), exec (.imageDigestDone agent) s = (
      .next (let x := s.rxOf agent
      match x.store with
      | some (g, d) =>
        if x.st = 1 then s
        else if sha384 d = g then
          let s1 := s.updRx agent (fun y => { y with st := 1 })
          if slotOfUnit agent = some 0 then s1.wr STW_STAT_FW_UP 0 (s1.rd STW_STAT_FW_UP ||| 2 ^ (agent - 0x191)) else s1
        else s.updRx agent (fun y => { y with st := 2, blocks := [], close := none })
      | none => s))) ∧
    (∀ (s : State), exec .evtRecordWrite s = (
      .next (if !s.rve.up || s.reeveAway then s
      else match s.evq with
        | [] => s
        | e :: l =>
          let s1 := ({ s with evq := l } : State).evtHandle e
          if fatalCode e.code then (s1.updRve (fun r => { r with fatal := some e.code })).fatalGo else s1))) ∧
    (∀ (w : Writer) (head : Nat) (s : State), exec (.evtRingHead w head) s = (
      let n := 2 ^ s.rd RVE_EVT_RING_LOG2N
      let h := s.rd RVE_EVT_PTR_HEAD
      let tail := s.rd RVE_EVT_PTR_TAIL
      .next (if !rveWriter w then s
      else if n ≤ head || (tail + n - h) % n < (head + n - h) % n then s.wr RVE_EVT_PTR_REJECTED 0 1
      else
        let s1 := s.wr RVE_EVT_PTR_HEAD 0 head
        if s1.rve.up && !s1.reeveAway then s1.evtDrain else s1))) ∧
    (∀ (agent : Nat) (s : State), exec (.hubFatalError agent) s = .next (if fatalUnit agent then s.raise 0x0071 4 agent else s)) ∧
    (∀ (s : State), exec .fatalResetTimer s = .next (if s.rve.fatal.isSome || s.evq.any (fun e => fatalCode e.code) then (s.updRve (fun r => { r with fatalDue := true })).fatalGo else s)) ∧
    (∀ (agent : Nat) (s : State), exec (.unitFailure agent) s = (
      .next (if s.rve.domReset.isSome && s.rve.domReset.map (·.1) = agentDom agent then s
      else (s.unitFail agent (if (s.iface agent).isolated then 5 else 4)).reeveTurn))) ∧
    (∀ (agent : Nat) (s : State), exec (.unitDrainTimeout agent) s = (
      .next (match agentDom agent with
      | some d => if s.roll.bad.contains agent && s.domSt d = domDraining && !s.domIso d then s.forceOff d else s
      | none => s))) ∧
    (∀ (s : State), exec .unitSwapped s = .next (s.unitSwapped.reeveTurn))

/-- Service commands, firmware updates, warm reset and doze take their effect: on every state and for every operand, each command of the group answers the next state that its rule gives. -/
def Obligations.ServiceEffects : Prop :=
    (∀ (w : Writer) (s : State), exec (.svcWarm w) s = .next (s.svc w 1 0 0 (fun t => t.bigReset 1 3 0))) ∧
    (∀ (w : Writer) (s : State), exec (.svcHubReset w) s = .next (s.svc w 2 0 0 (fun t => t.bigReset 2 3 0))) ∧
    (∀ (w : Writer) (dom : Nat) (force : Bool) (s : State), exec (.svcDomainReset w dom force) s = (
      .next (s.svc w 3 0x1FF (dom % 256 + argBit force) (fun t =>
        if t.rve.reset = 2 || t.hep.flr then t.svcEnd 0
        else if !t.domExists dom || !(dom ≤ 0x43 || (0xAB ≤ dom && dom ≤ 0xEA)) then t.svcRefuse 2
        else if !t.resetAllowed dom then t.svcRefuse 1
        else (t.updRve (fun r => { r with domReset := some (dom, force), domPhase := 0 })).reeveTurn)))) ∧
    (∀ (w : Writer) (s : State), exec (.svcDoze w) s = .next (s.svc w 4 0 0 (fun t => if t.mayDoze then t.dozeStart else t.svcRefuse 1))) ∧
    (∀ (w : Writer) (s : State), exec (.svcWake w) s = .next (s.svc w 5 0 0 (fun t => if t.rve.dozeStep = 0 then t.svcEnd 0 else t.wake.reeveTurn))) ∧
    (∀ (w : Writer) (unit : Nat) (s : State), exec (.svcUnitFail w unit) s = (
      .next (s.svc w 6 0xFF (unit % 256) (fun t =>
        let p := 0x200 + unit % 256
        if (kindNo p).isNone then t.svcRefuse 2
        else if t.roll.bad.contains p then t.svcRefuse 1
        else ((t.unitFail p 4).svcEnd 0).reeveTurn)))) ∧
    (∀ (w : Writer) (slot : Nat) (allowOld : Bool) (s : State), exec (.svcFwUpdate w slot allowOld) s = .next (s.svcFwUpdate w slot allowOld)) ∧
    (∀ (w : Writer) (target : Nat) (s : State), exec (.svcRecal w target) s = (
      .next (s.svc w 8 0xFF (target % 256) (fun t =>
        let k := target / 64 % 4
        let i := target % 64
        if k = 0 then
          if !(i < 8 && t.domExists (0xAB + i)) then t.svcRefuse 2
          else if t.rd HBM_STAT_STATE i ≠ 3 then t.svcRefuse 1
          else
            let t1 := t.updRve (fun r => { r with recal := insertNat r.recal i })
            if (t.stack i).recentring then t1
            else (t1.updStack i (fun x => { x with recentring := true })).raise 0x0014 0 (0x090 + i) target
        else if k = 1 then
          if !(i < 48 && t.domExists (0xBB + i)) then t.svcRefuse 2
          else if t.rd LNK_STAT_STATE i ≠ lnkUp || t.linkMode i ≠ 1 then t.svcRefuse 1
          else (t.raise 0x0014 0 (0x140 + i) target).svcEnd 0
        else if k = 2 then
          if !t.domExists (0xB3 + i / 8) then t.svcRefuse 2
          else if t.rd SITE_STAT_STATE (i / 8) ≠ 5 then t.svcRefuse 1
          else (t.raise 0x0014 0 (0x100 + i) target).svcEnd 0
        else t.svcRefuse 2)))) ∧
    (∀ (w : Writer) (op arg : Nat) (s : State), exec (.svcOpInvalid w op arg) s = .next (if op % 16 < 9 then s else s.svc w (op % 16) 0x1FF (arg % 512) (fun t => t.svcRefuse 2))) ∧
    (∀ (s : State), exec .fwUpdateWaitTimeout s = (
      .next (match s.rve.fw with
      | some f =>
        match f.cur with
        | some a => if f.closing || f.slot = 0 || f.slot = 4 then s.reeveTurn else (s.fwClose f a).reeveTurn
        | none => s
      | none => s))) ∧
    (∀ (agent : Nat) (s : State), exec (.fwReceiverVerified agent) s = (
      .next (match s.rve.fw with
      | some f =>
        if f.slot = 4 then
          (if agent = 0x1C1 && s.rve.away then (((s.updRve (fun r => { r with away := false })).fwNext 0).evtDrain.reeveTurn).oobTurn else s)
        else if f.cur = some agent && f.closing && s.rve.crier.isNone && (s.rxOf agent).st = 1 then
          (let s1 := match agentDom agent with
             | some d => if s.domSt d = domOpening then s.domainOpened d true else s
             | none => s
           if (agentDom agent).all (fun d => s1.domSt d = domOpen) then ((s1.fwNext 0).reeveTurn).stwTurn else s1)
        else s
      | none => s))) ∧
    (∀ (s : State), exec .warmReset s = .next (if s.rve.inReset then s else s.bigReset 1 2 0)) ∧
    (∀ (s : State), exec .dozeEntered s = (
      .next (if !(s.rve.dozeStep = 1 || s.rve.dozeStep = 4) then s
      else if dozeDoms.any (fun d => s.domState d = domOpen) then
        -- a domain that was still opening when doze began
        (let ds := dozeDoms.filter (fun d => s.domState d = domOpen)
         ds.foldl State.closeDom (s.updRve (fun r => { r with dozed := r.dozed ++ ds.filter (fun d => !r.dozed.contains d) })))
      else if !(s.rve.dozed.all (fun d => s.domSt d = domOff) && s.stackDoms.all (fun d => s.domSt d = domFenced || s.domSt d = domOff)) then s
      else
        let again : Bool := decide (s.rve.dozeStep = 4)
        let s0 := (List.range 8).foldl (fun t m =>
          if t.domSt (0xAB + m) = domFenced && t.rd HBM_STAT_STATE m = 3 then t.wr HBM_STAT_STATE m 5 else t) s
        let s1 := (((s0.updRve (fun r => { r with dozeStep := 2 })).setVcore).ltrTo 2).svcEnd 0
        if again then s1.wakeStart else s1))) ∧
    (∀ (s : State), exec .wakeComplete s = (
      .next (if s.rve.dozeStep ≠ 5 then s
      else
        let s1 : State := { s with stw := { s.stw with dozing := false }, rve := { s.rve with dozeStep := 0, dozed := [] } }
        (if s1.flag RVE_SVC_CMD_GO && s1.rd RVE_SVC_CMD_OP = 5 then s1.svcEnd 0 else s1).setVcore |>.stwTurn)))

/-- Power-up, cold reset, sensors, ceilings and pins take their effect: on every state and for every operand, each command of the group answers the next state that its rule gives. -/
def Obligations.PowerEffects : Prop :=
    (∀ (straps : Nat) (s : State), exec (.powerOn straps) s = .next ((s.coldReset 0 true).updRve (fun r => { r with straps := straps % 16 }))) ∧
    (∀ (rate : Nat) (s : State), exec (.coldReset rate) s = (
      let s1 := if s.rve.inReset then s else s.coldReset 1 true
      .next ((((s1.updRve (fun r => { r with inReset := false })).endpointRecord).updHep (fun h => { h with linkUp := true, rate := rate % 8 }))))) ∧
    (∀ (s : State), exec .powerFail s = .next (s.coldReset 0 true)) ∧
    (∀ (reads : List PmbRead) (s : State), exec (.powerEval reads) s = (
      .next (if !s.rve.up then s
      else
        let rs := reads.filter (fun r => s.flag PWR_PMB_ENABLE r.k)
        let w := (rs.map (fun r => r.mv * r.ma)).foldl (· + ·) 0 / 1000000
        let s1 := ((s.readPmb reads).wr PWR_STAT_POWER_W 0 w).wr PWR_ENERGY_UJ 0 ((s.rd PWR_ENERGY_UJ + 100 * w) % 2 ^ 64)
        match rs.find? (fun r => r.k = 0) with
        | none => (if s1.vcoreLost then s1 else s1.moveTarget).setVcore
        | some r =>
          let cap := s.effectiveCap
          let icc := min 720 (s.rd PWR_CFG_ICC_A)
          let s2 := s1.updPw (fun p => { p with
            iout := r.ma / 1000
            cap := if cap < w then p.cap - 10 else if 100 * w < 98 * cap then min vMax (p.cap + 5) else p.cap
            cur := if icc * 1000 < r.ma then p.cur - 10 else min vMax (p.cur + 5) })
          let s3 := s2.moveTarget.setVcore
          let held : Bool := decide (s3.rd PWR_STAT_LIMITER = 1 ∧ s3.rd PWR_STAT_VCORE_MV = vMin ∧ cap < w)
          let n := if held then s.rve.pw.capHeld + 1 else 0
          let s4 := s3.updPw (fun p => { p with capHeld := n })
          if n = 10 then s4.raise 0x0062 0 0x1C1 w else s4))) ∧
    (∀ (k temp : Nat) (ok : Bool) (s : State), exec (.thermalSensorRead k temp ok) s = (
      .next (if 32 ≤ k || !s.rve.up then s
      else
        let hot (t : Nat) : Bool := 1600 ≤ t && t < 32768
        let before := s.flag PWR_TEMP_VALID k && hot (s.rd PWR_TEMP_TEMP k)
        let s1 := (s.wr PWR_TEMP_TEMP k temp).wr PWR_TEMP_VALID k (if ok then 1 else 0)
        let s2 := if ok then s1.updPw (fun p => { p with faulty := eraseNat p.faulty k })
          else if s1.rve.pw.faulty.contains k then s1
          else (s1.updPw (fun p => { p with faulty := insertNat p.faulty k })).raise 0x0067 1 0x1C1 k
        let s3 := s2.wr PWR_STAT_TJ_C 0 (s2.hottest.2 / 16)
        match s3.rve.evtTo with
        | some dest =>
          if ok && before ≠ hot (temp % 65536) then
            s3.oobPut { dest := dest, code := 0, data := [0] ++ natLe 1 k ++ natLe 2 temp }
          else s3
        | none => s3))) ∧
    (∀ (rise : Bool) (s : State), exec (.thermalCeilingTick rise) s = (
      let t := s.hottest.2
      .next (if !s.rve.up then s
      else if rise then (if t ≤ 1552 then (s.updPw (fun p => { p with therm := min vMax (p.therm + 10) })).setVcore else s)
      else if 1600 ≤ t then (s.updPw (fun p => { p with therm := p.therm - 10 })).setVcore
      else s))) ∧
    (∀ (s : State), exec .stageMissTimer s = (
      let t := max 105000 (min 190000 (s.rd PWR_CFG_STAGE_FS))
      .next (if s.rve.up && s.flag HUB_STAGE_VALID && t < s.rd HUB_STAGE_STAGE_FS && s.rd PWR_STAT_LIMITER ≠ 0 then
        s.raise 0x0060 0 0x1C1 (s.rd HUB_STAGE_STAGE_FS) (s.rd PWR_STAT_LIMITER)
      else s))) ∧
    (∀ (pin : Nat) (low : Bool) (s : State), exec (.pinThrottle pin low) s = (
      let old := if pin = 0 then s.rve.pw.vrHot else s.rve.pw.throttle
      .next (if 2 ≤ pin || old = low then s
      else
        let v : Nat := if low then 1 else 0
        let s1 := if pin = 0 then (s.updPw (fun p => { p with vrHot := low })).wr PWR_STAT_VR_HOT 0 v
          else (s.updPw (fun p => { p with throttle := low })).wr PWR_STAT_THROTTLE 0 v
        if s.rve.up then (s1.setVcore).raise 0x0065 0 0x1C1 pin (1 - v) else s1))) ∧
    (∀ (sensor : Nat) (s : State), exec (.thermalTrip sensor) s = (
      .next (if s.rve.pw.trip then s
      else
        let s1 := s.updPw (fun p => { p with trip := true })
        let s2 := (List.range 8).foldl (fun t n => if (t.site n).pwren then t.updSite n (fun x => { x with pwren := false }) else t) s1
        let s3 := (List.range 48).foldl (fun t l =>
          if t.rd LNK_STAT_STATE l = lnkUp || t.rd LNK_STAT_STATE l = lnkTraining then t.setLink l lnkDown else t) s2
        (if s3.hep.linkUp then s3.functionReset 2 else s3).raise 0x0066 4 0x1C1 sensor)))

/-- The management bus, flash and PPS take their effect: on every state and for every operand, each command of the group answers the next state that its rule gives. -/
def Obligations.ManagementEffects : Prop :=
    (∀ (via typ : Nat) (data : List Byte) (s : State), exec (.mctpMessage via typ data) s = (
      .next (if 4096 < data.length then s else match typ with
      | 0x00 => s.oobAsk via (.control (pktField data 1 1) (pktField data 3 1))
      | 0x7E =>
        if pktField data 0 2 ≠ 0xA5D0 then s
        else match vendorAsk data with
          | some a => s.oobAsk via a
          | none => if s.rve.up && !s.reeveAway then s.oobSay via oobInvalid ((data.drop 2).take 2) else s
      | _ =>
        if typ ≠ 0x05 && typ ≠ 0x06 then s
        else if !s.rve.up || s.reeveAway then s
        else if s.rve.mctp.contains via || s.rve.waiting.any (fun e => e.1 = via) then s.oobSay via oobBusy
        else s.updRve (fun r => { r with mctp := r.mctp ++ [via] })))) ∧
    (∀ (code arg : Nat) (s : State), exec (.i3cCcc code arg) s = (
      .next (if s.rve.inReset || s.rve.straps % 2 = 0 then s
      else match code with
        | 0x00 | 0x80 => if arg % 2 = 1 then s.updRve (fun r => { r with ibi := true }) else s
        | 0x01 | 0x81 => if arg % 2 = 1 then s.updRve (fun r => { r with ibi := false }) else s
        | 0x06 => s.wr RVE_OOB_DYN_ADDR 0 0
        | 0x07 | 0x87 => if s.rd RVE_OOB_DYN_ADDR = 0 then s.wr RVE_OOB_DYN_ADDR 0 arg else s
        | 0x09 | 0x89 => s.updRve (fun r => { r with mwl := arg % 65536 })
        | 0x8B => s.cccSay (natLe 1 (s.rve.mwl / 256) ++ natLe 1 s.rve.mwl)
        | 0x8D | 0x8E | 0x8F | 0x90 => s.cccSay (Config.i3c code)
        | _ => s))) ∧
    (∀ (via : Nat) (ask : PldmAsk) (s : State), exec (.pldmRequest via ask) s = .next (s.oobAsk via (.pldm ask))) ∧
    (∀ (via : Nat) (s : State), exec (.pldmRequestUpdate via) s = .next (s.oobAsk via .requestUpdate)) ∧
    (∀ (via slot : Nat) (image : List Byte) (fault : Option Nat) (s : State), exec (.pldmApplyComplete via slot image fault) s = .next (s.oobAsk via (.applyComplete slot image fault))) ∧
    (∀ (via slot : Nat) (s : State), exec (.pldmActivateFirmware via slot) s = .next (s.oobAsk via (.activate slot))) ∧
    (∀ (via index : Nat) (s : State), exec (.getEvents via index) s = .next (s.oobAsk via (.vendor 1 0 (.getEvents index)))) ∧
    (∀ (via kind : Nat) (s : State), exec (.oobReset via kind) s = .next (s.oobAsk via (.vendor 2 0 (.reset kind)))) ∧
    (∀ (via : Nat) (s : State), exec (.oobWake via) s = .next (s.oobAsk via (.vendor 3 0 .wake))) ∧
    (∀ (via off count : Nat) (s : State), exec (.readReg via off count) s = .next (s.oobAsk via (.vendor 4 0 (.readReg off count)))) ∧
    (∀ (via off : Nat) (value : Word) (s : State), exec (.writeReg via off value) s = .next (s.oobAsk via (.vendor 5 0 (.writeReg off value)))) ∧
    (∀ (via : Nat) (s : State), exec (.getBoot via) s = .next (s.oobAsk via (.vendor 6 0 .getBoot))) ∧
    (∀ (s : State), exec .oobLogFlush s = (
      .next (if !s.rve.up || s.reeveAway then s
      else s.updRve (fun r => { r with log := r.log.map (fun x => { x with saved := true }) })))) ∧
    (∀ (w : Writer) (slot len : Nat) (fault : Option Nat) (s : State), exec (.flashStage w slot len fault) s = (
      .next (if s.flag RVE_FLASH_CMD_GO && s.rd RVE_FLASH_CMD_OP = 1 then s.stageRun fault
      else s.flashGo w 1 slot len (fun t => t.stageRun fault)))) ∧
    (∀ (w : Writer) (slot : Nat) (s : State), exec (.flashActivate w slot) s = (
      .next (s.flashGo w 2 slot (s.rd RVE_FLASH_CMD_LEN) (fun t =>
        let (st, t1) := t.activate (slot % 8)
        t1.flashEnd st)))) ∧
    (∀ (w : Writer) (op slot : Nat) (s : State), exec (.flashOpInvalid w op slot) s = (
      let bad : Bool := decide (op % 4 = 3 ∨ 6 ≤ slot % 8)
      .next (if (op % 4 = 1 || op % 4 = 2) && !bad then s
      else s.flashGo w (op % 4) slot (s.rd RVE_FLASH_CMD_LEN) (fun t => t.flashEnd (if bad then 2 else 0))))) ∧
    (∀ (s : State), exec .ppsPulse s = .next (if s.rve.inReset then s else s.updRve (fun r => { r with pps := r.pps + 1 })))

/-- Configuration requests, load windows, attestation answers, training ends, debug access and markers take their effect: on every state and for every operand, each command of the group answers the next state that its rule gives. -/
def Obligations.LateRowEffects : Prop :=
    (∀ (tag : Nat) (write : Bool) (off be value : Nat) (s : State), exec (.hostConfigRequest tag write off be value) s = (
      let o := off / 4 * 4
      .next (if s.rve.inReset then s
      else if s.hep.flr then s.hostSend (.completion tag 2 [])
      else
        let s1 := s.updHep (fun h => { h with linkUp := true })
        if write then (s1.cfgWrite o (beMerge (if o = 0x104 then 0 else s1.cfgRead o) value be)).hostSend (.completion tag 0 [])
        else s1.hostSend (.completion tag 0 (natLe 4 (s1.cfgRead o)))))) ∧
    (∀ (m share : Nat) (s : State), exec (.loadClassWindowEnd m share) s = .next (if s.rd HBM_STAT_STATE m = 3 then (s.wr HBM_TRAIN_LD_NOW m (loadClass share)).checkEnv m else s)) ∧
    (∀ (n result : Nat) (meas : List (Nat × List Byte)) (s : State), exec (.siteSpdmResponse n result meas) s = (
      .next (if !(s.site n).attesting then s
      else
        let m : SMap (List Byte) := meas.foldl (fun a e => SMap.put a e.1 e.2) []
        let old := (s.site n).meas
        let s1 := (s.wr SITE_ATT_RESULT n result).updSite n (fun x => { x with
          attesting := false, meas := if result = 1 then m else x.meas, step := if x.step = 8 then 9 else x.step })
        let s2 := if result = 1 then s1.inc SITE_ATT_COUNT n 1 else s1
        let s3 := if result ≠ 1 || (!old.isEmpty && old ≠ m) then s2.clearRights n else s2
        let s4 := if result = 1 then s3.giveRights n else s3
        if s4.vst.mboxSite = some n then (s4.updVst (fun v => { v with mboxSite := none })).vstDone 0 result else s4))) ∧
    (∀ (s : State), exec .ledgerRecordInFlash s = (
      .next (match s.ledger.sram with
      | [] => s
      | r :: l =>
        if r.kind = 5 && r.bell / 1000000000 = s.time / 1000000000 then s
        else
          let prev := match s.ledger.flash.getLast? with
            | some x => (sha384 x.bytes).take 32
            | none => s.freeBytes 32
          let x := if r.kind = 8 then r else { r with prev := prev }
          let s1 := if s.ledger.flash.isEmpty then s.fresh 32 else s
          { s1 with ledger := { s1.ledger with
              sram := l
              flash := (s1.ledger.flash ++ [x]).drop (s1.ledger.flash.length + 1 - ledgerRoom)
              anchors := s1.ledger.anchors ++ (if x.anchored && s1.ledger.anchors.length < 512 then [(x.seq % 2 ^ 32, (sha384 x.bytes).take 12)] else []) } }))) ∧
    (∀ (l : Nat) (ok : Bool) (lanes : Nat) (s : State), exec (.linkTrainingEnd l ok lanes) s = .next (if s.rd LNK_STAT_STATE l = lnkTraining then s.trainEnd l ok lanes lnkDown else s)) ∧
    (∀ (s : State), exec .coldResetAssert s = .next (if s.rve.inReset then s else s.coldReset 1 true)) ∧
    (∀ (ask : JtagAsk) (s : State), exec (.jtagDebugAccess ask) s = .next (s.jtag ask)) ∧
    (∀ (l : Nat) (gained : Bool) (s : State), exec (.markerLock l gained) s = .next (s.updLink l (fun x => { x with locked := gained })))

/-! ### Operations, rules and invariants -/

/-- A step takes the command at the front of the queue and performs it on the state with the queue's rest. -/
def Obligations.StepTakesFrontCommand : Prop :=
  ∀ (c : Instr) (rest : List Instr) (s : State), s.pending = c :: rest → step s = exec c { s with pending := rest }

/-- On an empty queue a nanosecond of bell time passes, in which every vector unit performs the oldest entry of its queue and the links go on: the
model's own choice (log entries 2 and 22). Where no vector unit, link or pair of hubs has anything waiting, only bell time changes. -/
def Obligations.EmptyQueueIdles : Prop :=
  ∀ s : State, s.pending = [] → step s = .next s.tick ∧
    ((∀ e ∈ s.tiles, e.2.vq = []) → (∀ e ∈ s.fab.links, e.2.txq = []) → s.fab.recv = [] → s.tick = { s with time := s.time + 1 })

/-- The state after reset is sound, and no command waits in it. -/
def Obligations.ResetIsSound : Prop := Safety.Sound State.reset ∧ State.reset.pending = []

/-- What reset leaves: every register at the reset value of its fields, every domain OFF, every interface empty and not isolated, no
packet on the Commons and the Roll not built; memory reads 0, which is the model's choice for bytes that nothing has written (log entry 3). -/
def Obligations.ResetState : Prop :=
  (∀ (r : RegDef) (i : Nat), State.reset.reg r i = r.resetAt i) ∧ (∀ d, State.reset.domSt d = domOff) ∧
  (∀ p, State.reset.iface p = {}) ∧ State.reset.com.out = [] ∧ State.reset.roll.built = false ∧ State.reset.evq = [] ∧
  (∀ a, State.reset.byte a = 0)

/-- Every step keeps a sound state: memory and the register file in canonical form, the poisoned lines in rising order, and every Stile
domain in a state that COM_DOMAIN names. -/
def Obligations.EveryStepKeepsSound : Prop :=
  ∀ s t : State, Safety.Sound s → step s = .next t → Safety.Sound t

/-- No command stops the hub, from any state: each answers a next state, leaves the rest of the queue as it was, and never sets bell
time back. -/
def Obligations.EveryCommandRuns : Prop :=
  ∀ (c : Instr) (s : State), ∃ t, exec c s = .next t ∧ t.pending = s.pending ∧ s.time ≤ t.time

/-- A field that is written reads back, cut to its width; fields of the same register that share no bit with it, every other register,
and everything outside the register file stay. -/
def Obligations.FieldsReadBack : Prop :=
  (∀ (s : State) (f : RF) (i x : Nat), f.lo ≤ f.hi → f.hi ≤ 63 → (s.wr f i x).rd f i = x % 2 ^ (f.hi - f.lo + 1)) ∧
  (∀ (s : State) (f g : RF) (i x : Nat), f.lo ≤ f.hi → f.hi ≤ 63 → g.lo ≤ g.hi → g.reg = f.reg → (g.hi < f.lo ∨ f.hi < g.lo) →
    (s.wr f i x).rd g i = s.rd g i) ∧
  (∀ (s : State) (f : RF) (r : RegDef) (i j x : Nat), r.off j ≠ f.reg.off i → (s.wr f i x).reg r j = s.reg r j) ∧
  (∀ (s : State) (f : RF) (i x : Nat), s.wr f i x = { s with regs := (s.wr f i x).regs })

/-- Bytes that are written read back in their places; every other byte, and everything but memory, stays. -/
def Obligations.BytesReadBack : Prop :=
  (∀ (s : State) (a : Nat) (l : List Byte) (b : Nat),
    (s.setBytes a l).byte b = if a ≤ b ∧ b < a + l.length then l.getD (b - a) 0 else s.byte b) ∧
  (∀ (s : State) (a : Nat) (l : List Byte), s.setBytes a l = { s with mem := (s.setBytes a l).mem })

/-- A number of `k` bytes lies in memory with bits 7:0 at the lowest address, and is read back whole. -/
def Obligations.NumbersAreLittleEndian : Prop :=
  (∀ k n : Nat, leNat (natLe k n) = n % 256 ^ k) ∧
  (∀ k n j : Nat, j < k → (natLe k n)[j]? = some (BitVec.ofNat 8 (n / 256 ^ j))) ∧
  (∀ (s : State) (a k n : Nat), leNat ((s.setBytes a (natLe k n)).bytes a k) = n % 256 ^ k) ∧
  (∀ (s : State) (a k n : Nat), 0 < k → (s.setBytes a (natLe k n)).byte a = BitVec.ofNat 8 n)

/-- Storing a register write reaches only fields of access RW and W1C: an RW bit takes the value written where the access covers it, a
W1C bit clears where a 1 is written, and every other bit, the reserved ones among them, ignores the write. -/
def Obligations.StoresReachOnlyWritableFields : Prop :=
  ∀ (s : State) (r : RegDef) (c : RegWr) (k : Nat), k < 64 →
    let old := s.reg r c.i
    let new := (s.store r c).reg r c.i
    let rw := (r.bitsWith .rw).getLsbD k
    let w1c := (r.bitsWith .w1c).getLsbD k
    (rw = false → w1c = false → new.getLsbD k = old.getLsbD k) ∧
    (c.m.getLsbD k = false → new.getLsbD k = old.getLsbD k) ∧
    (rw = true → w1c = false → c.m.getLsbD k = true → new.getLsbD k = c.v.getLsbD k) ∧
    (rw = false → w1c = true → c.m.getLsbD k = true → new.getLsbD k = (old.getLsbD k && !c.v.getLsbD k))

/-- The pseudo-channel hash is one-to-one on lines: with 2^n stacks, the rank, pseudo-channel and LINE of an HPA determine its 128-byte
line; they stay in their ranges; and every aligned window of 2^(6+n) granules places exactly one granule on each pseudo-channel. -/
def Obligations.HbmMapIsOneToOne : Prop :=
  ∀ n : Nat, n ≤ 3 →
    (∀ a b : Nat, a < 2 ^ (36 + n) → b < 2 ^ (36 + n) → hbmLoc n a = hbmLoc n b → a / 128 = b / 128) ∧
    (∀ a : Nat, a < 2 ^ (36 + n) → (hbmLoc n a).rank < 2 ^ n ∧ (hbmLoc n a).pc < 64 ∧ (hbmLoc n a).line < 2 ^ 27) ∧
    (∀ w c : Nat, c < 2 ^ (6 + n) → ∃ g, g / 2 ^ (6 + n) = w ∧ (hbmLoc n (g * 256)).rank * 64 + (hbmLoc n (g * 256)).pc = c ∧
      ∀ g', g' / 2 ^ (6 + n) = w → (hbmLoc n (g' * 256)).rank * 64 + (hbmLoc n (g' * 256)).pc = c → g' = g)

/-- A well-formed atomic on bytes that are not poisoned returns the old value, writes the new value of its operation to its own 4 or 8
bytes, and changes nothing else; one on poisoned bytes writes nothing; a bank answers one that is not well formed with UNSUPPORTED. -/
def Obligations.AtomicsActOnTheirBytes : Prop :=
  (∀ (s : State) (a : Nat) (p : Pkt), atomOk p = true → s.poisoned a (atomSize p) = false →
    ∃ v, atomNew (atomOp p) (8 * atomSize p) (leNat (s.bytes a (atomSize p))) (atomA p) (atomB p) = some v ∧
      (s.atomAt a p).1 = leNat (s.bytes a (atomSize p)) ∧ (s.atomAt a p).2.1 = false ∧
      leNat ((s.atomAt a p).2.2.bytes a (atomSize p)) = v % 256 ^ atomSize p ∧
      (∀ b, ¬(a ≤ b ∧ b < a + atomSize p) → (s.atomAt a p).2.2.byte b = s.byte b) ∧
      (s.atomAt a p).2.2 = { s with mem := (s.atomAt a p).2.2.mem }) ∧
  (∀ (s : State) (a : Nat) (p : Pkt), s.poisoned a (atomSize p) = true → (s.atomAt a p).2 = (true, s)) ∧
  (∀ (s : State) (d a : Nat) (p : Pkt), kindOf d = .bank → p.opc = 0x08 → atomOk p = false →
    s.memAccess d p a = s.answer d p stUnsupported)

/-- The new value of each atomic operation on operands of `w` bits: SWAP, ADD modulo 2^w, AND, OR, XOR, the signed and unsigned minimum
and maximum, and CAS. -/
def Obligations.AtomicOperations : Prop :=
  ∀ (w : Nat) (old a b : BitVec w), 0 < w →
    atomNew 0x0 w old.toNat a.toNat b.toNat = some a.toNat ∧
    atomNew 0x1 w old.toNat a.toNat b.toNat = some (old + a).toNat ∧
    atomNew 0x2 w old.toNat a.toNat b.toNat = some (old &&& a).toNat ∧
    atomNew 0x3 w old.toNat a.toNat b.toNat = some (old ||| a).toNat ∧
    atomNew 0x4 w old.toNat a.toNat b.toNat = some (old ^^^ a).toNat ∧
    atomNew 0x5 w old.toNat a.toNat b.toNat = some (if a.slt old then a else old).toNat ∧
    atomNew 0x6 w old.toNat a.toNat b.toNat = some (if old.slt a then a else old).toNat ∧
    atomNew 0x7 w old.toNat a.toNat b.toNat = some (if a.ult old then a else old).toNat ∧
    atomNew 0x8 w old.toNat a.toNat b.toNat = some (if old.ult a then a else old).toNat ∧
    atomNew 0x9 w old.toNat a.toNat b.toNat = some (if old = b then a else old).toNat

/-- What a router input does with a flit of a packet that travels, on the path that its source and destination fix: a good one enters the input buffer as
the routing and arbitration rules let it; a corrected one does the same and is counted; a payload error poisons the packet, which goes on, and is counted;
a header error drops the packet, counts it, records router and port, and raises a fatal Commons event. Domains, memory and all interfaces stay. A flit of
a response that does not travel is only counted. -/
def Obligations.FlitChecksAct : Prop :=
  (∀ (row col port : Nat) (p : Pkt) (s : State), p ∈ s.com.out → (col, row, port) ∈ pathOf p.src (goalOf p) →
    exec (.flitReceive .good row col port p) s = .next (s.hop p col row port) ∧
    exec (.flitReceive .single row col port p) s = .next ((s.hop p col row port).inc COM_ERR_CORR 0 1) ∧
    (∃ t, exec (.flitReceive .payloadDouble row col port p) s = .next t ∧
      t.com.out = s.com.out.map (fun q => if q = p then { q with poison := true } else q) ∧
      t.rd COM_ERR_PAY_UE 0 = satAdd (s.rd COM_ERR_PAY_UE 0) 1 COM_ERR_PAY_UE.top ∧
      t.com.ifaces = s.com.ifaces ∧ t.com.dom = s.com.dom ∧ t.mem = s.mem ∧ t.evq = s.evq) ∧
    (∃ t, exec (.flitReceive .headerDouble row col port p) s = .next t ∧
      t.com.out = s.com.out.erase p ∧
      t.rd COM_ERR_HDR_UE 0 = satAdd (s.rd COM_ERR_HDR_UE 0) 1 COM_ERR_HDR_UE.top ∧ t.rd COM_ERR_HDR_FLAG 0 = 1 ∧
      t.rd COM_ERR_LAST_ROW 0 = row % 16 ∧ t.rd COM_ERR_LAST_COL 0 = col % 8 ∧ t.rd COM_ERR_LAST_PORT 0 = port % 8 ∧
      (∃ e, t.evq = s.evq ++ [e] ∧ e.code = 0x0001 ∧ e.sev = 4) ∧
      t.com.ifaces = s.com.ifaces ∧ t.com.dom = s.com.dom ∧ t.mem = s.mem)) ∧
  (∀ (row col port : Nat) (p : Pkt) (s : State), s.com.out = [] → s.com.casts = [] → 0x16 ≤ p.opc →
    exec (.flitReceive .good row col port p) s = .next s ∧
    exec (.flitReceive .single row col port p) s = .next (s.inc COM_ERR_CORR 0 1) ∧
    exec (.flitReceive .payloadDouble row col port p) s = .next ((s.inc COM_ERR_PAY_UE 0 1).lastError row col port) ∧
    (∃ t, exec (.flitReceive .headerDouble row col port p) s = .next t ∧ t.com = s.com ∧ t.rd COM_ERR_HDR_FLAG 0 = 1))

/-- Isolation of an agent: every entry of its inbound table and every request that its interface holds back is answered TARGET_DEAD, a posted write with
WFAIL and an EVICT_CLEAN held back with nothing; every unanswered snoop gets a miss that carries TARGET_DEAD; all three empty, and ISOLATED is raised with
the agent and the trigger; other agents, registers and memory stay. -/
def Obligations.IsolationAnswersEverything : Prop :=
  ∀ (s : State) (a trigger kind : Nat), (s.iface a).isolated = false →
    let t := s.isolateOne a trigger kind
    (t.iface a).isolated = true ∧ (t.iface a).inbound = [] ∧ (t.iface a).blocked = [] ∧ (t.iface a).snoops = [] ∧
    t.com.out = s.com.out ++ (s.iface a).inbound.map (fun p => mkAnswer p a stTargetDead [] false) ++
      ((s.iface a).blocked.filter (fun p => p.opc ≠ 0x14)).map (fun p => mkAnswer p a stTargetDead [] false) ++
      (s.iface a).snoops.map (fun q => { opc := 0x2D, dst := q.src, src := a, addr := q.addr, status := stTargetDead }) ∧
    t.evq = s.evq ++ [{ code := 0x0004, sev := 3, agent := (s.logicalOf a).getD a, arg0 := trigger, arg1 := kind, time := s.time }] ∧
    (∀ b, b ≠ a → t.iface b = s.iface b) ∧ t.com.dom = s.com.dom ∧ t.regs = s.regs ∧ t.mem = s.mem

/-- The interface of an agent whose domain is not OPEN, or that is isolated, answers a request itself, with DOMAIN_DOWN or TARGET_DEAD,
and hands nothing to the agent; an EVICT_CLEAN, which has no answer, is dropped. -/
def Obligations.ClosedInterfaceAnswers : Prop :=
  ∀ (s : State) (d : Nat) (p : Pkt), s.agentState d ≠ domOpen →
    s.arrive d p = if p.opc = 0x14 then s else s.send (mkAnswer p d (if s.agentState d = 5 then stTargetDead else stDomainDown) [] false)

/-- ISOLATE refuses the Vestry and the Reeve; RELEASE frees an agent of a domain only while the domain is OFF, leaves the domain OFF, and
is refused for an agent of no domain. -/
def Obligations.ReleaseNeedsPowerOff : Prop :=
  (∀ (a : Nat) (s : State), a = 0x1C0 ∨ a = 0x1C1 → ∃ t, exec (.isoIsolate a) s = .next t ∧ t.rd COM_ISO_CMD_REJECTED 0 = 1 ∧ t.com = s.com) ∧
  (∀ (agent a d : Nat) (s : State), s.physOf agent = some a → agentDom a = some d → s.domSt d ≠ domOff →
    ∃ t, exec (.isoRelease agent) s = .next t ∧ t.rd COM_ISO_CMD_REJECTED 0 = 1 ∧ t.com = s.com) ∧
  (∀ (agent a : Nat) (s : State), s.physOf agent = some a → agentDom a = none →
    ∃ t, exec (.isoRelease agent) s = .next t ∧ t.rd COM_ISO_CMD_REJECTED 0 = 1 ∧ t.com = s.com) ∧
  (∀ (agent a d : Nat) (s : State), s.physOf agent = some a → agentDom a = some d → s.domSt d = domOff →
    ∃ t, exec (.isoRelease agent) s = .next t ∧ (t.iface a).isolated = false ∧ t.domSt d = domOff ∧ t.com.dom = s.com.dom ∧ t.mem = s.mem)

/-- While COM_STILE_CMD.GO is 1, a write of the register from any writer, and each command that such a write gives, changes no field of it
and sets REJECTED. -/
def Obligations.StileRejectsWhileBusy : Prop :=
  ∀ s : State, s.flag COM_STILE_CMD_GO = true →
    (∀ d : Nat, exec (.stileClose d) s = .next (s.wr COM_STILE_CMD_REJECTED 0 1) ∧
      exec (.stileOpen d) s = .next (s.wr COM_STILE_CMD_REJECTED 0 1) ∧
      exec (.stileForceOff d) s = .next (s.wr COM_STILE_CMD_REJECTED 0 1)) ∧
    (∀ (w : Writer) (v : Nat), (s.regWrite w 0x1C00100 8 v).2 = s.wr COM_STILE_CMD_REJECTED 0 1 ∧
      (s.regWrite w 0x1C00100 4 v).2 = s.wr COM_STILE_CMD_REJECTED 0 1 ∧ (s.regWrite w 0x1C00104 4 v).2 = s.wr COM_STILE_CMD_REJECTED 0 1) ∧
    (s.wr COM_STILE_CMD_REJECTED 0 1).rd COM_STILE_CMD_REJECTED 0 = 1 ∧
    (∀ f ∈ [COM_STILE_CMD_DOMAIN, COM_STILE_CMD_OP, COM_STILE_CMD_GO], (s.wr COM_STILE_CMD_REJECTED 0 1).rd f 0 = s.rd f 0)

/-- A register read changes no tile, no register but the counts of refusals and of dropped Ledger records, no byte of memory, no interface and no item. -/
def Obligations.RegisterReadsChangeNothing : Prop :=
  ∀ (s : State) (off size : Nat),
    let t := (s.regRead off size).2.2
    t.tiles = s.tiles ∧ t.mem = s.mem ∧ t.com = s.com ∧ t.stw = s.stw ∧ t.hep = s.hep ∧ t.sites = s.sites ∧ t.fab = s.fab ∧
    (∀ (r : RegDef) (i : Nat), r.off i ≠ VST_STAT.off 0 → r.off i ≠ LDG_STAT.off 0 → t.reg r i = s.reg r i)

/-- The oldest record of the fate log shows in FATE_LOG_HDR and FATE_LOG_ENT, reading it changes nothing, and POP by one who may write the
FATE_ registers removes it, HELD or not, and releases its reserved completion slot; nothing is written to a ring. -/
def Obligations.PoppedRecordLeaves : Prop :=
  ∀ (s : State) (r : FateRec) (l : List FateRec), s.hep.log = r :: l →
    (∃ v, s.regRead 0x1D80008 8 = (v, true, s) ∧ v = (s.fateHdr (s.reg FATE_LOG_HDR 0)).toNat ∧
      bitsOf (s.fateHdr (s.reg FATE_LOG_HDR 0)) 63 32 = r.fseq % 2 ^ 32 ∧ bitsOf (s.fateHdr (s.reg FATE_LOG_HDR 0)) 31 31 = 1 ∧
      bitsOf (s.fateHdr (s.reg FATE_LOG_HDR 0)) 30 30 = (if r.held then 1 else 0) ∧
      bitsOf (s.fateHdr (s.reg FATE_LOG_HDR 0)) 29 27 = r.cause % 8) ∧
    (∀ k, k < 4 → s.regRead (0x1D80010 + 8 * k) 8 = (leNat ((r.reply.drop (8 * k)).take 8) % 2 ^ 64, true, s)) ∧
    (∀ w : Writer, stwWriter w = true → r.q < 1024 → ∃ t, exec (.fatePop w) s = .next t ∧ t.hep = { s.hep with log := l } ∧
      t.rd STW_CQPTR_RESERVED r.cq = s.rd STW_CQPTR_RESERVED r.cq - 1 ∧ t.mem = s.mem ∧ t.com = s.com)

/-- COMMIT of an inbound window: refused with REJECTED and no other effect while OLD_BUSY is 1, where the new mapping breaks the lawful
forms or overlaps another OPEN window; otherwise the shadow becomes the active mapping, a shadow that is not VALID closing the window, and GEN
rises by one. -/
def Obligations.WindowCommitSwitches : Prop :=
  ∀ (w : Nat) (s : State),
    let bad := s.flag LNK_WIN_CTL_OLD_BUSY w = true ∨
      (s.flag LNK_WIN_IN_VALID w = true ∧ (s.winLawful w = false ∨ s.winOverlaps w = true))
    (bad → exec (.windowCommit w) s = .next (s.wr LNK_WIN_CTL_REJECTED w 1)) ∧
    (¬bad → ∃ t, exec (.windowCommit w) s = .next t ∧
      t.rd LNK_WIN_CTL_GEN w = (s.rd LNK_WIN_CTL_GEN w + 1) % 65536 ∧
      SMap.get? t.fab.wins w = (if s.flag LNK_WIN_IN_VALID w then some { inw := s.reg LNK_WIN_IN w, tgt := s.reg LNK_WIN_TGT w } else none) ∧
      (∀ v, v ≠ w → SMap.get? t.fab.wins v = SMap.get? s.fab.wins v) ∧
      t.fab = { s.fab with wins := t.fab.wins } ∧ t.mem = s.mem ∧ t.com = s.com)

/-- A write by an agent that may not write a register has no effect: only the Reeve among the agents writes the registers of the boot
sequencer and the Roll; only the Steward firmware cores those of the Steward, the Sluice, the translation unit, the sites, the links but for
the time configuration, the host endpoint and the fate log; and only these and the Reeve those of the Vestry, the Ledger, power and the Reeve.
Outside doze, in which a write is counted instead. -/
def Obligations.ForeignAgentsWriteNothing : Prop :=
  ∀ (s : State) (a off size v : Nat), s.rve.dozeStep ≠ 2 →
    (a ≠ 0x1C1 → 0x10000 ≤ off → off < 0x20000 → (s.regWrite (.agent a) off size v).2 = s) ∧
    (¬(0x191 ≤ a ∧ a ≤ 0x194) →
      ((0x100000 ≤ off ∧ off < 0x300000) ∨ (0x380000 ≤ off ∧ off < 0x3F0000) ∨ (0x1000000 ≤ off ∧ off < 0x1808028) ∨
        (0x1808030 ≤ off ∧ off < 0x1B00000) ∨ (0x1D00000 ≤ off ∧ off < 0x1D10000) ∨ (0x1D80000 ≤ off ∧ off < 0x1E00000)) →
      (s.regWrite (.agent a) off size v).2 = s) ∧
    (¬(0x191 ≤ a ∧ a ≤ 0x194) → a ≠ 0x1C1 → 0x1E00000 ≤ off → off < 0x2000000 → (s.regWrite (.agent a) off size v).2 = s)

/-- x0 of a tile's core reads 0 and takes no write; any other integer register reads back what was written, modulo 2^64, and a write
leaves the others alone. -/
def Obligations.ZeroRegisterStaysZero : Prop :=
  (∀ (x : Tile) (r v : Nat), r % 32 = 0 → x.setX r v = x ∧ x.xr r = 0) ∧
  (∀ (x : Tile) (r v : Nat), r % 32 ≠ 0 → (x.setX r v).xr r = v % 2 ^ 64) ∧
  (∀ (x : Tile) (r q v : Nat), q % 32 ≠ r % 32 → (x.setX r v).xr q = x.xr q) ∧
  (∀ (x : Tile) (r v : Nat), x.setX r v = { x with x := (x.setX r v).x })

/-- A status reply is 32 bytes: the item, queue, slot, fate, status, unit, sequence number and result in their places, little-endian,
and PHASE in bit 7 of the last byte. -/
def Obligations.ReplyLayout : Prop :=
  ∀ (item q slot fate status unit seq result : Nat) (phase : Bool),
    let b := replyBytes item q slot fate status unit seq result phase
    b.length = 32 ∧ pktField b 0 4 = item % 2 ^ 32 ∧ pktField b 4 2 = q % 2 ^ 16 ∧ pktField b 6 2 = slot % 2 ^ 16 ∧
    pktField b 8 1 = fate % 256 ∧ pktField b 9 1 = status % 256 ∧ pktField b 10 2 = unit % 2 ^ 16 ∧ pktField b 12 4 = seq % 2 ^ 32 ∧
    pktField b 16 8 = result % 2 ^ 64 ∧ pktField b 24 7 = 0 ∧ pktField b 31 1 = (if phase then 128 else 0)

/-- Rounding a quotient to a whole number of quanta: RNE takes the nearest whole number, the even one of two that are equally near; RTZ the
one toward zero; RUP and RDN the one above and below, by the sign; and the result is marked inexact where it differs. -/
def Obligations.RoundingModes : Prop :=
  ∀ (neg : Bool) (r num den : Nat) (e : Int), 0 < den →
    (2 * (((roundQ .rne neg r num den e e).1 : Int) * den - num).natAbs ≤ den) ∧
    (2 * (((roundQ .rne neg r num den e e).1 : Int) * den - num).natAbs = den → (roundQ .rne neg r num den e e).1 % 2 = 0) ∧
    (roundQ .rtz neg r num den e e).1 = num / den ∧
    (roundQ .rup false r num den e e).1 = (num + den - 1) / den ∧ (roundQ .rup true r num den e e).1 = num / den ∧
    (roundQ .rdn false r num den e e).1 = num / den ∧ (roundQ .rdn true r num den e e).1 = (num + den - 1) / den ∧
    (∀ m : RM, (roundQ m neg r num den e e).2 = false ↔ (roundQ m neg r num den e e).1 * den = num ∧ num % den = 0)

/-- Two words of the fixed grid combine in either order to the same word: finite ones by 40-bit two's complement addition, NaN with
anything to NaN, infinities of both signs to NaN, and an infinity with a finite word or itself to that infinity. The sum of at most 65,536 finite
contributions of the size that the grid allows is exact and never a special pattern. -/
def Obligations.GridWordsCombine : Prop :=
  ∀ a b : Nat, a < 2 ^ 40 → b < 2 ^ 40 →
    gridAdd a b = gridAdd b a ∧
    (gridSpecial a = false → gridSpecial b = false → gridAdd a b = (BitVec.ofNat 40 a + BitVec.ofNat 40 b).toNat) ∧
    gridAdd gridNan b = gridNan ∧ gridAdd gridPinf gridNinf = gridNan ∧
    (gridSpecial b = false → gridAdd gridPinf b = gridPinf ∧ gridAdd gridNinf b = gridNinf) ∧
    gridAdd gridPinf gridPinf = gridPinf ∧ gridAdd gridNinf gridNinf = gridNinf ∧
    (gridSpecial a = true → a ≠ gridPinf → a ≠ gridNinf → gridAdd a b = gridNan) ∧
    (∀ l : List Int, l.length ≤ 65536 → (∀ v ∈ l, -(2 ^ 23 - 1) ≤ v ∧ v ≤ 2 ^ 23 - 1) →
      l.foldl (fun w v => gridAdd w (v % 2 ^ 40).toNat) 0 = (l.sum % 2 ^ 40).toNat ∧ gridSpecial (l.sum % 2 ^ 40).toNat = false)

/-- The Granary gives its data only to a reader with the sealed-access right, outside parity segments and POISONED pages, and only of a
block that is SEALED, or RESTORING another page; and it takes a write only of a full line by a chain mover that seals for the block's
tenant, into a block that is FILLING or into the page under restore. -/
def Obligations.GranaryGuardsItsData : Prop :=
  ∀ (s : State) (hpa tenant : Nat) (sealed : Bool), hpa < 0x8000000000 → s.inGranary (blockOf hpa) = true →
    (s.readVerdict hpa tenant sealed = .data →
      sealed = true ∧ (∃ e, s.modelOf (blockOf hpa) = some e ∧ s.mapped tenant e = true) ∧ segmentOf hpa ≠ 7 ∧
      s.hbm.poisonPages.contains (hpa / 2 ^ 21) = false ∧
      ((s.gblock (blockOf hpa)).st = 3 ∨
        ((s.gblock (blockOf hpa)).st = 5 ∧ (s.gblock (blockOf hpa)).page ≠ some (pageInBlock hpa)))) ∧
    (∀ sealing full : Bool, s.writeRefused hpa tenant sealed sealing full = false →
      sealing = true ∧ full = true ∧ (∃ e, s.modelOf (blockOf hpa) = some e ∧ s.mapped tenant e = true) ∧ segmentOf hpa ≠ 7 ∧
      ((s.gblock (blockOf hpa)).st = 1 ∨
        ((s.gblock (blockOf hpa)).st = 5 ∧ (s.gblock (blockOf hpa)).page = some (pageInBlock hpa))))

/-- Every vector instruction completes. While a kernel runs and the core neither waits nor has a trap pending, an instruction that its tile's queue has room
for enters it, with all that it captures, and the core goes on; LEXT, LMPOP and LMFIRST, on an empty queue and with their checks passed, write their
integer register and go on. The vector unit performs the entry at the front of the queue, once its checks pass, on the elements below vl that are active:
element-wise operations, slides, VPERM, LBCAST, VCVT between formats without blocks, and loads write exactly the lanes of VD; compares, mask operations
and VMLD write exactly the bits of mask VD; reductions fold into accumulator VD; VST, VSTX and VMST to formats without blocks store exactly the bits of
their elements, and zeros in the spare bits of the last byte. Integer arithmetic without SAT is that of two's complement numbers of the
format's width. -/
def Obligations.VectorInstructionsComplete : Prop :=
  (∀ (s : State) (t : Nat) (f : VOp), Safety.TakesInstruction s t 8 → (s.tile t).vq.length < 16 →
    ∀ p ∈ [((0x00 : Nat), Instr.vadd t f), (0x01, .vsub t f), (0x02, .vmul t f), (0x03, .vfma t f), (0x04, .vfms t f),
        (0x05, .vfnma t f), (0x06, .vfnms t f), (0x07, .vmin t f), (0x08, .vmax t f), (0x09, .vabs t f), (0x0A, .vneg t f),
        (0x0B, .vsel t f), (0x10, .vand t f), (0x11, .vor t f), (0x12, .vxor t f), (0x13, .vsll t f), (0x14, .vsrl t f),
        (0x15, .vsra t f), (0x16, .vmulh t f), (0x20, .vcmpeq t f), (0x21, .vcmpne t f), (0x22, .vcmplt t f), (0x23, .vcmple t f),
        (0x24, .vcmpun t f), (0x28, .vcvt t f), (0x30, .vrcp t f), (0x31, .vrsqrt t f), (0x32, .vsqrt t f), (0x33, .vdiv t f),
        (0x34, .vexp t f), (0x35, .vexp2 t f), (0x36, .vln t f), (0x37, .vlog2 t f), (0x38, .vtanh t f), (0x39, .vsigm t f),
        (0x3A, .vsin t f), (0x3B, .vcos t f), (0x3C, .verf t f), (0x3D, .vrand t f), (0x40, .vperm t f), (0x41, .vslideup t f),
        (0x42, .vslidedn t f), (0x43, .vcompress t f), (0x44, .lbcast t f), (0x50, .vld t f), (0x51, .vst t f), (0x52, .vldx t f),
        (0x53, .vstx t f), (0x54, .vmld t f), (0x55, .vmst t f), (0x58, .vredAdd t f), (0x59, .vredExact t f), (0x5A, .vredIadd t f),
        (0x5B, .vredMax t f), (0x5C, .vredMin t f), (0x5D, .vredArgmax t f), (0x5E, .vredArgmin t f), (0x5F, .vredAnd t f),
        (0x60, .vredOr t f), (0x61, .vredXor t f), (0x62, .lrbcast t f), (0x68, .vmand t f), (0x69, .vmor t f), (0x6A, .vmxor t f),
        (0x6B, .vmandn t f)],
      Safety.EntersQueue s t p.1 f (exec p.2 s)) ∧
  (∀ (s : State) (t : Nat) (f : VOp), Safety.TakesInstruction s t 8 → (s.tile t).vq = [] →
    let x := s.tile t
    let hits := (List.range x.vl).filter (fun i => x.active f x.vl i && (x.mask f.vs1).testBit i)
    let answers (o : Host.Outcome State Fault Refusal) (v : Nat) : Prop := ∃ u, o = .next u ∧
      u.tile t = { x.setX f.vd v with pc := (x.pc + 8) % 2 ^ 64 } ∧ (∀ k, k ≠ t → u.tile k = s.tile k) ∧
      u = { s with tiles := u.tiles, regs := u.regs } ∧ ∀ r i, u.reg r i = s.reg r i
    let passes (op : Nat) : Prop := x.check op f x.vl (x.xr f.vs2) false false false = none
    (passes 0x45 → lanePois (x.vpois f.vs1) (x.lw f.fs) (x.xr f.vs2) = false →
      answers (exec (.lext t f) s) (eltOf (x.vreg f.vs1) (x.lw f.fs) (x.elt f.fs).width (x.xr f.vs2))) ∧
    (passes 0x6C → answers (exec (.lmpop t f) s) hits.length) ∧
    (passes 0x6D → answers (exec (.lmfirst t f) s) (match hits with | i :: _ => i | [] => 2 ^ 64 - 1))) ∧
  (∀ (u : State) (t op : Nat) (f : VOp) (e : VqEntry) (rest : List VqEntry), (u.tile t).vq = e :: rest → e.ins = .v64 op f →
    let x := u.tile t
    let c := e.c
    let v := u.lanesTurn t
    let src (r i : Nat) : Nat := eltOf (x.vreg r) (x.lw f.fs) (x.elt f.fs).width i
    let acts := (List.range c.vl).filter (x.active f c.vl)
    let rsr (i : Nat) : Nat := rsrWord c.seed (c.sri + i)
    x.check op f c.vl c.x2 false false false = none →
    (op ≤ 0x16 ∨ (0x30 ≤ op ∧ op ≤ 0x3D) ∨ op = 0x44 →
      Safety.WritesVector u v t f c.vl (x.lw f.fd) (fun i => some (x.eltwise op f c i).1.1)) ∧
    (op = 0x40 → Safety.WritesVector u v t f c.vl (x.lw f.fs) (fun i =>
      let j := Safety.lane x f.vs2 (x.lw f.fs) i
      some (if c.vl ≤ j then 0 else Safety.lane x f.vs1 (x.lw f.fs) j))) ∧
    (op = 0x41 → Safety.WritesVector u v t f c.vl (x.lw f.fs) (fun i =>
      if c.x2 ≤ i then some (Safety.lane x f.vs1 (x.lw f.fs) (i - c.x2)) else none)) ∧
    (op = 0x42 → Safety.WritesVector u v t f c.vl (x.lw f.fs) (fun i =>
      some (if i + c.x2 < c.vl then Safety.lane x f.vs1 (x.lw f.fs) (i + c.x2) else 0))) ∧
    (op = 0x43 → ∀ k, k < acts.length → Safety.lane (v.tile t) f.vd (x.lw f.fs) k = Safety.lane x f.vs1 (x.lw f.fs) (acts.getD k 0)) ∧
    (op = 0x28 → x.isBlock f.fs = false → x.isBlock f.fd = false → Safety.WritesVector u v t f c.vl (x.lw f.fd) (fun i =>
      some ((x.elt f.fd).convert (c.mode f.rm) f.sat (rsr i) ((x.elt f.fs).decode (src f.vs1 i))).1)) ∧
    (0x20 ≤ op → op ≤ 0x24 → Safety.WritesMask u v t f c.vl (fun i =>
      (eltCmp op (x.elt f.fs) (decide (0x0B ≤ f.fs)) (src f.vs1 i) (x.srcB f c i).1).1)) ∧
    (op = 0x68 → Safety.WritesMask u v t f c.vl (fun i => (x.mask f.vs1).testBit i && (x.mask f.vs2).testBit i)) ∧
    (op = 0x69 → Safety.WritesMask u v t f c.vl (fun i => (x.mask f.vs1).testBit i || (x.mask f.vs2).testBit i)) ∧
    (op = 0x6A → Safety.WritesMask u v t f c.vl (fun i => (x.mask f.vs1).testBit i != (x.mask f.vs2).testBit i)) ∧
    (op = 0x6B → Safety.WritesMask u v t f c.vl (fun i => (x.mask f.vs1).testBit i && !(x.mask f.vs2).testBit i)) ∧
    (0x58 ≤ op → op ≤ 0x61 →
      let es := (List.range c.vl).map (fun i => if x.active f c.vl i then some (src f.vs1 i) else none)
      let a := SMap.getD x.acc f.vd {}
      let new := (a.fold (x.elt f.fs) es (4096 / x.lw f.fs)).1
      let seen := acts.any (fun i => lanePois (x.vpois f.vs1) (x.lw f.fs) i)
      SMap.getD (v.tile t).acc f.vd {} = { new with poison := new.poison || seen } ∧
      (∀ r, r ≠ f.vd → SMap.getD (v.tile t).acc r {} = SMap.getD x.acc r {}) ∧ (v.tile t).v = x.v ∧ (v.tile t).vm = x.vm ∧
      (∀ k, k ≠ t → v.tile k = u.tile k) ∧ v.mem = u.mem) ∧
    (op = 0x62 → (SMap.getD x.acc f.vs1 {}).op = 0 → Safety.WritesVector u v t f c.vl (x.lw f.fd) (fun i =>
      let a := SMap.getD x.acc f.vs1 {}
      some ((x.elt f.fd).convert (c.mode 7) f.sat (rsr i) (fp32.decode (if a.any then a.val else 0))).1)) ∧
    (∀ fi, op = 0x50 ∨ op = 0x52 → x.fmt f.fs = some fi → fi.block = 0 → x.isBlock f.fd = false →
      let at_ (i : Nat) : BitSpan :=
        (if op = 0x50 then eltBit fi c.x1 c.x3 i else 8 * ((c.x1 + Safety.lane x f.vs2 32 i) % 2 ^ 64), fi.elt.width)
      memCheck fi c.x1 (if op = 0x50 then c.x3 else 0) (op = 0x52) false (acts.map at_) = none →
      Safety.WritesVector u v t f c.vl (x.lw f.fd) (fun i => some (if sameCode f.fs f.fd then u.readSpan t (at_ i)
        else ((x.elt f.fd).convert (c.mode f.rm) f.sat (rsr i) (fi.elt.decode (u.readSpan t (at_ i)))).1))) ∧
    (op = 0x54 → (∀ i ∈ acts, spanHi (strBit c.x1 i, 1) < padBytes) →
      Safety.WritesMask u v t f c.vl (fun i => decide (u.readSpan t (strBit c.x1 i, 1) = 1))) ∧
    (∀ fi, op = 0x51 ∨ op = 0x53 → x.fmt f.fd = some fi → fi.block = 0 → x.isBlock f.fs = false →
      let at_ (i : Nat) : BitSpan :=
        (if op = 0x51 then eltBit fi c.x1 c.x3 i else 8 * ((c.x1 + Safety.lane x f.vs2 32 i) % 2 ^ 64), fi.elt.width)
      let n := fi.elt.width * c.vl
      let pad : List (BitSpan × Nat) := if op = 0x51 ∧ c.x3 = 0 ∧ n % 8 ≠ 0 ∧ c.vl - 1 ∈ acts then [((strBit c.x1 n, 8 - n % 8), 0)] else []
      memCheck fi c.x1 (if op = 0x51 then c.x3 else 0) (op = 0x53) false (acts.map at_ ++ pad.map (·.1)) = none →
      Safety.StoresBits u v t (acts.map (fun i => (at_ i, if sameCode f.fd f.fs then src f.vd i
        else (fi.elt.convert (c.mode f.rm) f.sat (rsr i) ((x.elt f.fs).decode (src f.vd i))).1)) ++ pad)) ∧
    (op = 0x55 →
      let ws := acts.map (fun i => ((strBit c.x1 i, 1), ((x.mask f.vd).testBit i).toNat)) ++
        (if c.vl % 8 ≠ 0 then [((strBit c.x1 c.vl, 8 - c.vl % 8), 0)] else [])
      (∀ w ∈ ws, spanHi w.1 < padBytes) → Safety.StoresBits u v t ws)) ∧
  (∀ (w : Nat) (a b d : BitVec w), 0 < w →
    let res (op c : Nat) : Nat := (eltArith op (intFmt w) (intFmt w) true .rne false 0 a.toNat b.toNat c false).1
    res 0x00 0 = (a + b).toNat ∧ res 0x01 0 = (a - b).toNat ∧ res 0x02 0 = (a * b).toNat ∧
    res 0x03 d.toNat = (a * b + d).toNat ∧ res 0x04 d.toNat = (a * b - d).toNat ∧ res 0x05 d.toNat = (d - a * b).toNat ∧
    res 0x06 d.toNat = (-(a * b) - d).toNat ∧ res 0x07 0 = (if b.slt a then b else a).toNat ∧ res 0x08 0 = (if a.slt b then b else a).toNat ∧
    res 0x09 0 = (if a.slt 0 then -a else a).toNat ∧ res 0x0A 0 = (-a).toNat ∧ res 0x10 0 = (a &&& b).toNat ∧
    res 0x11 0 = (a ||| b).toNat ∧ res 0x12 0 = (a ^^^ b).toNat ∧ res 0x13 0 = (a <<< (b.toNat % w)).toNat ∧
    res 0x14 0 = (a >>> (b.toNat % w)).toNat ∧ res 0x15 0 = (a.sshiftRight (b.toNat % w)).toNat ∧
    res 0x16 0 = ((a.signExtend (2 * w) * b.signExtend (2 * w)).extractLsb' w w).toNat)

/-- The system instructions of a tile complete. LSETVL sets vl and its register; LRRESET, LRSAVE, LRMERGE, LPLOAD and LPRUN enter the queue with their
operands, LPRUN with the PRD that it has read. Behind the vector unit, LVSYNC passes; LRD and LRDI write their register; LSIGNAL issues its signal, and
passes once that is answered; LWAIT registers its wait, and ends with 0 where the event is set, with 1 where its limit passes, or waits on; LEND and LFAIL
end a kernel that has nothing outstanding: with DONE and the result, or with FAILED, KERNEL_ERROR and the low 32 bits, told in the tile's registers and by
one completion event. -/
def Obligations.TileInstructionsComplete : Prop :=
  (∀ (s : State) (t rd rs1 ww : Nat), Safety.TakesInstruction s t 4 → (s.tile t).vq.length < 16 → ww < 4 →
    let x := s.tile t
    let vl := min (x.xr rs1) (4096 / (4 * 2 ^ ww))
    ∃ u, exec (.lsetvl t rd rs1 0 ww) s = .next u ∧ u.tile t = { x.setX rd vl with vl := vl, pc := (x.pc + 4) % 2 ^ 64 } ∧
      (∀ k, k ≠ t → u.tile k = s.tile k) ∧ u = { s with tiles := u.tiles }) ∧
  (∀ (s : State) (t rd rs1 rs2 : Nat), Safety.TakesInstruction s t 4 → (s.tile t).vq.length < 16 →
    let x := s.tile t
    let off := s.offOf t x.pc
    let enters (o : Host.Outcome State Fault Refusal) (f3 f7 : Nat) : Prop := ∃ u, o = .next u ∧
      Safety.Entered s u t 4 x.lsridx { off := off, ins := .q32 f3 f7 rd rs1 rs2 [] false, c := { x1 := x.xr rs1 } }
    let a := x.xr rs1
    let readable : Bool := a % 128 = 0 && a + 128 ≤ padBytes
    let prd := if readable then s.bytes (scratchCell t + a) 128 else []
    let p := prdOf prd
    let uses := if readable && p.ok then x.rsrCount rd p x.lrm * p.n else 0
    enters (exec (.lrreset t rd rs1 rs2) s) 1 0 ∧ enters (exec (.lrsave t rd rs1 rs2) s) 1 3 ∧
    enters (exec (.lrmerge t rd rs1 rs2) s) 1 4 ∧ enters (exec (.lpload t rd rs1 rs2) s) 2 0 ∧
    (x.loadQueued = false → ∃ u, exec (.lprun t rd rs1 rs2) s = .next u ∧
      Safety.Entered s u t 4 ((x.lsridx + uses) % 2 ^ 64)
        { off := off, ins := .q32 2 1 rd rs1 rs2 prd (readable && s.poisoned (scratchCell t + a) 128)
          c := { lrm := x.lrm, seed := x.lseed, sri := x.lsridx, x1 := a } })) ∧
  (∀ (s : State) (t rd rs1 : Nat), Safety.TakesInstruction s t 4 →
    let d := s.lanesDrain t
    let x := d.tile t
    let acc := SMap.getD x.acc rs1 {}
    let h := x.xr rs1
    let wrote (o : Host.Outcome State Fault Refusal) (v fl : Nat) : Prop := ∃ u, o = .next u ∧
      (rd % 32 ≠ 0 → (u.tile t).xr rd = v % 2 ^ 64) ∧ (∀ r, r % 32 ≠ rd % 32 → (u.tile t).xr r = x.xr r) ∧
      (u.tile t).pc = (x.pc + 4) % 2 ^ 64 ∧ (u.tile t).lflags = x.lflags ||| fl ∧ (u.tile t).acc = x.acc ∧ (u.tile t).v = x.v ∧
      (u.tile t).vm = x.vm ∧ (∀ k, k ≠ t → u.tile k = d.tile k) ∧ u.mem = d.mem ∧ u.com = d.com
    Safety.TakesInstruction d t 4 →
    exec (.lvsync t 0 0 0) s = .next (d.advance t 4) ∧
    (rs1 ≤ 3 → acc.poison = false →
      (let r := acc.read (x.elt acc.fmt) ((rmOf .rne x.lrm).getD .rne) (rsrWord x.lseed x.lsridx)
       wrote (exec (.lrd t rd rs1 0) s) r.1 r.2) ∧
      (acc.op = 5 ∨ acc.op = 6 → wrote (exec (.lrdi t rd rs1 0) s) (if acc.any then acc.idx else 2 ^ 64 - 1) 0) ∧
      (acc.op ≠ 5 → acc.op ≠ 6 → ∃ v, wrote (exec (.lrdi t rd rs1 0) s) v 0)) ∧
    exec (.lsignal t 0 rs1 0) s =
      .next ((d.coreFence t true).coreIssue t (evtOpPkt 0 h) (fun n => .glob n 0 0 0 4 true true false))) ∧
  (∀ (s : State) (t n : Nat) (r p : Pkt), (s.tile t).wait = some (.glob n 0 0 0 4 true true false) → p.txn = n → p.status = stOk →
    ∃ u, s.coreAnswer t r p = u ∧ u.tile t = { s.tile t with wait := none, pc := ((s.tile t).pc + 4) % 2 ^ 64 } ∧
      (∀ k, k ≠ t → u.tile k = s.tile k) ∧ u = { s with tiles := u.tiles }) ∧
  (∀ (s : State) (t rd rs1 rs2 : Nat), Safety.TakesInstruction s t 4 → (s.tile t).vq.length < 16 →
    exec (.lwait t rd rs1 rs2) s =
      .next (s.coreIssue t (evtOpPkt 1 ((s.tile t).xr rs1)) (fun n => .reg n rd 4 ((s.tile t).xr rs2)))) ∧
  (∀ (s : State) (t n rd limit : Nat) (r p : Pkt), (s.tile t).wait = some (.reg n rd 4 limit) → p.txn = n → p.status = stOk →
    let passed : State := (s.updTile t (fun x => { x with wait := none })).retire t rd 0 4
    (leNat (p.data.take 1) = 1 → s.coreAnswer t r p = (passed.coreFence t false).awaitFence t) ∧
    (leNat (p.data.take 1) ≠ 1 → (s.tile t).vtrap = none → ∃ u, s.coreAnswer t r p = u ∧
      u.tile t = { s.tile t with wait := some (.event rd 4 limit) } ∧ (∀ k, k ≠ t → u.tile k = s.tile k))) ∧
  (∀ (s : State) (t rd len limit : Nat), (s.tile t).wait = some (.event rd len limit) → limit ≠ 0 →
    let x := s.tile t
    ∃ u, exec (.lwaitLimit t) s = .next u ∧ u.tile t = { x.setX rd 1 with wait := none, pc := (x.pc + len) % 2 ^ 64 } ∧
      (∀ k, k ≠ t → u.tile k = s.tile k) ∧ u = { s with tiles := u.tiles }) ∧
  (∀ (s : State) (t rs1 : Nat) (fail : Bool) (r : Launch), Safety.TakesInstruction s t 4 →
    let d := s.lanesDrain t
    let x := d.tile t
    let i := d.iface (tileAgent t)
    Safety.TakesInstruction d t 4 → x.run = some r → x.poisonSeen = false → x.errValid = false →
    i.outstanding = [] → i.waiting = [] → i.fences = [] → i.posted = [] →
    let v := if fail then x.xr rs1 % 2 ^ 32 else x.xr rs1
    ∃ u, exec (if fail then .lfail t 0 rs1 0 else .lend t 0 rs1 0) s = .next u ∧ (u.tile t).run = none ∧ (u.tile t).wait = none ∧
      (u.tile t).x = x.x ∧ (u.tile t).v = x.v ∧ u.mem = d.mem ∧ (∀ k, k ≠ t → u.tile k = d.tile k) ∧
      u.rd LOOM_LAST_ITEM t = r.item % 2 ^ 32 ∧ u.rd LOOM_LAST_VALID t = 1 ∧ u.rd LOOM_LAST_OFFSET t = d.offOf t x.pc % 2 ^ 21 ∧
      u.rd LOOM_RESULT_RESULT t = v % 2 ^ 64 ∧ u.rd LOOM_STAT_LAST_END t = (if fail then 1 else 0) ∧
      u.com.out = d.com.out ++ [completionPkt (tileAgent t) r.item (if fail then fateFailed else fateDone)
        (if fail then stKernelError else 0) true v])
end

