-- ==== Sys2Proof/Laws/Maps.lean ====
section
/-!
SUPPORT. Laws/Maps.lean: sparse maps read back what was written, and every operation keeps the canonical form.
-/

namespace Sys2Proof.Machine

theorem SMap.get?_put_same {α : Type} (m : SMap α) (k : Nat) (v : α) : SMap.get? (SMap.put m k v) k = some v := by
  induction m with
  | nil => simp [SMap.put, SMap.get?]
  | cons e m ih =>
    obtain ⟨a, w⟩ := e
    simp only [SMap.put]
    split
    · simp [SMap.get?]
    · split
      · simp [SMap.get?]
      · rename_i h1 h2
        simp [SMap.get?, Ne.symm h2, ih]

theorem SMap.get?_put_other {α : Type} (m : SMap α) (k j : Nat) (v : α) (h : j ≠ k) :
    SMap.get? (SMap.put m k v) j = SMap.get? m j := by
  induction m with
  | nil => simp [SMap.put, SMap.get?, Ne.symm h]
  | cons e m ih =>
    obtain ⟨a, w⟩ := e
    simp only [SMap.put]
    split
    · simp [SMap.get?, Ne.symm h]
    · split
      · rename_i h1 h2
        subst h2
        simp [SMap.get?, Ne.symm h]
      · simp [SMap.get?, ih]

theorem SMap.get?_del_same {α : Type} (m : SMap α) (k : Nat) : SMap.get? (SMap.del m k) k = none := by
  induction m with
  | nil => simp [SMap.del, SMap.get?]
  | cons e m ih =>
    obtain ⟨a, w⟩ := e
    simp only [SMap.del]
    split
    · exact ih
    · rename_i h
      simp [SMap.get?, h, ih]

theorem SMap.get?_del_other {α : Type} (m : SMap α) (k j : Nat) (h : j ≠ k) :
    SMap.get? (SMap.del m k) j = SMap.get? m j := by
  induction m with
  | nil => simp [SMap.del, SMap.get?]
  | cons e m ih =>
    obtain ⟨a, w⟩ := e
    simp only [SMap.del]
    split
    · rename_i h1
      subst h1
      simp [SMap.get?, Ne.symm h, ih]
    · simp [SMap.get?, ih]

/-- A key reads as the value that was set, the default among them. -/
theorem SMap.getD_set_same {α : Type} [DecidableEq α] (d : α) (m : SMap α) (k : Nat) (v : α) :
    SMap.getD (SMap.set d m k v) k d = v := by
  unfold SMap.set SMap.getD
  split
  · rename_i h
    simp [SMap.get?_del_same, h]
  · simp [SMap.get?_put_same]

/-- Every other key reads as before, whatever its own default. -/
theorem SMap.getD_set_other {α : Type} [DecidableEq α] (d c : α) (m : SMap α) (k j : Nat) (v : α) (h : j ≠ k) :
    SMap.getD (SMap.set d m k v) j c = SMap.getD m j c := by
  unfold SMap.set SMap.getD
  split
  · rw [SMap.get?_del_other m k j h]
  · rw [SMap.get?_put_other m k j v h]

theorem SMap.getD_upd_same {α : Type} [DecidableEq α] (d : α) (m : SMap α) (k : Nat) (f : α → α) :
    SMap.getD (SMap.upd d m k f) k d = f (SMap.getD m k d) := by
  simp [SMap.upd, SMap.getD_set_same]

theorem SMap.getD_upd_other {α : Type} [DecidableEq α] (d c : α) (m : SMap α) (k j : Nat) (f : α → α) (h : j ≠ k) :
    SMap.getD (SMap.upd d m k f) j c = SMap.getD m j c := by
  simp [SMap.upd, SMap.getD_set_other _ _ _ _ _ _ h]

theorem SMap.rising_weaken {α : Type} (m : SMap α) (lo lo' : Option Nat) (h : SMap.rising lo m = true)
    (hl : ∀ x, lo' = some x → ∃ y, lo = some y ∧ x ≤ y) : SMap.rising lo' m = true := by
  cases m with
  | nil => simp [SMap.rising]
  | cons e m =>
    obtain ⟨a, w⟩ := e
    simp only [SMap.rising, Bool.and_eq_true] at h ⊢
    refine ⟨?_, h.2⟩
    cases lo' with
    | none => rfl
    | some x =>
      obtain ⟨y, rfl, hy⟩ := hl x rfl
      have := h.1
      simp only [decide_eq_true_eq] at this ⊢
      omega

theorem SMap.rising_put {α : Type} (m : SMap α) (lo : Option Nat) (k : Nat) (v : α) (h : SMap.rising lo m = true)
    (hk : ∀ x, lo = some x → x < k) : SMap.rising lo (SMap.put m k v) = true := by
  induction m generalizing lo with
  | nil =>
    simp only [SMap.put, SMap.rising, Bool.and_true]
    cases lo with
    | none => rfl
    | some x => simpa using hk x rfl
  | cons e m ih =>
    obtain ⟨a, w⟩ := e
    simp only [SMap.rising, Bool.and_eq_true] at h
    simp only [SMap.put]
    split
    · rename_i hlt
      simp only [SMap.rising, Bool.and_eq_true, decide_eq_true_eq]
      refine ⟨?_, hlt, h.2⟩
      cases lo with
      | none => rfl
      | some x => simpa using hk x rfl
    · split
      · rename_i hlt he
        subst he
        simp only [SMap.rising, Bool.and_eq_true]
        exact ⟨h.1, h.2⟩
      · rename_i hlt he
        simp only [SMap.rising, Bool.and_eq_true]
        refine ⟨h.1, ih (some a) h.2 ?_⟩
        intro x hx
        cases hx
        omega

theorem SMap.rising_filter {α : Type} (m : SMap α) (lo : Option Nat) (p : Nat × α → Bool) (h : SMap.rising lo m = true) :
    SMap.rising lo (m.filter p) = true := by
  induction m generalizing lo with
  | nil => simp [SMap.rising]
  | cons e m ih =>
    obtain ⟨a, w⟩ := e
    simp only [SMap.rising, Bool.and_eq_true] at h
    simp only [List.filter_cons]
    split
    · simp only [SMap.rising, Bool.and_eq_true]
      exact ⟨h.1, ih (some a) h.2⟩
    · refine SMap.rising_weaken _ (some a) lo (ih (some a) h.2) ?_
      intro x hx
      subst hx
      refine ⟨a, rfl, ?_⟩
      have := h.1
      simp only [decide_eq_true_eq] at this
      omega

theorem SMap.del_eq_filter {α : Type} (m : SMap α) (k : Nat) : SMap.del m k = m.filter (fun e => decide (e.1 ≠ k)) := by
  induction m with
  | nil => rfl
  | cons e m ih =>
    obtain ⟨a, w⟩ := e
    simp only [SMap.del, List.filter_cons, ih]
    by_cases h : a = k <;> simp [h]

theorem SMap.rising_set {α : Type} [DecidableEq α] (d : α) (m : SMap α) (k : Nat) (v : α)
    (h : SMap.rising none m = true) : SMap.rising none (SMap.set d m k v) = true := by
  unfold SMap.set
  split
  · rw [SMap.del_eq_filter]
    exact SMap.rising_filter m none _ h
  · exact SMap.rising_put m none k v h (by intro x hx; cases hx)

theorem SMap.mem_put {α : Type} (m : SMap α) (k : Nat) (v : α) (e : Nat × α) (h : e ∈ SMap.put m k v) :
    e = (k, v) ∨ e ∈ m := by
  induction m with
  | nil => simpa [SMap.put] using h
  | cons x m ih =>
    obtain ⟨a, w⟩ := x
    simp only [SMap.put] at h
    split at h
    · simpa using h
    · split at h
      · rcases List.mem_cons.1 h with h | h
        · exact .inl h
        · exact .inr (List.mem_cons_of_mem _ h)
      · rcases List.mem_cons.1 h with h | h
        · exact .inr (by simp [h])
        · rcases ih h with h | h
          · exact .inl h
          · exact .inr (List.mem_cons_of_mem _ h)

/-- Setting a value keeps the canonical form. -/
theorem SMap.wf_set {α : Type} [DecidableEq α] (d : α) (m : SMap α) (k : Nat) (v : α) (h : SMap.wf d m = true) :
    SMap.wf d (SMap.set d m k v) = true := by
  simp only [SMap.wf, Bool.and_eq_true, List.all_eq_true, decide_eq_true_eq] at h ⊢
  refine ⟨SMap.rising_set d m k v h.1, ?_⟩
  intro e he
  unfold SMap.set at he
  split at he
  · rw [SMap.del_eq_filter] at he
    exact h.2 e (List.mem_filter.1 he).1
  · rename_i hv
    rcases SMap.mem_put m k v e he with rfl | he
    · exact hv
    · exact h.2 e he

/-- Removing entries keeps the canonical form. -/
theorem SMap.wf_filter {α : Type} [DecidableEq α] (d : α) (m : SMap α) (p : Nat × α → Bool) (h : SMap.wf d m = true) :
    SMap.wf d (m.filter p) = true := by
  simp only [SMap.wf, Bool.and_eq_true, List.all_eq_true, decide_eq_true_eq] at h ⊢
  exact ⟨SMap.rising_filter m none p h.1, fun e he => h.2 e (List.mem_filter.1 he).1⟩

end Sys2Proof.Machine
end

