-- ==== Sys2Proof/Laws/Kept.lean ====
section
/-!
SUPPORT. Laws/Kept.lean: what every operation of the hub keeps: a sound state, the queue of commands, and bell time that never runs back.
-/

namespace Sys2Proof.Machine

open Sys2Proof.Safety

theorem insertNat_mem (l : List Nat) (x y : Nat) : y ∈ insertNat l x → y = x ∨ y ∈ l := by
  induction l with
  | nil => simp [insertNat]
  | cons a l ih =>
    simp only [insertNat]
    split
    · simp
    · split
      · intro h
        exact .inr h
      · intro h
        rcases List.mem_cons.1 h with h | h
        · exact .inr (by simp [h])
        · rcases ih h with h | h
          · exact .inl h
          · exact .inr (List.mem_cons_of_mem _ h)

/-- An insertion keeps a list in rising order. -/
theorem insertNat_rising (l : List Nat) (x : Nat) (h : l.Pairwise (· < ·)) : (insertNat l x).Pairwise (· < ·) := by
  induction l with
  | nil => simp [insertNat]
  | cons a l ih =>
    simp only [List.pairwise_cons] at h
    simp only [insertNat]
    split
    · rename_i hx
      simp only [List.pairwise_cons]
      refine ⟨?_, h⟩
      intro b hb
      rcases List.mem_cons.1 hb with rfl | hb
      · exact hx
      · exact Nat.lt_trans hx (h.1 b hb)
    · split
      · exact List.pairwise_cons.2 h
      · rename_i h1 h2
        refine List.pairwise_cons.2 ⟨?_, ih h.2⟩
        intro b hb
        rcases insertNat_mem l x b hb with rfl | hb
        · omega
        · exact h.1 b hb

/-- `s` comes from `o` by operations of the hub: it is sound where `o` is, its queue is the same, and its bell time is no earlier. -/
structure Kept (o s : State) : Prop where
  mem : Memory.wf o.mem = true → Memory.wf s.mem = true
  regs : SMap.rising none o.regs = true → SMap.rising none s.regs = true
  poison : o.poison.Pairwise (· < ·) → s.poison.Pairwise (· < ·)
  doms : domainsLegal o.com.dom → domainsLegal s.com.dom
  time : o.time ≤ s.time
  queue : s.pending = o.pending

/-- The next state of an outcome, where there is one, is kept. -/
def KeptR (o : State) (r : Res) : Prop := ∀ t, r = .next t → Kept o t

theorem Kept.refl (s : State) : Kept s s := ⟨id, id, id, id, Nat.le_refl _, rfl⟩

theorem KeptR.next {o t : State} (h : Kept o t) : KeptR o (.next t) := by
  intro u hu
  cases hu
  exact h

/-- A record update that leaves the six alone. -/
theorem Kept.upd {o s t : State} (h : Kept o s) (hm : t.mem = s.mem) (hr : t.regs = s.regs) (hp : t.poison = s.poison)
    (hd : t.com.dom = s.com.dom) (ht : t.time = s.time) (hq : t.pending = s.pending) : Kept o t :=
  ⟨fun x => hm ▸ h.mem x, fun x => hr ▸ h.regs x, fun x => hp ▸ h.poison x, fun x => hd ▸ h.doms x, ht ▸ h.time, hq.trans h.queue⟩

theorem Kept.of {o s : State} {m p t q fr co ro hb le he st sl ti mi xl mo ms vs rv fm si fa ev} (h : Kept o s)
    (hm : m = s.mem) (hp : p = s.poison) (hd : co.dom = s.com.dom) (ht : t = s.time) (hq : q = s.pending) :
    Kept o (State.mk s.regs m p t fr co ro hb le he st sl ti mi xl mo ms vs rv fm si fa ev q) :=
  Kept.upd h hm rfl hp hd ht hq

theorem Kept.ite {o a b : State} {c : Prop} [Decidable c] (ha : Kept o a) (hb : Kept o b) : Kept o (if c then a else b) := by
  split <;> assumption

theorem KeptR.ite {o : State} {a b : Res} {c : Prop} [Decidable c] (ha : KeptR o a) (hb : KeptR o b) :
    KeptR o (if c then a else b) := by
  split <;> assumption

theorem Kept.foldl {α : Type} {o s : State} {f : State → α → State} {l : List α} (hf : ∀ t a, Kept o t → Kept o (f t a))
    (hs : Kept o s) : Kept o (l.foldl f s) := by
  induction l generalizing s with
  | nil => exact hs
  | cons a l ih => exact ih (hf s a hs)

theorem Kept.foldlFst {α β : Type} {o : State} {f : State × β → α → State × β} {x : State × β} {l : List α}
    (hf : ∀ y a, Kept o y.1 → Kept o (f y a).1) (hx : Kept o x.1) : Kept o (l.foldl f x).1 := by
  induction l generalizing x with
  | nil => exact hx
  | cons a l ih => exact ih (hf x a hx)

theorem Kept.foldlSnd {α β : Type} {o : State} {f : β × State → α → β × State} {x : β × State} {l : List α}
    (hf : ∀ y a, Kept o y.2 → Kept o (f y a).2) (hx : Kept o x.2) : Kept o (l.foldl f x).2 := by
  induction l generalizing x with
  | nil => exact hx
  | cons a l ih => exact ih (hf x a hx)

theorem Kept.foldlThird {α β γ : Type} {o : State} {f : β × γ × State → α → β × γ × State} {x : β × γ × State} {l : List α}
    (hf : ∀ y a, Kept o y.2.2 → Kept o (f y a).2.2) (hx : Kept o x.2.2) : Kept o (l.foldl f x).2.2 := by
  induction l generalizing x with
  | nil => exact hx
  | cons a l ih => exact ih (hf x a hx)

theorem Kept.iteSnd {α : Type} {o : State} {a b : α × State} {c : Prop} [Decidable c] (ha : Kept o a.2) (hb : Kept o b.2) :
    Kept o (if c then a else b).2 := by
  split <;> assumption

theorem Kept.iteFst {α : Type} {o : State} {a b : State × α} {c : Prop} [Decidable c] (ha : Kept o a.1) (hb : Kept o b.1) :
    Kept o (if c then a else b).1 := by
  split <;> assumption

end Sys2Proof.Machine
end

