-- ==== Sys2Proof/Laws/State.lean ====
section
/-!
SUPPORT. Laws/State.lean: what each named update of the state leaves alone, field by field, and what it reads back.
-/

namespace Sys2Proof.Machine

/-! ### `setReg` -/

@[simp] theorem State.setReg_mem (s : State) (r : RegDef) (i : Nat) (v : Word) : (s.setReg r i v).mem = s.mem := rfl
@[simp] theorem State.setReg_poison (s : State) (r : RegDef) (i : Nat) (v : Word) : (s.setReg r i v).poison = s.poison := rfl
@[simp] theorem State.setReg_time (s : State) (r : RegDef) (i : Nat) (v : Word) : (s.setReg r i v).time = s.time := rfl
@[simp] theorem State.setReg_free (s : State) (r : RegDef) (i : Nat) (v : Word) : (s.setReg r i v).free = s.free := rfl
@[simp] theorem State.setReg_com (s : State) (r : RegDef) (i : Nat) (v : Word) : (s.setReg r i v).com = s.com := rfl
@[simp] theorem State.setReg_roll (s : State) (r : RegDef) (i : Nat) (v : Word) : (s.setReg r i v).roll = s.roll := rfl
@[simp] theorem State.setReg_hbm (s : State) (r : RegDef) (i : Nat) (v : Word) : (s.setReg r i v).hbm = s.hbm := rfl
@[simp] theorem State.setReg_ledger (s : State) (r : RegDef) (i : Nat) (v : Word) : (s.setReg r i v).ledger = s.ledger := rfl
@[simp] theorem State.setReg_hep (s : State) (r : RegDef) (i : Nat) (v : Word) : (s.setReg r i v).hep = s.hep := rfl
@[simp] theorem State.setReg_stw (s : State) (r : RegDef) (i : Nat) (v : Word) : (s.setReg r i v).stw = s.stw := rfl
@[simp] theorem State.setReg_slu (s : State) (r : RegDef) (i : Nat) (v : Word) : (s.setReg r i v).slu = s.slu := rfl
@[simp] theorem State.setReg_tiles (s : State) (r : RegDef) (i : Nat) (v : Word) : (s.setReg r i v).tiles = s.tiles := rfl
@[simp] theorem State.setReg_mill (s : State) (r : RegDef) (i : Nat) (v : Word) : (s.setReg r i v).mill = s.mill := rfl
@[simp] theorem State.setReg_xlt (s : State) (r : RegDef) (i : Nat) (v : Word) : (s.setReg r i v).xlt = s.xlt := rfl
@[simp] theorem State.setReg_movers (s : State) (r : RegDef) (i : Nat) (v : Word) : (s.setReg r i v).movers = s.movers := rfl
@[simp] theorem State.setReg_movSeq (s : State) (r : RegDef) (i : Nat) (v : Word) : (s.setReg r i v).movSeq = s.movSeq := rfl
@[simp] theorem State.setReg_vst (s : State) (r : RegDef) (i : Nat) (v : Word) : (s.setReg r i v).vst = s.vst := rfl
@[simp] theorem State.setReg_rve (s : State) (r : RegDef) (i : Nat) (v : Word) : (s.setReg r i v).rve = s.rve := rfl
@[simp] theorem State.setReg_fmtTable (s : State) (r : RegDef) (i : Nat) (v : Word) : (s.setReg r i v).fmtTable = s.fmtTable := rfl
@[simp] theorem State.setReg_sites (s : State) (r : RegDef) (i : Nat) (v : Word) : (s.setReg r i v).sites = s.sites := rfl
@[simp] theorem State.setReg_fab (s : State) (r : RegDef) (i : Nat) (v : Word) : (s.setReg r i v).fab = s.fab := rfl
@[simp] theorem State.setReg_evq (s : State) (r : RegDef) (i : Nat) (v : Word) : (s.setReg r i v).evq = s.evq := rfl
@[simp] theorem State.setReg_pending (s : State) (r : RegDef) (i : Nat) (v : Word) : (s.setReg r i v).pending = s.pending := rfl
@[simp] theorem State.setReg_byte (s : State) (r : RegDef) (i : Nat) (v : Word) (k : Nat) : (s.setReg r i v).byte k = s.byte k := rfl
@[simp] theorem State.setReg_iface (s : State) (r : RegDef) (i : Nat) (v : Word) (k : Nat) : (s.setReg r i v).iface k = s.iface k := rfl
@[simp] theorem State.setReg_domSt (s : State) (r : RegDef) (i : Nat) (v : Word) (k : Nat) : (s.setReg r i v).domSt k = s.domSt k := rfl

/-! ### `resetReg` -/

@[simp] theorem State.resetReg_mem (s : State) (r : RegDef) (i : Nat) : (s.resetReg r i).mem = s.mem := rfl
@[simp] theorem State.resetReg_poison (s : State) (r : RegDef) (i : Nat) : (s.resetReg r i).poison = s.poison := rfl
@[simp] theorem State.resetReg_time (s : State) (r : RegDef) (i : Nat) : (s.resetReg r i).time = s.time := rfl
@[simp] theorem State.resetReg_free (s : State) (r : RegDef) (i : Nat) : (s.resetReg r i).free = s.free := rfl
@[simp] theorem State.resetReg_com (s : State) (r : RegDef) (i : Nat) : (s.resetReg r i).com = s.com := rfl
@[simp] theorem State.resetReg_roll (s : State) (r : RegDef) (i : Nat) : (s.resetReg r i).roll = s.roll := rfl
@[simp] theorem State.resetReg_hbm (s : State) (r : RegDef) (i : Nat) : (s.resetReg r i).hbm = s.hbm := rfl
@[simp] theorem State.resetReg_ledger (s : State) (r : RegDef) (i : Nat) : (s.resetReg r i).ledger = s.ledger := rfl
@[simp] theorem State.resetReg_hep (s : State) (r : RegDef) (i : Nat) : (s.resetReg r i).hep = s.hep := rfl
@[simp] theorem State.resetReg_stw (s : State) (r : RegDef) (i : Nat) : (s.resetReg r i).stw = s.stw := rfl
@[simp] theorem State.resetReg_slu (s : State) (r : RegDef) (i : Nat) : (s.resetReg r i).slu = s.slu := rfl
@[simp] theorem State.resetReg_tiles (s : State) (r : RegDef) (i : Nat) : (s.resetReg r i).tiles = s.tiles := rfl
@[simp] theorem State.resetReg_mill (s : State) (r : RegDef) (i : Nat) : (s.resetReg r i).mill = s.mill := rfl
@[simp] theorem State.resetReg_xlt (s : State) (r : RegDef) (i : Nat) : (s.resetReg r i).xlt = s.xlt := rfl
@[simp] theorem State.resetReg_movers (s : State) (r : RegDef) (i : Nat) : (s.resetReg r i).movers = s.movers := rfl
@[simp] theorem State.resetReg_movSeq (s : State) (r : RegDef) (i : Nat) : (s.resetReg r i).movSeq = s.movSeq := rfl
@[simp] theorem State.resetReg_vst (s : State) (r : RegDef) (i : Nat) : (s.resetReg r i).vst = s.vst := rfl
@[simp] theorem State.resetReg_rve (s : State) (r : RegDef) (i : Nat) : (s.resetReg r i).rve = s.rve := rfl
@[simp] theorem State.resetReg_fmtTable (s : State) (r : RegDef) (i : Nat) : (s.resetReg r i).fmtTable = s.fmtTable := rfl
@[simp] theorem State.resetReg_sites (s : State) (r : RegDef) (i : Nat) : (s.resetReg r i).sites = s.sites := rfl
@[simp] theorem State.resetReg_fab (s : State) (r : RegDef) (i : Nat) : (s.resetReg r i).fab = s.fab := rfl
@[simp] theorem State.resetReg_evq (s : State) (r : RegDef) (i : Nat) : (s.resetReg r i).evq = s.evq := rfl
@[simp] theorem State.resetReg_pending (s : State) (r : RegDef) (i : Nat) : (s.resetReg r i).pending = s.pending := rfl
@[simp] theorem State.resetReg_byte (s : State) (r : RegDef) (i : Nat) (k : Nat) : (s.resetReg r i).byte k = s.byte k := rfl
@[simp] theorem State.resetReg_iface (s : State) (r : RegDef) (i : Nat) (k : Nat) : (s.resetReg r i).iface k = s.iface k := rfl
@[simp] theorem State.resetReg_domSt (s : State) (r : RegDef) (i : Nat) (k : Nat) : (s.resetReg r i).domSt k = s.domSt k := rfl

/-! ### `wr` -/

@[simp] theorem State.wr_mem (s : State) (f : RF) (i x : Nat) : (s.wr f i x).mem = s.mem := rfl
@[simp] theorem State.wr_poison (s : State) (f : RF) (i x : Nat) : (s.wr f i x).poison = s.poison := rfl
@[simp] theorem State.wr_time (s : State) (f : RF) (i x : Nat) : (s.wr f i x).time = s.time := rfl
@[simp] theorem State.wr_free (s : State) (f : RF) (i x : Nat) : (s.wr f i x).free = s.free := rfl
@[simp] theorem State.wr_com (s : State) (f : RF) (i x : Nat) : (s.wr f i x).com = s.com := rfl
@[simp] theorem State.wr_roll (s : State) (f : RF) (i x : Nat) : (s.wr f i x).roll = s.roll := rfl
@[simp] theorem State.wr_hbm (s : State) (f : RF) (i x : Nat) : (s.wr f i x).hbm = s.hbm := rfl
@[simp] theorem State.wr_ledger (s : State) (f : RF) (i x : Nat) : (s.wr f i x).ledger = s.ledger := rfl
@[simp] theorem State.wr_hep (s : State) (f : RF) (i x : Nat) : (s.wr f i x).hep = s.hep := rfl
@[simp] theorem State.wr_stw (s : State) (f : RF) (i x : Nat) : (s.wr f i x).stw = s.stw := rfl
@[simp] theorem State.wr_slu (s : State) (f : RF) (i x : Nat) : (s.wr f i x).slu = s.slu := rfl
@[simp] theorem State.wr_tiles (s : State) (f : RF) (i x : Nat) : (s.wr f i x).tiles = s.tiles := rfl
@[simp] theorem State.wr_mill (s : State) (f : RF) (i x : Nat) : (s.wr f i x).mill = s.mill := rfl
@[simp] theorem State.wr_xlt (s : State) (f : RF) (i x : Nat) : (s.wr f i x).xlt = s.xlt := rfl
@[simp] theorem State.wr_movers (s : State) (f : RF) (i x : Nat) : (s.wr f i x).movers = s.movers := rfl
@[simp] theorem State.wr_movSeq (s : State) (f : RF) (i x : Nat) : (s.wr f i x).movSeq = s.movSeq := rfl
@[simp] theorem State.wr_vst (s : State) (f : RF) (i x : Nat) : (s.wr f i x).vst = s.vst := rfl
@[simp] theorem State.wr_rve (s : State) (f : RF) (i x : Nat) : (s.wr f i x).rve = s.rve := rfl
@[simp] theorem State.wr_fmtTable (s : State) (f : RF) (i x : Nat) : (s.wr f i x).fmtTable = s.fmtTable := rfl
@[simp] theorem State.wr_sites (s : State) (f : RF) (i x : Nat) : (s.wr f i x).sites = s.sites := rfl
@[simp] theorem State.wr_fab (s : State) (f : RF) (i x : Nat) : (s.wr f i x).fab = s.fab := rfl
@[simp] theorem State.wr_evq (s : State) (f : RF) (i x : Nat) : (s.wr f i x).evq = s.evq := rfl
@[simp] theorem State.wr_pending (s : State) (f : RF) (i x : Nat) : (s.wr f i x).pending = s.pending := rfl
@[simp] theorem State.wr_byte (s : State) (f : RF) (i x : Nat) (k : Nat) : (s.wr f i x).byte k = s.byte k := rfl
@[simp] theorem State.wr_iface (s : State) (f : RF) (i x : Nat) (k : Nat) : (s.wr f i x).iface k = s.iface k := rfl
@[simp] theorem State.wr_domSt (s : State) (f : RF) (i x : Nat) (k : Nat) : (s.wr f i x).domSt k = s.domSt k := rfl

/-! ### `inc` -/

@[simp] theorem State.inc_mem (s : State) (f : RF) (i n : Nat) : (s.inc f i n).mem = s.mem := rfl
@[simp] theorem State.inc_poison (s : State) (f : RF) (i n : Nat) : (s.inc f i n).poison = s.poison := rfl
@[simp] theorem State.inc_time (s : State) (f : RF) (i n : Nat) : (s.inc f i n).time = s.time := rfl
@[simp] theorem State.inc_free (s : State) (f : RF) (i n : Nat) : (s.inc f i n).free = s.free := rfl
@[simp] theorem State.inc_com (s : State) (f : RF) (i n : Nat) : (s.inc f i n).com = s.com := rfl
@[simp] theorem State.inc_roll (s : State) (f : RF) (i n : Nat) : (s.inc f i n).roll = s.roll := rfl
@[simp] theorem State.inc_hbm (s : State) (f : RF) (i n : Nat) : (s.inc f i n).hbm = s.hbm := rfl
@[simp] theorem State.inc_ledger (s : State) (f : RF) (i n : Nat) : (s.inc f i n).ledger = s.ledger := rfl
@[simp] theorem State.inc_hep (s : State) (f : RF) (i n : Nat) : (s.inc f i n).hep = s.hep := rfl
@[simp] theorem State.inc_stw (s : State) (f : RF) (i n : Nat) : (s.inc f i n).stw = s.stw := rfl
@[simp] theorem State.inc_slu (s : State) (f : RF) (i n : Nat) : (s.inc f i n).slu = s.slu := rfl
@[simp] theorem State.inc_tiles (s : State) (f : RF) (i n : Nat) : (s.inc f i n).tiles = s.tiles := rfl
@[simp] theorem State.inc_mill (s : State) (f : RF) (i n : Nat) : (s.inc f i n).mill = s.mill := rfl
@[simp] theorem State.inc_xlt (s : State) (f : RF) (i n : Nat) : (s.inc f i n).xlt = s.xlt := rfl
@[simp] theorem State.inc_movers (s : State) (f : RF) (i n : Nat) : (s.inc f i n).movers = s.movers := rfl
@[simp] theorem State.inc_movSeq (s : State) (f : RF) (i n : Nat) : (s.inc f i n).movSeq = s.movSeq := rfl
@[simp] theorem State.inc_vst (s : State) (f : RF) (i n : Nat) : (s.inc f i n).vst = s.vst := rfl
@[simp] theorem State.inc_rve (s : State) (f : RF) (i n : Nat) : (s.inc f i n).rve = s.rve := rfl
@[simp] theorem State.inc_fmtTable (s : State) (f : RF) (i n : Nat) : (s.inc f i n).fmtTable = s.fmtTable := rfl
@[simp] theorem State.inc_sites (s : State) (f : RF) (i n : Nat) : (s.inc f i n).sites = s.sites := rfl
@[simp] theorem State.inc_fab (s : State) (f : RF) (i n : Nat) : (s.inc f i n).fab = s.fab := rfl
@[simp] theorem State.inc_evq (s : State) (f : RF) (i n : Nat) : (s.inc f i n).evq = s.evq := rfl
@[simp] theorem State.inc_pending (s : State) (f : RF) (i n : Nat) : (s.inc f i n).pending = s.pending := rfl
@[simp] theorem State.inc_byte (s : State) (f : RF) (i n : Nat) (k : Nat) : (s.inc f i n).byte k = s.byte k := rfl
@[simp] theorem State.inc_iface (s : State) (f : RF) (i n : Nat) (k : Nat) : (s.inc f i n).iface k = s.iface k := rfl
@[simp] theorem State.inc_domSt (s : State) (f : RF) (i n : Nat) (k : Nat) : (s.inc f i n).domSt k = s.domSt k := rfl

/-! ### `setByte` -/

@[simp] theorem State.setByte_regs (s : State) (a : Nat) (b : Byte) : (s.setByte a b).regs = s.regs := rfl
@[simp] theorem State.setByte_poison (s : State) (a : Nat) (b : Byte) : (s.setByte a b).poison = s.poison := rfl
@[simp] theorem State.setByte_time (s : State) (a : Nat) (b : Byte) : (s.setByte a b).time = s.time := rfl
@[simp] theorem State.setByte_free (s : State) (a : Nat) (b : Byte) : (s.setByte a b).free = s.free := rfl
@[simp] theorem State.setByte_com (s : State) (a : Nat) (b : Byte) : (s.setByte a b).com = s.com := rfl
@[simp] theorem State.setByte_roll (s : State) (a : Nat) (b : Byte) : (s.setByte a b).roll = s.roll := rfl
@[simp] theorem State.setByte_hbm (s : State) (a : Nat) (b : Byte) : (s.setByte a b).hbm = s.hbm := rfl
@[simp] theorem State.setByte_ledger (s : State) (a : Nat) (b : Byte) : (s.setByte a b).ledger = s.ledger := rfl
@[simp] theorem State.setByte_hep (s : State) (a : Nat) (b : Byte) : (s.setByte a b).hep = s.hep := rfl
@[simp] theorem State.setByte_stw (s : State) (a : Nat) (b : Byte) : (s.setByte a b).stw = s.stw := rfl
@[simp] theorem State.setByte_slu (s : State) (a : Nat) (b : Byte) : (s.setByte a b).slu = s.slu := rfl
@[simp] theorem State.setByte_tiles (s : State) (a : Nat) (b : Byte) : (s.setByte a b).tiles = s.tiles := rfl
@[simp] theorem State.setByte_mill (s : State) (a : Nat) (b : Byte) : (s.setByte a b).mill = s.mill := rfl
@[simp] theorem State.setByte_xlt (s : State) (a : Nat) (b : Byte) : (s.setByte a b).xlt = s.xlt := rfl
@[simp] theorem State.setByte_movers (s : State) (a : Nat) (b : Byte) : (s.setByte a b).movers = s.movers := rfl
@[simp] theorem State.setByte_movSeq (s : State) (a : Nat) (b : Byte) : (s.setByte a b).movSeq = s.movSeq := rfl
@[simp] theorem State.setByte_vst (s : State) (a : Nat) (b : Byte) : (s.setByte a b).vst = s.vst := rfl
@[simp] theorem State.setByte_rve (s : State) (a : Nat) (b : Byte) : (s.setByte a b).rve = s.rve := rfl
@[simp] theorem State.setByte_fmtTable (s : State) (a : Nat) (b : Byte) : (s.setByte a b).fmtTable = s.fmtTable := rfl
@[simp] theorem State.setByte_sites (s : State) (a : Nat) (b : Byte) : (s.setByte a b).sites = s.sites := rfl
@[simp] theorem State.setByte_fab (s : State) (a : Nat) (b : Byte) : (s.setByte a b).fab = s.fab := rfl
@[simp] theorem State.setByte_evq (s : State) (a : Nat) (b : Byte) : (s.setByte a b).evq = s.evq := rfl
@[simp] theorem State.setByte_pending (s : State) (a : Nat) (b : Byte) : (s.setByte a b).pending = s.pending := rfl
@[simp] theorem State.setByte_reg (s : State) (a : Nat) (b : Byte) (rr : RegDef) (k : Nat) : (s.setByte a b).reg rr k = s.reg rr k := rfl
@[simp] theorem State.setByte_rd (s : State) (a : Nat) (b : Byte) (g : RF) (k : Nat) : (s.setByte a b).rd g k = s.rd g k := rfl
@[simp] theorem State.setByte_flag (s : State) (a : Nat) (b : Byte) (g : RF) (k : Nat) : (s.setByte a b).flag g k = s.flag g k := rfl
@[simp] theorem State.setByte_iface (s : State) (a : Nat) (b : Byte) (k : Nat) : (s.setByte a b).iface k = s.iface k := rfl
@[simp] theorem State.setByte_domSt (s : State) (a : Nat) (b : Byte) (k : Nat) : (s.setByte a b).domSt k = s.domSt k := rfl

/-! ### `poisonLine` -/

@[simp] theorem State.poisonLine_regs (s : State) (l : Nat) : (s.poisonLine l).regs = s.regs := rfl
@[simp] theorem State.poisonLine_mem (s : State) (l : Nat) : (s.poisonLine l).mem = s.mem := rfl
@[simp] theorem State.poisonLine_time (s : State) (l : Nat) : (s.poisonLine l).time = s.time := rfl
@[simp] theorem State.poisonLine_free (s : State) (l : Nat) : (s.poisonLine l).free = s.free := rfl
@[simp] theorem State.poisonLine_com (s : State) (l : Nat) : (s.poisonLine l).com = s.com := rfl
@[simp] theorem State.poisonLine_roll (s : State) (l : Nat) : (s.poisonLine l).roll = s.roll := rfl
@[simp] theorem State.poisonLine_hbm (s : State) (l : Nat) : (s.poisonLine l).hbm = s.hbm := rfl
@[simp] theorem State.poisonLine_ledger (s : State) (l : Nat) : (s.poisonLine l).ledger = s.ledger := rfl
@[simp] theorem State.poisonLine_hep (s : State) (l : Nat) : (s.poisonLine l).hep = s.hep := rfl
@[simp] theorem State.poisonLine_stw (s : State) (l : Nat) : (s.poisonLine l).stw = s.stw := rfl
@[simp] theorem State.poisonLine_slu (s : State) (l : Nat) : (s.poisonLine l).slu = s.slu := rfl
@[simp] theorem State.poisonLine_tiles (s : State) (l : Nat) : (s.poisonLine l).tiles = s.tiles := rfl
@[simp] theorem State.poisonLine_mill (s : State) (l : Nat) : (s.poisonLine l).mill = s.mill := rfl
@[simp] theorem State.poisonLine_xlt (s : State) (l : Nat) : (s.poisonLine l).xlt = s.xlt := rfl
@[simp] theorem State.poisonLine_movers (s : State) (l : Nat) : (s.poisonLine l).movers = s.movers := rfl
@[simp] theorem State.poisonLine_movSeq (s : State) (l : Nat) : (s.poisonLine l).movSeq = s.movSeq := rfl
@[simp] theorem State.poisonLine_vst (s : State) (l : Nat) : (s.poisonLine l).vst = s.vst := rfl
@[simp] theorem State.poisonLine_rve (s : State) (l : Nat) : (s.poisonLine l).rve = s.rve := rfl
@[simp] theorem State.poisonLine_fmtTable (s : State) (l : Nat) : (s.poisonLine l).fmtTable = s.fmtTable := rfl
@[simp] theorem State.poisonLine_sites (s : State) (l : Nat) : (s.poisonLine l).sites = s.sites := rfl
@[simp] theorem State.poisonLine_fab (s : State) (l : Nat) : (s.poisonLine l).fab = s.fab := rfl
@[simp] theorem State.poisonLine_evq (s : State) (l : Nat) : (s.poisonLine l).evq = s.evq := rfl
@[simp] theorem State.poisonLine_pending (s : State) (l : Nat) : (s.poisonLine l).pending = s.pending := rfl
@[simp] theorem State.poisonLine_reg (s : State) (l : Nat) (rr : RegDef) (k : Nat) : (s.poisonLine l).reg rr k = s.reg rr k := rfl
@[simp] theorem State.poisonLine_rd (s : State) (l : Nat) (g : RF) (k : Nat) : (s.poisonLine l).rd g k = s.rd g k := rfl
@[simp] theorem State.poisonLine_flag (s : State) (l : Nat) (g : RF) (k : Nat) : (s.poisonLine l).flag g k = s.flag g k := rfl
@[simp] theorem State.poisonLine_byte (s : State) (l : Nat) (k : Nat) : (s.poisonLine l).byte k = s.byte k := rfl
@[simp] theorem State.poisonLine_iface (s : State) (l : Nat) (k : Nat) : (s.poisonLine l).iface k = s.iface k := rfl
@[simp] theorem State.poisonLine_domSt (s : State) (l : Nat) (k : Nat) : (s.poisonLine l).domSt k = s.domSt k := rfl

/-! ### `unpoisonLine` -/

@[simp] theorem State.unpoisonLine_regs (s : State) (l : Nat) : (s.unpoisonLine l).regs = s.regs := rfl
@[simp] theorem State.unpoisonLine_mem (s : State) (l : Nat) : (s.unpoisonLine l).mem = s.mem := rfl
@[simp] theorem State.unpoisonLine_time (s : State) (l : Nat) : (s.unpoisonLine l).time = s.time := rfl
@[simp] theorem State.unpoisonLine_free (s : State) (l : Nat) : (s.unpoisonLine l).free = s.free := rfl
@[simp] theorem State.unpoisonLine_com (s : State) (l : Nat) : (s.unpoisonLine l).com = s.com := rfl
@[simp] theorem State.unpoisonLine_roll (s : State) (l : Nat) : (s.unpoisonLine l).roll = s.roll := rfl
@[simp] theorem State.unpoisonLine_hbm (s : State) (l : Nat) : (s.unpoisonLine l).hbm = s.hbm := rfl
@[simp] theorem State.unpoisonLine_ledger (s : State) (l : Nat) : (s.unpoisonLine l).ledger = s.ledger := rfl
@[simp] theorem State.unpoisonLine_hep (s : State) (l : Nat) : (s.unpoisonLine l).hep = s.hep := rfl
@[simp] theorem State.unpoisonLine_stw (s : State) (l : Nat) : (s.unpoisonLine l).stw = s.stw := rfl
@[simp] theorem State.unpoisonLine_slu (s : State) (l : Nat) : (s.unpoisonLine l).slu = s.slu := rfl
@[simp] theorem State.unpoisonLine_tiles (s : State) (l : Nat) : (s.unpoisonLine l).tiles = s.tiles := rfl
@[simp] theorem State.unpoisonLine_mill (s : State) (l : Nat) : (s.unpoisonLine l).mill = s.mill := rfl
@[simp] theorem State.unpoisonLine_xlt (s : State) (l : Nat) : (s.unpoisonLine l).xlt = s.xlt := rfl
@[simp] theorem State.unpoisonLine_movers (s : State) (l : Nat) : (s.unpoisonLine l).movers = s.movers := rfl
@[simp] theorem State.unpoisonLine_movSeq (s : State) (l : Nat) : (s.unpoisonLine l).movSeq = s.movSeq := rfl
@[simp] theorem State.unpoisonLine_vst (s : State) (l : Nat) : (s.unpoisonLine l).vst = s.vst := rfl
@[simp] theorem State.unpoisonLine_rve (s : State) (l : Nat) : (s.unpoisonLine l).rve = s.rve := rfl
@[simp] theorem State.unpoisonLine_fmtTable (s : State) (l : Nat) : (s.unpoisonLine l).fmtTable = s.fmtTable := rfl
@[simp] theorem State.unpoisonLine_sites (s : State) (l : Nat) : (s.unpoisonLine l).sites = s.sites := rfl
@[simp] theorem State.unpoisonLine_fab (s : State) (l : Nat) : (s.unpoisonLine l).fab = s.fab := rfl
@[simp] theorem State.unpoisonLine_evq (s : State) (l : Nat) : (s.unpoisonLine l).evq = s.evq := rfl
@[simp] theorem State.unpoisonLine_pending (s : State) (l : Nat) : (s.unpoisonLine l).pending = s.pending := rfl
@[simp] theorem State.unpoisonLine_reg (s : State) (l : Nat) (rr : RegDef) (k : Nat) : (s.unpoisonLine l).reg rr k = s.reg rr k := rfl
@[simp] theorem State.unpoisonLine_rd (s : State) (l : Nat) (g : RF) (k : Nat) : (s.unpoisonLine l).rd g k = s.rd g k := rfl
@[simp] theorem State.unpoisonLine_flag (s : State) (l : Nat) (g : RF) (k : Nat) : (s.unpoisonLine l).flag g k = s.flag g k := rfl
@[simp] theorem State.unpoisonLine_byte (s : State) (l : Nat) (k : Nat) : (s.unpoisonLine l).byte k = s.byte k := rfl
@[simp] theorem State.unpoisonLine_iface (s : State) (l : Nat) (k : Nat) : (s.unpoisonLine l).iface k = s.iface k := rfl
@[simp] theorem State.unpoisonLine_domSt (s : State) (l : Nat) (k : Nat) : (s.unpoisonLine l).domSt k = s.domSt k := rfl

/-! ### `zeroRange` -/

@[simp] theorem State.zeroRange_regs (s : State) (lo hi : Nat) : (s.zeroRange lo hi).regs = s.regs := rfl
@[simp] theorem State.zeroRange_time (s : State) (lo hi : Nat) : (s.zeroRange lo hi).time = s.time := rfl
@[simp] theorem State.zeroRange_free (s : State) (lo hi : Nat) : (s.zeroRange lo hi).free = s.free := rfl
@[simp] theorem State.zeroRange_com (s : State) (lo hi : Nat) : (s.zeroRange lo hi).com = s.com := rfl
@[simp] theorem State.zeroRange_roll (s : State) (lo hi : Nat) : (s.zeroRange lo hi).roll = s.roll := rfl
@[simp] theorem State.zeroRange_hbm (s : State) (lo hi : Nat) : (s.zeroRange lo hi).hbm = s.hbm := rfl
@[simp] theorem State.zeroRange_ledger (s : State) (lo hi : Nat) : (s.zeroRange lo hi).ledger = s.ledger := rfl
@[simp] theorem State.zeroRange_hep (s : State) (lo hi : Nat) : (s.zeroRange lo hi).hep = s.hep := rfl
@[simp] theorem State.zeroRange_stw (s : State) (lo hi : Nat) : (s.zeroRange lo hi).stw = s.stw := rfl
@[simp] theorem State.zeroRange_slu (s : State) (lo hi : Nat) : (s.zeroRange lo hi).slu = s.slu := rfl
@[simp] theorem State.zeroRange_tiles (s : State) (lo hi : Nat) : (s.zeroRange lo hi).tiles = s.tiles := rfl
@[simp] theorem State.zeroRange_mill (s : State) (lo hi : Nat) : (s.zeroRange lo hi).mill = s.mill := rfl
@[simp] theorem State.zeroRange_xlt (s : State) (lo hi : Nat) : (s.zeroRange lo hi).xlt = s.xlt := rfl
@[simp] theorem State.zeroRange_movers (s : State) (lo hi : Nat) : (s.zeroRange lo hi).movers = s.movers := rfl
@[simp] theorem State.zeroRange_movSeq (s : State) (lo hi : Nat) : (s.zeroRange lo hi).movSeq = s.movSeq := rfl
@[simp] theorem State.zeroRange_vst (s : State) (lo hi : Nat) : (s.zeroRange lo hi).vst = s.vst := rfl
@[simp] theorem State.zeroRange_rve (s : State) (lo hi : Nat) : (s.zeroRange lo hi).rve = s.rve := rfl
@[simp] theorem State.zeroRange_fmtTable (s : State) (lo hi : Nat) : (s.zeroRange lo hi).fmtTable = s.fmtTable := rfl
@[simp] theorem State.zeroRange_sites (s : State) (lo hi : Nat) : (s.zeroRange lo hi).sites = s.sites := rfl
@[simp] theorem State.zeroRange_fab (s : State) (lo hi : Nat) : (s.zeroRange lo hi).fab = s.fab := rfl
@[simp] theorem State.zeroRange_evq (s : State) (lo hi : Nat) : (s.zeroRange lo hi).evq = s.evq := rfl
@[simp] theorem State.zeroRange_pending (s : State) (lo hi : Nat) : (s.zeroRange lo hi).pending = s.pending := rfl
@[simp] theorem State.zeroRange_reg (s : State) (lo hi : Nat) (rr : RegDef) (k : Nat) : (s.zeroRange lo hi).reg rr k = s.reg rr k := rfl
@[simp] theorem State.zeroRange_rd (s : State) (lo hi : Nat) (g : RF) (k : Nat) : (s.zeroRange lo hi).rd g k = s.rd g k := rfl
@[simp] theorem State.zeroRange_flag (s : State) (lo hi : Nat) (g : RF) (k : Nat) : (s.zeroRange lo hi).flag g k = s.flag g k := rfl
@[simp] theorem State.zeroRange_iface (s : State) (lo hi : Nat) (k : Nat) : (s.zeroRange lo hi).iface k = s.iface k := rfl
@[simp] theorem State.zeroRange_domSt (s : State) (lo hi : Nat) (k : Nat) : (s.zeroRange lo hi).domSt k = s.domSt k := rfl

/-! ### `fresh` -/

@[simp] theorem State.fresh_regs (s : State) (n : Nat) : (s.fresh n).regs = s.regs := rfl
@[simp] theorem State.fresh_mem (s : State) (n : Nat) : (s.fresh n).mem = s.mem := rfl
@[simp] theorem State.fresh_poison (s : State) (n : Nat) : (s.fresh n).poison = s.poison := rfl
@[simp] theorem State.fresh_time (s : State) (n : Nat) : (s.fresh n).time = s.time := rfl
@[simp] theorem State.fresh_com (s : State) (n : Nat) : (s.fresh n).com = s.com := rfl
@[simp] theorem State.fresh_roll (s : State) (n : Nat) : (s.fresh n).roll = s.roll := rfl
@[simp] theorem State.fresh_hbm (s : State) (n : Nat) : (s.fresh n).hbm = s.hbm := rfl
@[simp] theorem State.fresh_ledger (s : State) (n : Nat) : (s.fresh n).ledger = s.ledger := rfl
@[simp] theorem State.fresh_hep (s : State) (n : Nat) : (s.fresh n).hep = s.hep := rfl
@[simp] theorem State.fresh_stw (s : State) (n : Nat) : (s.fresh n).stw = s.stw := rfl
@[simp] theorem State.fresh_slu (s : State) (n : Nat) : (s.fresh n).slu = s.slu := rfl
@[simp] theorem State.fresh_tiles (s : State) (n : Nat) : (s.fresh n).tiles = s.tiles := rfl
@[simp] theorem State.fresh_mill (s : State) (n : Nat) : (s.fresh n).mill = s.mill := rfl
@[simp] theorem State.fresh_xlt (s : State) (n : Nat) : (s.fresh n).xlt = s.xlt := rfl
@[simp] theorem State.fresh_movers (s : State) (n : Nat) : (s.fresh n).movers = s.movers := rfl
@[simp] theorem State.fresh_movSeq (s : State) (n : Nat) : (s.fresh n).movSeq = s.movSeq := rfl
@[simp] theorem State.fresh_vst (s : State) (n : Nat) : (s.fresh n).vst = s.vst := rfl
@[simp] theorem State.fresh_rve (s : State) (n : Nat) : (s.fresh n).rve = s.rve := rfl
@[simp] theorem State.fresh_fmtTable (s : State) (n : Nat) : (s.fresh n).fmtTable = s.fmtTable := rfl
@[simp] theorem State.fresh_sites (s : State) (n : Nat) : (s.fresh n).sites = s.sites := rfl
@[simp] theorem State.fresh_fab (s : State) (n : Nat) : (s.fresh n).fab = s.fab := rfl
@[simp] theorem State.fresh_evq (s : State) (n : Nat) : (s.fresh n).evq = s.evq := rfl
@[simp] theorem State.fresh_pending (s : State) (n : Nat) : (s.fresh n).pending = s.pending := rfl
@[simp] theorem State.fresh_reg (s : State) (n : Nat) (rr : RegDef) (k : Nat) : (s.fresh n).reg rr k = s.reg rr k := rfl
@[simp] theorem State.fresh_rd (s : State) (n : Nat) (g : RF) (k : Nat) : (s.fresh n).rd g k = s.rd g k := rfl
@[simp] theorem State.fresh_flag (s : State) (n : Nat) (g : RF) (k : Nat) : (s.fresh n).flag g k = s.flag g k := rfl
@[simp] theorem State.fresh_byte (s : State) (n : Nat) (k : Nat) : (s.fresh n).byte k = s.byte k := rfl
@[simp] theorem State.fresh_iface (s : State) (n : Nat) (k : Nat) : (s.fresh n).iface k = s.iface k := rfl
@[simp] theorem State.fresh_domSt (s : State) (n : Nat) (k : Nat) : (s.fresh n).domSt k = s.domSt k := rfl

/-! ### `raise` -/

@[simp] theorem State.raise_regs (s : State) (code sev agent a0 a1 : Nat) : (s.raise code sev agent a0 a1).regs = s.regs := rfl
@[simp] theorem State.raise_mem (s : State) (code sev agent a0 a1 : Nat) : (s.raise code sev agent a0 a1).mem = s.mem := rfl
@[simp] theorem State.raise_poison (s : State) (code sev agent a0 a1 : Nat) : (s.raise code sev agent a0 a1).poison = s.poison := rfl
@[simp] theorem State.raise_time (s : State) (code sev agent a0 a1 : Nat) : (s.raise code sev agent a0 a1).time = s.time := rfl
@[simp] theorem State.raise_free (s : State) (code sev agent a0 a1 : Nat) : (s.raise code sev agent a0 a1).free = s.free := rfl
@[simp] theorem State.raise_com (s : State) (code sev agent a0 a1 : Nat) : (s.raise code sev agent a0 a1).com = s.com := rfl
@[simp] theorem State.raise_roll (s : State) (code sev agent a0 a1 : Nat) : (s.raise code sev agent a0 a1).roll = s.roll := rfl
@[simp] theorem State.raise_hbm (s : State) (code sev agent a0 a1 : Nat) : (s.raise code sev agent a0 a1).hbm = s.hbm := rfl
@[simp] theorem State.raise_ledger (s : State) (code sev agent a0 a1 : Nat) : (s.raise code sev agent a0 a1).ledger = s.ledger := rfl
@[simp] theorem State.raise_hep (s : State) (code sev agent a0 a1 : Nat) : (s.raise code sev agent a0 a1).hep = s.hep := rfl
@[simp] theorem State.raise_stw (s : State) (code sev agent a0 a1 : Nat) : (s.raise code sev agent a0 a1).stw = s.stw := rfl
@[simp] theorem State.raise_slu (s : State) (code sev agent a0 a1 : Nat) : (s.raise code sev agent a0 a1).slu = s.slu := rfl
@[simp] theorem State.raise_tiles (s : State) (code sev agent a0 a1 : Nat) : (s.raise code sev agent a0 a1).tiles = s.tiles := rfl
@[simp] theorem State.raise_mill (s : State) (code sev agent a0 a1 : Nat) : (s.raise code sev agent a0 a1).mill = s.mill := rfl
@[simp] theorem State.raise_xlt (s : State) (code sev agent a0 a1 : Nat) : (s.raise code sev agent a0 a1).xlt = s.xlt := rfl
@[simp] theorem State.raise_movers (s : State) (code sev agent a0 a1 : Nat) : (s.raise code sev agent a0 a1).movers = s.movers := rfl
@[simp] theorem State.raise_movSeq (s : State) (code sev agent a0 a1 : Nat) : (s.raise code sev agent a0 a1).movSeq = s.movSeq := rfl
@[simp] theorem State.raise_vst (s : State) (code sev agent a0 a1 : Nat) : (s.raise code sev agent a0 a1).vst = s.vst := rfl
@[simp] theorem State.raise_rve (s : State) (code sev agent a0 a1 : Nat) : (s.raise code sev agent a0 a1).rve = s.rve := rfl
@[simp] theorem State.raise_fmtTable (s : State) (code sev agent a0 a1 : Nat) : (s.raise code sev agent a0 a1).fmtTable = s.fmtTable := rfl
@[simp] theorem State.raise_sites (s : State) (code sev agent a0 a1 : Nat) : (s.raise code sev agent a0 a1).sites = s.sites := rfl
@[simp] theorem State.raise_fab (s : State) (code sev agent a0 a1 : Nat) : (s.raise code sev agent a0 a1).fab = s.fab := rfl
@[simp] theorem State.raise_pending (s : State) (code sev agent a0 a1 : Nat) : (s.raise code sev agent a0 a1).pending = s.pending := rfl
@[simp] theorem State.raise_reg (s : State) (code sev agent a0 a1 : Nat) (rr : RegDef) (k : Nat) : (s.raise code sev agent a0 a1).reg rr k = s.reg rr k := rfl
@[simp] theorem State.raise_rd (s : State) (code sev agent a0 a1 : Nat) (g : RF) (k : Nat) : (s.raise code sev agent a0 a1).rd g k = s.rd g k := rfl
@[simp] theorem State.raise_flag (s : State) (code sev agent a0 a1 : Nat) (g : RF) (k : Nat) : (s.raise code sev agent a0 a1).flag g k = s.flag g k := rfl
@[simp] theorem State.raise_byte (s : State) (code sev agent a0 a1 : Nat) (k : Nat) : (s.raise code sev agent a0 a1).byte k = s.byte k := rfl
@[simp] theorem State.raise_iface (s : State) (code sev agent a0 a1 : Nat) (k : Nat) : (s.raise code sev agent a0 a1).iface k = s.iface k := rfl
@[simp] theorem State.raise_domSt (s : State) (code sev agent a0 a1 : Nat) (k : Nat) : (s.raise code sev agent a0 a1).domSt k = s.domSt k := rfl

/-! ### `setDom` -/

@[simp] theorem State.setDom_regs (s : State) (d st : Nat) : (s.setDom d st).regs = s.regs := rfl
@[simp] theorem State.setDom_mem (s : State) (d st : Nat) : (s.setDom d st).mem = s.mem := rfl
@[simp] theorem State.setDom_poison (s : State) (d st : Nat) : (s.setDom d st).poison = s.poison := rfl
@[simp] theorem State.setDom_time (s : State) (d st : Nat) : (s.setDom d st).time = s.time := rfl
@[simp] theorem State.setDom_free (s : State) (d st : Nat) : (s.setDom d st).free = s.free := rfl
@[simp] theorem State.setDom_roll (s : State) (d st : Nat) : (s.setDom d st).roll = s.roll := rfl
@[simp] theorem State.setDom_hbm (s : State) (d st : Nat) : (s.setDom d st).hbm = s.hbm := rfl
@[simp] theorem State.setDom_ledger (s : State) (d st : Nat) : (s.setDom d st).ledger = s.ledger := rfl
@[simp] theorem State.setDom_hep (s : State) (d st : Nat) : (s.setDom d st).hep = s.hep := rfl
@[simp] theorem State.setDom_stw (s : State) (d st : Nat) : (s.setDom d st).stw = s.stw := rfl
@[simp] theorem State.setDom_slu (s : State) (d st : Nat) : (s.setDom d st).slu = s.slu := rfl
@[simp] theorem State.setDom_tiles (s : State) (d st : Nat) : (s.setDom d st).tiles = s.tiles := rfl
@[simp] theorem State.setDom_mill (s : State) (d st : Nat) : (s.setDom d st).mill = s.mill := rfl
@[simp] theorem State.setDom_xlt (s : State) (d st : Nat) : (s.setDom d st).xlt = s.xlt := rfl
@[simp] theorem State.setDom_movers (s : State) (d st : Nat) : (s.setDom d st).movers = s.movers := rfl
@[simp] theorem State.setDom_movSeq (s : State) (d st : Nat) : (s.setDom d st).movSeq = s.movSeq := rfl
@[simp] theorem State.setDom_vst (s : State) (d st : Nat) : (s.setDom d st).vst = s.vst := rfl
@[simp] theorem State.setDom_rve (s : State) (d st : Nat) : (s.setDom d st).rve = s.rve := rfl
@[simp] theorem State.setDom_fmtTable (s : State) (d st : Nat) : (s.setDom d st).fmtTable = s.fmtTable := rfl
@[simp] theorem State.setDom_sites (s : State) (d st : Nat) : (s.setDom d st).sites = s.sites := rfl
@[simp] theorem State.setDom_fab (s : State) (d st : Nat) : (s.setDom d st).fab = s.fab := rfl
@[simp] theorem State.setDom_evq (s : State) (d st : Nat) : (s.setDom d st).evq = s.evq := rfl
@[simp] theorem State.setDom_pending (s : State) (d st : Nat) : (s.setDom d st).pending = s.pending := rfl
@[simp] theorem State.setDom_reg (s : State) (d st : Nat) (rr : RegDef) (k : Nat) : (s.setDom d st).reg rr k = s.reg rr k := rfl
@[simp] theorem State.setDom_rd (s : State) (d st : Nat) (g : RF) (k : Nat) : (s.setDom d st).rd g k = s.rd g k := rfl
@[simp] theorem State.setDom_flag (s : State) (d st : Nat) (g : RF) (k : Nat) : (s.setDom d st).flag g k = s.flag g k := rfl
@[simp] theorem State.setDom_byte (s : State) (d st : Nat) (k : Nat) : (s.setDom d st).byte k = s.byte k := rfl

/-! ### `updIface` -/

@[simp] theorem State.updIface_regs (s : State) (p : Nat) (f : Iface → Iface) : (s.updIface p f).regs = s.regs := rfl
@[simp] theorem State.updIface_mem (s : State) (p : Nat) (f : Iface → Iface) : (s.updIface p f).mem = s.mem := rfl
@[simp] theorem State.updIface_poison (s : State) (p : Nat) (f : Iface → Iface) : (s.updIface p f).poison = s.poison := rfl
@[simp] theorem State.updIface_time (s : State) (p : Nat) (f : Iface → Iface) : (s.updIface p f).time = s.time := rfl
@[simp] theorem State.updIface_free (s : State) (p : Nat) (f : Iface → Iface) : (s.updIface p f).free = s.free := rfl
@[simp] theorem State.updIface_roll (s : State) (p : Nat) (f : Iface → Iface) : (s.updIface p f).roll = s.roll := rfl
@[simp] theorem State.updIface_hbm (s : State) (p : Nat) (f : Iface → Iface) : (s.updIface p f).hbm = s.hbm := rfl
@[simp] theorem State.updIface_ledger (s : State) (p : Nat) (f : Iface → Iface) : (s.updIface p f).ledger = s.ledger := rfl
@[simp] theorem State.updIface_hep (s : State) (p : Nat) (f : Iface → Iface) : (s.updIface p f).hep = s.hep := rfl
@[simp] theorem State.updIface_stw (s : State) (p : Nat) (f : Iface → Iface) : (s.updIface p f).stw = s.stw := rfl
@[simp] theorem State.updIface_slu (s : State) (p : Nat) (f : Iface → Iface) : (s.updIface p f).slu = s.slu := rfl
@[simp] theorem State.updIface_tiles (s : State) (p : Nat) (f : Iface → Iface) : (s.updIface p f).tiles = s.tiles := rfl
@[simp] theorem State.updIface_mill (s : State) (p : Nat) (f : Iface → Iface) : (s.updIface p f).mill = s.mill := rfl
@[simp] theorem State.updIface_xlt (s : State) (p : Nat) (f : Iface → Iface) : (s.updIface p f).xlt = s.xlt := rfl
@[simp] theorem State.updIface_movers (s : State) (p : Nat) (f : Iface → Iface) : (s.updIface p f).movers = s.movers := rfl
@[simp] theorem State.updIface_movSeq (s : State) (p : Nat) (f : Iface → Iface) : (s.updIface p f).movSeq = s.movSeq := rfl
@[simp] theorem State.updIface_vst (s : State) (p : Nat) (f : Iface → Iface) : (s.updIface p f).vst = s.vst := rfl
@[simp] theorem State.updIface_rve (s : State) (p : Nat) (f : Iface → Iface) : (s.updIface p f).rve = s.rve := rfl
@[simp] theorem State.updIface_fmtTable (s : State) (p : Nat) (f : Iface → Iface) : (s.updIface p f).fmtTable = s.fmtTable := rfl
@[simp] theorem State.updIface_sites (s : State) (p : Nat) (f : Iface → Iface) : (s.updIface p f).sites = s.sites := rfl
@[simp] theorem State.updIface_fab (s : State) (p : Nat) (f : Iface → Iface) : (s.updIface p f).fab = s.fab := rfl
@[simp] theorem State.updIface_evq (s : State) (p : Nat) (f : Iface → Iface) : (s.updIface p f).evq = s.evq := rfl
@[simp] theorem State.updIface_pending (s : State) (p : Nat) (f : Iface → Iface) : (s.updIface p f).pending = s.pending := rfl
@[simp] theorem State.updIface_reg (s : State) (p : Nat) (f : Iface → Iface) (rr : RegDef) (k : Nat) : (s.updIface p f).reg rr k = s.reg rr k := rfl
@[simp] theorem State.updIface_rd (s : State) (p : Nat) (f : Iface → Iface) (g : RF) (k : Nat) : (s.updIface p f).rd g k = s.rd g k := rfl
@[simp] theorem State.updIface_flag (s : State) (p : Nat) (f : Iface → Iface) (g : RF) (k : Nat) : (s.updIface p f).flag g k = s.flag g k := rfl
@[simp] theorem State.updIface_byte (s : State) (p : Nat) (f : Iface → Iface) (k : Nat) : (s.updIface p f).byte k = s.byte k := rfl

/-! ### `send` -/

@[simp] theorem State.send_regs (s : State) (p : Pkt) : (s.send p).regs = s.regs := rfl
@[simp] theorem State.send_mem (s : State) (p : Pkt) : (s.send p).mem = s.mem := rfl
@[simp] theorem State.send_poison (s : State) (p : Pkt) : (s.send p).poison = s.poison := rfl
@[simp] theorem State.send_time (s : State) (p : Pkt) : (s.send p).time = s.time := rfl
@[simp] theorem State.send_free (s : State) (p : Pkt) : (s.send p).free = s.free := rfl
@[simp] theorem State.send_roll (s : State) (p : Pkt) : (s.send p).roll = s.roll := rfl
@[simp] theorem State.send_hbm (s : State) (p : Pkt) : (s.send p).hbm = s.hbm := rfl
@[simp] theorem State.send_ledger (s : State) (p : Pkt) : (s.send p).ledger = s.ledger := rfl
@[simp] theorem State.send_hep (s : State) (p : Pkt) : (s.send p).hep = s.hep := rfl
@[simp] theorem State.send_stw (s : State) (p : Pkt) : (s.send p).stw = s.stw := rfl
@[simp] theorem State.send_slu (s : State) (p : Pkt) : (s.send p).slu = s.slu := rfl
@[simp] theorem State.send_tiles (s : State) (p : Pkt) : (s.send p).tiles = s.tiles := rfl
@[simp] theorem State.send_mill (s : State) (p : Pkt) : (s.send p).mill = s.mill := rfl
@[simp] theorem State.send_xlt (s : State) (p : Pkt) : (s.send p).xlt = s.xlt := rfl
@[simp] theorem State.send_movers (s : State) (p : Pkt) : (s.send p).movers = s.movers := rfl
@[simp] theorem State.send_movSeq (s : State) (p : Pkt) : (s.send p).movSeq = s.movSeq := rfl
@[simp] theorem State.send_vst (s : State) (p : Pkt) : (s.send p).vst = s.vst := rfl
@[simp] theorem State.send_rve (s : State) (p : Pkt) : (s.send p).rve = s.rve := rfl
@[simp] theorem State.send_fmtTable (s : State) (p : Pkt) : (s.send p).fmtTable = s.fmtTable := rfl
@[simp] theorem State.send_sites (s : State) (p : Pkt) : (s.send p).sites = s.sites := rfl
@[simp] theorem State.send_fab (s : State) (p : Pkt) : (s.send p).fab = s.fab := rfl
@[simp] theorem State.send_evq (s : State) (p : Pkt) : (s.send p).evq = s.evq := rfl
@[simp] theorem State.send_pending (s : State) (p : Pkt) : (s.send p).pending = s.pending := rfl
@[simp] theorem State.send_reg (s : State) (p : Pkt) (rr : RegDef) (k : Nat) : (s.send p).reg rr k = s.reg rr k := rfl
@[simp] theorem State.send_rd (s : State) (p : Pkt) (g : RF) (k : Nat) : (s.send p).rd g k = s.rd g k := rfl
@[simp] theorem State.send_flag (s : State) (p : Pkt) (g : RF) (k : Nat) : (s.send p).flag g k = s.flag g k := rfl
@[simp] theorem State.send_byte (s : State) (p : Pkt) (k : Nat) : (s.send p).byte k = s.byte k := rfl

/-! ### `take` -/

@[simp] theorem State.take_regs (s : State) (p : Pkt) : (s.take p).regs = s.regs := rfl
@[simp] theorem State.take_mem (s : State) (p : Pkt) : (s.take p).mem = s.mem := rfl
@[simp] theorem State.take_poison (s : State) (p : Pkt) : (s.take p).poison = s.poison := rfl
@[simp] theorem State.take_time (s : State) (p : Pkt) : (s.take p).time = s.time := rfl
@[simp] theorem State.take_free (s : State) (p : Pkt) : (s.take p).free = s.free := rfl
@[simp] theorem State.take_roll (s : State) (p : Pkt) : (s.take p).roll = s.roll := rfl
@[simp] theorem State.take_hbm (s : State) (p : Pkt) : (s.take p).hbm = s.hbm := rfl
@[simp] theorem State.take_ledger (s : State) (p : Pkt) : (s.take p).ledger = s.ledger := rfl
@[simp] theorem State.take_hep (s : State) (p : Pkt) : (s.take p).hep = s.hep := rfl
@[simp] theorem State.take_stw (s : State) (p : Pkt) : (s.take p).stw = s.stw := rfl
@[simp] theorem State.take_slu (s : State) (p : Pkt) : (s.take p).slu = s.slu := rfl
@[simp] theorem State.take_tiles (s : State) (p : Pkt) : (s.take p).tiles = s.tiles := rfl
@[simp] theorem State.take_mill (s : State) (p : Pkt) : (s.take p).mill = s.mill := rfl
@[simp] theorem State.take_xlt (s : State) (p : Pkt) : (s.take p).xlt = s.xlt := rfl
@[simp] theorem State.take_movers (s : State) (p : Pkt) : (s.take p).movers = s.movers := rfl
@[simp] theorem State.take_movSeq (s : State) (p : Pkt) : (s.take p).movSeq = s.movSeq := rfl
@[simp] theorem State.take_vst (s : State) (p : Pkt) : (s.take p).vst = s.vst := rfl
@[simp] theorem State.take_rve (s : State) (p : Pkt) : (s.take p).rve = s.rve := rfl
@[simp] theorem State.take_fmtTable (s : State) (p : Pkt) : (s.take p).fmtTable = s.fmtTable := rfl
@[simp] theorem State.take_sites (s : State) (p : Pkt) : (s.take p).sites = s.sites := rfl
@[simp] theorem State.take_fab (s : State) (p : Pkt) : (s.take p).fab = s.fab := rfl
@[simp] theorem State.take_evq (s : State) (p : Pkt) : (s.take p).evq = s.evq := rfl
@[simp] theorem State.take_pending (s : State) (p : Pkt) : (s.take p).pending = s.pending := rfl
@[simp] theorem State.take_reg (s : State) (p : Pkt) (rr : RegDef) (k : Nat) : (s.take p).reg rr k = s.reg rr k := rfl
@[simp] theorem State.take_rd (s : State) (p : Pkt) (g : RF) (k : Nat) : (s.take p).rd g k = s.rd g k := rfl
@[simp] theorem State.take_flag (s : State) (p : Pkt) (g : RF) (k : Nat) : (s.take p).flag g k = s.flag g k := rfl
@[simp] theorem State.take_byte (s : State) (p : Pkt) (k : Nat) : (s.take p).byte k = s.byte k := rfl

/-! ### `updBlock` -/

@[simp] theorem State.updBlock_regs (s : State) (b : Nat) (f : GBlock → GBlock) : (s.updBlock b f).regs = s.regs := rfl
@[simp] theorem State.updBlock_mem (s : State) (b : Nat) (f : GBlock → GBlock) : (s.updBlock b f).mem = s.mem := rfl
@[simp] theorem State.updBlock_poison (s : State) (b : Nat) (f : GBlock → GBlock) : (s.updBlock b f).poison = s.poison := rfl
@[simp] theorem State.updBlock_time (s : State) (b : Nat) (f : GBlock → GBlock) : (s.updBlock b f).time = s.time := rfl
@[simp] theorem State.updBlock_free (s : State) (b : Nat) (f : GBlock → GBlock) : (s.updBlock b f).free = s.free := rfl
@[simp] theorem State.updBlock_com (s : State) (b : Nat) (f : GBlock → GBlock) : (s.updBlock b f).com = s.com := rfl
@[simp] theorem State.updBlock_roll (s : State) (b : Nat) (f : GBlock → GBlock) : (s.updBlock b f).roll = s.roll := rfl
@[simp] theorem State.updBlock_ledger (s : State) (b : Nat) (f : GBlock → GBlock) : (s.updBlock b f).ledger = s.ledger := rfl
@[simp] theorem State.updBlock_hep (s : State) (b : Nat) (f : GBlock → GBlock) : (s.updBlock b f).hep = s.hep := rfl
@[simp] theorem State.updBlock_stw (s : State) (b : Nat) (f : GBlock → GBlock) : (s.updBlock b f).stw = s.stw := rfl
@[simp] theorem State.updBlock_slu (s : State) (b : Nat) (f : GBlock → GBlock) : (s.updBlock b f).slu = s.slu := rfl
@[simp] theorem State.updBlock_tiles (s : State) (b : Nat) (f : GBlock → GBlock) : (s.updBlock b f).tiles = s.tiles := rfl
@[simp] theorem State.updBlock_mill (s : State) (b : Nat) (f : GBlock → GBlock) : (s.updBlock b f).mill = s.mill := rfl
@[simp] theorem State.updBlock_xlt (s : State) (b : Nat) (f : GBlock → GBlock) : (s.updBlock b f).xlt = s.xlt := rfl
@[simp] theorem State.updBlock_movers (s : State) (b : Nat) (f : GBlock → GBlock) : (s.updBlock b f).movers = s.movers := rfl
@[simp] theorem State.updBlock_movSeq (s : State) (b : Nat) (f : GBlock → GBlock) : (s.updBlock b f).movSeq = s.movSeq := rfl
@[simp] theorem State.updBlock_vst (s : State) (b : Nat) (f : GBlock → GBlock) : (s.updBlock b f).vst = s.vst := rfl
@[simp] theorem State.updBlock_rve (s : State) (b : Nat) (f : GBlock → GBlock) : (s.updBlock b f).rve = s.rve := rfl
@[simp] theorem State.updBlock_fmtTable (s : State) (b : Nat) (f : GBlock → GBlock) : (s.updBlock b f).fmtTable = s.fmtTable := rfl
@[simp] theorem State.updBlock_sites (s : State) (b : Nat) (f : GBlock → GBlock) : (s.updBlock b f).sites = s.sites := rfl
@[simp] theorem State.updBlock_fab (s : State) (b : Nat) (f : GBlock → GBlock) : (s.updBlock b f).fab = s.fab := rfl
@[simp] theorem State.updBlock_evq (s : State) (b : Nat) (f : GBlock → GBlock) : (s.updBlock b f).evq = s.evq := rfl
@[simp] theorem State.updBlock_pending (s : State) (b : Nat) (f : GBlock → GBlock) : (s.updBlock b f).pending = s.pending := rfl
@[simp] theorem State.updBlock_reg (s : State) (b : Nat) (f : GBlock → GBlock) (rr : RegDef) (k : Nat) : (s.updBlock b f).reg rr k = s.reg rr k := rfl
@[simp] theorem State.updBlock_rd (s : State) (b : Nat) (f : GBlock → GBlock) (g : RF) (k : Nat) : (s.updBlock b f).rd g k = s.rd g k := rfl
@[simp] theorem State.updBlock_flag (s : State) (b : Nat) (f : GBlock → GBlock) (g : RF) (k : Nat) : (s.updBlock b f).flag g k = s.flag g k := rfl
@[simp] theorem State.updBlock_byte (s : State) (b : Nat) (f : GBlock → GBlock) (k : Nat) : (s.updBlock b f).byte k = s.byte k := rfl
@[simp] theorem State.updBlock_iface (s : State) (b : Nat) (f : GBlock → GBlock) (k : Nat) : (s.updBlock b f).iface k = s.iface k := rfl
@[simp] theorem State.updBlock_domSt (s : State) (b : Nat) (f : GBlock → GBlock) (k : Nat) : (s.updBlock b f).domSt k = s.domSt k := rfl

/-! ### `updHome` -/

@[simp] theorem State.updHome_regs (s : State) (h : Nat) (f : Home → Home) : (s.updHome h f).regs = s.regs := rfl
@[simp] theorem State.updHome_mem (s : State) (h : Nat) (f : Home → Home) : (s.updHome h f).mem = s.mem := rfl
@[simp] theorem State.updHome_poison (s : State) (h : Nat) (f : Home → Home) : (s.updHome h f).poison = s.poison := rfl
@[simp] theorem State.updHome_time (s : State) (h : Nat) (f : Home → Home) : (s.updHome h f).time = s.time := rfl
@[simp] theorem State.updHome_free (s : State) (h : Nat) (f : Home → Home) : (s.updHome h f).free = s.free := rfl
@[simp] theorem State.updHome_com (s : State) (h : Nat) (f : Home → Home) : (s.updHome h f).com = s.com := rfl
@[simp] theorem State.updHome_roll (s : State) (h : Nat) (f : Home → Home) : (s.updHome h f).roll = s.roll := rfl
@[simp] theorem State.updHome_ledger (s : State) (h : Nat) (f : Home → Home) : (s.updHome h f).ledger = s.ledger := rfl
@[simp] theorem State.updHome_hep (s : State) (h : Nat) (f : Home → Home) : (s.updHome h f).hep = s.hep := rfl
@[simp] theorem State.updHome_stw (s : State) (h : Nat) (f : Home → Home) : (s.updHome h f).stw = s.stw := rfl
@[simp] theorem State.updHome_slu (s : State) (h : Nat) (f : Home → Home) : (s.updHome h f).slu = s.slu := rfl
@[simp] theorem State.updHome_tiles (s : State) (h : Nat) (f : Home → Home) : (s.updHome h f).tiles = s.tiles := rfl
@[simp] theorem State.updHome_mill (s : State) (h : Nat) (f : Home → Home) : (s.updHome h f).mill = s.mill := rfl
@[simp] theorem State.updHome_xlt (s : State) (h : Nat) (f : Home → Home) : (s.updHome h f).xlt = s.xlt := rfl
@[simp] theorem State.updHome_movers (s : State) (h : Nat) (f : Home → Home) : (s.updHome h f).movers = s.movers := rfl
@[simp] theorem State.updHome_movSeq (s : State) (h : Nat) (f : Home → Home) : (s.updHome h f).movSeq = s.movSeq := rfl
@[simp] theorem State.updHome_vst (s : State) (h : Nat) (f : Home → Home) : (s.updHome h f).vst = s.vst := rfl
@[simp] theorem State.updHome_rve (s : State) (h : Nat) (f : Home → Home) : (s.updHome h f).rve = s.rve := rfl
@[simp] theorem State.updHome_fmtTable (s : State) (h : Nat) (f : Home → Home) : (s.updHome h f).fmtTable = s.fmtTable := rfl
@[simp] theorem State.updHome_sites (s : State) (h : Nat) (f : Home → Home) : (s.updHome h f).sites = s.sites := rfl
@[simp] theorem State.updHome_fab (s : State) (h : Nat) (f : Home → Home) : (s.updHome h f).fab = s.fab := rfl
@[simp] theorem State.updHome_evq (s : State) (h : Nat) (f : Home → Home) : (s.updHome h f).evq = s.evq := rfl
@[simp] theorem State.updHome_pending (s : State) (h : Nat) (f : Home → Home) : (s.updHome h f).pending = s.pending := rfl
@[simp] theorem State.updHome_reg (s : State) (h : Nat) (f : Home → Home) (rr : RegDef) (k : Nat) : (s.updHome h f).reg rr k = s.reg rr k := rfl
@[simp] theorem State.updHome_rd (s : State) (h : Nat) (f : Home → Home) (g : RF) (k : Nat) : (s.updHome h f).rd g k = s.rd g k := rfl
@[simp] theorem State.updHome_flag (s : State) (h : Nat) (f : Home → Home) (g : RF) (k : Nat) : (s.updHome h f).flag g k = s.flag g k := rfl
@[simp] theorem State.updHome_byte (s : State) (h : Nat) (f : Home → Home) (k : Nat) : (s.updHome h f).byte k = s.byte k := rfl
@[simp] theorem State.updHome_iface (s : State) (h : Nat) (f : Home → Home) (k : Nat) : (s.updHome h f).iface k = s.iface k := rfl
@[simp] theorem State.updHome_domSt (s : State) (h : Nat) (f : Home → Home) (k : Nat) : (s.updHome h f).domSt k = s.domSt k := rfl

/-! ### `updStack` -/

@[simp] theorem State.updStack_regs (s : State) (m : Nat) (f : Stack → Stack) : (s.updStack m f).regs = s.regs := rfl
@[simp] theorem State.updStack_mem (s : State) (m : Nat) (f : Stack → Stack) : (s.updStack m f).mem = s.mem := rfl
@[simp] theorem State.updStack_poison (s : State) (m : Nat) (f : Stack → Stack) : (s.updStack m f).poison = s.poison := rfl
@[simp] theorem State.updStack_time (s : State) (m : Nat) (f : Stack → Stack) : (s.updStack m f).time = s.time := rfl
@[simp] theorem State.updStack_free (s : State) (m : Nat) (f : Stack → Stack) : (s.updStack m f).free = s.free := rfl
@[simp] theorem State.updStack_com (s : State) (m : Nat) (f : Stack → Stack) : (s.updStack m f).com = s.com := rfl
@[simp] theorem State.updStack_roll (s : State) (m : Nat) (f : Stack → Stack) : (s.updStack m f).roll = s.roll := rfl
@[simp] theorem State.updStack_ledger (s : State) (m : Nat) (f : Stack → Stack) : (s.updStack m f).ledger = s.ledger := rfl
@[simp] theorem State.updStack_hep (s : State) (m : Nat) (f : Stack → Stack) : (s.updStack m f).hep = s.hep := rfl
@[simp] theorem State.updStack_stw (s : State) (m : Nat) (f : Stack → Stack) : (s.updStack m f).stw = s.stw := rfl
@[simp] theorem State.updStack_slu (s : State) (m : Nat) (f : Stack → Stack) : (s.updStack m f).slu = s.slu := rfl
@[simp] theorem State.updStack_tiles (s : State) (m : Nat) (f : Stack → Stack) : (s.updStack m f).tiles = s.tiles := rfl
@[simp] theorem State.updStack_mill (s : State) (m : Nat) (f : Stack → Stack) : (s.updStack m f).mill = s.mill := rfl
@[simp] theorem State.updStack_xlt (s : State) (m : Nat) (f : Stack → Stack) : (s.updStack m f).xlt = s.xlt := rfl
@[simp] theorem State.updStack_movers (s : State) (m : Nat) (f : Stack → Stack) : (s.updStack m f).movers = s.movers := rfl
@[simp] theorem State.updStack_movSeq (s : State) (m : Nat) (f : Stack → Stack) : (s.updStack m f).movSeq = s.movSeq := rfl
@[simp] theorem State.updStack_vst (s : State) (m : Nat) (f : Stack → Stack) : (s.updStack m f).vst = s.vst := rfl
@[simp] theorem State.updStack_rve (s : State) (m : Nat) (f : Stack → Stack) : (s.updStack m f).rve = s.rve := rfl
@[simp] theorem State.updStack_fmtTable (s : State) (m : Nat) (f : Stack → Stack) : (s.updStack m f).fmtTable = s.fmtTable := rfl
@[simp] theorem State.updStack_sites (s : State) (m : Nat) (f : Stack → Stack) : (s.updStack m f).sites = s.sites := rfl
@[simp] theorem State.updStack_fab (s : State) (m : Nat) (f : Stack → Stack) : (s.updStack m f).fab = s.fab := rfl
@[simp] theorem State.updStack_evq (s : State) (m : Nat) (f : Stack → Stack) : (s.updStack m f).evq = s.evq := rfl
@[simp] theorem State.updStack_pending (s : State) (m : Nat) (f : Stack → Stack) : (s.updStack m f).pending = s.pending := rfl
@[simp] theorem State.updStack_reg (s : State) (m : Nat) (f : Stack → Stack) (rr : RegDef) (k : Nat) : (s.updStack m f).reg rr k = s.reg rr k := rfl
@[simp] theorem State.updStack_rd (s : State) (m : Nat) (f : Stack → Stack) (g : RF) (k : Nat) : (s.updStack m f).rd g k = s.rd g k := rfl
@[simp] theorem State.updStack_flag (s : State) (m : Nat) (f : Stack → Stack) (g : RF) (k : Nat) : (s.updStack m f).flag g k = s.flag g k := rfl
@[simp] theorem State.updStack_byte (s : State) (m : Nat) (f : Stack → Stack) (k : Nat) : (s.updStack m f).byte k = s.byte k := rfl
@[simp] theorem State.updStack_iface (s : State) (m : Nat) (f : Stack → Stack) (k : Nat) : (s.updStack m f).iface k = s.iface k := rfl
@[simp] theorem State.updStack_domSt (s : State) (m : Nat) (f : Stack → Stack) (k : Nat) : (s.updStack m f).domSt k = s.domSt k := rfl

/-! ### `updSite` -/

@[simp] theorem State.updSite_regs (s : State) (n : Nat) (f : Site → Site) : (s.updSite n f).regs = s.regs := rfl
@[simp] theorem State.updSite_mem (s : State) (n : Nat) (f : Site → Site) : (s.updSite n f).mem = s.mem := rfl
@[simp] theorem State.updSite_poison (s : State) (n : Nat) (f : Site → Site) : (s.updSite n f).poison = s.poison := rfl
@[simp] theorem State.updSite_time (s : State) (n : Nat) (f : Site → Site) : (s.updSite n f).time = s.time := rfl
@[simp] theorem State.updSite_free (s : State) (n : Nat) (f : Site → Site) : (s.updSite n f).free = s.free := rfl
@[simp] theorem State.updSite_com (s : State) (n : Nat) (f : Site → Site) : (s.updSite n f).com = s.com := rfl
@[simp] theorem State.updSite_roll (s : State) (n : Nat) (f : Site → Site) : (s.updSite n f).roll = s.roll := rfl
@[simp] theorem State.updSite_hbm (s : State) (n : Nat) (f : Site → Site) : (s.updSite n f).hbm = s.hbm := rfl
@[simp] theorem State.updSite_ledger (s : State) (n : Nat) (f : Site → Site) : (s.updSite n f).ledger = s.ledger := rfl
@[simp] theorem State.updSite_hep (s : State) (n : Nat) (f : Site → Site) : (s.updSite n f).hep = s.hep := rfl
@[simp] theorem State.updSite_stw (s : State) (n : Nat) (f : Site → Site) : (s.updSite n f).stw = s.stw := rfl
@[simp] theorem State.updSite_slu (s : State) (n : Nat) (f : Site → Site) : (s.updSite n f).slu = s.slu := rfl
@[simp] theorem State.updSite_tiles (s : State) (n : Nat) (f : Site → Site) : (s.updSite n f).tiles = s.tiles := rfl
@[simp] theorem State.updSite_mill (s : State) (n : Nat) (f : Site → Site) : (s.updSite n f).mill = s.mill := rfl
@[simp] theorem State.updSite_xlt (s : State) (n : Nat) (f : Site → Site) : (s.updSite n f).xlt = s.xlt := rfl
@[simp] theorem State.updSite_movers (s : State) (n : Nat) (f : Site → Site) : (s.updSite n f).movers = s.movers := rfl
@[simp] theorem State.updSite_movSeq (s : State) (n : Nat) (f : Site → Site) : (s.updSite n f).movSeq = s.movSeq := rfl
@[simp] theorem State.updSite_vst (s : State) (n : Nat) (f : Site → Site) : (s.updSite n f).vst = s.vst := rfl
@[simp] theorem State.updSite_rve (s : State) (n : Nat) (f : Site → Site) : (s.updSite n f).rve = s.rve := rfl
@[simp] theorem State.updSite_fmtTable (s : State) (n : Nat) (f : Site → Site) : (s.updSite n f).fmtTable = s.fmtTable := rfl
@[simp] theorem State.updSite_fab (s : State) (n : Nat) (f : Site → Site) : (s.updSite n f).fab = s.fab := rfl
@[simp] theorem State.updSite_evq (s : State) (n : Nat) (f : Site → Site) : (s.updSite n f).evq = s.evq := rfl
@[simp] theorem State.updSite_pending (s : State) (n : Nat) (f : Site → Site) : (s.updSite n f).pending = s.pending := rfl
@[simp] theorem State.updSite_reg (s : State) (n : Nat) (f : Site → Site) (rr : RegDef) (k : Nat) : (s.updSite n f).reg rr k = s.reg rr k := rfl
@[simp] theorem State.updSite_rd (s : State) (n : Nat) (f : Site → Site) (g : RF) (k : Nat) : (s.updSite n f).rd g k = s.rd g k := rfl
@[simp] theorem State.updSite_flag (s : State) (n : Nat) (f : Site → Site) (g : RF) (k : Nat) : (s.updSite n f).flag g k = s.flag g k := rfl
@[simp] theorem State.updSite_byte (s : State) (n : Nat) (f : Site → Site) (k : Nat) : (s.updSite n f).byte k = s.byte k := rfl
@[simp] theorem State.updSite_iface (s : State) (n : Nat) (f : Site → Site) (k : Nat) : (s.updSite n f).iface k = s.iface k := rfl
@[simp] theorem State.updSite_domSt (s : State) (n : Nat) (f : Site → Site) (k : Nat) : (s.updSite n f).domSt k = s.domSt k := rfl

/-! ### `hostSend` -/

@[simp] theorem State.hostSend_regs (s : State) (t : HostTlp) : (s.hostSend t).regs = s.regs := rfl
@[simp] theorem State.hostSend_mem (s : State) (t : HostTlp) : (s.hostSend t).mem = s.mem := rfl
@[simp] theorem State.hostSend_poison (s : State) (t : HostTlp) : (s.hostSend t).poison = s.poison := rfl
@[simp] theorem State.hostSend_time (s : State) (t : HostTlp) : (s.hostSend t).time = s.time := rfl
@[simp] theorem State.hostSend_free (s : State) (t : HostTlp) : (s.hostSend t).free = s.free := rfl
@[simp] theorem State.hostSend_com (s : State) (t : HostTlp) : (s.hostSend t).com = s.com := rfl
@[simp] theorem State.hostSend_roll (s : State) (t : HostTlp) : (s.hostSend t).roll = s.roll := rfl
@[simp] theorem State.hostSend_hbm (s : State) (t : HostTlp) : (s.hostSend t).hbm = s.hbm := rfl
@[simp] theorem State.hostSend_ledger (s : State) (t : HostTlp) : (s.hostSend t).ledger = s.ledger := rfl
@[simp] theorem State.hostSend_stw (s : State) (t : HostTlp) : (s.hostSend t).stw = s.stw := rfl
@[simp] theorem State.hostSend_slu (s : State) (t : HostTlp) : (s.hostSend t).slu = s.slu := rfl
@[simp] theorem State.hostSend_tiles (s : State) (t : HostTlp) : (s.hostSend t).tiles = s.tiles := rfl
@[simp] theorem State.hostSend_mill (s : State) (t : HostTlp) : (s.hostSend t).mill = s.mill := rfl
@[simp] theorem State.hostSend_xlt (s : State) (t : HostTlp) : (s.hostSend t).xlt = s.xlt := rfl
@[simp] theorem State.hostSend_movers (s : State) (t : HostTlp) : (s.hostSend t).movers = s.movers := rfl
@[simp] theorem State.hostSend_movSeq (s : State) (t : HostTlp) : (s.hostSend t).movSeq = s.movSeq := rfl
@[simp] theorem State.hostSend_vst (s : State) (t : HostTlp) : (s.hostSend t).vst = s.vst := rfl
@[simp] theorem State.hostSend_rve (s : State) (t : HostTlp) : (s.hostSend t).rve = s.rve := rfl
@[simp] theorem State.hostSend_fmtTable (s : State) (t : HostTlp) : (s.hostSend t).fmtTable = s.fmtTable := rfl
@[simp] theorem State.hostSend_sites (s : State) (t : HostTlp) : (s.hostSend t).sites = s.sites := rfl
@[simp] theorem State.hostSend_fab (s : State) (t : HostTlp) : (s.hostSend t).fab = s.fab := rfl
@[simp] theorem State.hostSend_evq (s : State) (t : HostTlp) : (s.hostSend t).evq = s.evq := rfl
@[simp] theorem State.hostSend_pending (s : State) (t : HostTlp) : (s.hostSend t).pending = s.pending := rfl
@[simp] theorem State.hostSend_reg (s : State) (t : HostTlp) (rr : RegDef) (k : Nat) : (s.hostSend t).reg rr k = s.reg rr k := rfl
@[simp] theorem State.hostSend_rd (s : State) (t : HostTlp) (g : RF) (k : Nat) : (s.hostSend t).rd g k = s.rd g k := rfl
@[simp] theorem State.hostSend_flag (s : State) (t : HostTlp) (g : RF) (k : Nat) : (s.hostSend t).flag g k = s.flag g k := rfl
@[simp] theorem State.hostSend_byte (s : State) (t : HostTlp) (k : Nat) : (s.hostSend t).byte k = s.byte k := rfl
@[simp] theorem State.hostSend_iface (s : State) (t : HostTlp) (k : Nat) : (s.hostSend t).iface k = s.iface k := rfl
@[simp] theorem State.hostSend_domSt (s : State) (t : HostTlp) (k : Nat) : (s.hostSend t).domSt k = s.domSt k := rfl

/-! ### `updHep` -/

@[simp] theorem State.updHep_regs (s : State) (f : Hep → Hep) : (s.updHep f).regs = s.regs := rfl
@[simp] theorem State.updHep_mem (s : State) (f : Hep → Hep) : (s.updHep f).mem = s.mem := rfl
@[simp] theorem State.updHep_poison (s : State) (f : Hep → Hep) : (s.updHep f).poison = s.poison := rfl
@[simp] theorem State.updHep_time (s : State) (f : Hep → Hep) : (s.updHep f).time = s.time := rfl
@[simp] theorem State.updHep_free (s : State) (f : Hep → Hep) : (s.updHep f).free = s.free := rfl
@[simp] theorem State.updHep_com (s : State) (f : Hep → Hep) : (s.updHep f).com = s.com := rfl
@[simp] theorem State.updHep_roll (s : State) (f : Hep → Hep) : (s.updHep f).roll = s.roll := rfl
@[simp] theorem State.updHep_hbm (s : State) (f : Hep → Hep) : (s.updHep f).hbm = s.hbm := rfl
@[simp] theorem State.updHep_ledger (s : State) (f : Hep → Hep) : (s.updHep f).ledger = s.ledger := rfl
@[simp] theorem State.updHep_stw (s : State) (f : Hep → Hep) : (s.updHep f).stw = s.stw := rfl
@[simp] theorem State.updHep_slu (s : State) (f : Hep → Hep) : (s.updHep f).slu = s.slu := rfl
@[simp] theorem State.updHep_tiles (s : State) (f : Hep → Hep) : (s.updHep f).tiles = s.tiles := rfl
@[simp] theorem State.updHep_mill (s : State) (f : Hep → Hep) : (s.updHep f).mill = s.mill := rfl
@[simp] theorem State.updHep_xlt (s : State) (f : Hep → Hep) : (s.updHep f).xlt = s.xlt := rfl
@[simp] theorem State.updHep_movers (s : State) (f : Hep → Hep) : (s.updHep f).movers = s.movers := rfl
@[simp] theorem State.updHep_movSeq (s : State) (f : Hep → Hep) : (s.updHep f).movSeq = s.movSeq := rfl
@[simp] theorem State.updHep_vst (s : State) (f : Hep → Hep) : (s.updHep f).vst = s.vst := rfl
@[simp] theorem State.updHep_rve (s : State) (f : Hep → Hep) : (s.updHep f).rve = s.rve := rfl
@[simp] theorem State.updHep_fmtTable (s : State) (f : Hep → Hep) : (s.updHep f).fmtTable = s.fmtTable := rfl
@[simp] theorem State.updHep_sites (s : State) (f : Hep → Hep) : (s.updHep f).sites = s.sites := rfl
@[simp] theorem State.updHep_fab (s : State) (f : Hep → Hep) : (s.updHep f).fab = s.fab := rfl
@[simp] theorem State.updHep_evq (s : State) (f : Hep → Hep) : (s.updHep f).evq = s.evq := rfl
@[simp] theorem State.updHep_pending (s : State) (f : Hep → Hep) : (s.updHep f).pending = s.pending := rfl
@[simp] theorem State.updHep_reg (s : State) (f : Hep → Hep) (rr : RegDef) (k : Nat) : (s.updHep f).reg rr k = s.reg rr k := rfl
@[simp] theorem State.updHep_rd (s : State) (f : Hep → Hep) (g : RF) (k : Nat) : (s.updHep f).rd g k = s.rd g k := rfl
@[simp] theorem State.updHep_flag (s : State) (f : Hep → Hep) (g : RF) (k : Nat) : (s.updHep f).flag g k = s.flag g k := rfl
@[simp] theorem State.updHep_byte (s : State) (f : Hep → Hep) (k : Nat) : (s.updHep f).byte k = s.byte k := rfl
@[simp] theorem State.updHep_iface (s : State) (f : Hep → Hep) (k : Nat) : (s.updHep f).iface k = s.iface k := rfl
@[simp] theorem State.updHep_domSt (s : State) (f : Hep → Hep) (k : Nat) : (s.updHep f).domSt k = s.domSt k := rfl

/-! ### `updStw` -/

@[simp] theorem State.updStw_regs (s : State) (f : Stw → Stw) : (s.updStw f).regs = s.regs := rfl
@[simp] theorem State.updStw_mem (s : State) (f : Stw → Stw) : (s.updStw f).mem = s.mem := rfl
@[simp] theorem State.updStw_poison (s : State) (f : Stw → Stw) : (s.updStw f).poison = s.poison := rfl
@[simp] theorem State.updStw_time (s : State) (f : Stw → Stw) : (s.updStw f).time = s.time := rfl
@[simp] theorem State.updStw_free (s : State) (f : Stw → Stw) : (s.updStw f).free = s.free := rfl
@[simp] theorem State.updStw_com (s : State) (f : Stw → Stw) : (s.updStw f).com = s.com := rfl
@[simp] theorem State.updStw_roll (s : State) (f : Stw → Stw) : (s.updStw f).roll = s.roll := rfl
@[simp] theorem State.updStw_hbm (s : State) (f : Stw → Stw) : (s.updStw f).hbm = s.hbm := rfl
@[simp] theorem State.updStw_ledger (s : State) (f : Stw → Stw) : (s.updStw f).ledger = s.ledger := rfl
@[simp] theorem State.updStw_hep (s : State) (f : Stw → Stw) : (s.updStw f).hep = s.hep := rfl
@[simp] theorem State.updStw_slu (s : State) (f : Stw → Stw) : (s.updStw f).slu = s.slu := rfl
@[simp] theorem State.updStw_tiles (s : State) (f : Stw → Stw) : (s.updStw f).tiles = s.tiles := rfl
@[simp] theorem State.updStw_mill (s : State) (f : Stw → Stw) : (s.updStw f).mill = s.mill := rfl
@[simp] theorem State.updStw_xlt (s : State) (f : Stw → Stw) : (s.updStw f).xlt = s.xlt := rfl
@[simp] theorem State.updStw_movers (s : State) (f : Stw → Stw) : (s.updStw f).movers = s.movers := rfl
@[simp] theorem State.updStw_movSeq (s : State) (f : Stw → Stw) : (s.updStw f).movSeq = s.movSeq := rfl
@[simp] theorem State.updStw_vst (s : State) (f : Stw → Stw) : (s.updStw f).vst = s.vst := rfl
@[simp] theorem State.updStw_rve (s : State) (f : Stw → Stw) : (s.updStw f).rve = s.rve := rfl
@[simp] theorem State.updStw_fmtTable (s : State) (f : Stw → Stw) : (s.updStw f).fmtTable = s.fmtTable := rfl
@[simp] theorem State.updStw_sites (s : State) (f : Stw → Stw) : (s.updStw f).sites = s.sites := rfl
@[simp] theorem State.updStw_fab (s : State) (f : Stw → Stw) : (s.updStw f).fab = s.fab := rfl
@[simp] theorem State.updStw_evq (s : State) (f : Stw → Stw) : (s.updStw f).evq = s.evq := rfl
@[simp] theorem State.updStw_pending (s : State) (f : Stw → Stw) : (s.updStw f).pending = s.pending := rfl
@[simp] theorem State.updStw_reg (s : State) (f : Stw → Stw) (rr : RegDef) (k : Nat) : (s.updStw f).reg rr k = s.reg rr k := rfl
@[simp] theorem State.updStw_rd (s : State) (f : Stw → Stw) (g : RF) (k : Nat) : (s.updStw f).rd g k = s.rd g k := rfl
@[simp] theorem State.updStw_flag (s : State) (f : Stw → Stw) (g : RF) (k : Nat) : (s.updStw f).flag g k = s.flag g k := rfl
@[simp] theorem State.updStw_byte (s : State) (f : Stw → Stw) (k : Nat) : (s.updStw f).byte k = s.byte k := rfl
@[simp] theorem State.updStw_iface (s : State) (f : Stw → Stw) (k : Nat) : (s.updStw f).iface k = s.iface k := rfl
@[simp] theorem State.updStw_domSt (s : State) (f : Stw → Stw) (k : Nat) : (s.updStw f).domSt k = s.domSt k := rfl

/-! ### `updLink` -/

@[simp] theorem State.updLink_regs (s : State) (l : Nat) (f : Link → Link) : (s.updLink l f).regs = s.regs := rfl
@[simp] theorem State.updLink_mem (s : State) (l : Nat) (f : Link → Link) : (s.updLink l f).mem = s.mem := rfl
@[simp] theorem State.updLink_poison (s : State) (l : Nat) (f : Link → Link) : (s.updLink l f).poison = s.poison := rfl
@[simp] theorem State.updLink_time (s : State) (l : Nat) (f : Link → Link) : (s.updLink l f).time = s.time := rfl
@[simp] theorem State.updLink_free (s : State) (l : Nat) (f : Link → Link) : (s.updLink l f).free = s.free := rfl
@[simp] theorem State.updLink_com (s : State) (l : Nat) (f : Link → Link) : (s.updLink l f).com = s.com := rfl
@[simp] theorem State.updLink_roll (s : State) (l : Nat) (f : Link → Link) : (s.updLink l f).roll = s.roll := rfl
@[simp] theorem State.updLink_hbm (s : State) (l : Nat) (f : Link → Link) : (s.updLink l f).hbm = s.hbm := rfl
@[simp] theorem State.updLink_ledger (s : State) (l : Nat) (f : Link → Link) : (s.updLink l f).ledger = s.ledger := rfl
@[simp] theorem State.updLink_hep (s : State) (l : Nat) (f : Link → Link) : (s.updLink l f).hep = s.hep := rfl
@[simp] theorem State.updLink_stw (s : State) (l : Nat) (f : Link → Link) : (s.updLink l f).stw = s.stw := rfl
@[simp] theorem State.updLink_slu (s : State) (l : Nat) (f : Link → Link) : (s.updLink l f).slu = s.slu := rfl
@[simp] theorem State.updLink_tiles (s : State) (l : Nat) (f : Link → Link) : (s.updLink l f).tiles = s.tiles := rfl
@[simp] theorem State.updLink_mill (s : State) (l : Nat) (f : Link → Link) : (s.updLink l f).mill = s.mill := rfl
@[simp] theorem State.updLink_xlt (s : State) (l : Nat) (f : Link → Link) : (s.updLink l f).xlt = s.xlt := rfl
@[simp] theorem State.updLink_movers (s : State) (l : Nat) (f : Link → Link) : (s.updLink l f).movers = s.movers := rfl
@[simp] theorem State.updLink_movSeq (s : State) (l : Nat) (f : Link → Link) : (s.updLink l f).movSeq = s.movSeq := rfl
@[simp] theorem State.updLink_vst (s : State) (l : Nat) (f : Link → Link) : (s.updLink l f).vst = s.vst := rfl
@[simp] theorem State.updLink_rve (s : State) (l : Nat) (f : Link → Link) : (s.updLink l f).rve = s.rve := rfl
@[simp] theorem State.updLink_fmtTable (s : State) (l : Nat) (f : Link → Link) : (s.updLink l f).fmtTable = s.fmtTable := rfl
@[simp] theorem State.updLink_sites (s : State) (l : Nat) (f : Link → Link) : (s.updLink l f).sites = s.sites := rfl
@[simp] theorem State.updLink_evq (s : State) (l : Nat) (f : Link → Link) : (s.updLink l f).evq = s.evq := rfl
@[simp] theorem State.updLink_pending (s : State) (l : Nat) (f : Link → Link) : (s.updLink l f).pending = s.pending := rfl
@[simp] theorem State.updLink_reg (s : State) (l : Nat) (f : Link → Link) (rr : RegDef) (k : Nat) : (s.updLink l f).reg rr k = s.reg rr k := rfl
@[simp] theorem State.updLink_rd (s : State) (l : Nat) (f : Link → Link) (g : RF) (k : Nat) : (s.updLink l f).rd g k = s.rd g k := rfl
@[simp] theorem State.updLink_flag (s : State) (l : Nat) (f : Link → Link) (g : RF) (k : Nat) : (s.updLink l f).flag g k = s.flag g k := rfl
@[simp] theorem State.updLink_byte (s : State) (l : Nat) (f : Link → Link) (k : Nat) : (s.updLink l f).byte k = s.byte k := rfl
@[simp] theorem State.updLink_iface (s : State) (l : Nat) (f : Link → Link) (k : Nat) : (s.updLink l f).iface k = s.iface k := rfl
@[simp] theorem State.updLink_domSt (s : State) (l : Nat) (f : Link → Link) (k : Nat) : (s.updLink l f).domSt k = s.domSt k := rfl

/-! ### `updTile` -/

@[simp] theorem State.updTile_regs (s : State) (t : Nat) (f : Tile → Tile) : (s.updTile t f).regs = s.regs := rfl
@[simp] theorem State.updTile_mem (s : State) (t : Nat) (f : Tile → Tile) : (s.updTile t f).mem = s.mem := rfl
@[simp] theorem State.updTile_poison (s : State) (t : Nat) (f : Tile → Tile) : (s.updTile t f).poison = s.poison := rfl
@[simp] theorem State.updTile_time (s : State) (t : Nat) (f : Tile → Tile) : (s.updTile t f).time = s.time := rfl
@[simp] theorem State.updTile_free (s : State) (t : Nat) (f : Tile → Tile) : (s.updTile t f).free = s.free := rfl
@[simp] theorem State.updTile_com (s : State) (t : Nat) (f : Tile → Tile) : (s.updTile t f).com = s.com := rfl
@[simp] theorem State.updTile_roll (s : State) (t : Nat) (f : Tile → Tile) : (s.updTile t f).roll = s.roll := rfl
@[simp] theorem State.updTile_hbm (s : State) (t : Nat) (f : Tile → Tile) : (s.updTile t f).hbm = s.hbm := rfl
@[simp] theorem State.updTile_ledger (s : State) (t : Nat) (f : Tile → Tile) : (s.updTile t f).ledger = s.ledger := rfl
@[simp] theorem State.updTile_hep (s : State) (t : Nat) (f : Tile → Tile) : (s.updTile t f).hep = s.hep := rfl
@[simp] theorem State.updTile_stw (s : State) (t : Nat) (f : Tile → Tile) : (s.updTile t f).stw = s.stw := rfl
@[simp] theorem State.updTile_slu (s : State) (t : Nat) (f : Tile → Tile) : (s.updTile t f).slu = s.slu := rfl
@[simp] theorem State.updTile_mill (s : State) (t : Nat) (f : Tile → Tile) : (s.updTile t f).mill = s.mill := rfl
@[simp] theorem State.updTile_xlt (s : State) (t : Nat) (f : Tile → Tile) : (s.updTile t f).xlt = s.xlt := rfl
@[simp] theorem State.updTile_movers (s : State) (t : Nat) (f : Tile → Tile) : (s.updTile t f).movers = s.movers := rfl
@[simp] theorem State.updTile_movSeq (s : State) (t : Nat) (f : Tile → Tile) : (s.updTile t f).movSeq = s.movSeq := rfl
@[simp] theorem State.updTile_vst (s : State) (t : Nat) (f : Tile → Tile) : (s.updTile t f).vst = s.vst := rfl
@[simp] theorem State.updTile_rve (s : State) (t : Nat) (f : Tile → Tile) : (s.updTile t f).rve = s.rve := rfl
@[simp] theorem State.updTile_fmtTable (s : State) (t : Nat) (f : Tile → Tile) : (s.updTile t f).fmtTable = s.fmtTable := rfl
@[simp] theorem State.updTile_sites (s : State) (t : Nat) (f : Tile → Tile) : (s.updTile t f).sites = s.sites := rfl
@[simp] theorem State.updTile_fab (s : State) (t : Nat) (f : Tile → Tile) : (s.updTile t f).fab = s.fab := rfl
@[simp] theorem State.updTile_evq (s : State) (t : Nat) (f : Tile → Tile) : (s.updTile t f).evq = s.evq := rfl
@[simp] theorem State.updTile_pending (s : State) (t : Nat) (f : Tile → Tile) : (s.updTile t f).pending = s.pending := rfl
@[simp] theorem State.updTile_reg (s : State) (t : Nat) (f : Tile → Tile) (rr : RegDef) (k : Nat) : (s.updTile t f).reg rr k = s.reg rr k := rfl
@[simp] theorem State.updTile_rd (s : State) (t : Nat) (f : Tile → Tile) (g : RF) (k : Nat) : (s.updTile t f).rd g k = s.rd g k := rfl
@[simp] theorem State.updTile_flag (s : State) (t : Nat) (f : Tile → Tile) (g : RF) (k : Nat) : (s.updTile t f).flag g k = s.flag g k := rfl
@[simp] theorem State.updTile_byte (s : State) (t : Nat) (f : Tile → Tile) (k : Nat) : (s.updTile t f).byte k = s.byte k := rfl
@[simp] theorem State.updTile_iface (s : State) (t : Nat) (f : Tile → Tile) (k : Nat) : (s.updTile t f).iface k = s.iface k := rfl
@[simp] theorem State.updTile_domSt (s : State) (t : Nat) (f : Tile → Tile) (k : Nat) : (s.updTile t f).domSt k = s.domSt k := rfl

/-! ### `updMill` -/

@[simp] theorem State.updMill_regs (s : State) (f : Mill → Mill) : (s.updMill f).regs = s.regs := rfl
@[simp] theorem State.updMill_mem (s : State) (f : Mill → Mill) : (s.updMill f).mem = s.mem := rfl
@[simp] theorem State.updMill_poison (s : State) (f : Mill → Mill) : (s.updMill f).poison = s.poison := rfl
@[simp] theorem State.updMill_time (s : State) (f : Mill → Mill) : (s.updMill f).time = s.time := rfl
@[simp] theorem State.updMill_free (s : State) (f : Mill → Mill) : (s.updMill f).free = s.free := rfl
@[simp] theorem State.updMill_com (s : State) (f : Mill → Mill) : (s.updMill f).com = s.com := rfl
@[simp] theorem State.updMill_roll (s : State) (f : Mill → Mill) : (s.updMill f).roll = s.roll := rfl
@[simp] theorem State.updMill_hbm (s : State) (f : Mill → Mill) : (s.updMill f).hbm = s.hbm := rfl
@[simp] theorem State.updMill_ledger (s : State) (f : Mill → Mill) : (s.updMill f).ledger = s.ledger := rfl
@[simp] theorem State.updMill_hep (s : State) (f : Mill → Mill) : (s.updMill f).hep = s.hep := rfl
@[simp] theorem State.updMill_stw (s : State) (f : Mill → Mill) : (s.updMill f).stw = s.stw := rfl
@[simp] theorem State.updMill_slu (s : State) (f : Mill → Mill) : (s.updMill f).slu = s.slu := rfl
@[simp] theorem State.updMill_tiles (s : State) (f : Mill → Mill) : (s.updMill f).tiles = s.tiles := rfl
@[simp] theorem State.updMill_xlt (s : State) (f : Mill → Mill) : (s.updMill f).xlt = s.xlt := rfl
@[simp] theorem State.updMill_movers (s : State) (f : Mill → Mill) : (s.updMill f).movers = s.movers := rfl
@[simp] theorem State.updMill_movSeq (s : State) (f : Mill → Mill) : (s.updMill f).movSeq = s.movSeq := rfl
@[simp] theorem State.updMill_vst (s : State) (f : Mill → Mill) : (s.updMill f).vst = s.vst := rfl
@[simp] theorem State.updMill_rve (s : State) (f : Mill → Mill) : (s.updMill f).rve = s.rve := rfl
@[simp] theorem State.updMill_fmtTable (s : State) (f : Mill → Mill) : (s.updMill f).fmtTable = s.fmtTable := rfl
@[simp] theorem State.updMill_sites (s : State) (f : Mill → Mill) : (s.updMill f).sites = s.sites := rfl
@[simp] theorem State.updMill_fab (s : State) (f : Mill → Mill) : (s.updMill f).fab = s.fab := rfl
@[simp] theorem State.updMill_evq (s : State) (f : Mill → Mill) : (s.updMill f).evq = s.evq := rfl
@[simp] theorem State.updMill_pending (s : State) (f : Mill → Mill) : (s.updMill f).pending = s.pending := rfl
@[simp] theorem State.updMill_reg (s : State) (f : Mill → Mill) (rr : RegDef) (k : Nat) : (s.updMill f).reg rr k = s.reg rr k := rfl
@[simp] theorem State.updMill_rd (s : State) (f : Mill → Mill) (g : RF) (k : Nat) : (s.updMill f).rd g k = s.rd g k := rfl
@[simp] theorem State.updMill_flag (s : State) (f : Mill → Mill) (g : RF) (k : Nat) : (s.updMill f).flag g k = s.flag g k := rfl
@[simp] theorem State.updMill_byte (s : State) (f : Mill → Mill) (k : Nat) : (s.updMill f).byte k = s.byte k := rfl
@[simp] theorem State.updMill_iface (s : State) (f : Mill → Mill) (k : Nat) : (s.updMill f).iface k = s.iface k := rfl
@[simp] theorem State.updMill_domSt (s : State) (f : Mill → Mill) (k : Nat) : (s.updMill f).domSt k = s.domSt k := rfl

/-! ### `setMovQ` -/

@[simp] theorem State.setMovQ_regs (s : State) (m q : Nat) (l : List MovJob) : (s.setMovQ m q l).regs = s.regs := rfl
@[simp] theorem State.setMovQ_mem (s : State) (m q : Nat) (l : List MovJob) : (s.setMovQ m q l).mem = s.mem := rfl
@[simp] theorem State.setMovQ_poison (s : State) (m q : Nat) (l : List MovJob) : (s.setMovQ m q l).poison = s.poison := rfl
@[simp] theorem State.setMovQ_time (s : State) (m q : Nat) (l : List MovJob) : (s.setMovQ m q l).time = s.time := rfl
@[simp] theorem State.setMovQ_free (s : State) (m q : Nat) (l : List MovJob) : (s.setMovQ m q l).free = s.free := rfl
@[simp] theorem State.setMovQ_com (s : State) (m q : Nat) (l : List MovJob) : (s.setMovQ m q l).com = s.com := rfl
@[simp] theorem State.setMovQ_roll (s : State) (m q : Nat) (l : List MovJob) : (s.setMovQ m q l).roll = s.roll := rfl
@[simp] theorem State.setMovQ_hbm (s : State) (m q : Nat) (l : List MovJob) : (s.setMovQ m q l).hbm = s.hbm := rfl
@[simp] theorem State.setMovQ_ledger (s : State) (m q : Nat) (l : List MovJob) : (s.setMovQ m q l).ledger = s.ledger := rfl
@[simp] theorem State.setMovQ_hep (s : State) (m q : Nat) (l : List MovJob) : (s.setMovQ m q l).hep = s.hep := rfl
@[simp] theorem State.setMovQ_stw (s : State) (m q : Nat) (l : List MovJob) : (s.setMovQ m q l).stw = s.stw := rfl
@[simp] theorem State.setMovQ_slu (s : State) (m q : Nat) (l : List MovJob) : (s.setMovQ m q l).slu = s.slu := rfl
@[simp] theorem State.setMovQ_tiles (s : State) (m q : Nat) (l : List MovJob) : (s.setMovQ m q l).tiles = s.tiles := rfl
@[simp] theorem State.setMovQ_mill (s : State) (m q : Nat) (l : List MovJob) : (s.setMovQ m q l).mill = s.mill := rfl
@[simp] theorem State.setMovQ_xlt (s : State) (m q : Nat) (l : List MovJob) : (s.setMovQ m q l).xlt = s.xlt := rfl
@[simp] theorem State.setMovQ_movSeq (s : State) (m q : Nat) (l : List MovJob) : (s.setMovQ m q l).movSeq = s.movSeq := rfl
@[simp] theorem State.setMovQ_vst (s : State) (m q : Nat) (l : List MovJob) : (s.setMovQ m q l).vst = s.vst := rfl
@[simp] theorem State.setMovQ_rve (s : State) (m q : Nat) (l : List MovJob) : (s.setMovQ m q l).rve = s.rve := rfl
@[simp] theorem State.setMovQ_fmtTable (s : State) (m q : Nat) (l : List MovJob) : (s.setMovQ m q l).fmtTable = s.fmtTable := rfl
@[simp] theorem State.setMovQ_sites (s : State) (m q : Nat) (l : List MovJob) : (s.setMovQ m q l).sites = s.sites := rfl
@[simp] theorem State.setMovQ_fab (s : State) (m q : Nat) (l : List MovJob) : (s.setMovQ m q l).fab = s.fab := rfl
@[simp] theorem State.setMovQ_evq (s : State) (m q : Nat) (l : List MovJob) : (s.setMovQ m q l).evq = s.evq := rfl
@[simp] theorem State.setMovQ_pending (s : State) (m q : Nat) (l : List MovJob) : (s.setMovQ m q l).pending = s.pending := rfl
@[simp] theorem State.setMovQ_reg (s : State) (m q : Nat) (l : List MovJob) (rr : RegDef) (k : Nat) : (s.setMovQ m q l).reg rr k = s.reg rr k := rfl
@[simp] theorem State.setMovQ_rd (s : State) (m q : Nat) (l : List MovJob) (g : RF) (k : Nat) : (s.setMovQ m q l).rd g k = s.rd g k := rfl
@[simp] theorem State.setMovQ_flag (s : State) (m q : Nat) (l : List MovJob) (g : RF) (k : Nat) : (s.setMovQ m q l).flag g k = s.flag g k := rfl
@[simp] theorem State.setMovQ_byte (s : State) (m q : Nat) (l : List MovJob) (k : Nat) : (s.setMovQ m q l).byte k = s.byte k := rfl
@[simp] theorem State.setMovQ_iface (s : State) (m q : Nat) (l : List MovJob) (k : Nat) : (s.setMovQ m q l).iface k = s.iface k := rfl
@[simp] theorem State.setMovQ_domSt (s : State) (m q : Nat) (l : List MovJob) (k : Nat) : (s.setMovQ m q l).domSt k = s.domSt k := rfl

/-! ### `updXlt` -/

@[simp] theorem State.updXlt_regs (s : State) (f : Xlt → Xlt) : (s.updXlt f).regs = s.regs := rfl
@[simp] theorem State.updXlt_mem (s : State) (f : Xlt → Xlt) : (s.updXlt f).mem = s.mem := rfl
@[simp] theorem State.updXlt_poison (s : State) (f : Xlt → Xlt) : (s.updXlt f).poison = s.poison := rfl
@[simp] theorem State.updXlt_time (s : State) (f : Xlt → Xlt) : (s.updXlt f).time = s.time := rfl
@[simp] theorem State.updXlt_free (s : State) (f : Xlt → Xlt) : (s.updXlt f).free = s.free := rfl
@[simp] theorem State.updXlt_com (s : State) (f : Xlt → Xlt) : (s.updXlt f).com = s.com := rfl
@[simp] theorem State.updXlt_roll (s : State) (f : Xlt → Xlt) : (s.updXlt f).roll = s.roll := rfl
@[simp] theorem State.updXlt_hbm (s : State) (f : Xlt → Xlt) : (s.updXlt f).hbm = s.hbm := rfl
@[simp] theorem State.updXlt_ledger (s : State) (f : Xlt → Xlt) : (s.updXlt f).ledger = s.ledger := rfl
@[simp] theorem State.updXlt_hep (s : State) (f : Xlt → Xlt) : (s.updXlt f).hep = s.hep := rfl
@[simp] theorem State.updXlt_stw (s : State) (f : Xlt → Xlt) : (s.updXlt f).stw = s.stw := rfl
@[simp] theorem State.updXlt_slu (s : State) (f : Xlt → Xlt) : (s.updXlt f).slu = s.slu := rfl
@[simp] theorem State.updXlt_tiles (s : State) (f : Xlt → Xlt) : (s.updXlt f).tiles = s.tiles := rfl
@[simp] theorem State.updXlt_mill (s : State) (f : Xlt → Xlt) : (s.updXlt f).mill = s.mill := rfl
@[simp] theorem State.updXlt_movers (s : State) (f : Xlt → Xlt) : (s.updXlt f).movers = s.movers := rfl
@[simp] theorem State.updXlt_movSeq (s : State) (f : Xlt → Xlt) : (s.updXlt f).movSeq = s.movSeq := rfl
@[simp] theorem State.updXlt_vst (s : State) (f : Xlt → Xlt) : (s.updXlt f).vst = s.vst := rfl
@[simp] theorem State.updXlt_rve (s : State) (f : Xlt → Xlt) : (s.updXlt f).rve = s.rve := rfl
@[simp] theorem State.updXlt_fmtTable (s : State) (f : Xlt → Xlt) : (s.updXlt f).fmtTable = s.fmtTable := rfl
@[simp] theorem State.updXlt_sites (s : State) (f : Xlt → Xlt) : (s.updXlt f).sites = s.sites := rfl
@[simp] theorem State.updXlt_fab (s : State) (f : Xlt → Xlt) : (s.updXlt f).fab = s.fab := rfl
@[simp] theorem State.updXlt_evq (s : State) (f : Xlt → Xlt) : (s.updXlt f).evq = s.evq := rfl
@[simp] theorem State.updXlt_pending (s : State) (f : Xlt → Xlt) : (s.updXlt f).pending = s.pending := rfl
@[simp] theorem State.updXlt_reg (s : State) (f : Xlt → Xlt) (rr : RegDef) (k : Nat) : (s.updXlt f).reg rr k = s.reg rr k := rfl
@[simp] theorem State.updXlt_rd (s : State) (f : Xlt → Xlt) (g : RF) (k : Nat) : (s.updXlt f).rd g k = s.rd g k := rfl
@[simp] theorem State.updXlt_flag (s : State) (f : Xlt → Xlt) (g : RF) (k : Nat) : (s.updXlt f).flag g k = s.flag g k := rfl
@[simp] theorem State.updXlt_byte (s : State) (f : Xlt → Xlt) (k : Nat) : (s.updXlt f).byte k = s.byte k := rfl
@[simp] theorem State.updXlt_iface (s : State) (f : Xlt → Xlt) (k : Nat) : (s.updXlt f).iface k = s.iface k := rfl
@[simp] theorem State.updXlt_domSt (s : State) (f : Xlt → Xlt) (k : Nat) : (s.updXlt f).domSt k = s.domSt k := rfl

/-! ### `updVst` -/

@[simp] theorem State.updVst_regs (s : State) (f : Vst → Vst) : (s.updVst f).regs = s.regs := rfl
@[simp] theorem State.updVst_mem (s : State) (f : Vst → Vst) : (s.updVst f).mem = s.mem := rfl
@[simp] theorem State.updVst_poison (s : State) (f : Vst → Vst) : (s.updVst f).poison = s.poison := rfl
@[simp] theorem State.updVst_time (s : State) (f : Vst → Vst) : (s.updVst f).time = s.time := rfl
@[simp] theorem State.updVst_free (s : State) (f : Vst → Vst) : (s.updVst f).free = s.free := rfl
@[simp] theorem State.updVst_com (s : State) (f : Vst → Vst) : (s.updVst f).com = s.com := rfl
@[simp] theorem State.updVst_roll (s : State) (f : Vst → Vst) : (s.updVst f).roll = s.roll := rfl
@[simp] theorem State.updVst_hbm (s : State) (f : Vst → Vst) : (s.updVst f).hbm = s.hbm := rfl
@[simp] theorem State.updVst_ledger (s : State) (f : Vst → Vst) : (s.updVst f).ledger = s.ledger := rfl
@[simp] theorem State.updVst_hep (s : State) (f : Vst → Vst) : (s.updVst f).hep = s.hep := rfl
@[simp] theorem State.updVst_stw (s : State) (f : Vst → Vst) : (s.updVst f).stw = s.stw := rfl
@[simp] theorem State.updVst_slu (s : State) (f : Vst → Vst) : (s.updVst f).slu = s.slu := rfl
@[simp] theorem State.updVst_tiles (s : State) (f : Vst → Vst) : (s.updVst f).tiles = s.tiles := rfl
@[simp] theorem State.updVst_mill (s : State) (f : Vst → Vst) : (s.updVst f).mill = s.mill := rfl
@[simp] theorem State.updVst_xlt (s : State) (f : Vst → Vst) : (s.updVst f).xlt = s.xlt := rfl
@[simp] theorem State.updVst_movers (s : State) (f : Vst → Vst) : (s.updVst f).movers = s.movers := rfl
@[simp] theorem State.updVst_movSeq (s : State) (f : Vst → Vst) : (s.updVst f).movSeq = s.movSeq := rfl
@[simp] theorem State.updVst_rve (s : State) (f : Vst → Vst) : (s.updVst f).rve = s.rve := rfl
@[simp] theorem State.updVst_fmtTable (s : State) (f : Vst → Vst) : (s.updVst f).fmtTable = s.fmtTable := rfl
@[simp] theorem State.updVst_sites (s : State) (f : Vst → Vst) : (s.updVst f).sites = s.sites := rfl
@[simp] theorem State.updVst_fab (s : State) (f : Vst → Vst) : (s.updVst f).fab = s.fab := rfl
@[simp] theorem State.updVst_evq (s : State) (f : Vst → Vst) : (s.updVst f).evq = s.evq := rfl
@[simp] theorem State.updVst_pending (s : State) (f : Vst → Vst) : (s.updVst f).pending = s.pending := rfl
@[simp] theorem State.updVst_reg (s : State) (f : Vst → Vst) (rr : RegDef) (k : Nat) : (s.updVst f).reg rr k = s.reg rr k := rfl
@[simp] theorem State.updVst_rd (s : State) (f : Vst → Vst) (g : RF) (k : Nat) : (s.updVst f).rd g k = s.rd g k := rfl
@[simp] theorem State.updVst_flag (s : State) (f : Vst → Vst) (g : RF) (k : Nat) : (s.updVst f).flag g k = s.flag g k := rfl
@[simp] theorem State.updVst_byte (s : State) (f : Vst → Vst) (k : Nat) : (s.updVst f).byte k = s.byte k := rfl
@[simp] theorem State.updVst_iface (s : State) (f : Vst → Vst) (k : Nat) : (s.updVst f).iface k = s.iface k := rfl
@[simp] theorem State.updVst_domSt (s : State) (f : Vst → Vst) (k : Nat) : (s.updVst f).domSt k = s.domSt k := rfl

/-! ### `updRve` -/

@[simp] theorem State.updRve_regs (s : State) (f : Rve → Rve) : (s.updRve f).regs = s.regs := rfl
@[simp] theorem State.updRve_mem (s : State) (f : Rve → Rve) : (s.updRve f).mem = s.mem := rfl
@[simp] theorem State.updRve_poison (s : State) (f : Rve → Rve) : (s.updRve f).poison = s.poison := rfl
@[simp] theorem State.updRve_time (s : State) (f : Rve → Rve) : (s.updRve f).time = s.time := rfl
@[simp] theorem State.updRve_free (s : State) (f : Rve → Rve) : (s.updRve f).free = s.free := rfl
@[simp] theorem State.updRve_com (s : State) (f : Rve → Rve) : (s.updRve f).com = s.com := rfl
@[simp] theorem State.updRve_roll (s : State) (f : Rve → Rve) : (s.updRve f).roll = s.roll := rfl
@[simp] theorem State.updRve_hbm (s : State) (f : Rve → Rve) : (s.updRve f).hbm = s.hbm := rfl
@[simp] theorem State.updRve_ledger (s : State) (f : Rve → Rve) : (s.updRve f).ledger = s.ledger := rfl
@[simp] theorem State.updRve_hep (s : State) (f : Rve → Rve) : (s.updRve f).hep = s.hep := rfl
@[simp] theorem State.updRve_stw (s : State) (f : Rve → Rve) : (s.updRve f).stw = s.stw := rfl
@[simp] theorem State.updRve_slu (s : State) (f : Rve → Rve) : (s.updRve f).slu = s.slu := rfl
@[simp] theorem State.updRve_tiles (s : State) (f : Rve → Rve) : (s.updRve f).tiles = s.tiles := rfl
@[simp] theorem State.updRve_mill (s : State) (f : Rve → Rve) : (s.updRve f).mill = s.mill := rfl
@[simp] theorem State.updRve_xlt (s : State) (f : Rve → Rve) : (s.updRve f).xlt = s.xlt := rfl
@[simp] theorem State.updRve_movers (s : State) (f : Rve → Rve) : (s.updRve f).movers = s.movers := rfl
@[simp] theorem State.updRve_movSeq (s : State) (f : Rve → Rve) : (s.updRve f).movSeq = s.movSeq := rfl
@[simp] theorem State.updRve_vst (s : State) (f : Rve → Rve) : (s.updRve f).vst = s.vst := rfl
@[simp] theorem State.updRve_fmtTable (s : State) (f : Rve → Rve) : (s.updRve f).fmtTable = s.fmtTable := rfl
@[simp] theorem State.updRve_sites (s : State) (f : Rve → Rve) : (s.updRve f).sites = s.sites := rfl
@[simp] theorem State.updRve_fab (s : State) (f : Rve → Rve) : (s.updRve f).fab = s.fab := rfl
@[simp] theorem State.updRve_evq (s : State) (f : Rve → Rve) : (s.updRve f).evq = s.evq := rfl
@[simp] theorem State.updRve_pending (s : State) (f : Rve → Rve) : (s.updRve f).pending = s.pending := rfl
@[simp] theorem State.updRve_reg (s : State) (f : Rve → Rve) (rr : RegDef) (k : Nat) : (s.updRve f).reg rr k = s.reg rr k := rfl
@[simp] theorem State.updRve_rd (s : State) (f : Rve → Rve) (g : RF) (k : Nat) : (s.updRve f).rd g k = s.rd g k := rfl
@[simp] theorem State.updRve_flag (s : State) (f : Rve → Rve) (g : RF) (k : Nat) : (s.updRve f).flag g k = s.flag g k := rfl
@[simp] theorem State.updRve_byte (s : State) (f : Rve → Rve) (k : Nat) : (s.updRve f).byte k = s.byte k := rfl
@[simp] theorem State.updRve_iface (s : State) (f : Rve → Rve) (k : Nat) : (s.updRve f).iface k = s.iface k := rfl
@[simp] theorem State.updRve_domSt (s : State) (f : Rve → Rve) (k : Nat) : (s.updRve f).domSt k = s.domSt k := rfl

/-! ### `updSlot` -/

@[simp] theorem State.updSlot_regs (s : State) (n u : Nat) (f : Slot → Slot) : (s.updSlot n u f).regs = s.regs := rfl
@[simp] theorem State.updSlot_mem (s : State) (n u : Nat) (f : Slot → Slot) : (s.updSlot n u f).mem = s.mem := rfl
@[simp] theorem State.updSlot_poison (s : State) (n u : Nat) (f : Slot → Slot) : (s.updSlot n u f).poison = s.poison := rfl
@[simp] theorem State.updSlot_time (s : State) (n u : Nat) (f : Slot → Slot) : (s.updSlot n u f).time = s.time := rfl
@[simp] theorem State.updSlot_free (s : State) (n u : Nat) (f : Slot → Slot) : (s.updSlot n u f).free = s.free := rfl
@[simp] theorem State.updSlot_com (s : State) (n u : Nat) (f : Slot → Slot) : (s.updSlot n u f).com = s.com := rfl
@[simp] theorem State.updSlot_roll (s : State) (n u : Nat) (f : Slot → Slot) : (s.updSlot n u f).roll = s.roll := rfl
@[simp] theorem State.updSlot_hbm (s : State) (n u : Nat) (f : Slot → Slot) : (s.updSlot n u f).hbm = s.hbm := rfl
@[simp] theorem State.updSlot_ledger (s : State) (n u : Nat) (f : Slot → Slot) : (s.updSlot n u f).ledger = s.ledger := rfl
@[simp] theorem State.updSlot_hep (s : State) (n u : Nat) (f : Slot → Slot) : (s.updSlot n u f).hep = s.hep := rfl
@[simp] theorem State.updSlot_stw (s : State) (n u : Nat) (f : Slot → Slot) : (s.updSlot n u f).stw = s.stw := rfl
@[simp] theorem State.updSlot_slu (s : State) (n u : Nat) (f : Slot → Slot) : (s.updSlot n u f).slu = s.slu := rfl
@[simp] theorem State.updSlot_tiles (s : State) (n u : Nat) (f : Slot → Slot) : (s.updSlot n u f).tiles = s.tiles := rfl
@[simp] theorem State.updSlot_mill (s : State) (n u : Nat) (f : Slot → Slot) : (s.updSlot n u f).mill = s.mill := rfl
@[simp] theorem State.updSlot_xlt (s : State) (n u : Nat) (f : Slot → Slot) : (s.updSlot n u f).xlt = s.xlt := rfl
@[simp] theorem State.updSlot_movers (s : State) (n u : Nat) (f : Slot → Slot) : (s.updSlot n u f).movers = s.movers := rfl
@[simp] theorem State.updSlot_movSeq (s : State) (n u : Nat) (f : Slot → Slot) : (s.updSlot n u f).movSeq = s.movSeq := rfl
@[simp] theorem State.updSlot_vst (s : State) (n u : Nat) (f : Slot → Slot) : (s.updSlot n u f).vst = s.vst := rfl
@[simp] theorem State.updSlot_rve (s : State) (n u : Nat) (f : Slot → Slot) : (s.updSlot n u f).rve = s.rve := rfl
@[simp] theorem State.updSlot_fmtTable (s : State) (n u : Nat) (f : Slot → Slot) : (s.updSlot n u f).fmtTable = s.fmtTable := rfl
@[simp] theorem State.updSlot_fab (s : State) (n u : Nat) (f : Slot → Slot) : (s.updSlot n u f).fab = s.fab := rfl
@[simp] theorem State.updSlot_evq (s : State) (n u : Nat) (f : Slot → Slot) : (s.updSlot n u f).evq = s.evq := rfl
@[simp] theorem State.updSlot_pending (s : State) (n u : Nat) (f : Slot → Slot) : (s.updSlot n u f).pending = s.pending := rfl
@[simp] theorem State.updSlot_reg (s : State) (n u : Nat) (f : Slot → Slot) (rr : RegDef) (k : Nat) : (s.updSlot n u f).reg rr k = s.reg rr k := rfl
@[simp] theorem State.updSlot_rd (s : State) (n u : Nat) (f : Slot → Slot) (g : RF) (k : Nat) : (s.updSlot n u f).rd g k = s.rd g k := rfl
@[simp] theorem State.updSlot_flag (s : State) (n u : Nat) (f : Slot → Slot) (g : RF) (k : Nat) : (s.updSlot n u f).flag g k = s.flag g k := rfl
@[simp] theorem State.updSlot_byte (s : State) (n u : Nat) (f : Slot → Slot) (k : Nat) : (s.updSlot n u f).byte k = s.byte k := rfl
@[simp] theorem State.updSlot_iface (s : State) (n u : Nat) (f : Slot → Slot) (k : Nat) : (s.updSlot n u f).iface k = s.iface k := rfl
@[simp] theorem State.updSlot_domSt (s : State) (n u : Nat) (f : Slot → Slot) (k : Nat) : (s.updSlot n u f).domSt k = s.domSt k := rfl

/-! ### `putSend` -/

@[simp] theorem State.putSend_regs (s : State) (h : Nat) (c : SendCtx) : (s.putSend h c).regs = s.regs := rfl
@[simp] theorem State.putSend_mem (s : State) (h : Nat) (c : SendCtx) : (s.putSend h c).mem = s.mem := rfl
@[simp] theorem State.putSend_poison (s : State) (h : Nat) (c : SendCtx) : (s.putSend h c).poison = s.poison := rfl
@[simp] theorem State.putSend_time (s : State) (h : Nat) (c : SendCtx) : (s.putSend h c).time = s.time := rfl
@[simp] theorem State.putSend_free (s : State) (h : Nat) (c : SendCtx) : (s.putSend h c).free = s.free := rfl
@[simp] theorem State.putSend_com (s : State) (h : Nat) (c : SendCtx) : (s.putSend h c).com = s.com := rfl
@[simp] theorem State.putSend_roll (s : State) (h : Nat) (c : SendCtx) : (s.putSend h c).roll = s.roll := rfl
@[simp] theorem State.putSend_hbm (s : State) (h : Nat) (c : SendCtx) : (s.putSend h c).hbm = s.hbm := rfl
@[simp] theorem State.putSend_ledger (s : State) (h : Nat) (c : SendCtx) : (s.putSend h c).ledger = s.ledger := rfl
@[simp] theorem State.putSend_hep (s : State) (h : Nat) (c : SendCtx) : (s.putSend h c).hep = s.hep := rfl
@[simp] theorem State.putSend_stw (s : State) (h : Nat) (c : SendCtx) : (s.putSend h c).stw = s.stw := rfl
@[simp] theorem State.putSend_slu (s : State) (h : Nat) (c : SendCtx) : (s.putSend h c).slu = s.slu := rfl
@[simp] theorem State.putSend_tiles (s : State) (h : Nat) (c : SendCtx) : (s.putSend h c).tiles = s.tiles := rfl
@[simp] theorem State.putSend_mill (s : State) (h : Nat) (c : SendCtx) : (s.putSend h c).mill = s.mill := rfl
@[simp] theorem State.putSend_xlt (s : State) (h : Nat) (c : SendCtx) : (s.putSend h c).xlt = s.xlt := rfl
@[simp] theorem State.putSend_movers (s : State) (h : Nat) (c : SendCtx) : (s.putSend h c).movers = s.movers := rfl
@[simp] theorem State.putSend_movSeq (s : State) (h : Nat) (c : SendCtx) : (s.putSend h c).movSeq = s.movSeq := rfl
@[simp] theorem State.putSend_vst (s : State) (h : Nat) (c : SendCtx) : (s.putSend h c).vst = s.vst := rfl
@[simp] theorem State.putSend_rve (s : State) (h : Nat) (c : SendCtx) : (s.putSend h c).rve = s.rve := rfl
@[simp] theorem State.putSend_fmtTable (s : State) (h : Nat) (c : SendCtx) : (s.putSend h c).fmtTable = s.fmtTable := rfl
@[simp] theorem State.putSend_sites (s : State) (h : Nat) (c : SendCtx) : (s.putSend h c).sites = s.sites := rfl
@[simp] theorem State.putSend_evq (s : State) (h : Nat) (c : SendCtx) : (s.putSend h c).evq = s.evq := rfl
@[simp] theorem State.putSend_pending (s : State) (h : Nat) (c : SendCtx) : (s.putSend h c).pending = s.pending := rfl
@[simp] theorem State.putSend_reg (s : State) (h : Nat) (c : SendCtx) (rr : RegDef) (k : Nat) : (s.putSend h c).reg rr k = s.reg rr k := rfl
@[simp] theorem State.putSend_rd (s : State) (h : Nat) (c : SendCtx) (g : RF) (k : Nat) : (s.putSend h c).rd g k = s.rd g k := rfl
@[simp] theorem State.putSend_flag (s : State) (h : Nat) (c : SendCtx) (g : RF) (k : Nat) : (s.putSend h c).flag g k = s.flag g k := rfl
@[simp] theorem State.putSend_byte (s : State) (h : Nat) (c : SendCtx) (k : Nat) : (s.putSend h c).byte k = s.byte k := rfl
@[simp] theorem State.putSend_iface (s : State) (h : Nat) (c : SendCtx) (k : Nat) : (s.putSend h c).iface k = s.iface k := rfl
@[simp] theorem State.putSend_domSt (s : State) (h : Nat) (c : SendCtx) (k : Nat) : (s.putSend h c).domSt k = s.domSt k := rfl

/-! ### `putRecv` -/

@[simp] theorem State.putRecv_regs (s : State) (h : Nat) (c : RecvCtx) : (s.putRecv h c).regs = s.regs := rfl
@[simp] theorem State.putRecv_mem (s : State) (h : Nat) (c : RecvCtx) : (s.putRecv h c).mem = s.mem := rfl
@[simp] theorem State.putRecv_poison (s : State) (h : Nat) (c : RecvCtx) : (s.putRecv h c).poison = s.poison := rfl
@[simp] theorem State.putRecv_time (s : State) (h : Nat) (c : RecvCtx) : (s.putRecv h c).time = s.time := rfl
@[simp] theorem State.putRecv_free (s : State) (h : Nat) (c : RecvCtx) : (s.putRecv h c).free = s.free := rfl
@[simp] theorem State.putRecv_com (s : State) (h : Nat) (c : RecvCtx) : (s.putRecv h c).com = s.com := rfl
@[simp] theorem State.putRecv_roll (s : State) (h : Nat) (c : RecvCtx) : (s.putRecv h c).roll = s.roll := rfl
@[simp] theorem State.putRecv_hbm (s : State) (h : Nat) (c : RecvCtx) : (s.putRecv h c).hbm = s.hbm := rfl
@[simp] theorem State.putRecv_ledger (s : State) (h : Nat) (c : RecvCtx) : (s.putRecv h c).ledger = s.ledger := rfl
@[simp] theorem State.putRecv_hep (s : State) (h : Nat) (c : RecvCtx) : (s.putRecv h c).hep = s.hep := rfl
@[simp] theorem State.putRecv_stw (s : State) (h : Nat) (c : RecvCtx) : (s.putRecv h c).stw = s.stw := rfl
@[simp] theorem State.putRecv_slu (s : State) (h : Nat) (c : RecvCtx) : (s.putRecv h c).slu = s.slu := rfl
@[simp] theorem State.putRecv_tiles (s : State) (h : Nat) (c : RecvCtx) : (s.putRecv h c).tiles = s.tiles := rfl
@[simp] theorem State.putRecv_mill (s : State) (h : Nat) (c : RecvCtx) : (s.putRecv h c).mill = s.mill := rfl
@[simp] theorem State.putRecv_xlt (s : State) (h : Nat) (c : RecvCtx) : (s.putRecv h c).xlt = s.xlt := rfl
@[simp] theorem State.putRecv_movers (s : State) (h : Nat) (c : RecvCtx) : (s.putRecv h c).movers = s.movers := rfl
@[simp] theorem State.putRecv_movSeq (s : State) (h : Nat) (c : RecvCtx) : (s.putRecv h c).movSeq = s.movSeq := rfl
@[simp] theorem State.putRecv_vst (s : State) (h : Nat) (c : RecvCtx) : (s.putRecv h c).vst = s.vst := rfl
@[simp] theorem State.putRecv_rve (s : State) (h : Nat) (c : RecvCtx) : (s.putRecv h c).rve = s.rve := rfl
@[simp] theorem State.putRecv_fmtTable (s : State) (h : Nat) (c : RecvCtx) : (s.putRecv h c).fmtTable = s.fmtTable := rfl
@[simp] theorem State.putRecv_sites (s : State) (h : Nat) (c : RecvCtx) : (s.putRecv h c).sites = s.sites := rfl
@[simp] theorem State.putRecv_evq (s : State) (h : Nat) (c : RecvCtx) : (s.putRecv h c).evq = s.evq := rfl
@[simp] theorem State.putRecv_pending (s : State) (h : Nat) (c : RecvCtx) : (s.putRecv h c).pending = s.pending := rfl
@[simp] theorem State.putRecv_reg (s : State) (h : Nat) (c : RecvCtx) (rr : RegDef) (k : Nat) : (s.putRecv h c).reg rr k = s.reg rr k := rfl
@[simp] theorem State.putRecv_rd (s : State) (h : Nat) (c : RecvCtx) (g : RF) (k : Nat) : (s.putRecv h c).rd g k = s.rd g k := rfl
@[simp] theorem State.putRecv_flag (s : State) (h : Nat) (c : RecvCtx) (g : RF) (k : Nat) : (s.putRecv h c).flag g k = s.flag g k := rfl
@[simp] theorem State.putRecv_byte (s : State) (h : Nat) (c : RecvCtx) (k : Nat) : (s.putRecv h c).byte k = s.byte k := rfl
@[simp] theorem State.putRecv_iface (s : State) (h : Nat) (c : RecvCtx) (k : Nat) : (s.putRecv h c).iface k = s.iface k := rfl
@[simp] theorem State.putRecv_domSt (s : State) (h : Nat) (c : RecvCtx) (k : Nat) : (s.putRecv h c).domSt k = s.domSt k := rfl

/-! ### `updGen` -/

@[simp] theorem State.updGen_regs (s : State) (f : Gen → Gen) : (s.updGen f).regs = s.regs := rfl
@[simp] theorem State.updGen_mem (s : State) (f : Gen → Gen) : (s.updGen f).mem = s.mem := rfl
@[simp] theorem State.updGen_poison (s : State) (f : Gen → Gen) : (s.updGen f).poison = s.poison := rfl
@[simp] theorem State.updGen_time (s : State) (f : Gen → Gen) : (s.updGen f).time = s.time := rfl
@[simp] theorem State.updGen_free (s : State) (f : Gen → Gen) : (s.updGen f).free = s.free := rfl
@[simp] theorem State.updGen_com (s : State) (f : Gen → Gen) : (s.updGen f).com = s.com := rfl
@[simp] theorem State.updGen_roll (s : State) (f : Gen → Gen) : (s.updGen f).roll = s.roll := rfl
@[simp] theorem State.updGen_hbm (s : State) (f : Gen → Gen) : (s.updGen f).hbm = s.hbm := rfl
@[simp] theorem State.updGen_ledger (s : State) (f : Gen → Gen) : (s.updGen f).ledger = s.ledger := rfl
@[simp] theorem State.updGen_hep (s : State) (f : Gen → Gen) : (s.updGen f).hep = s.hep := rfl
@[simp] theorem State.updGen_slu (s : State) (f : Gen → Gen) : (s.updGen f).slu = s.slu := rfl
@[simp] theorem State.updGen_tiles (s : State) (f : Gen → Gen) : (s.updGen f).tiles = s.tiles := rfl
@[simp] theorem State.updGen_mill (s : State) (f : Gen → Gen) : (s.updGen f).mill = s.mill := rfl
@[simp] theorem State.updGen_xlt (s : State) (f : Gen → Gen) : (s.updGen f).xlt = s.xlt := rfl
@[simp] theorem State.updGen_movers (s : State) (f : Gen → Gen) : (s.updGen f).movers = s.movers := rfl
@[simp] theorem State.updGen_movSeq (s : State) (f : Gen → Gen) : (s.updGen f).movSeq = s.movSeq := rfl
@[simp] theorem State.updGen_vst (s : State) (f : Gen → Gen) : (s.updGen f).vst = s.vst := rfl
@[simp] theorem State.updGen_rve (s : State) (f : Gen → Gen) : (s.updGen f).rve = s.rve := rfl
@[simp] theorem State.updGen_fmtTable (s : State) (f : Gen → Gen) : (s.updGen f).fmtTable = s.fmtTable := rfl
@[simp] theorem State.updGen_sites (s : State) (f : Gen → Gen) : (s.updGen f).sites = s.sites := rfl
@[simp] theorem State.updGen_fab (s : State) (f : Gen → Gen) : (s.updGen f).fab = s.fab := rfl
@[simp] theorem State.updGen_evq (s : State) (f : Gen → Gen) : (s.updGen f).evq = s.evq := rfl
@[simp] theorem State.updGen_pending (s : State) (f : Gen → Gen) : (s.updGen f).pending = s.pending := rfl
@[simp] theorem State.updGen_reg (s : State) (f : Gen → Gen) (rr : RegDef) (k : Nat) : (s.updGen f).reg rr k = s.reg rr k := rfl
@[simp] theorem State.updGen_rd (s : State) (f : Gen → Gen) (g : RF) (k : Nat) : (s.updGen f).rd g k = s.rd g k := rfl
@[simp] theorem State.updGen_flag (s : State) (f : Gen → Gen) (g : RF) (k : Nat) : (s.updGen f).flag g k = s.flag g k := rfl
@[simp] theorem State.updGen_byte (s : State) (f : Gen → Gen) (k : Nat) : (s.updGen f).byte k = s.byte k := rfl
@[simp] theorem State.updGen_iface (s : State) (f : Gen → Gen) (k : Nat) : (s.updGen f).iface k = s.iface k := rfl
@[simp] theorem State.updGen_domSt (s : State) (f : Gen → Gen) (k : Nat) : (s.updGen f).domSt k = s.domSt k := rfl

/-! ### `updSeq` -/

@[simp] theorem State.updSeq_regs (s : State) (n : Nat) (f : Seq → Seq) : (s.updSeq n f).regs = s.regs := rfl
@[simp] theorem State.updSeq_mem (s : State) (n : Nat) (f : Seq → Seq) : (s.updSeq n f).mem = s.mem := rfl
@[simp] theorem State.updSeq_poison (s : State) (n : Nat) (f : Seq → Seq) : (s.updSeq n f).poison = s.poison := rfl
@[simp] theorem State.updSeq_time (s : State) (n : Nat) (f : Seq → Seq) : (s.updSeq n f).time = s.time := rfl
@[simp] theorem State.updSeq_free (s : State) (n : Nat) (f : Seq → Seq) : (s.updSeq n f).free = s.free := rfl
@[simp] theorem State.updSeq_com (s : State) (n : Nat) (f : Seq → Seq) : (s.updSeq n f).com = s.com := rfl
@[simp] theorem State.updSeq_roll (s : State) (n : Nat) (f : Seq → Seq) : (s.updSeq n f).roll = s.roll := rfl
@[simp] theorem State.updSeq_hbm (s : State) (n : Nat) (f : Seq → Seq) : (s.updSeq n f).hbm = s.hbm := rfl
@[simp] theorem State.updSeq_ledger (s : State) (n : Nat) (f : Seq → Seq) : (s.updSeq n f).ledger = s.ledger := rfl
@[simp] theorem State.updSeq_hep (s : State) (n : Nat) (f : Seq → Seq) : (s.updSeq n f).hep = s.hep := rfl
@[simp] theorem State.updSeq_slu (s : State) (n : Nat) (f : Seq → Seq) : (s.updSeq n f).slu = s.slu := rfl
@[simp] theorem State.updSeq_tiles (s : State) (n : Nat) (f : Seq → Seq) : (s.updSeq n f).tiles = s.tiles := rfl
@[simp] theorem State.updSeq_mill (s : State) (n : Nat) (f : Seq → Seq) : (s.updSeq n f).mill = s.mill := rfl
@[simp] theorem State.updSeq_xlt (s : State) (n : Nat) (f : Seq → Seq) : (s.updSeq n f).xlt = s.xlt := rfl
@[simp] theorem State.updSeq_movers (s : State) (n : Nat) (f : Seq → Seq) : (s.updSeq n f).movers = s.movers := rfl
@[simp] theorem State.updSeq_movSeq (s : State) (n : Nat) (f : Seq → Seq) : (s.updSeq n f).movSeq = s.movSeq := rfl
@[simp] theorem State.updSeq_vst (s : State) (n : Nat) (f : Seq → Seq) : (s.updSeq n f).vst = s.vst := rfl
@[simp] theorem State.updSeq_rve (s : State) (n : Nat) (f : Seq → Seq) : (s.updSeq n f).rve = s.rve := rfl
@[simp] theorem State.updSeq_fmtTable (s : State) (n : Nat) (f : Seq → Seq) : (s.updSeq n f).fmtTable = s.fmtTable := rfl
@[simp] theorem State.updSeq_sites (s : State) (n : Nat) (f : Seq → Seq) : (s.updSeq n f).sites = s.sites := rfl
@[simp] theorem State.updSeq_fab (s : State) (n : Nat) (f : Seq → Seq) : (s.updSeq n f).fab = s.fab := rfl
@[simp] theorem State.updSeq_evq (s : State) (n : Nat) (f : Seq → Seq) : (s.updSeq n f).evq = s.evq := rfl
@[simp] theorem State.updSeq_pending (s : State) (n : Nat) (f : Seq → Seq) : (s.updSeq n f).pending = s.pending := rfl
@[simp] theorem State.updSeq_reg (s : State) (n : Nat) (f : Seq → Seq) (rr : RegDef) (k : Nat) : (s.updSeq n f).reg rr k = s.reg rr k := rfl
@[simp] theorem State.updSeq_rd (s : State) (n : Nat) (f : Seq → Seq) (g : RF) (k : Nat) : (s.updSeq n f).rd g k = s.rd g k := rfl
@[simp] theorem State.updSeq_flag (s : State) (n : Nat) (f : Seq → Seq) (g : RF) (k : Nat) : (s.updSeq n f).flag g k = s.flag g k := rfl
@[simp] theorem State.updSeq_byte (s : State) (n : Nat) (f : Seq → Seq) (k : Nat) : (s.updSeq n f).byte k = s.byte k := rfl
@[simp] theorem State.updSeq_iface (s : State) (n : Nat) (f : Seq → Seq) (k : Nat) : (s.updSeq n f).iface k = s.iface k := rfl
@[simp] theorem State.updSeq_domSt (s : State) (n : Nat) (f : Seq → Seq) (k : Nat) : (s.updSeq n f).domSt k = s.domSt k := rfl

/-! ### `updOtp` -/

@[simp] theorem State.updOtp_regs (s : State) (f : Otp → Otp) : (s.updOtp f).regs = s.regs := rfl
@[simp] theorem State.updOtp_mem (s : State) (f : Otp → Otp) : (s.updOtp f).mem = s.mem := rfl
@[simp] theorem State.updOtp_poison (s : State) (f : Otp → Otp) : (s.updOtp f).poison = s.poison := rfl
@[simp] theorem State.updOtp_time (s : State) (f : Otp → Otp) : (s.updOtp f).time = s.time := rfl
@[simp] theorem State.updOtp_free (s : State) (f : Otp → Otp) : (s.updOtp f).free = s.free := rfl
@[simp] theorem State.updOtp_com (s : State) (f : Otp → Otp) : (s.updOtp f).com = s.com := rfl
@[simp] theorem State.updOtp_roll (s : State) (f : Otp → Otp) : (s.updOtp f).roll = s.roll := rfl
@[simp] theorem State.updOtp_hbm (s : State) (f : Otp → Otp) : (s.updOtp f).hbm = s.hbm := rfl
@[simp] theorem State.updOtp_ledger (s : State) (f : Otp → Otp) : (s.updOtp f).ledger = s.ledger := rfl
@[simp] theorem State.updOtp_hep (s : State) (f : Otp → Otp) : (s.updOtp f).hep = s.hep := rfl
@[simp] theorem State.updOtp_stw (s : State) (f : Otp → Otp) : (s.updOtp f).stw = s.stw := rfl
@[simp] theorem State.updOtp_slu (s : State) (f : Otp → Otp) : (s.updOtp f).slu = s.slu := rfl
@[simp] theorem State.updOtp_tiles (s : State) (f : Otp → Otp) : (s.updOtp f).tiles = s.tiles := rfl
@[simp] theorem State.updOtp_mill (s : State) (f : Otp → Otp) : (s.updOtp f).mill = s.mill := rfl
@[simp] theorem State.updOtp_xlt (s : State) (f : Otp → Otp) : (s.updOtp f).xlt = s.xlt := rfl
@[simp] theorem State.updOtp_movers (s : State) (f : Otp → Otp) : (s.updOtp f).movers = s.movers := rfl
@[simp] theorem State.updOtp_movSeq (s : State) (f : Otp → Otp) : (s.updOtp f).movSeq = s.movSeq := rfl
@[simp] theorem State.updOtp_rve (s : State) (f : Otp → Otp) : (s.updOtp f).rve = s.rve := rfl
@[simp] theorem State.updOtp_fmtTable (s : State) (f : Otp → Otp) : (s.updOtp f).fmtTable = s.fmtTable := rfl
@[simp] theorem State.updOtp_sites (s : State) (f : Otp → Otp) : (s.updOtp f).sites = s.sites := rfl
@[simp] theorem State.updOtp_fab (s : State) (f : Otp → Otp) : (s.updOtp f).fab = s.fab := rfl
@[simp] theorem State.updOtp_evq (s : State) (f : Otp → Otp) : (s.updOtp f).evq = s.evq := rfl
@[simp] theorem State.updOtp_pending (s : State) (f : Otp → Otp) : (s.updOtp f).pending = s.pending := rfl
@[simp] theorem State.updOtp_reg (s : State) (f : Otp → Otp) (rr : RegDef) (k : Nat) : (s.updOtp f).reg rr k = s.reg rr k := rfl
@[simp] theorem State.updOtp_rd (s : State) (f : Otp → Otp) (g : RF) (k : Nat) : (s.updOtp f).rd g k = s.rd g k := rfl
@[simp] theorem State.updOtp_flag (s : State) (f : Otp → Otp) (g : RF) (k : Nat) : (s.updOtp f).flag g k = s.flag g k := rfl
@[simp] theorem State.updOtp_byte (s : State) (f : Otp → Otp) (k : Nat) : (s.updOtp f).byte k = s.byte k := rfl
@[simp] theorem State.updOtp_iface (s : State) (f : Otp → Otp) (k : Nat) : (s.updOtp f).iface k = s.iface k := rfl
@[simp] theorem State.updOtp_domSt (s : State) (f : Otp → Otp) (k : Nat) : (s.updOtp f).domSt k = s.domSt k := rfl

/-! ### `updPw` -/

@[simp] theorem State.updPw_regs (s : State) (f : Power → Power) : (s.updPw f).regs = s.regs := rfl
@[simp] theorem State.updPw_mem (s : State) (f : Power → Power) : (s.updPw f).mem = s.mem := rfl
@[simp] theorem State.updPw_poison (s : State) (f : Power → Power) : (s.updPw f).poison = s.poison := rfl
@[simp] theorem State.updPw_time (s : State) (f : Power → Power) : (s.updPw f).time = s.time := rfl
@[simp] theorem State.updPw_free (s : State) (f : Power → Power) : (s.updPw f).free = s.free := rfl
@[simp] theorem State.updPw_com (s : State) (f : Power → Power) : (s.updPw f).com = s.com := rfl
@[simp] theorem State.updPw_roll (s : State) (f : Power → Power) : (s.updPw f).roll = s.roll := rfl
@[simp] theorem State.updPw_hbm (s : State) (f : Power → Power) : (s.updPw f).hbm = s.hbm := rfl
@[simp] theorem State.updPw_ledger (s : State) (f : Power → Power) : (s.updPw f).ledger = s.ledger := rfl
@[simp] theorem State.updPw_hep (s : State) (f : Power → Power) : (s.updPw f).hep = s.hep := rfl
@[simp] theorem State.updPw_stw (s : State) (f : Power → Power) : (s.updPw f).stw = s.stw := rfl
@[simp] theorem State.updPw_slu (s : State) (f : Power → Power) : (s.updPw f).slu = s.slu := rfl
@[simp] theorem State.updPw_tiles (s : State) (f : Power → Power) : (s.updPw f).tiles = s.tiles := rfl
@[simp] theorem State.updPw_mill (s : State) (f : Power → Power) : (s.updPw f).mill = s.mill := rfl
@[simp] theorem State.updPw_xlt (s : State) (f : Power → Power) : (s.updPw f).xlt = s.xlt := rfl
@[simp] theorem State.updPw_movers (s : State) (f : Power → Power) : (s.updPw f).movers = s.movers := rfl
@[simp] theorem State.updPw_movSeq (s : State) (f : Power → Power) : (s.updPw f).movSeq = s.movSeq := rfl
@[simp] theorem State.updPw_vst (s : State) (f : Power → Power) : (s.updPw f).vst = s.vst := rfl
@[simp] theorem State.updPw_fmtTable (s : State) (f : Power → Power) : (s.updPw f).fmtTable = s.fmtTable := rfl
@[simp] theorem State.updPw_sites (s : State) (f : Power → Power) : (s.updPw f).sites = s.sites := rfl
@[simp] theorem State.updPw_fab (s : State) (f : Power → Power) : (s.updPw f).fab = s.fab := rfl
@[simp] theorem State.updPw_evq (s : State) (f : Power → Power) : (s.updPw f).evq = s.evq := rfl
@[simp] theorem State.updPw_pending (s : State) (f : Power → Power) : (s.updPw f).pending = s.pending := rfl
@[simp] theorem State.updPw_reg (s : State) (f : Power → Power) (rr : RegDef) (k : Nat) : (s.updPw f).reg rr k = s.reg rr k := rfl
@[simp] theorem State.updPw_rd (s : State) (f : Power → Power) (g : RF) (k : Nat) : (s.updPw f).rd g k = s.rd g k := rfl
@[simp] theorem State.updPw_flag (s : State) (f : Power → Power) (g : RF) (k : Nat) : (s.updPw f).flag g k = s.flag g k := rfl
@[simp] theorem State.updPw_byte (s : State) (f : Power → Power) (k : Nat) : (s.updPw f).byte k = s.byte k := rfl
@[simp] theorem State.updPw_iface (s : State) (f : Power → Power) (k : Nat) : (s.updPw f).iface k = s.iface k := rfl
@[simp] theorem State.updPw_domSt (s : State) (f : Power → Power) (k : Nat) : (s.updPw f).domSt k = s.domSt k := rfl

/-! ### `updModel` -/

@[simp] theorem State.updModel_regs (s : State) (e : Nat) (f : Model → Model) : (s.updModel e f).regs = s.regs := rfl
@[simp] theorem State.updModel_mem (s : State) (e : Nat) (f : Model → Model) : (s.updModel e f).mem = s.mem := rfl
@[simp] theorem State.updModel_poison (s : State) (e : Nat) (f : Model → Model) : (s.updModel e f).poison = s.poison := rfl
@[simp] theorem State.updModel_time (s : State) (e : Nat) (f : Model → Model) : (s.updModel e f).time = s.time := rfl
@[simp] theorem State.updModel_free (s : State) (e : Nat) (f : Model → Model) : (s.updModel e f).free = s.free := rfl
@[simp] theorem State.updModel_com (s : State) (e : Nat) (f : Model → Model) : (s.updModel e f).com = s.com := rfl
@[simp] theorem State.updModel_roll (s : State) (e : Nat) (f : Model → Model) : (s.updModel e f).roll = s.roll := rfl
@[simp] theorem State.updModel_hbm (s : State) (e : Nat) (f : Model → Model) : (s.updModel e f).hbm = s.hbm := rfl
@[simp] theorem State.updModel_ledger (s : State) (e : Nat) (f : Model → Model) : (s.updModel e f).ledger = s.ledger := rfl
@[simp] theorem State.updModel_hep (s : State) (e : Nat) (f : Model → Model) : (s.updModel e f).hep = s.hep := rfl
@[simp] theorem State.updModel_stw (s : State) (e : Nat) (f : Model → Model) : (s.updModel e f).stw = s.stw := rfl
@[simp] theorem State.updModel_slu (s : State) (e : Nat) (f : Model → Model) : (s.updModel e f).slu = s.slu := rfl
@[simp] theorem State.updModel_tiles (s : State) (e : Nat) (f : Model → Model) : (s.updModel e f).tiles = s.tiles := rfl
@[simp] theorem State.updModel_mill (s : State) (e : Nat) (f : Model → Model) : (s.updModel e f).mill = s.mill := rfl
@[simp] theorem State.updModel_xlt (s : State) (e : Nat) (f : Model → Model) : (s.updModel e f).xlt = s.xlt := rfl
@[simp] theorem State.updModel_movers (s : State) (e : Nat) (f : Model → Model) : (s.updModel e f).movers = s.movers := rfl
@[simp] theorem State.updModel_movSeq (s : State) (e : Nat) (f : Model → Model) : (s.updModel e f).movSeq = s.movSeq := rfl
@[simp] theorem State.updModel_rve (s : State) (e : Nat) (f : Model → Model) : (s.updModel e f).rve = s.rve := rfl
@[simp] theorem State.updModel_fmtTable (s : State) (e : Nat) (f : Model → Model) : (s.updModel e f).fmtTable = s.fmtTable := rfl
@[simp] theorem State.updModel_sites (s : State) (e : Nat) (f : Model → Model) : (s.updModel e f).sites = s.sites := rfl
@[simp] theorem State.updModel_fab (s : State) (e : Nat) (f : Model → Model) : (s.updModel e f).fab = s.fab := rfl
@[simp] theorem State.updModel_evq (s : State) (e : Nat) (f : Model → Model) : (s.updModel e f).evq = s.evq := rfl
@[simp] theorem State.updModel_pending (s : State) (e : Nat) (f : Model → Model) : (s.updModel e f).pending = s.pending := rfl
@[simp] theorem State.updModel_reg (s : State) (e : Nat) (f : Model → Model) (rr : RegDef) (k : Nat) : (s.updModel e f).reg rr k = s.reg rr k := rfl
@[simp] theorem State.updModel_rd (s : State) (e : Nat) (f : Model → Model) (g : RF) (k : Nat) : (s.updModel e f).rd g k = s.rd g k := rfl
@[simp] theorem State.updModel_flag (s : State) (e : Nat) (f : Model → Model) (g : RF) (k : Nat) : (s.updModel e f).flag g k = s.flag g k := rfl
@[simp] theorem State.updModel_byte (s : State) (e : Nat) (f : Model → Model) (k : Nat) : (s.updModel e f).byte k = s.byte k := rfl
@[simp] theorem State.updModel_iface (s : State) (e : Nat) (f : Model → Model) (k : Nat) : (s.updModel e f).iface k = s.iface k := rfl
@[simp] theorem State.updModel_domSt (s : State) (e : Nat) (f : Model → Model) (k : Nat) : (s.updModel e f).domSt k = s.domSt k := rfl

/-! ### `updMillItem` -/

@[simp] theorem State.updMillItem_regs (s : State) (q : Nat) (f : MillItem → MillItem) : (s.updMillItem q f).regs = s.regs := rfl
@[simp] theorem State.updMillItem_mem (s : State) (q : Nat) (f : MillItem → MillItem) : (s.updMillItem q f).mem = s.mem := rfl
@[simp] theorem State.updMillItem_poison (s : State) (q : Nat) (f : MillItem → MillItem) : (s.updMillItem q f).poison = s.poison := rfl
@[simp] theorem State.updMillItem_time (s : State) (q : Nat) (f : MillItem → MillItem) : (s.updMillItem q f).time = s.time := rfl
@[simp] theorem State.updMillItem_free (s : State) (q : Nat) (f : MillItem → MillItem) : (s.updMillItem q f).free = s.free := rfl
@[simp] theorem State.updMillItem_com (s : State) (q : Nat) (f : MillItem → MillItem) : (s.updMillItem q f).com = s.com := rfl
@[simp] theorem State.updMillItem_roll (s : State) (q : Nat) (f : MillItem → MillItem) : (s.updMillItem q f).roll = s.roll := rfl
@[simp] theorem State.updMillItem_hbm (s : State) (q : Nat) (f : MillItem → MillItem) : (s.updMillItem q f).hbm = s.hbm := rfl
@[simp] theorem State.updMillItem_ledger (s : State) (q : Nat) (f : MillItem → MillItem) : (s.updMillItem q f).ledger = s.ledger := rfl
@[simp] theorem State.updMillItem_hep (s : State) (q : Nat) (f : MillItem → MillItem) : (s.updMillItem q f).hep = s.hep := rfl
@[simp] theorem State.updMillItem_stw (s : State) (q : Nat) (f : MillItem → MillItem) : (s.updMillItem q f).stw = s.stw := rfl
@[simp] theorem State.updMillItem_slu (s : State) (q : Nat) (f : MillItem → MillItem) : (s.updMillItem q f).slu = s.slu := rfl
@[simp] theorem State.updMillItem_tiles (s : State) (q : Nat) (f : MillItem → MillItem) : (s.updMillItem q f).tiles = s.tiles := rfl
@[simp] theorem State.updMillItem_xlt (s : State) (q : Nat) (f : MillItem → MillItem) : (s.updMillItem q f).xlt = s.xlt := rfl
@[simp] theorem State.updMillItem_movers (s : State) (q : Nat) (f : MillItem → MillItem) : (s.updMillItem q f).movers = s.movers := rfl
@[simp] theorem State.updMillItem_movSeq (s : State) (q : Nat) (f : MillItem → MillItem) : (s.updMillItem q f).movSeq = s.movSeq := rfl
@[simp] theorem State.updMillItem_vst (s : State) (q : Nat) (f : MillItem → MillItem) : (s.updMillItem q f).vst = s.vst := rfl
@[simp] theorem State.updMillItem_rve (s : State) (q : Nat) (f : MillItem → MillItem) : (s.updMillItem q f).rve = s.rve := rfl
@[simp] theorem State.updMillItem_fmtTable (s : State) (q : Nat) (f : MillItem → MillItem) : (s.updMillItem q f).fmtTable = s.fmtTable := rfl
@[simp] theorem State.updMillItem_sites (s : State) (q : Nat) (f : MillItem → MillItem) : (s.updMillItem q f).sites = s.sites := rfl
@[simp] theorem State.updMillItem_fab (s : State) (q : Nat) (f : MillItem → MillItem) : (s.updMillItem q f).fab = s.fab := rfl
@[simp] theorem State.updMillItem_evq (s : State) (q : Nat) (f : MillItem → MillItem) : (s.updMillItem q f).evq = s.evq := rfl
@[simp] theorem State.updMillItem_pending (s : State) (q : Nat) (f : MillItem → MillItem) : (s.updMillItem q f).pending = s.pending := rfl
@[simp] theorem State.updMillItem_reg (s : State) (q : Nat) (f : MillItem → MillItem) (rr : RegDef) (k : Nat) : (s.updMillItem q f).reg rr k = s.reg rr k := rfl
@[simp] theorem State.updMillItem_rd (s : State) (q : Nat) (f : MillItem → MillItem) (g : RF) (k : Nat) : (s.updMillItem q f).rd g k = s.rd g k := rfl
@[simp] theorem State.updMillItem_flag (s : State) (q : Nat) (f : MillItem → MillItem) (g : RF) (k : Nat) : (s.updMillItem q f).flag g k = s.flag g k := rfl
@[simp] theorem State.updMillItem_byte (s : State) (q : Nat) (f : MillItem → MillItem) (k : Nat) : (s.updMillItem q f).byte k = s.byte k := rfl
@[simp] theorem State.updMillItem_iface (s : State) (q : Nat) (f : MillItem → MillItem) (k : Nat) : (s.updMillItem q f).iface k = s.iface k := rfl
@[simp] theorem State.updMillItem_domSt (s : State) (q : Nat) (f : MillItem → MillItem) (k : Nat) : (s.updMillItem q f).domSt k = s.domSt k := rfl

/-! ### `updSlice` -/

@[simp] theorem State.updSlice_regs (s : State) (j : Nat) (f : XSlice → XSlice) : (s.updSlice j f).regs = s.regs := rfl
@[simp] theorem State.updSlice_mem (s : State) (j : Nat) (f : XSlice → XSlice) : (s.updSlice j f).mem = s.mem := rfl
@[simp] theorem State.updSlice_poison (s : State) (j : Nat) (f : XSlice → XSlice) : (s.updSlice j f).poison = s.poison := rfl
@[simp] theorem State.updSlice_time (s : State) (j : Nat) (f : XSlice → XSlice) : (s.updSlice j f).time = s.time := rfl
@[simp] theorem State.updSlice_free (s : State) (j : Nat) (f : XSlice → XSlice) : (s.updSlice j f).free = s.free := rfl
@[simp] theorem State.updSlice_com (s : State) (j : Nat) (f : XSlice → XSlice) : (s.updSlice j f).com = s.com := rfl
@[simp] theorem State.updSlice_roll (s : State) (j : Nat) (f : XSlice → XSlice) : (s.updSlice j f).roll = s.roll := rfl
@[simp] theorem State.updSlice_hbm (s : State) (j : Nat) (f : XSlice → XSlice) : (s.updSlice j f).hbm = s.hbm := rfl
@[simp] theorem State.updSlice_ledger (s : State) (j : Nat) (f : XSlice → XSlice) : (s.updSlice j f).ledger = s.ledger := rfl
@[simp] theorem State.updSlice_hep (s : State) (j : Nat) (f : XSlice → XSlice) : (s.updSlice j f).hep = s.hep := rfl
@[simp] theorem State.updSlice_stw (s : State) (j : Nat) (f : XSlice → XSlice) : (s.updSlice j f).stw = s.stw := rfl
@[simp] theorem State.updSlice_slu (s : State) (j : Nat) (f : XSlice → XSlice) : (s.updSlice j f).slu = s.slu := rfl
@[simp] theorem State.updSlice_tiles (s : State) (j : Nat) (f : XSlice → XSlice) : (s.updSlice j f).tiles = s.tiles := rfl
@[simp] theorem State.updSlice_mill (s : State) (j : Nat) (f : XSlice → XSlice) : (s.updSlice j f).mill = s.mill := rfl
@[simp] theorem State.updSlice_movers (s : State) (j : Nat) (f : XSlice → XSlice) : (s.updSlice j f).movers = s.movers := rfl
@[simp] theorem State.updSlice_movSeq (s : State) (j : Nat) (f : XSlice → XSlice) : (s.updSlice j f).movSeq = s.movSeq := rfl
@[simp] theorem State.updSlice_vst (s : State) (j : Nat) (f : XSlice → XSlice) : (s.updSlice j f).vst = s.vst := rfl
@[simp] theorem State.updSlice_rve (s : State) (j : Nat) (f : XSlice → XSlice) : (s.updSlice j f).rve = s.rve := rfl
@[simp] theorem State.updSlice_fmtTable (s : State) (j : Nat) (f : XSlice → XSlice) : (s.updSlice j f).fmtTable = s.fmtTable := rfl
@[simp] theorem State.updSlice_sites (s : State) (j : Nat) (f : XSlice → XSlice) : (s.updSlice j f).sites = s.sites := rfl
@[simp] theorem State.updSlice_fab (s : State) (j : Nat) (f : XSlice → XSlice) : (s.updSlice j f).fab = s.fab := rfl
@[simp] theorem State.updSlice_evq (s : State) (j : Nat) (f : XSlice → XSlice) : (s.updSlice j f).evq = s.evq := rfl
@[simp] theorem State.updSlice_pending (s : State) (j : Nat) (f : XSlice → XSlice) : (s.updSlice j f).pending = s.pending := rfl
@[simp] theorem State.updSlice_reg (s : State) (j : Nat) (f : XSlice → XSlice) (rr : RegDef) (k : Nat) : (s.updSlice j f).reg rr k = s.reg rr k := rfl
@[simp] theorem State.updSlice_rd (s : State) (j : Nat) (f : XSlice → XSlice) (g : RF) (k : Nat) : (s.updSlice j f).rd g k = s.rd g k := rfl
@[simp] theorem State.updSlice_flag (s : State) (j : Nat) (f : XSlice → XSlice) (g : RF) (k : Nat) : (s.updSlice j f).flag g k = s.flag g k := rfl
@[simp] theorem State.updSlice_byte (s : State) (j : Nat) (f : XSlice → XSlice) (k : Nat) : (s.updSlice j f).byte k = s.byte k := rfl
@[simp] theorem State.updSlice_iface (s : State) (j : Nat) (f : XSlice → XSlice) (k : Nat) : (s.updSlice j f).iface k = s.iface k := rfl
@[simp] theorem State.updSlice_domSt (s : State) (j : Nat) (f : XSlice → XSlice) (k : Nat) : (s.updSlice j f).domSt k = s.domSt k := rfl

/-! ### Parts of the Commons -/

@[simp] theorem State.setDom_com_ifaces (s : State) (d st : Nat) : (s.setDom d st).com.ifaces = s.com.ifaces := rfl
@[simp] theorem State.setDom_com_acked (s : State) (d st : Nat) : (s.setDom d st).com.acked = s.com.acked := rfl
@[simp] theorem State.setDom_com_forced (s : State) (d st : Nat) : (s.setDom d st).com.forced = s.com.forced := rfl
@[simp] theorem State.setDom_com_out (s : State) (d st : Nat) : (s.setDom d st).com.out = s.com.out := rfl
@[simp] theorem State.setDom_com_stuck (s : State) (d st : Nat) : (s.setDom d st).com.stuck = s.com.stuck := rfl
@[simp] theorem State.setDom_com_mesh (s : State) (d st : Nat) : (s.setDom d st).com.mesh = s.com.mesh := rfl
@[simp] theorem State.setDom_com_arb (s : State) (d st : Nat) : (s.setDom d st).com.arb = s.com.arb := rfl
@[simp] theorem State.setDom_com_casts (s : State) (d st : Nat) : (s.setDom d st).com.casts = s.com.casts := rfl
@[simp] theorem State.setDom_iface (s : State) (d st : Nat) (k : Nat) : (s.setDom d st).iface k = s.iface k := rfl
@[simp] theorem State.updIface_com_dom (s : State) (p : Nat) (f : Iface → Iface) : (s.updIface p f).com.dom = s.com.dom := rfl
@[simp] theorem State.updIface_com_acked (s : State) (p : Nat) (f : Iface → Iface) : (s.updIface p f).com.acked = s.com.acked := rfl
@[simp] theorem State.updIface_com_forced (s : State) (p : Nat) (f : Iface → Iface) : (s.updIface p f).com.forced = s.com.forced := rfl
@[simp] theorem State.updIface_com_out (s : State) (p : Nat) (f : Iface → Iface) : (s.updIface p f).com.out = s.com.out := rfl
@[simp] theorem State.updIface_com_stuck (s : State) (p : Nat) (f : Iface → Iface) : (s.updIface p f).com.stuck = s.com.stuck := rfl
@[simp] theorem State.updIface_com_mesh (s : State) (p : Nat) (f : Iface → Iface) : (s.updIface p f).com.mesh = s.com.mesh := rfl
@[simp] theorem State.updIface_com_arb (s : State) (p : Nat) (f : Iface → Iface) : (s.updIface p f).com.arb = s.com.arb := rfl
@[simp] theorem State.updIface_com_casts (s : State) (p : Nat) (f : Iface → Iface) : (s.updIface p f).com.casts = s.com.casts := rfl
@[simp] theorem State.updIface_domSt (s : State) (p : Nat) (f : Iface → Iface) (k : Nat) : (s.updIface p f).domSt k = s.domSt k := rfl
@[simp] theorem State.send_com_ifaces (s : State) (p : Pkt) : (s.send p).com.ifaces = s.com.ifaces := rfl
@[simp] theorem State.send_com_dom (s : State) (p : Pkt) : (s.send p).com.dom = s.com.dom := rfl
@[simp] theorem State.send_com_acked (s : State) (p : Pkt) : (s.send p).com.acked = s.com.acked := rfl
@[simp] theorem State.send_com_forced (s : State) (p : Pkt) : (s.send p).com.forced = s.com.forced := rfl
@[simp] theorem State.send_com_stuck (s : State) (p : Pkt) : (s.send p).com.stuck = s.com.stuck := rfl
@[simp] theorem State.send_com_mesh (s : State) (p : Pkt) : (s.send p).com.mesh = s.com.mesh := rfl
@[simp] theorem State.send_com_arb (s : State) (p : Pkt) : (s.send p).com.arb = s.com.arb := rfl
@[simp] theorem State.send_com_casts (s : State) (p : Pkt) : (s.send p).com.casts = s.com.casts := rfl
@[simp] theorem State.send_iface (s : State) (p : Pkt) (k : Nat) : (s.send p).iface k = s.iface k := rfl
@[simp] theorem State.send_domSt (s : State) (p : Pkt) (k : Nat) : (s.send p).domSt k = s.domSt k := rfl
@[simp] theorem State.take_com_ifaces (s : State) (p : Pkt) : (s.take p).com.ifaces = s.com.ifaces := rfl
@[simp] theorem State.take_com_dom (s : State) (p : Pkt) : (s.take p).com.dom = s.com.dom := rfl
@[simp] theorem State.take_com_acked (s : State) (p : Pkt) : (s.take p).com.acked = s.com.acked := rfl
@[simp] theorem State.take_com_forced (s : State) (p : Pkt) : (s.take p).com.forced = s.com.forced := rfl
@[simp] theorem State.take_com_stuck (s : State) (p : Pkt) : (s.take p).com.stuck = s.com.stuck := rfl
@[simp] theorem State.take_com_arb (s : State) (p : Pkt) : (s.take p).com.arb = s.com.arb := rfl
@[simp] theorem State.take_com_casts (s : State) (p : Pkt) : (s.take p).com.casts = s.com.casts := rfl
@[simp] theorem State.take_iface (s : State) (p : Pkt) (k : Nat) : (s.take p).iface k = s.iface k := rfl
@[simp] theorem State.take_domSt (s : State) (p : Pkt) (k : Nat) : (s.take p).domSt k = s.domSt k := rfl
@[simp] theorem State.send_out (s : State) (p : Pkt) : (s.send p).com.out = s.com.out ++ [p] := rfl
@[simp] theorem State.take_out (s : State) (p : Pkt) : (s.take p).com.out = s.com.out.erase p := rfl

/-! ### What was changed reads back, and its neighbours stay -/

@[simp] theorem State.iface_updIface (s : State) (p : Nat) (f : Iface → Iface) : (s.updIface p f).iface p = f (s.iface p) := by
  simp [State.updIface, State.iface, SMap.getD_upd_same]

theorem State.iface_updIface_other (s : State) (p q : Nat) (f : Iface → Iface) (h : q ≠ p) :
    (s.updIface p f).iface q = s.iface q := by
  simp [State.updIface, State.iface, SMap.getD_upd_other _ _ _ _ _ _ h]

@[simp] theorem State.domSt_setDom (s : State) (d st : Nat) : (s.setDom d st).domSt d = st := by
  simp [State.setDom, State.domSt, SMap.getD_set_same]

theorem State.domSt_setDom_other (s : State) (d e st : Nat) (h : e ≠ d) : (s.setDom d st).domSt e = s.domSt e := by
  simp [State.setDom, State.domSt, SMap.getD_set_other _ _ _ _ _ _ h]

@[simp] theorem State.tile_updTile (s : State) (t : Nat) (f : Tile → Tile) : (s.updTile t f).tile t = f (s.tile t) := by
  simp [State.updTile, State.tile, SMap.getD_upd_same]

theorem State.tile_updTile_other (s : State) (t u : Nat) (f : Tile → Tile) (h : u ≠ t) : (s.updTile t f).tile u = s.tile u := by
  simp [State.updTile, State.tile, SMap.getD_upd_other _ _ _ _ _ _ h]

@[simp] theorem State.site_updSite (s : State) (n : Nat) (f : Site → Site) : (s.updSite n f).site n = f (s.site n) := by
  simp [State.updSite, State.site, SMap.getD_upd_same]

@[simp] theorem State.link_updLink (s : State) (l : Nat) (f : Link → Link) : (s.updLink l f).link l = f (s.link l) := by
  simp [State.updLink, State.link, SMap.getD_upd_same]

@[simp] theorem State.home_updHome (s : State) (h : Nat) (f : Home → Home) : (s.updHome h f).home h = f (s.home h) := by
  simp [State.updHome, State.home, SMap.getD_upd_same]

@[simp] theorem State.reg_setReg (s : State) (r : RegDef) (i : Nat) (v : Word) : (s.setReg r i v).reg r i = v := by
  simp [State.setReg, State.reg, SMap.getD_set_same]

theorem State.reg_setReg_other (s : State) (r q : RegDef) (i k : Nat) (v : Word) (h : q.off k ≠ r.off i) :
    (s.setReg r i v).reg q k = s.reg q k := by
  simp [State.setReg, State.reg, SMap.getD_set_other _ _ _ _ _ _ h]

@[simp] theorem State.byte_setByte (s : State) (a : Nat) (b : Byte) : (s.setByte a b).byte a = b := by
  simp [State.setByte, State.byte, SMap.getD_set_same]

theorem State.byte_setByte_other (s : State) (a c : Nat) (b : Byte) (h : c ≠ a) : (s.setByte a b).byte c = s.byte c := by
  simp [State.setByte, State.byte, SMap.getD_set_other _ _ _ _ _ _ h]

/-- Reads of registers depend on the register file alone. -/
theorem State.rd_congr {s t : State} (h : s.regs = t.regs) (f : RF) (i : Nat) : s.rd f i = t.rd f i := by
  simp [State.rd, State.reg, h]

/-- A field is below two to its width. -/
theorem State.rd_lt (s : State) (f : RF) (i : Nat) : s.rd f i < 2 ^ (f.hi - f.lo + 1) := Nat.mod_lt _ (Nat.two_pow_pos _)

end Sys2Proof.Machine
end

