-- ==== Sys2Proof/Laws/Loom.lean ====
section
/-!
SUPPORT. Laws/Loom.lean: what the shared operations of a Loom tile do: a change of one tile, an instruction at the core, the lanes of a vector register
that an instruction writes, and the bits of a mask register.
-/

namespace Sys2Proof.Machine

/-! ### One tile -/

theorem State.tile_retire_same (s : State) (t rd v len : Nat) :
    (s.retire t rd v len).tile t = { (s.tile t).setX rd v with pc := ((s.tile t).pc + len) % 2 ^ 64 } := by
  simp only [State.retire, State.tile_updTile]

/-- The core runs an instruction that it takes. -/
theorem State.core_next (s : State) (t len : Nat) (f : State → State) (h : Safety.TakesInstruction s t len) : s.core t len f = f s := by
  obtain ⟨h1, h2, h3⟩ := h
  unfold State.core
  simp only [h1, h2, Bool.not_true, Bool.false_eq_true, if_false]
  cases hp : s.padOff t (s.tile t).pc len with
  | none => simp [hp] at h3
  | some o => simp

/-- An Xloom instruction runs at once while the queue has room. -/
theorem State.xcore_next (s : State) (t len : Nat) (f : State → State) (h : Safety.TakesInstruction s t len)
    (hq : (s.tile t).vq.length < 16) : s.xcore t len f = f s := by
  rw [State.xcore, State.core_next _ _ _ _ h]
  simp [Nat.not_le.2 hq]

/-- An instruction that waits runs on the state in which the queue has drained. -/
theorem State.waiting_next (s : State) (t len : Nat) (f : State → State) (h : Safety.TakesInstruction s t len)
    (hd : Safety.TakesInstruction (s.lanesDrain t) t len) : s.waiting t len f = f (s.lanesDrain t) := by
  rw [State.waiting, State.core_next _ _ _ _ h]
  simp [hd.1]

/-! ### Lanes and mask bits -/

theorem putElt_testBit (v lw i p k : Nat) :
    (putElt v lw i p).testBit k = if lw * i ≤ k ∧ k < lw * (i + 1) then p.testBit (k - lw * i) else v.testBit k := by
  have e : putElt v lw i p = 2 ^ (lw * i) * (2 ^ lw * (v / 2 ^ (lw * (i + 1))) + p % 2 ^ lw) + v % 2 ^ (lw * i) := by
    simp only [putElt, Nat.mul_add, Nat.mul_one, Nat.pow_add]
    ac_rfl
  have hl : v % 2 ^ (lw * i) < 2 ^ (lw * i) := Nat.mod_lt _ (Nat.two_pow_pos _)
  have hp : p % 2 ^ lw < 2 ^ lw := Nat.mod_lt _ (Nat.two_pow_pos _)
  rw [e, Nat.testBit_two_pow_mul_add _ hl, Nat.testBit_two_pow_mul_add _ hp]
  simp only [Nat.testBit_mod_two_pow, Nat.testBit_div_two_pow, Nat.mul_add, Nat.mul_one]
  by_cases h1 : k < lw * i
  · simp [h1, Nat.not_le.2 h1]
  · by_cases h2 : k - lw * i < lw
    · have : k < lw * i + lw := by omega
      simp [h1, h2, this, Nat.le_of_not_lt h1]
    · have h3 : ¬ k < lw * i + lw := by omega
      have h4 : lw * i + lw + (k - lw * i - lw) = k := by omega
      simp [h1, h2, h3]
      congr 1; omega

theorem eltOf_testBit (v lw w i k : Nat) : (eltOf v lw w i).testBit k = (decide (k < w) && v.testBit (lw * i + k)) := by
  simp [eltOf, Nat.testBit_mod_two_pow, Nat.testBit_div_two_pow, Nat.add_comm]

theorem eltOf_putElt (v lw i p j : Nat) :
    eltOf (putElt v lw i p) lw lw j = if j = i then p % 2 ^ lw else eltOf v lw lw j := by
  apply Nat.eq_of_testBit_eq
  intro k
  by_cases hk : k < lw
  · rcases Nat.lt_trichotomy j i with h | h | h
    · have h2 : lw * (j + 1) ≤ lw * i := Nat.mul_le_mul_left _ h
      have : ¬ lw * i ≤ lw * j + k := by rw [Nat.mul_add, Nat.mul_one] at h2; omega
      simp [eltOf_testBit, putElt_testBit, hk, this, Nat.ne_of_lt h]
    · subst h
      have : lw * j + k < lw * (j + 1) := by rw [Nat.mul_add]; omega
      simp [eltOf_testBit, putElt_testBit, hk, this]
    · have h2 : lw * (i + 1) ≤ lw * j := Nat.mul_le_mul_left _ h
      have : ¬ lw * j + k < lw * (i + 1) := by omega
      simp [eltOf_testBit, putElt_testBit, hk, this, Nat.ne_of_gt h]
  · by_cases h : j = i <;> simp [eltOf_testBit, hk, h]


/-- The fold of Tile.putVec writes each element that has an output and leaves the others. -/
theorem putVec_fold (lw j : Nat) : ∀ (outs : List EltOut) (n v : Nat),
    eltOf ((outs.zipIdx n).foldl (fun v (o, i) => match o with | some (p, _) => putElt v lw i p | none => v) v) lw lw j =
      (match (if n ≤ j then outs[j - n]? else none) with
       | some (some (p, _)) => p % 2 ^ lw
       | _ => eltOf v lw lw j)
  | [], n, v => by simp
  | o :: outs, n, v => by
    rw [List.zipIdx_cons, List.foldl_cons, putVec_fold lw j outs (n + 1)]
    rcases Nat.lt_trichotomy j n with h | h | h
    · have h1 : ¬ n ≤ j := by omega
      have h2 : ¬ n + 1 ≤ j := by omega
      have h3 : j ≠ n := by omega
      cases o <;> simp [h1, h2, eltOf_putElt, h3]
    · subst h
      have h1 : ¬ j + 1 ≤ j := by omega
      cases o <;> simp [h1, eltOf_putElt]
    · have h1 : n ≤ j := by omega
      have h2 : n + 1 ≤ j := by omega
      have h3 : j ≠ n := by omega
      have h4 : j - n = (j - (n + 1)) + 1 := by omega
      simp only [h1, h2, if_true, h4, List.getElem?_cons_succ]
      cases o <;> simp [eltOf_putElt, h3]

/-- Tile.putVec writes the lanes that have an output, and no other lane of VD. -/
theorem Tile.putVec_lane (x : Tile) (vd lw : Nat) (outs : List EltOut) (j : Nat) :
    eltOf ((x.putVec vd lw outs).vreg vd) lw lw j =
      (match outs[j]? with | some (some (p, _)) => p % 2 ^ lw | _ => eltOf (x.vreg vd) lw lw j) := by
  have h := putVec_fold lw j outs 0 (x.vreg vd)
  simp only [Nat.zero_le, if_true, Nat.sub_zero] at h
  rw [← h]
  simp only [Tile.putVec, Tile.vreg, SMap.getD_set_same] <;> rfl

/-- Tile.putVec changes one vector register and its poison. -/
theorem Tile.putVec_other (x : Tile) (vd lw r : Nat) (outs : List EltOut) (h : r ≠ vd) : (x.putVec vd lw outs).vreg r = x.vreg r := by
  simp only [Tile.putVec, Tile.vreg]
  exact SMap.getD_set_other _ _ _ _ _ _ h

/-- The lanes that an element-wise instruction writes (R206, R207). -/
theorem Tile.putVec_outs_lane (x y : Tile) (f : VOp) (vl lw : Nat) (g : Nat → EltOut) (j : Nat) :
    eltOf ((y.putVec f.vd lw (x.outs f vl g)).vreg f.vd) lw lw j =
      (if j < vl then
        (if x.active f vl j then (match g j with | some p => p.1 % 2 ^ lw | none => eltOf (y.vreg f.vd) lw lw j)
         else if f.kz then 0 else eltOf (y.vreg f.vd) lw lw j)
       else eltOf (y.vreg f.vd) lw lw j) := by
  rw [Tile.putVec_lane]
  simp only [Tile.outs, List.getElem?_map]
  by_cases h : j < vl
  · rw [List.getElem?_range h]
    simp only [Option.map_some, h, if_true]
    by_cases ha : x.active f vl j = true
    · simp only [ha, if_true]
      cases g j <;> simp
    · cases f.kz <;> simp [ha]
  · simp [h]

/-- The sum that builds a mask has exactly the bits of `b` below `n`. -/
theorem maskSum_testBit (b : Nat → Bool) (n : Nat) :
    let m := (List.range n).foldl (fun m i => m + (if b i then 2 ^ i else 0)) 0
    m < 2 ^ n ∧ ∀ j, m.testBit j = (decide (j < n) && b j) := by
  induction n with
  | zero => simp
  | succ n ih =>
    obtain ⟨hl, hb⟩ := ih
    simp only [List.range_succ, List.foldl_append, List.foldl_cons, List.foldl_nil]
    generalize (List.range n).foldl (fun m i => m + (if b i then 2 ^ i else 0)) 0 = m at hl hb
    cases hbn : b n with
    | false =>
      refine ⟨by simp [Nat.pow_succ]; omega, fun j => ?_⟩
      simp only [Bool.false_eq_true, if_false, Nat.add_zero, hb]
      by_cases h : j = n
      · subst h; simp [hbn]
      · have : (j < n) = (j < n + 1) := propext (by omega)
        simp [this]
    | true =>
      refine ⟨by simp [Nat.pow_succ]; omega, fun j => ?_⟩
      have e : m + 2 ^ n = 2 ^ n * 1 + m := by omega
      simp only [if_true]
      rw [e, Nat.testBit_two_pow_mul_add _ hl, hb]
      by_cases h : j < n
      · have : j < n + 1 := by omega
        simp [h, this]
      · by_cases h2 : j = n
        · subst h2; simp [hbn]
        · have h3 : ¬ j < n + 1 := by omega
          have h4 : j - n ≠ 0 := by omega
          have h5 : Nat.testBit 1 (j - n) = false := by
            cases hh : j - n with
            | zero => exact absurd hh h4
            | succ k => simp [Nat.testBit_succ]
          simp [h, h3, h5]

/-- Tile.putMask writes bits 0 to vl - 1 and clears the bits above (R206). -/
theorem Tile.putMask_testBit (x : Tile) (md vl : Nat) (g : Nat → Option Bool) (h : md ≠ 0) (j : Nat) :
    ((x.putMask md vl g).mask md).testBit j =
      (decide (j < vl) && (match g j with | some b => b | none => (x.mask md).testBit j)) := by
  simp only [Tile.putMask, h, if_false, Tile.mask, SMap.getD_set_same]
  exact (maskSum_testBit (fun i => match g i with | some b => b | none => (SMap.getD x.vm md 0).testBit i) vl).2 j

/-- Tile.putMask changes no other mask register. -/
theorem Tile.putMask_other (x : Tile) (md vl r : Nat) (g : Nat → Option Bool) (h : r ≠ md) :
    (x.putMask md vl g).mask r = x.mask r := by
  unfold Tile.putMask
  by_cases h0 : md = 0
  · simp [h0]
  · simp only [h0, if_false, Tile.mask]
    rw [SMap.getD_set_other _ _ _ _ _ _ h]

/-- vm0 takes no write. -/
theorem Tile.putMask_zero (x : Tile) (vl : Nat) (g : Nat → Option Bool) : x.putMask 0 vl g = x := rfl

end Sys2Proof.Machine
end

