-- ==== Sys2Proof/Laws/Memory.lean ====
section
/-!
SUPPORT. Laws/Memory.lean: every operation on memory keeps its canonical form.
-/

namespace Sys2Proof.Machine

theorem State.setByte_wf (s : State) (a : Nat) (b : Byte) (h : Memory.wf s.mem = true) : Memory.wf (s.setByte a b).mem = true :=
  SMap.wf_set _ _ _ _ h

theorem State.setBytes_wf (s : State) (a : Nat) (l : List Byte) (h : Memory.wf s.mem = true) :
    Memory.wf (s.setBytes a l).mem = true := by
  induction l generalizing s a with
  | nil => exact h
  | cons b l ih => exact ih _ _ (s.setByte_wf a b h)

theorem State.setMasked_wf (s : State) (a mask : Nat) (l : List Byte) (h : Memory.wf s.mem = true) :
    Memory.wf (s.setMasked a mask l).mem = true := by
  induction l generalizing s a mask with
  | nil => exact h
  | cons b l ih =>
    simp only [State.setMasked]
    split
    · exact ih _ _ _ (s.setByte_wf a b h)
    · exact ih _ _ _ h

theorem State.zeroRange_wf (s : State) (lo hi : Nat) (h : Memory.wf s.mem = true) : Memory.wf (s.zeroRange lo hi).mem = true :=
  SMap.wf_filter _ _ _ h

theorem State.writeLine_wf (s : State) (l : Nat) (d : List Byte) (p : Bool) (h : Memory.wf s.mem = true) :
    Memory.wf (s.writeLine l d p).mem = true := by
  simp only [State.writeLine]
  split
  · exact s.setBytes_wf _ _ h
  · exact s.setBytes_wf _ _ h

theorem State.foldPoison_mem (ls : List Nat) (s : State) : (ls.foldl State.poisonLine s).mem = s.mem := by
  induction ls generalizing s with
  | nil => rfl
  | cons l ls ih => simp [ih]

theorem State.writePart_wf (s : State) (a mask : Nat) (d : List Byte) (p : Bool) (h : Memory.wf s.mem = true) :
    Memory.wf (s.writePart a mask d p).mem = true := by
  simp only [State.writePart]
  split
  · rw [State.foldPoison_mem]
    exact s.setMasked_wf _ _ _ h
  · exact s.setMasked_wf _ _ _ h

/-- The memory of the reset state has the canonical form. -/
theorem reset_mem_wf : Memory.wf State.reset.mem = true := rfl

end Sys2Proof.Machine
end

