-- ==== Sys2Proof/Machine/Wire.lean ====
section
/-!
DEFINITION. Machine/Wire.lean: messages and flits as links and site modules carry them: the transport header, the flit header and its CRC, and the
header of the site transaction layer (14_sites.md R441, R442; 15_fabric_links.md R478, R479, R490). Commands carry their fields, so nothing else in the model reads these bytes.
-/

namespace Sys2Proof.Machine

/-! ### Transport messages (R490) -/

/-- LEN: the units of 16 bytes that carry a message's data. -/
def dataUnits (m : XMsg) : Nat := (m.data.length + 15) / 16

/-- A flag as the bit of a byte. -/
def flagBit (b : Bool) (k : Nat) : Nat := if b then 2 ^ k else 0

/-- FLAGS: the class, and the tags of the request. -/
def xmsgFlags (m : XMsg) : Nat :=
  m.cls % 8 + flagBit m.vol 3 + flagBit m.noalloc 4 + flagBit m.ordered 5 + flagBit m.poison 6 + flagBit m.opens 7

/-- The 32-byte header of a message. -/
def xmsgHeader (m : XMsg) : List Byte :=
  natLe 2 m.dstHub ++ natLe 2 m.srcHub ++ natLe 3 m.psn ++ natLe 1 m.typ ++ natLe 2 (m.srcAgent % 2 ^ 10) ++ natLe 2 (m.txn % 2 ^ 12) ++
  natLe 1 (xmsgFlags m) ++ natLe 1 (dataUnits m % 16) ++ natLe 2 m.deadline ++ natLe 8 m.addr ++ natLe 1 m.epoch ++ natLe 1 m.size ++
  natLe 1 m.status ++ natLe 1 (m.aop % 32) ++ natLe 4 0

/-- A message on the wire: its header, then its data in whole units. -/
def xmsgBytes (m : XMsg) : List Byte := xmsgHeader m ++ m.data ++ zeros (16 * dataUnits m - m.data.length)

/-- The fields that a header spells, with no data. -/
def ofXmsgHeader (b : List Byte) : XMsg :=
  let f := pktField b 12 1
  { dstHub := pktField b 0 2, srcHub := pktField b 2 2, psn := pktField b 4 3, typ := pktField b 7 1, srcAgent := pktField b 8 2 % 2 ^ 10
    txn := pktField b 10 2 % 2 ^ 12, cls := f % 8, vol := f.testBit 3, noalloc := f.testBit 4, ordered := f.testBit 5, poison := f.testBit 6
    opens := f.testBit 7, deadline := pktField b 14 2, addr := pktField b 16 8, epoch := pktField b 24 1, size := pktField b 25 1
    status := pktField b 26 1, aop := pktField b 27 1 % 32 }

/-- LEN as a header spells it. -/
def ofXmsgLen (b : List Byte) : Nat := pktField b 13 1 % 16

/-! ### Flits (R478) -/

/-- The header of a flit. `first` is FIRST: where the first message header of its payload starts, 0xFF where none does. -/
def flitHeader (f : LinkFlit) (first : Nat) : BitVec 64 :=
  BitVec.ofNat 16 0 ++ BitVec.ofNat 8 first ++ BitVec.ofNat 12 f.cred ++ BitVec.ofNat 3 f.cvc ++ BitVec.ofBool f.nak ++ BitVec.ofNat 12 f.ack ++
  BitVec.ofNat 12 f.seq

/-- The fields that a flit's header spells. -/
def ofFlitHeader (h : BitVec 64) : LinkFlit × Nat :=
  ({ seq := (h.extractLsb' 0 12).toNat, ack := (h.extractLsb' 12 12).toNat, nak := h.getLsbD 24, cvc := (h.extractLsb' 25 3).toNat
     cred := (h.extractLsb' 28 12).toNat }, (h.extractLsb' 40 8).toNat)

/-- One bit of the CRC: the polynomial of ECMA-182, highest bit first. -/
def crc64Bit (c : BitVec 64) : BitVec 64 := if c.msb then (c <<< 1) ^^^ 0x42F0E1EBA9EA3693 else c <<< 1

/-- The CRC-64 of bytes, from 0 (log entry 144). -/
def crc64 (l : List Byte) : BitVec 64 :=
  l.foldl (fun c b => Nat.repeat crc64Bit 8 (c ^^^ BitVec.ofNat 64 (b.toNat * 2 ^ 56))) 0

/-- A flit on the wire: its header, 240 bytes of payload, and the CRC over both. -/
def flitBytes (f : LinkFlit) (first : Nat) (payload : List Byte) : List Byte :=
  let b := natLe 8 (flitHeader f first).toNat ++ payload.take 240 ++ zeros (240 - payload.length)
  b ++ natLe 8 (crc64 b).toNat

/-- Whether a flit passes its CRC. -/
def flitCrcOk (b : List Byte) : Bool := decide (b.length = 256) && b.drop 248 = natLe 8 (crc64 (b.take 248)).toNat

/-! ### The site transaction layer (14_sites.md R441, R442) -/

/-- LEN: the chunks of 16 bytes that carry a message's data. -/
def dataChunks (m : StlMsg) : Nat := (m.data.length + 15) / 16

/-- The header chunk of a message. -/
def stlHeader (m : StlMsg) : BitVec 128 :=
  BitVec.ofNat 64 m.addr ++ BitVec.ofNat 12 m.aux ++ BitVec.ofNat 16 m.deadline ++ BitVec.ofNat 12 m.tag ++ BitVec.ofBool m.alt ++
  BitVec.ofBool m.poison ++ BitVec.ofBool m.ordered ++ BitVec.ofBool m.noalloc ++ BitVec.ofBool m.vol ++ BitVec.ofNat 2 m.at_ ++
  BitVec.ofNat 3 m.cls ++ BitVec.ofNat 4 m.ch ++ BitVec.ofNat 4 (dataChunks m) ++ BitVec.ofNat 6 m.typ

/-- A message in its chunks: the header, lowest byte first, then the data in whole chunks. -/
def stlBytes (m : StlMsg) : List Byte := natLe 16 (stlHeader m).toNat ++ m.data ++ zeros (16 * dataChunks m - m.data.length)

/-- The fields that a header spells, with no data, and LEN. -/
def ofStlHeader (h : BitVec 128) : StlMsg × Nat :=
  let f (lo n : Nat) : Nat := (h.extractLsb' lo n).toNat
  ({ typ := f 0 6, ch := f 10 4, cls := f 14 3, at_ := f 17 2, vol := h.getLsbD 19, noalloc := h.getLsbD 20, ordered := h.getLsbD 21
     poison := h.getLsbD 22, alt := h.getLsbD 23, tag := f 24 12, deadline := f 36 16, aux := f 52 12, addr := f 64 64 }, f 6 4)

end Sys2Proof.Machine
end

