-- ==== Sys2Proof/Laws/Wire.lean ====
section
/-!
SUPPORT. Laws/Wire.lean: the headers of packets, flits and messages give back the fields that they were written from (02_commons.md R45, 14_sites.md R442,
15_fabric_links.md R478, R490).
-/

namespace Sys2Proof.Machine

/-! ### Fields of joined vectors -/

/-- A field of the upper part. -/
theorem extract_upper {m n : Nat} (a : BitVec m) (b : BitVec n) (lo k : Nat) (h : n ≤ lo) :
    (a ++ b).extractLsb' lo k = a.extractLsb' (lo - n) k := by
  apply BitVec.eq_of_getLsbD_eq
  intro i hi
  have h1 : ¬ lo + i < n := by omega
  have h2 : lo + i - n = lo - n + i := by omega
  simp [BitVec.getLsbD_extractLsb', BitVec.getLsbD_append, h1, h2]

/-- A field of the lower part. -/
theorem extract_lower {m n : Nat} (a : BitVec m) (b : BitVec n) (lo k : Nat) (h : lo + k ≤ n) :
    (a ++ b).extractLsb' lo k = b.extractLsb' lo k := by
  apply BitVec.eq_of_getLsbD_eq
  intro i hi
  have h1 : lo + i < n := by omega
  simp [BitVec.getLsbD_extractLsb', BitVec.getLsbD_append, h1]

/-- A bit of the upper part, and one of the lower. -/
theorem bit_upper {m n : Nat} (a : BitVec m) (b : BitVec n) (i : Nat) (h : n ≤ i) : (a ++ b).getLsbD i = a.getLsbD (i - n) := by
  simp [BitVec.getLsbD_append, Nat.not_lt.2 h]

theorem bit_lower {m n : Nat} (a : BitVec m) (b : BitVec n) (i : Nat) (h : i < n) : (a ++ b).getLsbD i = b.getLsbD i := by
  simp [BitVec.getLsbD_append, h]

/-- The whole of a field holds its number. -/
theorem extract_ofNat (k n : Nat) (h : n < 2 ^ k) : ((BitVec.ofNat k n).extractLsb' 0 k).toNat = n := by
  simp [Nat.mod_eq_of_lt h]

theorem bit_ofBool (b : Bool) : (BitVec.ofBool b).getLsbD 0 = b := by cases b <;> rfl

/-- A flit's header gives back its fields (R478). -/
theorem ofFlitHeader_flitHeader (f : LinkFlit) (first : Nat) (h1 : f.seq < 2 ^ 12) (h2 : f.ack < 2 ^ 12) (h3 : f.cvc < 2 ^ 3)
    (h4 : f.cred < 2 ^ 12) (h5 : first < 2 ^ 8) :
    ofFlitHeader (flitHeader f first) = ({ seq := f.seq, ack := f.ack, nak := f.nak, cvc := f.cvc, cred := f.cred }, first) := by
  simp (disch := omega) only [ofFlitHeader, flitHeader, extract_upper, extract_lower, bit_upper, bit_lower, Nat.reduceSub, extract_ofNat, bit_ofBool]

/-- A site message's header gives back its fields and LEN (14_sites.md R442). -/
theorem ofStlHeader_stlHeader (m : StlMsg) (h1 : m.typ < 2 ^ 6) (h2 : m.ch < 2 ^ 4) (h3 : m.cls < 2 ^ 3) (h4 : m.at_ < 2 ^ 2) (h5 : m.tag < 2 ^ 12)
    (h6 : m.deadline < 2 ^ 16) (h7 : m.aux < 2 ^ 12) (h8 : m.addr < 2 ^ 64) (h9 : dataChunks m < 2 ^ 4) :
    ofStlHeader (stlHeader m) = ({ m with data := [] }, dataChunks m) := by
  simp (disch := omega) only [ofStlHeader, stlHeader, extract_upper, extract_lower, bit_upper, bit_lower, Nat.reduceSub, extract_ofNat, bit_ofBool]

/-- A field of a packet header, as bits of the number. -/
theorem bitsOf'_eq (h : BitVec 96) (hi lo : Nat) : ofHeader.bitsOf' h hi lo = (h.extractLsb' lo (hi - lo + 1)).toNat := by
  simp [ofHeader.bitsOf', BitVec.extractLsb'_toNat, Nat.shiftRight_eq_div_pow]

/-- A packet's header gives back the fields of every packet (02_commons.md R45). -/
theorem ofHeader_pktHeader (p : Pkt) (h1 : p.dst < 2 ^ 10) (h2 : p.src < 2 ^ 10) (h3 : p.txn < 2 ^ 12) (h4 : p.opc < 2 ^ 6) (h5 : p.tenant < 2 ^ 6)
    (h6 : p.cls < 2 ^ 3) (h7 : p.deadline < 2 ^ 16) :
    let q := ofHeader (pktHeader p)
    q.dst = p.dst ∧ q.src = p.src ∧ q.txn = p.txn ∧ q.opc = p.opc ∧ q.tenant = p.tenant ∧ q.cls = p.cls ∧ q.deadline = p.deadline ∧
    q.vol = p.vol ∧ q.noalloc = p.noalloc ∧ q.poison = p.poison ∧ q.sealed = p.sealed ∧ q.ordered = p.ordered := by
  simp only [ofHeader, bitsOf'_eq, Nat.reduceSub, Nat.reduceAdd]
  simp (disch := omega) only [pktHeader, extract_upper, extract_lower, bit_upper, bit_lower, Nat.reduceSub, extract_ofNat, bit_ofBool, and_self]

/-- The header of a line-form packet gives back LINE (R46). -/
theorem ofHeader_line (p : Pkt) (h : formOf p.opc = .line) (h1 : p.opc < 2 ^ 6) (h2 : p.line < 2 ^ 28) : (ofHeader (pktHeader p)).line = p.line := by
  have ho : ((pktHeader p).extractLsb' 58 6).toNat = p.opc := by
    simp (disch := omega) only [pktHeader, extract_upper, extract_lower, Nat.reduceSub, extract_ofNat]
  simp only [ofHeader, bitsOf'_eq, Nat.reduceSub, Nat.reduceAdd, ho, h, if_true]
  simp (disch := omega) only [pktHeader, extract_lower, pktLow, h, extract_ofNat]

/-- The header of a response gives back STATUS and the coherence fields (R45, 04_coherence.md R107). -/
theorem ofHeader_plain (p : Pkt) (h : formOf p.opc = .plain) (h1 : p.opc < 2 ^ 6) (h2 : p.status < 2 ^ 8) (h3 : p.keep < 2 ^ 2) :
    let q := ofHeader (pktHeader p)
    q.status = p.status ∧ q.keep = p.keep ∧ q.near = p.near ∧ q.withData = p.withData := by
  have ho : ((pktHeader p).extractLsb' 58 6).toNat = p.opc := by
    simp (disch := omega) only [pktHeader, extract_upper, extract_lower, Nat.reduceSub, extract_ofNat]
  simp only [ofHeader, bitsOf'_eq, Nat.reduceSub, Nat.reduceAdd, ho, h, if_true, decide_true, Bool.true_and]
  simp (disch := omega) only [pktHeader, extract_lower, extract_upper, bit_lower, bit_upper, pktLow, h, Nat.reduceSub, extract_ofNat, bit_ofBool, and_self]

end Sys2Proof.Machine
end

