-- ==== Sys2Proof/Laws/Words.lean ====
section
/-!
SUPPORT. Laws/Words.lean: the bits of a register field that is read or replaced, and of bytes that spell a number.
-/

namespace Sys2Proof.Machine

/-- A replaced field holds the new bits, and every other bit stays. -/
theorem getLsbD_setBits (v : Word) (hi lo x j : Nat) (h : lo ≤ hi) (hj : j < 64) :
    (setBits v hi lo x).getLsbD j = if lo ≤ j ∧ j ≤ hi then x.testBit (j - lo) else v.getLsbD j := by
  unfold setBits
  simp only [BitVec.getLsbD_or, BitVec.getLsbD_and, BitVec.getLsbD_not, BitVec.getLsbD_ofNat, Nat.testBit_shiftLeft,
    Nat.testBit_two_pow_sub_one, Nat.testBit_mod_two_pow, hj, decide_true, Bool.true_and]
  by_cases h1 : lo ≤ j
  · by_cases h3 : j ≤ hi
    · have : j - lo < hi - lo + 1 := by omega
      simp [h1, h3, this]
    · have : ¬(j - lo < hi - lo + 1) := by omega
      simp [h1, h3, this]
  · simp [h1]

/-- The bits of a field that is read. -/
theorem testBit_bitsOf (v : Word) (hi lo j : Nat) :
    (bitsOf v hi lo).testBit j = (decide (j < hi - lo + 1) && v.getLsbD (lo + j)) := by
  unfold bitsOf
  rw [Nat.testBit_mod_two_pow, Nat.testBit_shiftRight, BitVec.testBit_toNat]

@[simp] theorem natLe_length (k n : Nat) : (natLe k n).length = k := by
  induction k generalizing n with
  | zero => rfl
  | succ k ih => simp [natLe, ih]

@[simp] theorem State.bytes_length (s : State) (a n : Nat) : (s.bytes a n).length = n := by simp [State.bytes]

@[simp] theorem zeros_length (n : Nat) : (zeros n).length = n := by simp [zeros]

/-- Saturation stays at or below its top. -/
theorem satAdd_le (x n top : Nat) : satAdd x n top ≤ top := by
  unfold satAdd
  split <;> omega

end Sys2Proof.Machine
end

