-- ==== Sys2Proof/WellFormed.lean ====
section
/-!
DEFINITION. WellFormed.lean: the commands that may be sent: their operands lie in the ranges that the spec gives the fields, the agents and
the units they name (01_architecture.md R20, 02_commons.md R45, 08_loom_isa.md R243, 14_sites.md R443, 15_fabric_links.md R490). The
meanings are total, so a command that is not well formed has a meaning too; nothing in the spec sends one.
-/

namespace Sys2Proof

/-- The header fields and the payload of a packet (02_commons.md R45-R47). -/
def Pkt.wf (p : Pkt) : Bool :=
  decide (p.opc < 64) && decide (p.dst < 1024) && decide (p.src < 1024) && decide (p.txn < 4096) && decide (p.status < 256) &&
  decide (p.addr < 2 ^ 64) && decide (p.len ≤ 256) && decide (p.mask < 2 ^ 64) && decide (p.data.length ≤ 2 ^ 21) && decide (p.tenant < 64) &&
  decide (p.cls < 8) && decide (p.deadline < 2 ^ 16) && decide (p.keep < 4) && decide (p.dest < 1024) && decide (p.line < 2 ^ 28) && decide (p.part < 16)

/-- The length and the data of a packet by its opcode (02_commons.md R46, R47, 04_coherence.md R106). -/
def Pkt.lenOk (p : Pkt) (opc : Nat) : Bool :=
  let n := p.data.length
  match opc with
  | 0x00 => decide (1 ≤ p.len) && decide (p.len ≤ 128) && decide (n = 0)
  | 0x01 => decide (n = 0)
  | 0x02 => decide (n = 0)
  | 0x03 => decide (1 ≤ n) && decide (n ≤ 64)
  | 0x04 => decide (n = 128)
  | 0x05 => decide (n = 256)
  | 0x06 => decide (n ≤ 64) && (decide (1 ≤ n) || decide (p.mask = 0))
  | 0x07 => decide (n = 128)
  | 0x08 => decide (n = 16)
  | 0x09 => decide (p.len = 4 ∨ p.len = 8) && decide (n = 0)
  | 0x0A => decide (n = 4 ∨ n = 8)
  | 0x10 => decide (n = 0)
  | 0x11 => decide (n = 0)
  | 0x12 => decide (n = 0)
  | 0x13 => decide (n = 128)
  | 0x14 => decide (n = 0)
  | 0x15 => decide (n = 16)
  | 0x28 => decide (n = 0)
  | 0x2A => decide (n = 256 ∨ n = 0)
  | 0x2B => decide (n = 0)
  | 0x2D => decide (n = 0)
  | 0x2E => decide (n = 128)
  | 0x2F => decide (n = 0)
  | 0x0F => decide (n ≤ 2 ^ 21)
  | 0x34 => decide (n ≤ 2 ^ 21)
  | _ => decide (n ≤ 128)

/-- A packet of an opcode. -/
def Pkt.wfAs (p : Pkt) (opc : Nat) : Bool := p.wf && p.lenOk opc

/-- An agent that writes registers has an ID of 10 bits. -/
def Writer.wf (w : Writer) : Bool :=
  match w with
  | .driver => true
  | .agent a => decide (a < 1024)
  | .oob => true

/-- A stack has fewer than 4,096 lanes. -/
def LaneFix.wf (x : LaneFix) : Bool := decide (x.lane < 4096) && x.spare.all (· < 4096)

/-- A sector has 36 symbols, and a stripe 8 segments; a read has at most four sectors (05_hbm.md R140, R141, R145). -/
def CodeRead.wf (c : CodeRead) : Bool :=
  decide (c.sectors.length ≤ 4) && c.sectors.all (fun x => decide (x.errs ≤ 36)) && c.bad.all (fun k => decide (k < 8))

/-- The fields of a message of the site transaction layer (14_sites.md R443). -/
def StlMsg.wf (m : StlMsg) : Bool :=
  decide (m.typ < 64) && decide (m.ch < 16) && decide (m.cls < 8) && decide (m.at_ < 4) && decide (m.tag < 4096) && decide (m.deadline < 2 ^ 16) &&
  decide (m.aux < 4096) && decide (m.addr < 2 ^ 64) && decide (m.data.length ≤ 128)

/-- The fields of a message between hubs (15_fabric_links.md R490). -/
def XMsg.wf (m : XMsg) : Bool :=
  decide (m.typ < 256) && decide (m.dstHub < 2 ^ 16) && decide (m.srcHub < 2 ^ 16) && decide (m.psn < 2 ^ 24) && decide (m.srcAgent < 1024) &&
  decide (m.txn < 4096) && decide (m.cls < 8) && decide (m.deadline < 2 ^ 16) && decide (m.addr < 2 ^ 64) && decide (m.epoch < 256) &&
  decide (m.status < 256) && decide (m.size < 256) && decide (m.aop < 32) && decide (m.data.length ≤ 240)

/-- A native flit: SEQ and ACK of 12 bits, and the VCs 0 to 4 (15_fabric_links.md R478-R481). -/
def LinkFlit.wf (f : LinkFlit) : Bool :=
  decide (f.seq < 4096) && decide (f.ack < 4096) && decide (f.cvc < 8) && decide (f.cred < 4096) &&
  f.msgs.all (fun e => decide (e.1 < 5) && e.2.wf)

/-- A frame of the Ethernet mode, or a pause of a priority (15_fabric_links.md R483-R485). -/
def EthFrame.wf (f : EthFrame) : Bool :=
  decide (f.mac < 2 ^ 48) && decide (f.ip < 2 ^ (if f.v6 then 128 else 32)) && (match f.pfc with | some k => decide (k < 256) | none => true) && decide (f.udp < 2 ^ 16) && decide (f.opcode < 256) && decide (f.srcHub < 2 ^ 16) && f.msgs.all XMsg.wf

/-- The fields of a V64 instruction (08_loom_isa.md R243). -/
def VOp.wf (f : VOp) : Bool :=
  decide (f.vd < 32) && decide (f.vs1 < 32) && decide (f.vs2 < 32) && decide (f.vs3 < 32) && decide (f.fs < 32) && decide (f.fd < 32) &&
  decide (f.rm < 8) && decide (f.vmk < 8) && decide (f.rsv < 32)

def SiteCxl.wf (r : SiteCxl) : Bool :=
  decide (r.tag < 2 ^ 16) && (match r.pasid with | some p => decide (p < 2 ^ 20) | none => true) &&
  (match r.op with
   | .memRd a n => decide (a < 2 ^ 64) && decide (n ≤ 128)
   | .memWr a d => decide (a < 2 ^ 64) && decide (d.length ≤ 128)
   | .atomic op n a x y => decide (op < 16) && decide (n ≤ 8) && decide (a < 2 ^ 64) && decide (x < 2 ^ 64) && decide (y < 2 ^ 64)
   | .ats va _ => decide (va < 2 ^ 64)
   | .invDone => true
   | .stl m => m.wf)

/-- Eight modules, each at a width of 14_sites.md R436. -/
def SiteTrain.wf (t : SiteTrain) : Bool :=
  decide (t.width.length ≤ 8) && t.width.all (fun w => decide (w ≤ 2)) && t.repaired.all (fun u => decide (u < 8)) && decide (t.rates < 16) &&
  decide (t.version < 256)

def StackTrain.wf (t : StackTrain) : Bool := decide (t.m < 8) && decide (t.gib ≤ 64) && decide (t.rate ≤ 120)
def LinkTrain.wf (t : LinkTrain) : Bool := decide (t.l < 48) && decide (t.peer < 2 ^ 16) && decide (t.lanes ≤ 4)
def PmbRead.wf (r : PmbRead) : Bool := decide (r.k < 8)

def SpdmAsk.wf (a : SpdmAsk) : Bool :=
  match a with
  | .getCertificate k => decide (k < 8)
  | .challenge k => decide (k < 8)
  | .getMeasurements k => decide (k < 256)
  | .finish k => decide (k < 2 ^ 16)
  | .heartbeat k => decide (k < 2 ^ 16)
  | .keyUpdate k => decide (k < 2 ^ 16)
  | .endSession k => decide (k < 2 ^ 16)
  | .other c => decide (c < 256)
  | .getVersion => true
  | .getCapabilities => true
  | .negotiateAlgorithms => true
  | .getDigests => true
  | .keyExchange => true

def PldmAsk.wf (a : PldmAsk) : Bool :=
  match a with
  | .base t c _ => decide (t < 64) && decide (c < 256)
  | .getPdr r => decide (r < 2 ^ 32)
  | .getSensor k => decide (k < 2 ^ 16)
  | .getStateSensor k => decide (k < 2 ^ 16)
  | .getEffecter => true
  | .setEffecter w => decide (w < 2 ^ 16)
  | .setEventReceiver e => decide (e < 256)
  | .cancelUpdate => true

def JtagAsk.wf (a : JtagAsk) : Bool :=
  match a with
  | .bypass => true
  | .idcode => true
  | .sample => true
  | .preload d => decide (d.length ≤ 64)
  | .extest => true
  | .readReg off size => decide (off < 2 ^ 28) && (size = 4 || size = 8)
  | .writeReg off size _ => decide (off < 2 ^ 28) && (size = 4 || size = 8)
  | .readMem a n => decide (a < 2 ^ 64) && decide (n ≤ 4096)
  | .writeMem a d => decide (a < 2 ^ 64) && decide (d.length ≤ 4096)
  | .halt a => decide (a < 1024)
  | .resume a => decide (a < 1024)
  | .step t _ => decide (t < 68)
  | .inspect t r => decide (t < 68) && decide (r ≤ 32)
  | .right k _ => decide (k < 3)

/-- Whether a command may be sent: every operand within the range that the spec gives it. -/
def Instr.wf (i : Instr) : Bool :=
  match i with
  | .registerWrite w off size _ => w.wf && decide (off < 2 ^ 37) && decide (size ≤ 8)
  | .stageWindowEnd stageFs => decide (stageFs < 2 ^ 20)
  | .flitReceive _ row col port p => decide (row < 12) && decide (col < 8) && decide (port < 8) && p.wfAs p.opc
  | .rd p => p.wfAs 0x00
  | .rdLine p => p.wfAs 0x01
  | .rd2line p => p.wfAs 0x02
  | .wr p => p.wfAs 0x03
  | .wrLine p => p.wfAs 0x04
  | .wr2line p => p.wfAs 0x05
  | .wrn p => p.wfAs 0x06
  | .wrnLine p => p.wfAs 0x07
  | .atom p => p.wfAs 0x08
  | .csrRd p => p.wfAs 0x09
  | .csrWr p => p.wfAs 0x0A
  | .rsp p => p.wfAs 0x28
  | .rspData p => p.wfAs 0x29
  | .rspData2 p => p.wfAs 0x2A
  | .wfail p => p.wfAs 0x2B
  | .inboundAcceptResume agent => decide (agent < 1024)
  | .deadTimeout agent => decide (agent < 1024)
  | .reqTimeout agent txn => decide (agent < 1024) && decide (txn < 4096)
  | .txnHoldEnd agent txn => decide (agent < 1024) && decide (txn < 4096)
  | .stileClose dom => decide (dom < 256)
  | .stileOpen dom => decide (dom < 256)
  | .stileForceOff dom => decide (dom < 256)
  | .stileOpReserved op dom => decide (op < 16) && decide (dom < 256)
  | .stile op agent => decide (op < 16) && decide (agent < 1024)
  | .stileAck agent st => decide (agent < 1024) && decide (st < 256)
  | .agentIdle agent => decide (agent < 1024)
  | .domainFenced dom => decide (dom < 256)
  | .domainPowerOff dom => decide (dom < 256)
  | .domainOpened dom _ => decide (dom < 256)
  | .drainTimeout dom => decide (dom < 256)
  | .isoIsolate agent => decide (agent < 1024)
  | .isoRelease agent => decide (agent < 1024)
  | .comErrClear => true
  | .event p => p.wfAs 0x32
  | .flushProbe p => p.wfAs 0x06
  | .flushProbeAnswer agent src txn => decide (agent < 1024) && decide (src < 1024) && decide (txn < 4096)
  | .fence agent stream => decide (agent < 1024) && decide (stream < 2 ^ 32)
  | .fenceComplete agent stream => decide (agent < 1024) && decide (stream < 2 ^ 32)
  | .fenceRemote agent stream => decide (agent < 1024) && decide (stream < 2 ^ 32)
  | .homeReadComplete h line c => decide (h < 32) && decide (line < 2 ^ 42) && c.wf
  | .rdShared p => p.wfAs 0x10
  | .rdUnique p => p.wfAs 0x11
  | .claim p => p.wfAs 0x12
  | .wbDirty p => p.wfAs 0x13
  | .evictClean p => p.wfAs 0x14
  | .atomP p => p.wfAs 0x15
  | .grant p => p.wfAs 0x2C
  | .snpRsp p => p.wfAs 0x2D
  | .snpRspData p => p.wfAs 0x2E
  | .cmpAck p => p.wfAs 0x2F
  | .lineWaiterServed line => decide (line < 2 ^ 42)
  | .ackTimeout line => decide (line < 2 ^ 42)
  | .biTimeout line => decide (line < 2 ^ 42)
  | .filterWalkDone h cache => decide (h < 32) && decide (cache < 9)
  | .lostLinePop h => decide (h < 32)
  | .homeCntClear h => decide (h < 32)
  | .cxlMemrd tag line mval => decide (tag < 2 ^ 16) && decide (line < 2 ^ 42) && decide (mval < 4)
  | .cxlMemwr tag line mask data _ => decide (tag < 2 ^ 16) && decide (line < 2 ^ 42) && decide (mask < 2 ^ 64) && decide (data.length ≤ 2 ^ 21)
  | .cxlMemclnevct tag line => decide (tag < 2 ^ 16) && decide (line < 2 ^ 42)
  | .cxlBirsp line st => decide (line < 2 ^ 42) && decide (st < 256)
  | .cxlBiconflict tag line => decide (tag < 2 ^ 16) && decide (line < 2 ^ 42)
  | .stackTempRead m temp refresh vddq => decide (m < 8) && decide (temp < 2 ^ 16) && decide (refresh < 8) && decide (vddq < 2 ^ 16)
  | .capRiseTimer m => decide (m < 8)
  | .scrubRead m hpa c row => decide (m < 8) && decide (hpa < 2 ^ 48) && c.wf && decide (row < 2 ^ 17)
  | .laneRepair m fix => decide (m < 8) && fix.wf
  | .hbmBurn m => decide (m < 8)
  | .hbmErrClear m => decide (m < 8)
  | .hbmTrainSave m => decide (m < 8)
  | .recentreStart m => decide (m < 8)
  | .recentreEnd m => decide (m < 8)
  | .stackNoAnswerTimeout m => decide (m < 8)
  | .stackLoss m cause => decide (m < 8) && decide (cause < 8)
  | .granQuery w block => w.wf && decide (block < 2 ^ 16)
  | .granFill w block => w.wf && decide (block < 2 ^ 16)
  | .granSeal w block => w.wf && decide (block < 2 ^ 16)
  | .granRelease w block => w.wf && decide (block < 2 ^ 16)
  | .granRestoreBegin w block page => w.wf && decide (block < 2 ^ 16) && decide (page < 32)
  | .granRestoreEnd w block page => w.wf && decide (block < 2 ^ 16) && decide (page < 32)
  | .granOpNone w op block => w.wf && decide (op < 16) && decide (block < 2 ^ 16)
  | .parityPassEnd block _ => decide (block < 2 ^ 16)
  | .wipeEnd block => decide (block < 2 ^ 16)
  | .restoreParityEnd block page stillBad => decide (block < 2 ^ 16) && decide (page < 32) && stillBad.all (· < 2 ^ 16)
  | .fmtCommit => true
  | .fmtCommitDone => true
  | .loomDispatch p => p.wfAs 0x0B
  | .loomLaunch tile => decide (tile < 68)
  | .loomClaimRecord tile => decide (tile < 68)
  | .loomParkRecord tile => decide (tile < 68)
  | .loomBudgetExpire tile => decide (tile < 68)
  | .unitStop p => p.wfAs 0x0D
  | .scalarInstruction tile _ => decide (tile < 68)
  | .mret tile => decide (tile < 68)
  | .fenceI tile => decide (tile < 68)
  | .globalLoad tile xd rs1 imm size _ => decide (tile < 68) && decide (xd < 32) && decide (rs1 < 32) && decide (imm < 4096) && decide (size ≤ 8)
  | .globalStore tile rs1 rs2 imm size => decide (tile < 68) && decide (rs1 < 32) && decide (rs2 < 32) && decide (imm < 4096) && decide (size ≤ 8)
  | .globalAmo tile aop xd rs1 rs2 size _ _ => decide (tile < 68) && decide (aop < 16) && decide (xd < 32) && decide (rs1 < 32) && decide (rs2 < 32) && decide (size ≤ 8)
  | .lr tile xd rs1 size => decide (tile < 68) && decide (xd < 32) && decide (rs1 < 32) && decide (size ≤ 8)
  | .sc tile xd rs1 rs2 size => decide (tile < 68) && decide (xd < 32) && decide (rs1 < 32) && decide (rs2 < 32) && decide (size ≤ 8)
  | .vadd tile f => decide (tile < 68) && f.wf
  | .vsub tile f => decide (tile < 68) && f.wf
  | .vmul tile f => decide (tile < 68) && f.wf
  | .vfma tile f => decide (tile < 68) && f.wf
  | .vfms tile f => decide (tile < 68) && f.wf
  | .vfnma tile f => decide (tile < 68) && f.wf
  | .vfnms tile f => decide (tile < 68) && f.wf
  | .vmin tile f => decide (tile < 68) && f.wf
  | .vmax tile f => decide (tile < 68) && f.wf
  | .vabs tile f => decide (tile < 68) && f.wf
  | .vneg tile f => decide (tile < 68) && f.wf
  | .vsel tile f => decide (tile < 68) && f.wf
  | .vand tile f => decide (tile < 68) && f.wf
  | .vor tile f => decide (tile < 68) && f.wf
  | .vxor tile f => decide (tile < 68) && f.wf
  | .vsll tile f => decide (tile < 68) && f.wf
  | .vsrl tile f => decide (tile < 68) && f.wf
  | .vsra tile f => decide (tile < 68) && f.wf
  | .vmulh tile f => decide (tile < 68) && f.wf
  | .vcmpeq tile f => decide (tile < 68) && f.wf
  | .vcmpne tile f => decide (tile < 68) && f.wf
  | .vcmplt tile f => decide (tile < 68) && f.wf
  | .vcmple tile f => decide (tile < 68) && f.wf
  | .vcmpun tile f => decide (tile < 68) && f.wf
  | .vcvt tile f => decide (tile < 68) && f.wf
  | .vrcp tile f => decide (tile < 68) && f.wf
  | .vrsqrt tile f => decide (tile < 68) && f.wf
  | .vsqrt tile f => decide (tile < 68) && f.wf
  | .vdiv tile f => decide (tile < 68) && f.wf
  | .vexp tile f => decide (tile < 68) && f.wf
  | .vexp2 tile f => decide (tile < 68) && f.wf
  | .vln tile f => decide (tile < 68) && f.wf
  | .vlog2 tile f => decide (tile < 68) && f.wf
  | .vtanh tile f => decide (tile < 68) && f.wf
  | .vsigm tile f => decide (tile < 68) && f.wf
  | .vsin tile f => decide (tile < 68) && f.wf
  | .vcos tile f => decide (tile < 68) && f.wf
  | .verf tile f => decide (tile < 68) && f.wf
  | .vrand tile f => decide (tile < 68) && f.wf
  | .vperm tile f => decide (tile < 68) && f.wf
  | .vslideup tile f => decide (tile < 68) && f.wf
  | .vslidedn tile f => decide (tile < 68) && f.wf
  | .vcompress tile f => decide (tile < 68) && f.wf
  | .lbcast tile f => decide (tile < 68) && f.wf
  | .lext tile f => decide (tile < 68) && f.wf
  | .vld tile f => decide (tile < 68) && f.wf
  | .vst tile f => decide (tile < 68) && f.wf
  | .vldx tile f => decide (tile < 68) && f.wf
  | .vstx tile f => decide (tile < 68) && f.wf
  | .vmld tile f => decide (tile < 68) && f.wf
  | .vmst tile f => decide (tile < 68) && f.wf
  | .vredAdd tile f => decide (tile < 68) && f.wf
  | .vredExact tile f => decide (tile < 68) && f.wf
  | .vredIadd tile f => decide (tile < 68) && f.wf
  | .vredMax tile f => decide (tile < 68) && f.wf
  | .vredMin tile f => decide (tile < 68) && f.wf
  | .vredArgmax tile f => decide (tile < 68) && f.wf
  | .vredArgmin tile f => decide (tile < 68) && f.wf
  | .vredAnd tile f => decide (tile < 68) && f.wf
  | .vredOr tile f => decide (tile < 68) && f.wf
  | .vredXor tile f => decide (tile < 68) && f.wf
  | .lrbcast tile f => decide (tile < 68) && f.wf
  | .vmand tile f => decide (tile < 68) && f.wf
  | .vmor tile f => decide (tile < 68) && f.wf
  | .vmxor tile f => decide (tile < 68) && f.wf
  | .vmandn tile f => decide (tile < 68) && f.wf
  | .lmpop tile f => decide (tile < 68) && f.wf
  | .lmfirst tile f => decide (tile < 68) && f.wf
  | .lsetvl tile xd rs1 rs2 ww => decide (tile < 68) && decide (xd < 32) && decide (rs1 < 32) && decide (rs2 < 32) && decide (ww < 4)
  | .lrreset tile xd rs1 rs2 => decide (tile < 68) && decide (xd < 32) && decide (rs1 < 32) && decide (rs2 < 32)
  | .lrd tile xd rs1 rs2 => decide (tile < 68) && decide (xd < 32) && decide (rs1 < 32) && decide (rs2 < 32)
  | .lrdi tile xd rs1 rs2 => decide (tile < 68) && decide (xd < 32) && decide (rs1 < 32) && decide (rs2 < 32)
  | .lrsave tile xd rs1 rs2 => decide (tile < 68) && decide (xd < 32) && decide (rs1 < 32) && decide (rs2 < 32)
  | .lrmerge tile xd rs1 rs2 => decide (tile < 68) && decide (xd < 32) && decide (rs1 < 32) && decide (rs2 < 32)
  | .lpload tile xd rs1 rs2 => decide (tile < 68) && decide (xd < 32) && decide (rs1 < 32) && decide (rs2 < 32)
  | .lprun tile xd rs1 rs2 => decide (tile < 68) && decide (xd < 32) && decide (rs1 < 32) && decide (rs2 < 32)
  | .lvsync tile xd rs1 rs2 => decide (tile < 68) && decide (xd < 32) && decide (rs1 < 32) && decide (rs2 < 32)
  | .lsignal tile xd rs1 rs2 => decide (tile < 68) && decide (xd < 32) && decide (rs1 < 32) && decide (rs2 < 32)
  | .lwait tile xd rs1 rs2 => decide (tile < 68) && decide (xd < 32) && decide (rs1 < 32) && decide (rs2 < 32)
  | .lwaitLimit tile => decide (tile < 68)
  | .lend tile xd rs1 rs2 => decide (tile < 68) && decide (xd < 32) && decide (rs1 < 32) && decide (rs2 < 32)
  | .lfail tile xd rs1 rs2 => decide (tile < 68) && decide (xd < 32) && decide (rs1 < 32) && decide (rs2 < 32)
  | .millDispatch p => p.wfAs 0x0B
  | .millItemStart slice item => decide (slice < 17) && decide (item < 2 ^ 32)
  | .collJoin p => p.wfAs 0x0F
  | .collExp p => p.wfAs 0x0F
  | .collData p => p.wfAs 0x0F
  | .collCredit p => p.wfAs 0x0F
  | .collKeep p => p.wfAs 0x0F
  | .collLate p => p.wfAs 0x0F
  | .collAbort p => p.wfAs 0x0F
  | .collNack p => p.wfAs 0x0F
  | .joinRetryTimer slice item => decide (slice < 17) && decide (item < 2 ^ 32)
  | .keepTimer slice item => decide (slice < 17) && decide (item < 2 ^ 32)
  | .lateTimer => true
  | .millStartDeadline slice item rank => decide (slice < 17) && decide (item < 2 ^ 32) && decide (rank < 2 ^ 16)
  | .millProgressDeadline slice item rank => decide (slice < 17) && decide (item < 2 ^ 32) && decide (rank < 2 ^ 16)
  | .millItemEnd slice item => decide (slice < 17) && decide (item < 2 ^ 32)
  | .millGrpCommit w g => w.wf && decide (g < 256)
  | .millCntClear => true
  | .moverDispatch p => p.wfAs 0x0B
  | .movDescStart mover q => decide (mover < 34) && decide (q < 2 ^ 16)
  | .movDescEnd mover q => decide (mover < 34) && decide (q < 2 ^ 16)
  | .movItemComplete mover q => decide (mover < 34) && decide (q < 2 ^ 16)
  | .xltRequest p => p.wfAs 0x0E
  | .walkStep slice _ => decide (slice < 8)
  | .faultOpen => true
  | .faultRecordWrite fid => decide (fid < 2 ^ 32)
  | .faultEntryTimeout fid => decide (fid < 2 ^ 32)
  | .fltRespRetry w fid => w.wf && decide (fid < 2 ^ 32)
  | .fltRespFail w fid => w.wf && decide (fid < 2 ^ 32)
  | .faultRingHead w head => w.wf && decide (head < 2 ^ 32)
  | .xltInvGo w scope asid va count => w.wf && decide (scope < 4) && decide (asid < 256) && decide (va < 2 ^ 48) && decide (count < 2 ^ 32)
  | .xltInvComplete => true
  | .busyPageRetry agent q _ => decide (agent < 1024) && decide (q < 2 ^ 16)
  | .sqDoorbell w q tail => w.wf && decide (q < 2 ^ 16) && decide (tail < 2 ^ 32)
  | .cqDoorbell w q head => w.wf && decide (q < 2 ^ 16) && decide (head < 2 ^ 32)
  | .packetFetch data _ => decide (data.length ≤ 2 ^ 21)
  | .itemDispatch => true
  | .busyRetryTimer q item => decide (q < 2 ^ 16) && decide (item < 2 ^ 32)
  | .nop q item => decide (q < 2 ^ 16) && decide (item < 2 ^ 32)
  | .loomRun q item => decide (q < 2 ^ 16) && decide (item < 2 ^ 32)
  | .loomClaim q item => decide (q < 2 ^ 16) && decide (item < 2 ^ 32)
  | .loomPark q item => decide (q < 2 ^ 16) && decide (item < 2 ^ 32)
  | .move q item => decide (q < 2 ^ 16) && decide (item < 2 ^ 32)
  | .collective q item => decide (q < 2 ^ 16) && decide (item < 2 ^ 32)
  | .siteWork q item => decide (q < 2 ^ 16) && decide (item < 2 ^ 32)
  | .writeImm q item => decide (q < 2 ^ 16) && decide (item < 2 ^ 32)
  | .barrier q item => decide (q < 2 ^ 16) && decide (item < 2 ^ 32)
  | .evtSignal q item => decide (q < 2 ^ 16) && decide (item < 2 ^ 32)
  | .evtWait q item => decide (q < 2 ^ 16) && decide (item < 2 ^ 32)
  | .evtWaitTimeout q item => decide (q < 2 ^ 16) && decide (item < 2 ^ 32)
  | .evtReset q item => decide (q < 2 ^ 16) && decide (item < 2 ^ 32)
  | .cancel q item => decide (q < 2 ^ 16) && decide (item < 2 ^ 32)
  | .itemQuery q item => decide (q < 2 ^ 16) && decide (item < 2 ^ 32)
  | .alloc q item => decide (q < 2 ^ 16) && decide (item < 2 ^ 32)
  | .free q item => decide (q < 2 ^ 16) && decide (item < 2 ^ 32)
  | .blockZeroDone hpa => decide (hpa < 2 ^ 48)
  | .kvAlloc q item => decide (q < 2 ^ 16) && decide (item < 2 ^ 32)
  | .kvFree q item => decide (q < 2 ^ 16) && decide (item < 2 ^ 32)
  | .prefetch q item => decide (q < 2 ^ 16) && decide (item < 2 ^ 32)
  | .advise q item => decide (q < 2 ^ 16) && decide (item < 2 ^ 32)
  | .evacuate q item => decide (q < 2 ^ 16) && decide (item < 2 ^ 32)
  | .weightLoad q item => decide (q < 2 ^ 16) && decide (item < 2 ^ 32)
  | .weightChunk q item => decide (q < 2 ^ 16) && decide (item < 2 ^ 32)
  | .weightRelease q item => decide (q < 2 ^ 16) && decide (item < 2 ^ 32)
  | .seqOpen q item => decide (q < 2 ^ 16) && decide (item < 2 ^ 32)
  | .seqFeed q item => decide (q < 2 ^ 16) && decide (item < 2 ^ 32)
  | .seqClose q item => decide (q < 2 ^ 16) && decide (item < 2 ^ 32)
  | .genStart q item => decide (q < 2 ^ 16) && decide (item < 2 ^ 32)
  | .genStop q item => decide (q < 2 ^ 16) && decide (item < 2 ^ 32)
  | .completionEvent p => p.wfAs 0x32
  | .evtOp p => p.wfAs 0x0C
  | .wakeEvent p => p.wfAs 0x32
  | .evtRegWrite w e value => w.wf && decide (e < 4096) && decide (value < 2 ^ 64)
  | .queueEnable w q => w.wf && decide (q < 2 ^ 16)
  | .queueDisable w q => w.wf && decide (q < 2 ^ 16)
  | .queueDrained q => decide (q < 2 ^ 16)
  | .cqbaseWrite w c value => w.wf && decide (c < 1024) && decide (value < 2 ^ 64)
  | .cqCoalTimeout c => decide (c < 1024)
  | .mboxGo w => w.wf
  | .mboxReady => true
  | .resAck w => w.wf
  | .rsvWrite w value => w.wf && decide (value < 2 ^ 64)
  | .poolCommit w pool value => w.wf && decide (pool < 32) && decide (value < 2 ^ 64)
  | .poolZeroDone pool => decide (pool < 32)
  | .kvPoolCommit w pool cfg0 cfg1 => w.wf && decide (pool < 32) && decide (cfg0 < 2 ^ 64) && decide (cfg1 < 2 ^ 64)
  | .genStepBoundary => true
  | .genSample => true
  | .genStepRetry => true
  | .genRecordsWrite => true
  | .genOutHead w head => w.wf && decide (head < 2 ^ 32)
  | .bucketRefill => true
  | .sluWindowEnd _ => true
  | .sluCommit w => w.wf
  | .sluCommitDone => true
  | .sluMissClear w => w.wf
  | .siteDispatch p => p.wfAs 0x0B
  | .stlRd n u m => decide (n < 8) && decide (u < 8) && m.wf
  | .stlWr n u m => decide (n < 8) && decide (u < 8) && m.wf
  | .stlWrn n u m => decide (n < 8) && decide (u < 8) && m.wf
  | .stlAtom n u m => decide (n < 8) && decide (u < 8) && m.wf
  | .stlRdShared n u m => decide (n < 8) && decide (u < 8) && m.wf
  | .stlRdUnique n u m => decide (n < 8) && decide (u < 8) && m.wf
  | .stlClaim n u m => decide (n < 8) && decide (u < 8) && m.wf
  | .stlWbDirty n u m => decide (n < 8) && decide (u < 8) && m.wf
  | .stlEvictClean n u m => decide (n < 8) && decide (u < 8) && m.wf
  | .stlAtomP n u m => decide (n < 8) && decide (u < 8) && m.wf
  | .stlFence n u m => decide (n < 8) && decide (u < 8) && m.wf
  | .stlFenceRemote n u m => decide (n < 8) && decide (u < 8) && m.wf
  | .xltReq n u m => decide (n < 8) && decide (u < 8) && m.wf
  | .stlEvt n u m => decide (n < 8) && decide (u < 8) && m.wf
  | .stlIrq n u m => decide (n < 8) && decide (u < 8) && m.wf
  | .wqDone n u m => decide (n < 8) && decide (u < 8) && m.wf
  | .stlErr n u m => decide (n < 8) && decide (u < 8) && m.wf
  | .stlSnpRsp n u m => decide (n < 8) && decide (u < 8) && m.wf
  | .stlSnpRspData n u m => decide (n < 8) && decide (u < 8) && m.wf
  | .stlCmpAck n u m => decide (n < 8) && decide (u < 8) && m.wf
  | .wRsp n u m => decide (n < 8) && decide (u < 8) && m.wf
  | .wRspData n u m => decide (n < 8) && decide (u < 8) && m.wf
  | .xltInvDone n u m => decide (n < 8) && decide (u < 8) && m.wf
  | .echo n u m => decide (n < 8) && decide (u < 8) && m.wf
  | .credit n u m => decide (n < 8) && decide (u < 8) && m.wf
  | .siteCxlRequest n r => decide (n < 8) && r.wf
  | .sidebandIdle n => decide (n < 8)
  | .sidebandSelftest n result => decide (n < 8) && decide (result < 256)
  | .sidebandFatal n => decide (n < 8)
  | .credTimeout n u => decide (n < 8) && decide (u < 8)
  | .invTimeout n => decide (n < 8)
  | .stopTimeout n item => decide (n < 8) && decide (item < 2 ^ 32)
  | .siteTrainTimeout n => decide (n < 8)
  | .echoTimeout n u => decide (n < 8) && decide (u < 8)
  | .moduleRetrain n u _ => decide (n < 8) && decide (u < 8)
  | .siteIrqUnmask w n mask => w.wf && decide (n < 8) && decide (mask < 2 ^ 16)
  | .siteBringup n t => decide (n < 8) && t.wf
  | .rightRevoke n tenant => decide (n < 8) && decide (tenant < 64)
  | .linkFlitReceive l f => decide (l < 48) && f.wf
  | .linkReplayTimeout l => decide (l < 48)
  | .ethFrameReceive l port f => decide (l < 48) && decide (port < 8) && f.wf
  | .ethCnp hub => decide (hub < 2 ^ 16)
  | .ethRateRise hub => decide (hub < 2 ^ 16)
  | .anchorSend p => p.wfAs p.opc
  | .xpRd m => m.wf
  | .xpWr m => m.wf
  | .xpWrn m => m.wf
  | .xpAtom m => m.wf
  | .xpColl m => m.wf
  | .xpClose m => m.wf
  | .xpRsp m => m.wf
  | .xpRspData m => m.wf
  | .xpWfail m => m.wf
  | .xpAck m => m.wf
  | .xpPerf m => m.wf
  | .xpBusy m => m.wf
  | .xpAckTimer hub => decide (hub < 2 ^ 16)
  | .xpRto hub => decide (hub < 2 ^ 16)
  | .xpOpenRetry hub _ => decide (hub < 2 ^ 16)
  | .xpIdleClose hub => decide (hub < 2 ^ 16)
  | .intermediateForward l vc m => decide (l < 48) && decide (vc < 5) && m.wf
  | .timeSyncTimer => true
  | .linkTimeMsg l t1 r1 r2 => decide (l < 48) && decide (t1 < 2 ^ 64) && decide (r1 < 2 ^ 64) && decide (r2 < 2 ^ 64)
  | .ptpFrame l port _ => decide (l < 48) && decide (port < 8)
  | .linkLaneFail l lane => decide (l < 48) && decide (lane < 4)
  | .linkRetrainTimer l => decide (l < 48)
  | .linkRetrain l => decide (l < 48)
  | .lnkErrClear l => decide (l < 48)
  | .routeWrite idx _ set => decide (idx < 2 ^ 16) && decide (set < 64)
  | .windowCommit w => decide (w < 64)
  | .hostMemRead bar tag off len => decide (bar < 8) && decide (tag < 2 ^ 16) && decide (off < 2 ^ 37) && decide (len < 2 ^ 24)
  | .hostMemWrite bar off data _ => decide (bar < 8) && decide (off < 2 ^ 37) && decide (data.length ≤ 2 ^ 21)
  | .hostAtomicop tag off op size a b => decide (tag < 2 ^ 16) && decide (off < 2 ^ 37) && decide (op < 16) && decide (size ≤ 8) && decide (a < 2 ^ 64) && decide (b < 2 ^ 64)
  | .hostCompletion tag status data _ => decide (tag < 2 ^ 16) && decide (status < 8) && decide (data.length ≤ 2 ^ 21)
  | .hostCplTimeout tag => decide (tag < 2 ^ 16)
  | .bmeClear _ => true
  | .bmeDrainTimeout => true
  | .bmeSet _ => true
  | .msixPendingSend vector => decide (vector < 2048)
  | .functionLevelReset kind => decide (kind < 4)
  | .flrUnitWaitTimeout => true
  | .ltrIdleTimer => true
  | .fatePop w => w.wf
  | .fateAck w => w.wf
  | .hepUnsupClear w => w.wf
  | .lcTransition w len => w.wf && decide (len < 2 ^ 24)
  | .debugCert w len => w.wf && decide (len < 2 ^ 24)
  | .epochRaise w len => w.wf && decide (len < 2 ^ 24)
  | .ownerSet w len => w.wf && decide (len < 2 ^ 24)
  | .siteAttest w len => w.wf && decide (len < 2 ^ 24)
  | .ledgerCheckpoint w len => w.wf && decide (len < 2 ^ 24)
  | .purge w len => w.wf && decide (len < 2 ^ 24)
  | .purgeEnd => true
  | .identity w len => w.wf && decide (len < 2 ^ 24)
  | .vstMboxAck w => w.wf
  | .spdmRequest via ask => decide (via < 2 ^ 16) && ask.wf
  | .ledgerExport w value => w.wf && decide (value < 2 ^ 64)
  | .bootVestry w arg us _ _ => w.wf && decide (arg < 2 ^ 24) && decide (us < 2 ^ 32)
  | .bootFuses w arg us _ stks sites links bad => w.wf && decide (arg < 2 ^ 24) && decide (us < 2 ^ 32) && decide (stks < 256) && decide (sites < 256) && decide (links < 2 ^ 48) && bad.all (· < 2 ^ 16)
  | .bootCommons w arg us corr _ => w.wf && decide (arg < 2 ^ 24) && decide (us < 2 ^ 32) && decide (corr < 2 ^ 32)
  | .bootReeve w arg us _ => w.wf && decide (arg < 2 ^ 24) && decide (us < 2 ^ 32)
  | .bootKat w arg us _ homes => w.wf && decide (arg < 2 ^ 24) && decide (us < 2 ^ 32) && homes.all (· < 2 ^ 16)
  | .bootRoll w arg us => w.wf && decide (arg < 2 ^ 24) && decide (us < 2 ^ 32)
  | .bootHbm w arg us ts => w.wf && decide (arg < 2 ^ 24) && decide (us < 2 ^ 32) && ts.all StackTrain.wf
  | .bootLinks w arg us ts => w.wf && decide (arg < 2 ^ 24) && decide (us < 2 ^ 32) && ts.all LinkTrain.wf
  | .bootSites w arg => w.wf && decide (arg < 2 ^ 24)
  | .bootCrier w arg => w.wf && decide (arg < 2 ^ 24)
  | .bootReady w arg us => w.wf && decide (arg < 2 ^ 24) && decide (us < 2 ^ 32)
  | .bootGoRefused w step arg => w.wf && decide (step < 16) && decide (arg < 2 ^ 24)
  | .bootSaveHbm w => w.wf
  | .bootSaveLinks w => w.wf
  | .rollUpd agent logical phys gen => decide (agent < 1024) && decide (logical < 1024) && decide (phys < 1024) && decide (gen < 256)
  | .crier agent p => decide (agent < 1024) && p.wfAs 0x34
  | .crierReport p => p.wfAs 0x35
  | .imageDigestDone agent => decide (agent < 1024)
  | .evtRecordWrite => true
  | .evtRingHead w head => w.wf && decide (head < 2 ^ 32)
  | .hubFatalError agent => decide (agent < 1024)
  | .fatalResetTimer => true
  | .unitFailure agent => decide (agent < 1024)
  | .unitDrainTimeout agent => decide (agent < 1024)
  | .unitSwapped => true
  | .svcWarm w => w.wf
  | .svcHubReset w => w.wf
  | .svcDomainReset w dom _ => w.wf && decide (dom < 256)
  | .svcDoze w => w.wf
  | .svcWake w => w.wf
  | .svcUnitFail w unit => w.wf && decide (unit < 256)
  | .svcFwUpdate w slot _ => w.wf && decide (slot < 16)
  | .svcRecal w target => w.wf && decide (target < 256)
  | .svcOpInvalid w op arg => w.wf && decide (op < 16) && decide (arg < 2 ^ 24)
  | .fwUpdateWaitTimeout => true
  | .fwReceiverVerified agent => decide (agent < 1024)
  | .warmReset => true
  | .dozeEntered => true
  | .wakeComplete => true
  | .powerOn straps => decide (straps < 16)
  | .coldReset rate => decide (rate < 8)
  | .powerFail => true
  | .powerEval reads => reads.all PmbRead.wf
  | .thermalSensorRead k temp _ => decide (k < 32) && decide (temp < 2 ^ 16)
  | .thermalCeilingTick _ => true
  | .stageMissTimer => true
  | .pinThrottle pin _ => decide (pin < 2)
  | .thermalTrip sensor => decide (sensor < 32)
  | .mctpMessage via typ data => decide (via < 2 ^ 16) && decide (typ < 128) && decide (data.length ≤ 4096)
  | .i3cCcc code arg => decide (code < 256) && decide (arg < 2 ^ 24)
  | .pldmRequest via ask => decide (via < 2 ^ 16) && ask.wf
  | .pldmRequestUpdate via => decide (via < 2 ^ 16)
  | .pldmApplyComplete via slot image _ => decide (via < 2 ^ 16) && decide (slot < 16) && decide (image.length ≤ 2 ^ 21)
  | .pldmActivateFirmware via slot => decide (via < 2 ^ 16) && decide (slot < 16)
  | .getEvents via index => decide (via < 2 ^ 16) && decide (index < 2 ^ 32)
  | .oobReset via kind => decide (via < 2 ^ 16) && decide (kind < 4)
  | .oobWake via => decide (via < 2 ^ 16)
  | .readReg via off count => decide (via < 2 ^ 16) && decide (off < 2 ^ 37) && decide (count < 2 ^ 32)
  | .writeReg via off _ => decide (via < 2 ^ 16) && decide (off < 2 ^ 37)
  | .getBoot via => decide (via < 2 ^ 16)
  | .oobLogFlush => true
  | .flashStage w slot len _ => w.wf && decide (slot < 16) && decide (len < 2 ^ 24)
  | .flashActivate w slot => w.wf && decide (slot < 16)
  | .flashOpInvalid w op slot => w.wf && decide (op < 16) && decide (slot < 16)
  | .ppsPulse => true
  | .hostConfigRequest tag _ off be value => decide (tag < 2 ^ 16) && decide (off < 2 ^ 37) && decide (be < 16) && decide (value < 2 ^ 64)
  | .loadClassWindowEnd m share => decide (m < 8) && decide (share ≤ 1000)
  | .siteSpdmResponse n result _ => decide (n < 8) && decide (result < 256)
  | .ledgerRecordInFlash => true
  | .linkTrainingEnd l _ lanes => decide (l < 48) && decide (lanes < 5)
  | .coldResetAssert => true
  | .jtagDebugAccess ask => ask.wf
  | .markerLock l _ => decide (l < 48)

end Sys2Proof
end

