-- ==== Sys2Proof/Tests/Slice0.lean ====
section
/-!
SUPPORT. Tests/Slice0.lean: terms that are not well formed, a few effects with results taken from the worked examples of the spec, and for
every statement with hypotheses a state and operands that meet them.
-/

namespace Sys2Proof.Tests

open Sys2Proof Sys2Proof.Machine Sys2Proof.Safety

/-! ### Well-formedness: a term for each check, which the check refuses -/

theorem test_wf_packet : ([{ opc := 64 }, { dst := 1024 }, { src := 1024 }, { txn := 4096 }, { status := 256 }, { addr := 2 ^ 64 },
    { len := 257 }, { mask := 2 ^ 64 }, { tenant := 64 }, { cls := 8 }, { deadline := 2 ^ 16 },
    { keep := 4 }, { dest := 1024 }, { line := 2 ^ 28 }, { part := 16 }] : List Pkt).all (fun p => !p.wf) = true := by decide +kernel

theorem test_wf_packetData (d : List Byte) (h : 2 ^ 21 < d.length) : Pkt.wf { data := d } = false := by
  have : ¬ d.length ≤ 2 ^ 21 := by omega
  simp only [Pkt.wf, this, decide_false, Bool.and_false, Bool.false_and]

theorem test_wf_packetLength : ([({ len := 0 }, 0x00), ({ len := 129 }, 0x00), ({ data := [] }, 0x03), ({ data := zeros 65 }, 0x03),
    ({ data := zeros 127 }, 0x04), ({ data := zeros 255 }, 0x05)] : List (Pkt × Nat)).all (fun e => !e.1.wfAs e.2) = true := by decide +kernel

theorem test_wf_siteMessage : ([{ typ := 64 }, { ch := 16 }, { cls := 8 }, { at_ := 4 }, { tag := 4096 }, { deadline := 2 ^ 16 },
    { aux := 4096 }, { addr := 2 ^ 64 }, { data := List.replicate 129 0 }] : List StlMsg).all (fun m => !m.wf) = true := by decide +kernel

theorem test_wf_transportMessage : ([{ typ := 256 }, { dstHub := 2 ^ 16 }, { srcHub := 2 ^ 16 }, { psn := 2 ^ 24 }, { srcAgent := 1024 },
    { txn := 4096 }, { cls := 8 }, { deadline := 2 ^ 16 }, { addr := 2 ^ 64 }, { epoch := 256 }, { status := 256 }, { size := 256 },
    { aop := 32 }, { data := zeros 241 }] : List XMsg).all (fun m => !m.wf) = true := by decide +kernel

theorem test_wf_linkFlit : ([{ seq := 4096 }, { ack := 4096 }, { cvc := 8 }, { cred := 4096 }, { msgs := [(5, {})] },
    { msgs := [(0, { typ := 256 })] }] : List LinkFlit).all (fun f => !f.wf) = true := by decide

theorem test_wf_ethFrame : ([{ mac := 2 ^ 48 }, { ip := 2 ^ 32 }, { v6 := true, ip := 2 ^ 128 }, { pfc := some 256 }, { udp := 2 ^ 16 }, { opcode := 256 }, { srcHub := 2 ^ 16 }, { msgs := [{ typ := 256 }] }] :
    List EthFrame).all (fun f => !f.wf) = true := by decide

theorem test_wf_vectorFields : ([{ vd := 32 }, { vs1 := 32 }, { vs2 := 32 }, { vs3 := 32 }, { fs := 32 }, { fd := 32 }, { rm := 8 },
    { vmk := 8 }, { rsv := 32 }] : List VOp).all (fun f => !f.wf) = true := by decide

theorem test_wf_siteCxl : ([{ tag := 2 ^ 16, op := .invDone }, { pasid := some (2 ^ 20), op := .invDone }, { op := .memRd (2 ^ 64) 0 },
    { op := .memRd 0 129 }, { op := .memWr (2 ^ 64) [] }, { op := .memWr 0 (List.replicate 129 0) }, { op := .atomic 16 0 0 0 0 },
    { op := .atomic 0 9 0 0 0 }, { op := .atomic 0 0 (2 ^ 64) 0 0 }, { op := .atomic 0 0 0 (2 ^ 64) 0 }, { op := .atomic 0 0 0 0 (2 ^ 64) },
    { op := .ats (2 ^ 64) false }, { op := .stl { typ := 64 } }] : List SiteCxl).all (fun r => !r.wf) = true := by decide +kernel

theorem test_wf_training : (([{ width := List.replicate 9 2 }, { width := [3] }, { repaired := [8] }, { rates := 16 }, { version := 256 }] :
    List SiteTrain).all (fun t => !t.wf) &&
    ([{ m := 8 }, { gib := 65 }, { rate := 121 }] : List StackTrain).all (fun t => !t.wf) &&
    ([{ l := 48 }, { peer := 2 ^ 16 }, { lanes := 5 }] : List LinkTrain).all (fun t => !t.wf) &&
    !PmbRead.wf { k := 8 } && !Writer.wf (.agent 1024) && !CodeRead.wf { sectors := [{ errs := 37 }] } &&
    !CodeRead.wf { sectors := List.replicate 5 {} } && !CodeRead.wf { bad := [8] }) = true := by decide

theorem test_wf_management : (([.getCertificate 8, .challenge 8, .getMeasurements 256, .finish (2 ^ 16), .heartbeat (2 ^ 16),
    .keyUpdate (2 ^ 16), .endSession (2 ^ 16), .other 256] : List SpdmAsk).all (fun a => !a.wf) &&
    ([.base 64 0 0, .base 0 256 0, .getPdr (2 ^ 32), .getSensor (2 ^ 16), .getStateSensor (2 ^ 16), .setEffecter (2 ^ 16),
      .setEventReceiver 256] : List PldmAsk).all (fun a => !a.wf) &&
    ([.preload (List.replicate 65 0), .readReg (2 ^ 28) 4, .readReg 0 2, .writeReg (2 ^ 28) 8 0, .writeReg 0 3 0, .readMem (2 ^ 64) 1,
      .readMem 0 4097, .writeMem (2 ^ 64) [], .halt 1024, .resume 1024, .step 68 0, .inspect 68 0, .inspect 0 33, .right 3 0] :
      List JtagAsk).all (fun a => !a.wf)) = true := by decide

theorem test_wf_jtagData (d : List Byte) (h : 4096 < d.length) : JtagAsk.wf (.writeMem 0 d) = false := by
  have : ¬ d.length ≤ 4096 := by omega
  simp only [JtagAsk.wf, this, decide_false, Bool.and_false]

/-- One command for each kind of check on a plain operand. -/
theorem test_wf_commands : ([.registerWrite .driver (2 ^ 37) 8 0, .registerWrite .driver 0 9 0, .stageWindowEnd (2 ^ 20),
    .flitReceive .good 16 0 0 {}, .flitReceive .good 0 8 0 {}, .flitReceive .good 0 0 8 {}, .inboundAcceptResume 1024,
    .reqTimeout 0 4096, .stileClose 256, .fence 0 (2 ^ 32), .homeReadComplete 32 0 {}, .homeReadComplete 0 (2 ^ 42) {},
    .filterWalkDone 0 9, .cxlMemrd (2 ^ 16) 0 0, .cxlMemrd 0 0 4, .cxlMemwr 0 0 (2 ^ 64) [] false, .scrubRead 0 (2 ^ 48) {} 0,
    .scrubRead 0 0 {} (2 ^ 17), .restoreParityEnd 0 0 [2 ^ 16], .loomLaunch 68, .millItemStart 17 0, .movDescStart 34 0, .rightRevoke 0 64,
    .linkFlitReceive 48 {}, .intermediateForward 0 5 {}, .windowCommit 64, .hostMemRead 0 0 0 (2 ^ 24), .msixPendingSend 2048,
    .bootHbm .driver 0 0 [{ m := 8 }], .bootLinks .driver 0 0 [{ l := 48 }], .powerEval [{ k := 8 }], .pinThrottle 2 true] :
    List Instr).all (fun i => !i.wf) = true := by decide

theorem test_wf_longData (d : List Byte) (h : 2 ^ 21 < d.length) : (Instr.cxlMemwr 0 0 0 d false).wf = false := by
  have : ¬ d.length ≤ 2 ^ 21 := by omega
  simp only [Instr.wf, this, decide_false, Bool.and_false]

/-! ### Worked examples of the spec -/

/-- 05_hbm.md, the address followed through the hub: M3, pseudo-channel 28, LINE 0x01234578. -/
theorem test_hbm_map : hbmLoc 3 0x1234567800 = { rank := 3, pc := 28, line := 0x01234578 } := by decide

/-- 06_number_formats.md, the six conversions from FP32 into E4M3. -/
theorem test_convert_e4m3 :
    [e4m3.convert .rne false 0 (fp32.decode 0x3E99999A), e4m3.convert .rne false 0 (fp32.decode 0x43E60000),
     e4m3.convert .rne false 0 (fp32.decode 0x43FA0000), e4m3.convert .rne true 0 (fp32.decode 0x43FA0000),
     e4m3.convert .rne false 0 (fp32.decode 0xBA83126F), e4m3.convert .rtz false 0 (fp32.decode 0xBA83126F)] =
    [(0x2A, 1), (0x7E, 1), (0x7F, 5), (0x7E, 37), (0x81, 3), (0x80, 3)] := by decide

/-- 06_number_formats.md, element 0 of a fixed-grid sum over three hubs. -/
theorem test_grid_sum :
    gridAdd (gridAdd (gridEncode 129 0x40D00000).1 (gridEncode 129 0xBDCCCCCD).1) (gridEncode 129 0x33D6BF95).1 = 6710886 := by decide

/-- 04_coherence.md R124: a signed minimum of 4 bytes. -/
theorem test_atomic_smin : atomNew 5 32 1 0xFFFFFFFF 0 = some 0xFFFFFFFF := by decide

/-- 15_fabric_links.md R478: the published check value of the CRC-64 of ECMA-182, over the characters 1 to 9. -/
theorem test_crc64 : crc64 [0x31, 0x32, 0x33, 0x34, 0x35, 0x36, 0x37, 0x38, 0x39] = 0x6C40DF5F0B497347 := by decide +kernel

/-- A message with every header field set. -/
def fullMsg : XMsg :=
  { typ := 3, dstHub := 0x1234, srcHub := 0xABCD, psn := 0x123456, srcAgent := 0x2A5, txn := 0x5A5, cls := 5, vol := true, ordered := true
    opens := true, deadline := 0x8421, addr := 0x0123456789ABCDEF, epoch := 0x5A, size := 127, status := 0xC6, aop := 0x19 }

/-- 15_fabric_links.md R490: a header gives back every field of its message. -/
theorem test_xmsg_header : ofXmsgHeader (xmsgHeader fullMsg) = fullMsg ∧ (xmsgHeader fullMsg).length = 32 := by decide +kernel

/-- 02_commons.md R61: a command that names no domain is rejected and leaves GO clear. -/
theorem test_stile_no_domain : ∃ t, exec (.stileOpen 0xFF) State.reset = .next t ∧ t.rd COM_STILE_CMD_REJECTED 0 = 1 ∧
    t.rd COM_STILE_CMD_GO 0 = 0 := ⟨_, rfl, by decide, by decide⟩

/-- 01_architecture.md HUB_NUMBER: the driver's write reads back. -/
theorem test_hub_number : ∃ t, exec (.registerWrite .driver 8 8 0x1234) State.reset = .next t ∧ t.rd HUB_NUMBER_HUB 0 = 0x1234 :=
  ⟨_, rfl, by decide⟩

/-- A step takes the front command and leaves the next one waiting. -/
theorem test_step_order : ∃ t, step { State.reset with pending := [.comErrClear, .stileClose 0] } = .next t ∧ t.pending = [.stileClose 0] :=
  ⟨_, rfl, rfl⟩

/-! ### Hypotheses of the statements are met -/

/-- A state with memory, a poisoned line, an OPEN domain and a command in the queue. -/
def busyState : State :=
  { State.reset with mem := [(5, 1), (9, 2)], poison := [0, 7], com := { State.reset.com with dom := [(0xBB, 0)] }, pending := [.comErrClear] }

theorem wit_StepTakesFrontCommand : busyState.pending = .comErrClear :: [] := rfl

theorem wit_EmptyQueueIdles : State.reset.pending = [] := rfl

theorem wit_EveryStepKeepsSound : Sound busyState ∧ ∃ t, step busyState = .next t :=
  ⟨⟨by decide, by decide, by decide, by decide, by decide⟩, _, rfl⟩

/-- Tile 0 runs a kernel at the start of its scratchpad, with 4 active elements and the registers of `y`. -/
def kernelState (y : Tile) : State :=
  { State.reset with tiles := [(0, { y with run := some {}, pc := 0x20000000000, vl := 4 })] }

/-- A V64 instruction waits at the front of the queue of tile 0. -/
def queuedState (op : Nat) (f : VOp) : State :=
  kernelState { vq := [{ off := 0, ins := .v64 op f, c := { vl := 4 } }] }

theorem wit_VectorInstructionsComplete_enters : TakesInstruction (kernelState {}) 0 8 ∧ ((kernelState {}).tile 0).vq.length < 16 := by
  unfold TakesInstruction; decide

theorem wit_VectorInstructionsComplete_answers : ((kernelState {}).tile 0).vq = [] ∧
    ([(0x45, {}), (0x6C, {}), (0x6D, {})] : List (Nat × VOp)).all (fun e =>
      ((kernelState {}).tile 0).check e.1 e.2 4 0 false false false = none) = true ∧
    lanePois (((kernelState {}).tile 0).vpois 0) (((kernelState {}).tile 0).lw 0) 0 = false := by decide

/-- One operation for each clause on what the vector unit does. -/
theorem wit_VectorInstructionsComplete_performs :
    ([(0x00, {}), (0x3D, {}), (0x44, {}), (0x40, {}), (0x41, {}), (0x42, {}), (0x43, {}), (0x28, {}), (0x20, {}), (0x24, {}), (0x68, {}), (0x69, {}),
      (0x6A, {}), (0x6B, {}), (0x58, {}), (0x62, { rm := 7 }), (0x50, {}), (0x52, {}), (0x54, {}), (0x51, {}), (0x53, {}), (0x55, {})] :
      List (Nat × VOp)).all (fun e => ((queuedState e.1 e.2).tile 0).check e.1 e.2 4 0 false false false = none) = true ∧
    ((queuedState 0x50 {}).tile 0).vq = [{ off := 0, ins := .v64 0x50 {}, c := { vl := 4 } }] ∧
    ((queuedState 0x50 {}).tile 0).isBlock 0 = false ∧
    (match ((queuedState 0x50 {}).tile 0).fmt 0 with
     | some fi => decide (fi.block = 0) && decide (memCheck fi 0 0 false false
        ((List.range 4).map (fun i => (eltBit fi 0 0 i, fi.elt.width))) = none) && decide (memCheck fi 0 0 true false [(0, 32)] = none)
     | none => false) = true ∧
    spanHi (strBit 0 3, 1) < padBytes ∧ spanHi (strBit 0 4, 4) < padBytes := by decide

theorem wit_TileInstructionsComplete_enters : TakesInstruction (kernelState {}) 0 4 ∧ ((kernelState {}).tile 0).vq.length < 16 ∧ 3 < 4 ∧
    ((kernelState {}).tile 0).loadQueued = false ∧ TakesInstruction ((kernelState {}).lanesDrain 0) 0 4 ∧
    (SMap.getD ((kernelState {}).tile 0).acc 3 {}).poison = false := by
  unfold TakesInstruction; decide

theorem wit_TileInstructionsComplete_index :
    (SMap.getD ((kernelState { acc := [(3, { op := 6 })] }).tile 0).acc 3 {}).op = 6 ∧
    (SMap.getD ((kernelState {}).tile 0).acc 3 {}).op = 0 := by decide

theorem wit_TileInstructionsComplete_waits :
    ((kernelState { wait := some (.glob 1 0 0 0 4 true true false) }).tile 0).wait = some (.glob 1 0 0 0 4 true true false) ∧
    ((kernelState { wait := some (.reg 1 5 4 9) }).tile 0).wait = some (.reg 1 5 4 9) ∧
    ((kernelState { wait := some (.reg 1 5 4 9) }).tile 0).vtrap = none ∧
    ((kernelState { wait := some (.event 5 4 9) }).tile 0).wait = some (.event 5 4 9) ∧
    leNat (([1, 0] : List Byte).take 1) = 1 ∧ leNat (([0, 1] : List Byte).take 1) ≠ 1 := by decide

theorem wit_TileInstructionsComplete_ends : ((kernelState {}).tile 0).run = some {} ∧ ((kernelState {}).tile 0).poisonSeen = false ∧
    ((kernelState {}).tile 0).errValid = false ∧ ((kernelState {}).iface (tileAgent 0)) = {} := by decide

theorem wit_EmptyQueueIdles_frame : (∀ e ∈ (kernelState {}).tiles, e.2.vq = []) ∧ (∀ e ∈ (kernelState {}).fab.links, e.2.txq = []) ∧
    (kernelState {}).fab.recv = [] := by decide

/-- A response from tile 0 to the host endpoint, on its way. -/
def onItsWay : Pkt := { opc := 0x28, src := 0x200, dst := 0x180 }

theorem wit_FlitChecksAct : onItsWay ∈ ({ State.reset with com := { State.reset.com with out := [onItsWay] } } : State).com.out ∧
    (∃ r, r ∈ pathOf onItsWay.src (goalOf onItsWay)) ∧
    State.reset.com.out = [] ∧ State.reset.com.casts = [] ∧ 0x16 ≤ onItsWay.opc := by
  exact ⟨by decide, ⟨_, List.mem_cons_self⟩, by decide, by decide, by decide⟩

theorem wit_FieldsReadBack : COM_ERR_CORR.lo ≤ COM_ERR_CORR.hi ∧ COM_ERR_CORR.hi ≤ 63 ∧ COM_ERR_HDR_UE.lo ≤ COM_ERR_HDR_UE.hi ∧
    COM_ERR_HDR_UE.reg = COM_ERR_CORR.reg ∧ COM_ERR_HDR_UE.hi < COM_ERR_CORR.lo ∧ COM_TMO.off 0 ≠ COM_ERR.off 0 := by decide

theorem wit_NumbersAreLittleEndian : 7 < 8 ∧ 0 < 1 := by decide

theorem wit_StoresReachOnlyWritableFields : (COM_TMO.bitsWith .rw).getLsbD 0 = true ∧ (COM_TMO.bitsWith .w1c).getLsbD 0 = false ∧
    (COM_DOMAIN.bitsWith .w1c).getLsbD 3 = true ∧ (COM_DOMAIN.bitsWith .rw).getLsbD 3 = false ∧
    (COM_DOMAIN.bitsWith .rw).getLsbD 63 = false ∧ (COM_DOMAIN.bitsWith .w1c).getLsbD 63 = false := by decide

theorem wit_HbmMapIsOneToOne : 3 ≤ 3 ∧ 0 < 2 ^ (36 + 3) ∧ 127 < 2 ^ (36 + 3) ∧ hbmLoc 3 0 = hbmLoc 3 127 ∧ 511 < 2 ^ (6 + 3) := by decide

theorem wit_AtomicsActOnTheirBytes : atomOk { opc := 0x08, mask := 0x801 } = true ∧
    State.reset.poisoned 0 (atomSize { opc := 0x08, mask := 0x801 }) = false ∧
    busyState.poisoned 0 (atomSize { opc := 0x08, mask := 0x801 }) = true ∧
    kindOf 0x2A0 = .bank ∧ atomOk { opc := 0x08 } = false := by decide

theorem wit_AtomicOperations : 0 < 32 := by decide

theorem wit_IsolationAnswersEverything : ∃ s : State, (s.iface 0x200).isolated = false ∧ (s.iface 0x200).inbound ≠ [] :=
  ⟨{ State.reset with com := { State.reset.com with ifaces := [(0x200, { inbound := [{ opc := 0x03 }, { opc := 0x06, txn := 1 }] })] } },
    by decide, by decide⟩

theorem wit_ClosedInterfaceAnswers : ({ opc := 0x00 } : Pkt).opc ≠ 0x14 ∧ State.reset.agentState 0x200 ≠ domOpen := by decide

theorem wit_ReleaseNeedsPowerOff : State.reset.physOf 0x140 = some 0x140 ∧ agentDom 0x140 = some 0xBB ∧ State.reset.domSt 0xBB = domOff ∧
    busyState.physOf 0x140 = some 0x140 ∧ busyState.domSt 0xBB ≠ domOff ∧ State.reset.physOf 0x190 = some 0x190 ∧ agentDom 0x190 = none := by
  decide

theorem wit_StileRejectsWhileBusy : (State.reset.wr COM_STILE_CMD_GO 0 1).flag COM_STILE_CMD_GO = true := by decide

theorem wit_PoppedRecordLeaves : ∃ (s : State) (r : FateRec), s.hep.log = r :: [] ∧ r.q < 1024 ∧ stwWriter .driver = true :=
  ⟨{ State.reset with hep := { State.reset.hep with log := [{ reply := [1], q := 1023, cq := 0, fseq := 0, cause := 0, held := true }] } },
    _, rfl, by decide, by decide⟩

theorem wit_WindowCommitSwitches : (State.reset.wr LNK_WIN_CTL_OLD_BUSY 0 1).flag LNK_WIN_CTL_OLD_BUSY 0 = true ∧
    State.reset.flag LNK_WIN_CTL_OLD_BUSY 0 = false ∧ State.reset.flag LNK_WIN_IN_VALID 0 = false ∧
    (State.reset.wr LNK_WIN_IN_VALID 0 1).flag LNK_WIN_IN_VALID 0 = true ∧ (State.reset.wr LNK_WIN_IN_VALID 0 1).winLawful 0 = false := by
  decide

theorem wit_ForeignAgentsWriteNothing : State.reset.rve.dozeStep ≠ 2 ∧ 0x200 ≠ 0x1C1 ∧ ¬(0x191 ≤ 0x1C1 ∧ 0x1C1 ≤ 0x194) ∧
    (findReg 0x10000).isSome ∧ (findReg 0x100000).isSome ∧ (findReg 0x380000).isSome ∧ (findReg 0x1000000).isSome ∧
    (findReg 0x1808030).isSome ∧ (findReg 0x1D00000).isSome ∧ (findReg 0x1D80000).isSome ∧ (findReg 0x1E00000).isSome := by decide

theorem wit_ZeroRegisterStaysZero : 0 % 32 = 0 ∧ 31 % 32 ≠ 0 ∧ 1 % 32 ≠ 31 % 32 := by decide

theorem wit_RoundingModes : 0 < 1 := by decide

theorem wit_GridWordsCombine : 2 ^ 40 - 1 < 2 ^ 40 ∧ gridSpecial 0 = false ∧ gridSpecial (2 ^ 40 - 1) = false ∧
    gridSpecial 0x800000FFFF = true ∧ 0x800000FFFF ≠ gridPinf ∧ 0x800000FFFF ≠ gridNinf ∧ ([1, -1] : List Int).length ≤ 65536 ∧
    (∀ v ∈ ([2 ^ 23 - 1, -(2 ^ 23 - 1)] : List Int), -(2 ^ 23 - 1) ≤ v ∧ v ≤ 2 ^ 23 - 1) := by decide

/-- A Granary of one block that model 0 holds, mapped into tenant 1. -/
def granaryState (st : Nat) : State :=
  { (((((State.reset.wr HBM_GRAN_CFG_COUNT 0 1).wr VST_MODEL_STATE 0 1).wr VST_MODEL_COUNT 0 1).wr VST_TENANT_MODELS 1 1)) with
    hbm := { State.reset.hbm with gran := [(0, { st := st })] } }

theorem wit_GranaryGuardsItsData : (granaryState 3).inGranary (blockOf 0) = true ∧ (granaryState 3).readVerdict 0 1 true = .data ∧
    (granaryState 1).inGranary (blockOf 0) = true ∧ (granaryState 1).writeRefused 0 1 true true true = false := by decide

end Sys2Proof.Tests
end

section
/-!
PROOFS. Commons: a field that was written reads back, a write that reaches a register takes that register's effect, and COM_STILE_CMD rejects every
write while GO is 1 (02_commons.md R68).
-/

namespace Sys2Proof.Machine

/-! ### Fields of a register after a write -/

/-- Bits outside the replaced ones read as before. -/
theorem bitsOf_setBits_disjoint (v : Word) (x : Nat) {hi lo hi' lo' : Nat} (h : lo ≤ hi) (h' : lo' ≤ hi') (hd : hi' < lo ∨ hi < lo') :
    bitsOf (setBits v hi lo x) hi' lo' = bitsOf v hi' lo' := by
  apply Nat.eq_of_testBit_eq
  intro j
  rw [testBit_bitsOf, testBit_bitsOf]
  by_cases hj : j < hi' - lo' + 1
  · by_cases h64 : lo' + j < 64
    · have hout : ¬(lo ≤ lo' + j ∧ lo' + j ≤ hi) := by omega
      rw [getLsbD_setBits v hi lo x (lo' + j) h h64, if_neg hout]
    · rw [BitVec.getLsbD_of_ge _ _ (Nat.le_of_not_lt h64), BitVec.getLsbD_of_ge _ _ (Nat.le_of_not_lt h64)]
  · simp [hj]

/-- Replaced bits read as the new value, cut to their width. -/
theorem bitsOf_setBits_same (v : Word) (x : Nat) {hi lo : Nat} (h : lo ≤ hi) (h64 : hi < 64) :
    bitsOf (setBits v hi lo x) hi lo = x % 2 ^ (hi - lo + 1) := by
  apply Nat.eq_of_testBit_eq
  intro j
  rw [testBit_bitsOf, Nat.testBit_mod_two_pow]
  by_cases hj : j < hi - lo + 1
  · have hin : lo ≤ lo + j ∧ lo + j ≤ hi := by omega
    rw [getLsbD_setBits v hi lo x (lo + j) h (by omega), if_pos hin, Nat.add_sub_cancel_left]
  · simp [hj]

theorem State.rd_wr_same (s : State) (f : RF) (i x : Nat) (h : f.lo ≤ f.hi) (h64 : f.hi < 64) :
    (s.wr f i x).rd f i = x % 2 ^ (f.hi - f.lo + 1) := by
  rw [State.rd, State.wr, State.reg_setReg, bitsOf_setBits_same _ _ h h64]

theorem State.rd_wr_disjoint (s : State) (f g : RF) (i x : Nat) (hr : g.reg = f.reg) (h : f.lo ≤ f.hi) (h' : g.lo ≤ g.hi)
    (hd : g.hi < f.lo ∨ f.hi < g.lo) : (s.wr f i x).rd g i = s.rd g i := by
  rw [State.rd, State.rd, State.wr, hr, State.reg_setReg, bitsOf_setBits_disjoint _ _ h h' hd]

/-! ### Writes that reach a register -/

/-- The bits and values that a write of `size` bytes at `off` puts to the register at index `i` (00_scope.md R9). -/
def regWrAt (w : Writer) (i off size value : Nat) : RegWr :=
  { w := w, i := i, m := BitVec.ofNat 64 ((256 ^ size - 1) <<< (8 * (off % 8))), v := BitVec.ofNat 64 (value <<< (8 * (off % 8))) }

/-- An aligned write of a register that doze leaves open takes the register's effect. -/
theorem State.regWrite_eq_effect (s : State) (w : Writer) (off size value : Nat) {r q : RegDef} {i : Nat} {f : RegEffect}
    (hs : size = 4 ∨ size = 8) (ha : off % size = 0) (he : epWindow off = false) (hc : s.csrAt off = some (r, i, true))
    (hd : dozeOpen off = true) (hf : regEffects.find? (fun e => e.1.base = r.base) = some (q, f)) :
    s.regWrite w off size value = (true, f (regWrAt w i off size value) s) := by
  have hsize : ¬((size ≠ 4 && size ≠ 8) || off % size ≠ 0) = true := by
    rcases hs with rfl | rfl <;> simp [ha]
  rw [State.regWrite, if_neg hsize]
  simp [he, hc, hd, hf, regWrAt]

/-! ### COM_STILE_CMD while GO is 1 -/

/-- Both words of COM_STILE_CMD lie at the register, in every state. -/
theorem State.csrAt_stileCmd (s : State) (off : Nat) (h : off = 0x1C00100 ∨ off = 0x1C00104) :
    s.csrAt off = some (COM_STILE_CMD, 0, true) := by
  have hfind : findReg (off / 8 * 8) = some (COM_STILE_CMD, 0) := by rcases h with rfl | rfl <;> decide
  have hserver : (s.csrServer off).isNone = false := by rcases h with rfl | rfl <;> rfl
  rw [State.csrAt, hfind]
  simp [hserver, COM_STILE_CMD, MOV_STAT, MOV_BYTES, MILL_SLICE]

theorem find?_regEffects_stileCmd :
    regEffects.find? (fun e => e.1.base = COM_STILE_CMD.base) = some (COM_STILE_CMD, wrStileCmd) := rfl

theorem wrStileCmd_of_go (c : RegWr) (s : State) (h : s.flag COM_STILE_CMD_GO = true) :
    wrStileCmd c s = s.wr COM_STILE_CMD_REJECTED 0 1 := if_pos h

theorem State.stileCmd_of_go (s : State) (d op : Nat) (f : State → State) (h : s.flag COM_STILE_CMD_GO = true) :
    s.stileCmd d op f = s.wr COM_STILE_CMD_REJECTED 0 1 := if_pos h

/-- A write of COM_STILE_CMD, whole or half, has the effect of `wrStileCmd`. -/
theorem State.regWrite_stileCmd (s : State) (w : Writer) (off size value : Nat) (ho : off = 0x1C00100 ∨ off = 0x1C00104)
    (hs : size = 4 ∨ size = 8) (ha : off % size = 0) :
    (s.regWrite w off size value).2 = wrStileCmd (regWrAt w 0 off size value) s := by
  have hwindow : epWindow off = false := by rcases ho with rfl | rfl <;> decide
  have hdoze : dozeOpen off = true := by rcases ho with rfl | rfl <;> decide
  rw [s.regWrite_eq_effect w off size value hs ha hwindow (s.csrAt_stileCmd off ho) hdoze find?_regEffects_stileCmd]

theorem State.regWrite_stileCmd_of_go (s : State) (w : Writer) (off size value : Nat) (h : s.flag COM_STILE_CMD_GO = true)
    (ho : off = 0x1C00100 ∨ off = 0x1C00104) (hs : size = 4 ∨ size = 8) (ha : off % size = 0) :
    (s.regWrite w off size value).2 = s.wr COM_STILE_CMD_REJECTED 0 1 := by
  rw [s.regWrite_stileCmd w off size value ho hs ha, wrStileCmd_of_go _ s h]

/-- Setting REJECTED leaves DOMAIN, OP and GO. -/
theorem State.rd_stileCmd_wr_rejected (s : State) (f : RF) (x : Nat) (h : f ∈ [COM_STILE_CMD_DOMAIN, COM_STILE_CMD_OP, COM_STILE_CMD_GO]) :
    (s.wr COM_STILE_CMD_REJECTED 0 x).rd f 0 = s.rd f 0 := by
  have hbelow : ∀ g ∈ [COM_STILE_CMD_DOMAIN, COM_STILE_CMD_OP, COM_STILE_CMD_GO],
      g.reg = COM_STILE_CMD ∧ g.lo ≤ g.hi ∧ g.hi < COM_STILE_CMD_REJECTED.lo := by decide
  obtain ⟨hreg, hlo, hhi⟩ := hbelow f h
  exact s.rd_wr_disjoint COM_STILE_CMD_REJECTED f 0 x hreg (by decide) hlo (.inl hhi)

/-- Settles O49: the commands and the register's write effect test GO before anything else, every whole and half-word write of the register reaches that
effect in every state, and REJECTED lies above the other three fields. -/
theorem stileRejectsWhileBusy : Obligations.StileRejectsWhileBusy := by
  unfold Obligations.StileRejectsWhileBusy
  intro s hgo
  refine ⟨fun d => ?commands, fun w v => ?writes, ?rejected, fun f hf => ?fields⟩
  case commands =>
    have hcmd (op : Nat) (f : State → State) : (.next (s.stileCmd d op f) : Res) = .next (s.wr COM_STILE_CMD_REJECTED 0 1) := by
      rw [s.stileCmd_of_go d op f hgo]
    exact ⟨hcmd 0 _, hcmd 1 _, hcmd 2 _⟩
  case writes =>
    exact ⟨s.regWrite_stileCmd_of_go w 0x1C00100 8 v hgo (.inl rfl) (.inr rfl) rfl,
      s.regWrite_stileCmd_of_go w 0x1C00100 4 v hgo (.inl rfl) (.inl rfl) rfl,
      s.regWrite_stileCmd_of_go w 0x1C00104 4 v hgo (.inr rfl) (.inl rfl) rfl⟩
  case rejected => exact s.rd_wr_same COM_STILE_CMD_REJECTED 0 1 (by decide) (by decide)
  case fields => exact s.rd_stileCmd_wr_rejected f 1 hf

end Sys2Proof.Machine
end

section
/-!
PROOFS. The fixed grid (06_number_formats.md R191, R192): how two words combine in each case of R192, and that the two's complement words of at most
65,536 contributions add up to the word of their sum, which the contribution bound of R191 keeps away from the special patterns.
-/

namespace Sys2Proof.Machine

/-! ### Combining two words, case by case (R192) -/

@[simp] theorem gridSpecial_pinf : gridSpecial gridPinf = true := by decide
@[simp] theorem gridSpecial_ninf : gridSpecial gridNinf = true := by decide

theorem gridAdd_of_finite {a b : Nat} (ha : gridSpecial a = false) (hb : gridSpecial b = false) : gridAdd a b = (a + b) % 2 ^ 40 := by
  simp [gridAdd, ha, hb]

theorem gridAdd_comm (a b : Nat) : gridAdd a b = gridAdd b a := by
  cases ha : gridSpecial a <;> cases hb : gridSpecial b
  case false.false => rw [gridAdd_of_finite ha hb, gridAdd_of_finite hb ha, Nat.add_comm]
  case false.true | true.false => simp [gridAdd, ha, hb]
  case true.true =>
    by_cases hab : a = b
    · rw [hab]
    · simp [gridAdd, ha, hb, hab, Ne.symm hab]

theorem gridAdd_of_nan {a : Nat} (ha : gridSpecial a = true) (hp : a ≠ gridPinf) (hn : a ≠ gridNinf) (b : Nat) :
    gridAdd a b = gridNan := by
  simp [gridAdd, ha, hp, hn]

/-- An infinity absorbs a finite word. -/
theorem gridAdd_inf_finite {a b : Nat} (ha : a = gridPinf ∨ a = gridNinf) (hb : gridSpecial b = false) : gridAdd a b = a := by
  rcases ha with rfl | rfl <;> simp [gridAdd, hb]

/-! ### Two's complement words of integers -/

/-- An integer within the bound that R192 gives for partial sums is not encoded as a special pattern. -/
theorem gridSpecial_word {x : Int} (hlo : -(2 ^ 39 - 65536) ≤ x) (hhi : x ≤ 2 ^ 39 - 65536) :
    gridSpecial (x % 2 ^ 40).toNat = false :=
  decide_eq_false (by rw [gridNan]; omega)

/-- Words of finite integers combine to the word of their sum. -/
theorem gridAdd_word {x y : Int} (hx : gridSpecial (x % 2 ^ 40).toNat = false) (hy : gridSpecial (y % 2 ^ 40).toNat = false) :
    gridAdd (x % 2 ^ 40).toNat (y % 2 ^ 40).toNat = ((x + y) % 2 ^ 40).toNat := by
  rw [gridAdd_of_finite hx hy]
  omega

/-! ### Sums of contributions -/

/-- The bound of a sum of `n` contributions, each within the clamp of R191. -/
def GridPartial (n : Nat) (x : Int) : Prop := -(n * (2 ^ 23 - 1)) ≤ x ∧ x ≤ n * (2 ^ 23 - 1)

theorem GridPartial.add {m n : Nat} {x y : Int} (hx : GridPartial m x) (hy : GridPartial n y) : GridPartial (m + n) (x + y) := by
  obtain ⟨hxlo, hxhi⟩ := hx
  obtain ⟨hylo, hyhi⟩ := hy
  constructor <;> omega

theorem gridPartial_contribution {v : Int} (hv : -(2 ^ 23 - 1) ≤ v ∧ v ≤ 2 ^ 23 - 1) : GridPartial 1 v := by
  obtain ⟨hlo, hhi⟩ := hv
  constructor <;> omega

/-- Sums of at most 65,536 contributions keep the bound of R192, so their words are finite. -/
theorem GridPartial.finite {n : Nat} {x : Int} (hx : GridPartial n x) (hn : n ≤ 65536) : gridSpecial (x % 2 ^ 40).toNat = false := by
  obtain ⟨hlo, hhi⟩ := hx
  exact gridSpecial_word (by omega) (by omega)

theorem gridPartial_sum (l : List Int) (hl : ∀ v ∈ l, -(2 ^ 23 - 1) ≤ v ∧ v ≤ 2 ^ 23 - 1) : GridPartial l.length l.sum := by
  induction l with
  | nil => exact ⟨by decide, by decide⟩
  | cons v l ih =>
    have hv := gridPartial_contribution (hl v List.mem_cons_self)
    have hsum := ih fun u hu => hl u (List.mem_cons_of_mem v hu)
    rw [List.length_cons, List.sum_cons, Nat.add_comm]
    exact hv.add hsum

/-- From the word of a partial sum `x` of `n` contributions, the contributions of `l` lead to the word of `x + l.sum`: every partial sum on the way is
finite, so each step adds exactly. -/
theorem foldl_gridAdd_word (l : List Int) (hl : ∀ v ∈ l, -(2 ^ 23 - 1) ≤ v ∧ v ≤ 2 ^ 23 - 1) {n : Nat} {x : Int} (hx : GridPartial n x)
    (hlen : n + l.length ≤ 65536) :
    l.foldl (fun w v => gridAdd w (v % 2 ^ 40).toNat) (x % 2 ^ 40).toNat = ((x + l.sum) % 2 ^ 40).toNat := by
  induction l generalizing n x with
  | nil => rw [List.foldl_nil, List.sum_nil, Int.add_zero]
  | cons v l ih =>
    rw [List.length_cons] at hlen
    have hv := gridPartial_contribution (hl v List.mem_cons_self)
    have hstep := gridAdd_word (hx.finite (by omega)) (hv.finite (by omega))
    rw [List.foldl_cons, hstep, ih (fun u hu => hl u (List.mem_cons_of_mem v hu)) (hx.add hv) (by omega), List.sum_cons, Int.add_assoc]

/-- Zero is the sum of no contributions. -/
theorem foldl_gridAdd_zero (l : List Int) (hlen : l.length ≤ 65536) (hl : ∀ v ∈ l, -(2 ^ 23 - 1) ≤ v ∧ v ≤ 2 ^ 23 - 1) :
    l.foldl (fun w v => gridAdd w (v % 2 ^ 40).toNat) 0 = (l.sum % 2 ^ 40).toNat := by
  have hzero : GridPartial 0 0 := ⟨by decide, by decide⟩
  have hfold := foldl_gridAdd_word l hl hzero (by omega)
  rwa [Int.zero_add] at hfold

/-- Settles O57: the cases of R192 on two words, and induction over the contributions for the exact sum. -/
theorem gridWordsCombine : Obligations.GridWordsCombine := by
  unfold Obligations.GridWordsCombine
  intro a b _ _
  refine ⟨gridAdd_comm a b, fun ha hb => ?finite, gridAdd_of_nan (by decide) (by decide) (by decide) b, by decide,
    fun hb => ⟨gridAdd_inf_finite (.inl rfl) hb, gridAdd_inf_finite (.inr rfl) hb⟩, by decide, by decide,
    fun ha hp hn => gridAdd_of_nan ha hp hn b, fun l hlen hl => ⟨foldl_gridAdd_zero l hlen hl, (gridPartial_sum l hl).finite hlen⟩⟩
  case finite => rw [gridAdd_of_finite ha hb, ← BitVec.ofNat_add, BitVec.toNat_ofNat]

end Sys2Proof.Machine
end

section
/-!
PROOFS. Who may write which registers (11_steward_commands.md R387, 18_bringup.md R610 and the rules like them of the other blocks): a write that
reaches a register lies in the span of addresses of that register, the registers of a guarded block take writes only through `onlyBy`, and so a writer
without the right changes nothing.
-/

namespace Sys2Proof.Machine

/-! ### Where the registers of the table lie -/

/-- An address in one of the half-open intervals. -/
abbrev Within (block : List (Nat × Nat)) (x : Nat) : Prop := ∃ q ∈ block, q.1 ≤ x ∧ x < q.2

/-- A bound of the displacements of a repetition: the outermost stride times its count. -/
def dimSpan : List (Nat × Nat) → Nat
  | [] => 1
  | (s, c) :: _ => s * c

/-- The intervals in which `RegDef.find` may find a register, those of the LOOM_ registers in both of their places. -/
def RegDef.spans (r : RegDef) : List (Nat × Nat) :=
  if r.far then [(r.base, 0xC00000), (0x1B00000, 0x1B40000)] else [(r.base, r.base + dimSpan r.dims)]

theorem lt_dimSpan_of_dimFind {dims : List (Nat × Nat)} {x j : Nat} (hpos : ∀ d ∈ dims, 0 < d.1) (h : dimFind dims x = some j) :
    x < dimSpan dims := by
  cases dims with
  | nil =>
    have hx : x = 0 := by simpa using (Option.ite_none_right_eq_some.mp h).1
    exact hx ▸ Nat.one_pos
  | cons d dims =>
    obtain ⟨hlt, -⟩ := Option.ite_none_right_eq_some.mp h
    rw [dimSpan, Nat.mul_comm]
    exact (Nat.div_lt_iff_lt_mul (hpos d List.mem_cons_self)).mp hlt

theorem RegDef.within_spans_of_find {r : RegDef} {x j : Nat} (hpos : ∀ d ∈ r.dims, 0 < d.1) (h : r.find x = some j) : Within r.spans x := by
  cases hfar : r.far with
  | true =>
    have hplace : 0x1B00000 ≤ x ∧ x < 0x1B40000 ∨ r.base ≤ x ∧ x < 0xC00000 := by
      simp only [RegDef.find, hfar, if_true, Bool.and_eq_true, decide_eq_true_eq] at h
      split at h
      next hupper => exact .inl hupper
      next => exact .inr (Option.ite_none_right_eq_some.mp h).1
    simpa [Within, RegDef.spans, hfar] using hplace.symm
  | false =>
    simp only [RegDef.find, hfar, Bool.false_eq_true, if_false] at h
    obtain ⟨hbase, hfound⟩ := Option.ite_none_left_eq_some.mp h
    obtain ⟨i, hdim, -⟩ := Option.bind_eq_some_iff.mp hfound
    have hlt := lt_dimSpan_of_dimFind hpos hdim
    have hplace : r.base ≤ x ∧ x < r.base + dimSpan r.dims := by omega
    simpa [Within, RegDef.spans, hfar] using hplace

theorem strides_pos_of_mem_regTable : ∀ r ∈ regTable, ∀ d ∈ r.dims, 0 < d.1 := by decide +kernel

theorem mem_and_find_of_findIn {l : List RegDef} {x i : Nat} {r : RegDef} (h : findIn l x = some (r, i)) : r ∈ l ∧ r.find x = some i := by
  induction l with
  | nil => cases h
  | cons q l ih =>
    rw [findIn] at h
    split at h
    next j hj =>
      cases h
      exact ⟨List.mem_cons_self, hj⟩
    next =>
      obtain ⟨hmem, hfind⟩ := ih h
      exact ⟨List.mem_cons_of_mem q hmem, hfind⟩

/-- The register of an access is that of the table, at an index that may be another unit's. -/
theorem State.findReg_of_csrAt {s : State} {off i : Nat} {r : RegDef} {b : Bool} (h : s.csrAt off = some (r, i, b)) :
    ∃ j, findReg (off / 8 * 8) = some (r, j) := by
  rw [State.csrAt] at h
  cases hreg : findReg (off / 8 * 8) with
  | none => simp [hreg] at h
  | some found =>
    obtain ⟨q, j⟩ := found
    simp only [hreg] at h
    -- Every branch that answers names the register found; a unit's place changes the index alone.
    have hq : q = r := by grind
    exact ⟨j, hq ▸ rfl⟩

/-! ### What a write can do outside doze -/

/-- Outside doze and the endpoint's windows, a write changes nothing or has the effect of the register in whose span it lies. -/
theorem State.regWrite_cases (s : State) (w : Writer) (off size value : Nat) (hdoze : s.rve.dozeStep ≠ 2) (hwin : epWindow off = false) :
    (s.regWrite w off size value).2 = s ∨ ∃ r ∈ regTable, Within r.spans (off / 8 * 8) ∧ ∃ e ∈ regEffects, e.1.base = r.base ∧
      ∃ c : RegWr, c.w = w ∧ (s.regWrite w off size value).2 = e.2 c s := by
  rw [State.regWrite]
  split
  next misaligned => exact .inl rfl
  next =>
    rw [hwin, if_neg Bool.false_ne_true]
    split
    next noRegister => exact .inl rfl
    next noUnit => exact .inl rfl
    next r i hat =>
      obtain ⟨j, hreg⟩ := State.findReg_of_csrAt hat
      obtain ⟨hr, hfind⟩ := mem_and_find_of_findIn hreg
      have hspan := RegDef.within_spans_of_find (strides_pos_of_mem_regTable r hr) hfind
      rw [if_neg (by simp [hdoze])]
      split
      next readOnly => exact .inl rfl
      next q f heff =>
        have hbase : q.base = r.base := by simpa using List.find?_some heff
        exact .inr ⟨r, hr, hspan, (q, f), List.mem_of_find?_eq_some heff, hbase, _, rfl, rfl⟩

/-! ### Guarded blocks -/

/-- A block of whole words, clear of the endpoint's windows, that holds the base of every register that can lie in it. -/
structure ClosedBlock (block : List (Nat × Nat)) : Prop where
  aligned : ∀ q ∈ block, q.1 % 8 = 0
  clear : ∀ q ∈ block, q.2 ≤ 0x1D10000 ∨ 0x1D48100 ≤ q.1
  closed : ∀ r ∈ regTable, Within block r.base ∨ ∀ p ∈ r.spans, ∀ q ∈ block, p.2 ≤ q.1 ∨ q.2 ≤ p.1

/-- If its register is in the block, the effect leaves the state as it is for every writer that is not `ok`. -/
def Guarded (ok : Writer → Bool) (block : List (Nat × Nat)) (e : RegDef × RegEffect) : Prop :=
  Within block e.1.base → ∀ (c : RegWr) (s : State), ok c.w = false → e.2 c s = s

theorem guarded_of_outside {block : List (Nat × Nat)} {l : List (RegDef × RegEffect)} (ok : Writer → Bool)
    (h : ∀ e ∈ l, ¬Within block e.1.base) : ∀ e ∈ l, Guarded ok block e := fun e he hin => absurd hin (h e he)

theorem guarded_onlyBy {ok narrower : Writer → Bool} (block : List (Nat × Nat)) (h : ∀ w, ok w = false → narrower w = false) (r : RegDef)
    (f : RegEffect) : Guarded ok block (r, onlyBy narrower f) := by
  intro _ c s hw
  simp [onlyBy, h c.w hw]

theorem guarded_map_onlyBy {ok narrower : Writer → Bool} (block : List (Nat × Nat)) (h : ∀ w, ok w = false → narrower w = false)
    (l : List (RegDef × RegEffect)) : ∀ e ∈ l.map (fun e => (e.1, onlyBy narrower e.2)), Guarded ok block e :=
  List.forall_mem_map.mpr fun e _ => guarded_onlyBy block h e.1 e.2

/-- A write in a closed block whose registers are all guarded, by a writer without the right. -/
theorem State.regWrite_of_guarded (s : State) (w : Writer) (off size value : Nat) {ok : Writer → Bool} {block : List (Nat × Nat)}
    (hblock : ClosedBlock block) (hguard : ∀ e ∈ regEffects, Guarded ok block e) (hdoze : s.rve.dozeStep ≠ 2) (hoff : Within block off)
    (hw : ok w = false) : (s.regWrite w off size value).2 = s := by
  obtain ⟨q, hq, hlo, hhi⟩ := hoff
  have haligned := hblock.aligned q hq
  have hwin : epWindow off = false := by
    have hclear := hblock.clear q hq
    simp only [epWindow, Bool.or_eq_false_iff, Bool.and_eq_false_iff, decide_eq_false_iff_not]
    omega
  obtain hsame | ⟨r, hr, ⟨p, hp, hplo, hphi⟩, e, he, hbase, c, rfl, heff⟩ := s.regWrite_cases w off size value hdoze hwin
  · exact hsame
  · have hin : Within block r.base := (hblock.closed r hr).resolve_right fun hapart => by
      have hdisjoint := hapart p hp q hq
      omega
    exact heff.trans (hguard e he (hbase ▸ hin) c s hw)

/-! ### The blocks and their writers -/

/-- The boot sequencer and the Roll. -/
def bootBlock : List (Nat × Nat) := [(0x10000, 0x20000)]

/-- The Steward and the Sluice, the translation unit, the sites and links but for LNK_TIME_CFG, the host endpoint, and the fate log. -/
def stwBlock : List (Nat × Nat) :=
  [(0x100000, 0x300000), (0x380000, 0x3F0000), (0x1000000, 0x1808028), (0x1808030, 0x1B00000), (0x1D00000, 0x1D10000), (0x1D80000, 0x1E00000)]

/-- The Vestry and the Ledger, power, and the Reeve. -/
def rveBlock : List (Nat × Nat) := [(0x1E00000, 0x2000000)]

theorem closedBlock_bootBlock : ClosedBlock bootBlock := ⟨by decide, by decide, by decide +kernel⟩
theorem closedBlock_stwBlock : ClosedBlock stwBlock := ⟨by decide, by decide, by decide +kernel⟩
theorem closedBlock_rveBlock : ClosedBlock rveBlock := ⟨by decide, by decide, by decide +kernel⟩

/-- The translation unit names the Steward's writers for itself (10_data_movers.md R352). -/
theorem xltWriter_eq_stwWriter (w : Writer) : xltWriter w = stwWriter w := rfl

theorem bootWriter_agent_eq_false {a : Nat} (h : a ≠ 0x1C1) : bootWriter (.agent a) = false := decide_eq_false h

theorem stwWriter_agent_eq_false {a : Nat} (h : ¬(0x191 ≤ a ∧ a ≤ 0x194)) : stwWriter (.agent a) = false := by
  simpa [stwWriter] using h

theorem rveWriter_agent_eq_false {a : Nat} (h : ¬(0x191 ≤ a ∧ a ≤ 0x194)) (hreeve : a ≠ 0x1C1) : rveWriter (.agent a) = false := by
  simpa [rveWriter, hreeve] using h

theorem guarded_bootBlock : ∀ e ∈ regEffects, Guarded bootWriter bootBlock e := by
  rw [regEffects, List.forall_mem_append]
  refine ⟨?others, ?boot⟩
  case others => exact guarded_of_outside _ (by decide +kernel)
  case boot => exact guarded_map_onlyBy _ (fun _ hw => hw) _

theorem guarded_stwBlock : ∀ e ∈ regEffects, Guarded stwWriter stwBlock e := by
  have guard (r : RegDef) (f : RegEffect) : Guarded stwWriter stwBlock (r, onlyBy stwWriter f) := guarded_onlyBy _ (fun _ hw => hw) r f
  simp only [regEffects, List.forall_mem_append]
  refine ⟨⟨⟨⟨⟨⟨⟨?commonsHomesMill, ?translation⟩, ?steward⟩, ?doorbellsSluice⟩, ?linksHost⟩, ?timeCfg⟩, ?vestryReeve⟩, ?boot⟩
  case translation => exact guarded_map_onlyBy _ (fun w hw => (xltWriter_eq_stwWriter w).trans hw) _
  case steward | linksHost => exact guarded_map_onlyBy _ (fun _ hw => hw) _
  case doorbellsSluice =>
    rw [List.forall_mem_cons, List.forall_mem_cons]
    refine ⟨fun hin => absurd hin (by decide), fun hin => absurd hin (by decide), ?_⟩
    simp only [List.forall_mem_cons, slu, guard, List.not_mem_nil, false_imp_iff, implies_true, and_self]
  case commonsHomesMill | timeCfg | vestryReeve | boot => exact guarded_of_outside _ (by decide +kernel)

theorem guarded_rveBlock : ∀ e ∈ regEffects, Guarded rveWriter rveBlock e := by
  rw [regEffects, List.forall_mem_append, List.forall_mem_append]
  refine ⟨⟨?others, ?vestryReeve⟩, ?boot⟩
  case vestryReeve => exact guarded_map_onlyBy _ (fun _ hw => hw) _
  case others | boot => exact guarded_of_outside _ (by decide +kernel)

/-- Settles O53: each of the three blocks is guarded by its writers, and the agent is none of them. -/
theorem foreignAgentsWriteNothing : Obligations.ForeignAgentsWriteNothing := by
  unfold Obligations.ForeignAgentsWriteNothing
  intro s a off size v hdoze
  refine ⟨fun ha hlo hhi => ?boot, fun ha hoff => ?steward, fun ha hreeve hlo hhi => ?reeve⟩
  case boot =>
    exact s.regWrite_of_guarded _ off size v closedBlock_bootBlock guarded_bootBlock hdoze (by simp [Within, bootBlock, hlo, hhi])
      (bootWriter_agent_eq_false ha)
  case steward =>
    exact s.regWrite_of_guarded _ off size v closedBlock_stwBlock guarded_stwBlock hdoze (by simpa [Within, stwBlock] using hoff)
      (stwWriter_agent_eq_false ha)
  case reeve =>
    exact s.regWrite_of_guarded _ off size v closedBlock_rveBlock guarded_rveBlock hdoze (by simp [Within, rveBlock, hlo, hhi])
      (rveWriter_agent_eq_false ha hreeve)

end Sys2Proof.Machine
end

section
/-!
PROOFS. Inbound windows (15_fabric_links.md R504): when COMMIT is refused, which state it makes where it is not, and which mapping is then active.
-/

namespace Sys2Proof.Machine

/-- The three cases in which COMMIT of window `w` only sets REJECTED: requests of the previous generation remain, or the shadow would open a mapping that
is unlawful or overlaps another window's. -/
def State.CommitRefused (s : State) (w : Nat) : Prop :=
  s.flag LNK_WIN_CTL_OLD_BUSY w = true ∨ (s.flag LNK_WIN_IN_VALID w = true ∧ (s.winLawful w = false ∨ s.winOverlaps w = true))

/-- The active mappings once the shadow of window `w` has replaced its own. -/
def State.switchedWins (s : State) (w : Nat) : SMap WinMap :=
  if s.flag LNK_WIN_IN_VALID w then SMap.put s.fab.wins w { inw := s.reg LNK_WIN_IN w, tgt := s.reg LNK_WIN_TGT w }
  else SMap.del s.fab.wins w

/-- Whether a request that was mapped under the present generation of window `w` remains (R505). -/
def State.generationPending (s : State) (w : Nat) : Bool :=
  s.fab.recv.any (fun e => e.2.pend.any (fun x => x.win = w && x.gen = s.rd LNK_WIN_CTL_GEN w))

/-- The state after COMMIT of window `w` took effect: the mappings switched, and GEN, OPEN and OLD_BUSY as they follow. -/
def State.switchWindow (s : State) (w : Nat) : State :=
  let switched : State := { s with fab := { s.fab with wins := s.switchedWins w } }
  ((switched.wr LNK_WIN_CTL_GEN w ((s.rd LNK_WIN_CTL_GEN w + 1) % 65536)).wr LNK_WIN_CTL_OPEN w (if s.flag LNK_WIN_IN_VALID w then 1 else 0)).wr
    LNK_WIN_CTL_OLD_BUSY w (if s.generationPending w then 1 else 0)

/-! ### The outcomes of COMMIT -/

theorem State.commitRefused_iff (s : State) (w : Nat) :
    (s.flag LNK_WIN_CTL_OLD_BUSY w || (s.flag LNK_WIN_IN_VALID w && (!s.winLawful w || s.winOverlaps w))) = true ↔ s.CommitRefused w := by
  simp only [CommitRefused, Bool.or_eq_true, Bool.and_eq_true, Bool.not_eq_true']

theorem execWindowCommit_of_refused {w : Nat} {s : State} (h : s.CommitRefused w) :
    execWindowCommit w s = .next (s.wr LNK_WIN_CTL_REJECTED w 1) :=
  congrArg Host.Outcome.next (if_pos ((s.commitRefused_iff w).mpr h))

theorem execWindowCommit_of_not_refused {w : Nat} {s : State} (h : ¬s.CommitRefused w) :
    execWindowCommit w s = .next (s.switchWindow w) := by
  have haccepted := mt (s.commitRefused_iff w).mp h
  rw [execWindowCommit, if_neg haccepted]
  rfl

/-! ### The state after a switch -/

theorem State.get?_switchedWins_same (s : State) (w : Nat) : SMap.get? (s.switchedWins w) w =
    if s.flag LNK_WIN_IN_VALID w then some { inw := s.reg LNK_WIN_IN w, tgt := s.reg LNK_WIN_TGT w } else none := by
  rw [switchedWins]
  split
  next => exact SMap.get?_put_same _ _ _
  next => exact SMap.get?_del_same _ _

theorem State.get?_switchedWins_other (s : State) {w v : Nat} (h : v ≠ w) : SMap.get? (s.switchedWins w) v = SMap.get? s.fab.wins v := by
  rw [switchedWins]
  split
  next => exact SMap.get?_put_other _ _ _ _ h
  next => exact SMap.get?_del_other _ _ _ h

@[simp] theorem State.switchWindow_fab (s : State) (w : Nat) :
    (s.switchWindow w).fab = { s.fab with wins := s.switchedWins w } := rfl
@[simp] theorem State.switchWindow_mem (s : State) (w : Nat) : (s.switchWindow w).mem = s.mem := rfl
@[simp] theorem State.switchWindow_com (s : State) (w : Nat) : (s.switchWindow w).com = s.com := rfl

/-- GEN rises by one, modulo its 16 bits: OPEN and OLD_BUSY, written after it, lie above it. -/
theorem State.rd_gen_switchWindow (s : State) (w : Nat) :
    (s.switchWindow w).rd LNK_WIN_CTL_GEN w = (s.rd LNK_WIN_CTL_GEN w + 1) % 65536 := by
  rw [switchWindow, rd_wr_disjoint _ LNK_WIN_CTL_OLD_BUSY LNK_WIN_CTL_GEN w _ rfl (by decide) (by decide) (by decide),
    rd_wr_disjoint _ LNK_WIN_CTL_OPEN LNK_WIN_CTL_GEN w _ rfl (by decide) (by decide) (by decide),
    rd_wr_same _ LNK_WIN_CTL_GEN w _ (by decide) (by decide)]
  exact Nat.mod_mod _ _

/-- Settles O52: COMMIT is refused in exactly the three cases of R504 and switches the window in every other. -/
theorem windowCommitSwitches : Obligations.WindowCommitSwitches := by
  unfold Obligations.WindowCommitSwitches
  intro w s
  refine ⟨fun hrefused => execWindowCommit_of_refused hrefused, fun haccepted => ⟨s.switchWindow w, ?outcome, ?gen, ?own, ?others, ?frame⟩⟩
  case outcome => exact execWindowCommit_of_not_refused haccepted
  case gen => exact s.rd_gen_switchWindow w
  case own => exact s.get?_switchedWins_same w
  case others => exact fun v hv => s.get?_switchedWins_other hv
  case frame => exact ⟨s.switchWindow_fab w, s.switchWindow_mem w, s.switchWindow_com w⟩

end Sys2Proof.Machine
end

section
/-!
PROOFS. The fate log (16_host_endpoint.md R539). Its oldest record shows in FATE_LOG_HDR and FATE_LOG_ENT, and POP removes it, in every state; a read
of the two registers changes nothing in every life-cycle state but END_OF_LIFE, which hides them (17_security.md R548): there the read answers free
bytes and advances their counter (log entry 143).
-/

namespace Sys2Proof.Machine

/-! ### Registers that lie at one place in every state -/

/-- A register of no spared unit, at an offset that some agent serves. -/
theorem State.csrAt_of_unspared (s : State) {off i : Nat} {r : RegDef} (hreg : findReg (off / 8 * 8) = some (r, i))
    (hserver : (s.csrServer off).isNone = false) (hfar : r.far = false) (hspared : r.base ∉ [MOV_STAT.base, MOV_BYTES.base, MILL_SLICE.base]) :
    s.csrAt off = some (r, i, true) := by
  simp only [List.mem_cons, List.not_mem_nil, or_false, not_or] at hspared
  simp [csrAt, hreg, hserver, hfar, hspared]

/-- A read of the whole register: its value, or free bytes where END_OF_LIFE hides it. -/
theorem State.regRead_whole (s : State) {off i : Nat} {r : RegDef} (halign : off % 8 = 0) (hwin : epWindow off = false)
    (hat : s.csrAt off = some (r, i, true)) (hfar : r.far = false) :
    s.regRead off 8 = if s.eolHidden r then (leNat (s.freeBytes 8), true, s.fresh 8) else ((s.csrValue r i).toNat, true, s) := by
  have hword : (s.csrValue r i).toNat / 256 ^ 0 % 256 ^ 8 = (s.csrValue r i).toNat := by
    rw [Nat.pow_zero, Nat.div_one]
    exact Nat.mod_eq_of_lt (s.csrValue r i).isLt
  simp only [regRead, halign, hwin, hat, hfar, hword]
  simp

/-! ### Reads of the oldest record -/

theorem State.csrAt_fateHdr (s : State) : s.csrAt 0x1D80008 = some (FATE_LOG_HDR, 0, true) :=
  s.csrAt_of_unspared (by decide) rfl rfl (by decide)

theorem State.csrAt_fateEnt (s : State) {k : Nat} (hk : k < 4) : s.csrAt (0x1D80010 + 8 * k) = some (FATE_LOG_ENT, k, true) := by
  refine s.csrAt_of_unspared ?register ?server rfl (by decide)
  case register => exact (by decide : ∀ k < 4, findReg ((0x1D80010 + 8 * k) / 8 * 8) = some (FATE_LOG_ENT, k)) k hk
  case server =>
    obtain rfl | rfl | rfl | rfl : k = 0 ∨ k = 1 ∨ k = 2 ∨ k = 3 := by omega
    all_goals rfl

theorem State.csrValue_fateHdr (s : State) : s.csrValue FATE_LOG_HDR 0 = s.fateHdr (s.reg FATE_LOG_HDR 0) := rfl
theorem State.csrValue_fateEnt (s : State) (k : Nat) : s.csrValue FATE_LOG_ENT k = s.fateEnt k (s.reg FATE_LOG_ENT k) := rfl

/-- The registers of the fate log are hidden in END_OF_LIFE alone (17_security.md R548). -/
theorem State.eolHidden_fateLog (s : State) {r : RegDef} (hr : r ∈ [FATE_LOG_HDR, FATE_LOG_ENT]) : s.eolHidden r = decide (s.lcState = 3) := by
  have hlisted : ∀ q ∈ [FATE_LOG_HDR, FATE_LOG_ENT],
      ([HUB_VERSION, LCS_STAT, VST_MBOX_CTL, VST_MBOX_STAT, VST_MBOX_BUF].map (·.base)).contains q.base = false := by decide
  rw [eolHidden, hlisted r hr, Bool.not_false, Bool.and_true]

theorem State.regRead_fateHdr (s : State) : s.regRead 0x1D80008 8 =
    if s.lcState = 3 then (leNat (s.freeBytes 8), true, s.fresh 8) else ((s.fateHdr (s.reg FATE_LOG_HDR 0)).toNat, true, s) := by
  rw [s.regRead_whole rfl (by decide) s.csrAt_fateHdr rfl, s.eolHidden_fateLog (by decide), csrValue_fateHdr]
  simp only [decide_eq_true_eq]

theorem State.regRead_fateEnt (s : State) {k : Nat} (hk : k < 4) : s.regRead (0x1D80010 + 8 * k) 8 =
    if s.lcState = 3 then (leNat (s.freeBytes 8), true, s.fresh 8) else ((s.fateEnt k (s.reg FATE_LOG_ENT k)).toNat, true, s) := by
  have hwin : epWindow (0x1D80010 + 8 * k) = false := by simp [epWindow]; omega
  rw [s.regRead_whole (by omega) hwin (s.csrAt_fateEnt hk) rfl, s.eolHidden_fateLog (by decide), csrValue_fateEnt]
  simp only [decide_eq_true_eq]

theorem State.fateHdr_eq {s : State} {r : FateRec} {l : List FateRec} (hlog : s.hep.log = r :: l) (v : Word) :
    s.fateHdr v = setBits (setBits (setBits (setBits v 63 32 r.fseq) 31 31 1) 30 30 (if r.held then 1 else 0)) 29 27 r.cause := by
  simp only [fateHdr, hlog]
  rfl

/-- The fields of FATE_LOG_HDR while the log holds a record. -/
theorem State.fateHdr_fields {s : State} {r : FateRec} {l : List FateRec} (hlog : s.hep.log = r :: l) (v : Word) :
    bitsOf (s.fateHdr v) 63 32 = r.fseq % 2 ^ 32 ∧ bitsOf (s.fateHdr v) 31 31 = 1 ∧
    bitsOf (s.fateHdr v) 30 30 = (if r.held then 1 else 0) ∧ bitsOf (s.fateHdr v) 29 27 = r.cause % 8 := by
  have hcause {hi lo : Nat} (u : Word) (h : lo ≤ hi) (habove : 29 < lo) : bitsOf (setBits u 29 27 r.cause) hi lo = bitsOf u hi lo :=
    bitsOf_setBits_disjoint u r.cause (by decide) h (.inr habove)
  have hheld {hi lo : Nat} (u : Word) (x : Nat) (h : lo ≤ hi) (habove : 30 < lo) : bitsOf (setBits u 30 30 x) hi lo = bitsOf u hi lo :=
    bitsOf_setBits_disjoint u x (by decide) h (.inr habove)
  have hbit : (if r.held then 1 else 0) % 2 ^ (30 - 30 + 1) = if r.held then 1 else 0 := by split <;> rfl
  rw [fateHdr_eq hlog]
  refine ⟨?fseq, ?valid, ?held, ?cause⟩
  case fseq =>
    rw [hcause _ (by decide) (by decide), hheld _ _ (by decide) (by decide),
      bitsOf_setBits_disjoint _ 1 (by decide : 31 ≤ 31) (by decide) (.inr (by decide))]
    exact bitsOf_setBits_same v r.fseq (by decide) (by decide)
  case valid =>
    rw [hcause _ (by decide) (by decide), hheld _ _ (by decide) (by decide)]
    exact bitsOf_setBits_same _ 1 (by decide) (by decide)
  case held =>
    rw [hcause _ (by decide) (by decide)]
    exact (bitsOf_setBits_same _ _ (by decide) (by decide)).trans hbit
  case cause => exact bitsOf_setBits_same _ r.cause (by decide) (by decide)

/-- FATE_LOG_ENT at index `k` is the reply's `k`-th word of 8 bytes. -/
theorem State.fateEnt_toNat {s : State} {r : FateRec} {l : List FateRec} (hlog : s.hep.log = r :: l) (k : Nat) (v : Word) :
    (s.fateEnt k v).toNat = leNat ((r.reply.drop (8 * k)).take 8) % 2 ^ 64 := by
  have hbits : bitsOf (s.fateEnt k v) 63 0 = leNat ((r.reply.drop (8 * k)).take 8) % 2 ^ 64 := by
    simp only [fateEnt, hlog]
    exact bitsOf_setBits_same v _ (by decide) (by decide)
  rw [← hbits, bitsOf, Nat.shiftRight_zero, Nat.mod_eq_of_lt (s.fateEnt k v).isLt]

/-! ### POP -/

/-- POP of a record of a queue removes it, HELD or not, and releases its slot; memory, the interfaces and the rest of the endpoint stay. -/
theorem execFatePop_of_queue {w : Writer} {s : State} {r : FateRec} {l : List FateRec} (hlog : s.hep.log = r :: l) (hw : stwWriter w = true)
    (hq : r.q < 1024) : ∃ t, execFatePop w s = .next t ∧ t.hep = { s.hep with log := l } ∧
      t.rd STW_CQPTR_RESERVED r.cq = s.rd STW_CQPTR_RESERVED r.cq - 1 ∧ t.mem = s.mem ∧ t.com = s.com := by
  refine ⟨(s.updHep (fun h => { h with log := l })).wr STW_CQPTR_RESERVED r.cq (s.rd STW_CQPTR_RESERVED r.cq - 1),
    ?outcome, rfl, ?slot, rfl, rfl⟩
  case outcome => simp [execFatePop, hw, hlog, hq]
  case slot =>
    have hwidth : s.rd STW_CQPTR_RESERVED r.cq < 2 ^ 16 := Nat.mod_lt _ (by decide)
    rw [State.rd_wr_same _ _ _ _ (by decide) (by decide)]
    exact Nat.mod_eq_of_lt (Nat.lt_of_le_of_lt (Nat.sub_le _ _) hwidth)

/-! ### END_OF_LIFE -/

/-- A hub in END_OF_LIFE, its three transitions DONE, with one record in the fate log. -/
def endOfLifeLog : State :=
  { State.reset with
    vst := { State.reset.vst with otp := { State.reset.vst.otp with fin := 7 } }
    hep := { State.reset.hep with log := [{ reply := [], q := 0, cq := 0, fseq := 0, cause := 0, held := false }] } }

theorem endOfLifeLog_lcState : endOfLifeLog.lcState = 3 := by decide

/-- Where the statement of O51 fails: in END_OF_LIFE a read of FATE_LOG_HDR leaves another state. -/
theorem State.regRead_fateHdr_ne_of_endOfLife {s : State} (h : s.lcState = 3) : (s.regRead 0x1D80008 8).2.2 ≠ s := by
  rw [regRead_fateHdr, if_pos h]
  intro hsame
  have hfree : s.free + 8 = s.free := congrArg State.free hsame
  omega

/-- The statement of O51 outside END_OF_LIFE. -/
theorem poppedRecordLeaves_of_not_endOfLife {s : State} {r : FateRec} {l : List FateRec} (hlc : s.lcState ≠ 3) (hlog : s.hep.log = r :: l) :
    (∃ v, s.regRead 0x1D80008 8 = (v, true, s) ∧ v = (s.fateHdr (s.reg FATE_LOG_HDR 0)).toNat ∧
      bitsOf (s.fateHdr (s.reg FATE_LOG_HDR 0)) 63 32 = r.fseq % 2 ^ 32 ∧ bitsOf (s.fateHdr (s.reg FATE_LOG_HDR 0)) 31 31 = 1 ∧
      bitsOf (s.fateHdr (s.reg FATE_LOG_HDR 0)) 30 30 = (if r.held then 1 else 0) ∧
      bitsOf (s.fateHdr (s.reg FATE_LOG_HDR 0)) 29 27 = r.cause % 8) ∧
    (∀ k, k < 4 → s.regRead (0x1D80010 + 8 * k) 8 = (leNat ((r.reply.drop (8 * k)).take 8) % 2 ^ 64, true, s)) ∧
    (∀ w : Writer, stwWriter w = true → r.q < 1024 → ∃ t, exec (.fatePop w) s = .next t ∧ t.hep = { s.hep with log := l } ∧
      t.rd STW_CQPTR_RESERVED r.cq = s.rd STW_CQPTR_RESERVED r.cq - 1 ∧ t.mem = s.mem ∧ t.com = s.com) := by
  refine ⟨⟨_, ?header, rfl, State.fateHdr_fields hlog _⟩, fun k hk => ?entry, fun w hw hq => execFatePop_of_queue hlog hw hq⟩
  case header => rw [s.regRead_fateHdr, if_neg hlc]
  case entry => rw [s.regRead_fateEnt hk, if_neg hlc, State.fateEnt_toNat hlog]

/-- Refutes O51: in END_OF_LIFE the fate log is not readable (17_security.md R548), and a read of FATE_LOG_HDR advances the counter of free values. -/
theorem not_poppedRecordLeaves : ¬ Obligations.PoppedRecordLeaves := by
  unfold Obligations.PoppedRecordLeaves
  intro h
  obtain ⟨⟨v, hread, -⟩, -⟩ := h endOfLifeLog _ _ rfl
  exact State.regRead_fateHdr_ne_of_endOfLife endOfLifeLog_lcState (by rw [hread])

end Sys2Proof.Machine
end

section
/-!
PROOFS. Every command takes its effect. A statement of a group writes out, for each of its commands, the body of the command's meaning; the arm of `exec`
calls that meaning, so each clause holds by computation.
-/

namespace Sys2Proof.Machine

/-- Settles O1, command by command. -/
theorem commonsRequestsEffects : Obligations.CommonsRequestsEffects := by
  unfold Obligations.CommonsRequestsEffects
  and_intros <;> intros <;> rfl

/-- Settles O2, command by command. -/
theorem commonsAnswersEffects : Obligations.CommonsAnswersEffects := by
  unfold Obligations.CommonsAnswersEffects
  and_intros <;> intros <;> rfl

/-- Settles O3, command by command. -/
theorem stileEffects : Obligations.StileEffects := by
  unfold Obligations.StileEffects
  and_intros <;> intros <;> rfl

/-- Settles O4, command by command. -/
theorem eventsAndFencesEffects : Obligations.EventsAndFencesEffects := by
  unfold Obligations.EventsAndFencesEffects
  and_intros <;> intros <;> rfl

/-- Settles O5, command by command. -/
theorem homeEffects : Obligations.HomeEffects := by
  unfold Obligations.HomeEffects
  and_intros <;> intros <;> rfl

/-- Settles O6, command by command. -/
theorem cxlMemEffects : Obligations.CxlMemEffects := by
  unfold Obligations.CxlMemEffects
  and_intros <;> intros <;> rfl

/-- Settles O7, command by command. -/
theorem stackEffects : Obligations.StackEffects := by
  unfold Obligations.StackEffects
  and_intros <;> intros <;> rfl

/-- Settles O8, command by command. -/
theorem granaryEffects : Obligations.GranaryEffects := by
  unfold Obligations.GranaryEffects
  and_intros <;> intros <;> rfl

/-- Settles O9, command by command. -/
theorem tileControlEffects : Obligations.TileControlEffects := by
  unfold Obligations.TileControlEffects
  and_intros <;> intros <;> rfl

/-- Settles O10, command by command. -/
theorem vectorEffects : Obligations.VectorEffects := by
  unfold Obligations.VectorEffects
  and_intros <;> intros <;> rfl

/-- Settles O12, command by command. -/
theorem millEffects : Obligations.MillEffects := by
  unfold Obligations.MillEffects
  and_intros <;> intros <;> rfl

/-- Settles O13, command by command. -/
theorem moverEffects : Obligations.MoverEffects := by
  unfold Obligations.MoverEffects
  and_intros <;> intros <;> rfl

/-- Settles O14, command by command. -/
theorem queueEffects : Obligations.QueueEffects := by
  unfold Obligations.QueueEffects
  and_intros <;> intros <;> rfl

/-- Settles O15, command by command. -/
theorem controlItemEffects : Obligations.ControlItemEffects := by
  unfold Obligations.ControlItemEffects
  and_intros <;> intros <;> rfl

/-- Settles O16, command by command. -/
theorem resourceItemEffects : Obligations.ResourceItemEffects := by
  unfold Obligations.ResourceItemEffects
  and_intros <;> intros <;> rfl

/-- Settles O17, command by command. -/
theorem stewardRegisterEffects : Obligations.StewardRegisterEffects := by
  unfold Obligations.StewardRegisterEffects
  and_intros <;> intros <;> rfl

/-- Settles O18, command by command. -/
theorem poolAndGenerationEffects : Obligations.PoolAndGenerationEffects := by
  unfold Obligations.PoolAndGenerationEffects
  and_intros <;> intros <;> rfl

/-- Settles O19, command by command. -/
theorem sluiceEffects : Obligations.SluiceEffects := by
  unfold Obligations.SluiceEffects
  and_intros <;> intros <;> rfl

/-- Settles O20, command by command. -/
theorem siteMessageEffects : Obligations.SiteMessageEffects := by
  unfold Obligations.SiteMessageEffects
  and_intros <;> intros <;> rfl

/-- Settles O21, command by command. -/
theorem siteControlEffects : Obligations.SiteControlEffects := by
  unfold Obligations.SiteControlEffects
  and_intros <;> intros <;> rfl

/-- Settles O22, command by command. -/
theorem linkEffects : Obligations.LinkEffects := by
  unfold Obligations.LinkEffects
  and_intros <;> intros <;> rfl

/-- Settles O23, command by command. -/
theorem linkTimerEffects : Obligations.LinkTimerEffects := by
  unfold Obligations.LinkTimerEffects
  and_intros <;> intros <;> rfl

/-- Settles O24, command by command. -/
theorem hostEffects : Obligations.HostEffects := by
  unfold Obligations.HostEffects
  and_intros <;> intros <;> rfl

/-- Settles O25, command by command. -/
theorem vestryEffects : Obligations.VestryEffects := by
  unfold Obligations.VestryEffects
  and_intros <;> intros <;> rfl

/-- Settles O26, command by command. -/
theorem bootEffects : Obligations.BootEffects := by
  unfold Obligations.BootEffects
  and_intros <;> intros <;> rfl

/-- Settles O27, command by command. -/
theorem rollAndCrierEffects : Obligations.RollAndCrierEffects := by
  unfold Obligations.RollAndCrierEffects
  and_intros <;> intros <;> rfl

/-- Settles O28, command by command. -/
theorem serviceEffects : Obligations.ServiceEffects := by
  unfold Obligations.ServiceEffects
  and_intros <;> intros <;> rfl

/-- Settles O29, command by command. -/
theorem powerEffects : Obligations.PowerEffects := by
  unfold Obligations.PowerEffects
  and_intros <;> intros <;> rfl

/-- Settles O30, command by command. -/
theorem managementEffects : Obligations.ManagementEffects := by
  unfold Obligations.ManagementEffects
  and_intros <;> intros <;> rfl

/-- Settles O31, command by command. -/
theorem lateRowEffects : Obligations.LateRowEffects := by
  unfold Obligations.LateRowEffects
  and_intros <;> intros <;> rfl

end Sys2Proof.Machine
end

section
/-!
PROOFS. The pseudo-channel hash (05_hbm.md R138). A granule's pseudo-channel over all stacks is its number within its window, changed by a value that the
window alone fixes, so that each window is a permutation of the pseudo-channels.
-/

namespace Sys2Proof.Machine

/-- The pseudo-channel of granule `g`, counted over all 2^n stacks in rank order. -/
def granuleChannel (n g : Nat) : Nat := (g ^^^ foldBits (6 + n) 8 (g / 2 ^ (6 + n))) % 2 ^ (6 + n)

theorem granuleChannel_lt (n g : Nat) : granuleChannel n g < 2 ^ (6 + n) := Nat.mod_lt _ (Nat.two_pow_pos _)

theorem hbmLoc_rank (n a : Nat) : (hbmLoc n a).rank = granuleChannel n (a / 256) / 64 := rfl
theorem hbmLoc_pc (n a : Nat) : (hbmLoc n a).pc = granuleChannel n (a / 256) % 64 := rfl
theorem hbmLoc_line (n a : Nat) :
    (hbmLoc n a).line = (a / 256 / 2 ^ (6 + n) * 16 + (hbmLoc n a).pc % 16) * 2 + a / 128 % 2 := rfl

/-- Rank and pseudo-channel together are the channel of the granule. -/
theorem hbmLoc_channel (n a : Nat) : (hbmLoc n a).rank * 64 + (hbmLoc n a).pc = granuleChannel n (a / 256) := by
  rw [hbmLoc_rank, hbmLoc_pc]
  omega

/-- The channel is the number within the window, changed by bits that the window fixes. -/
theorem granuleChannel_eq_xor (n g : Nat) :
    granuleChannel n g = (g % 2 ^ (6 + n)) ^^^ (foldBits (6 + n) 8 (g / 2 ^ (6 + n)) % 2 ^ (6 + n)) := by
  rw [granuleChannel, Nat.xor_mod_two_pow]

theorem xor_right_cancel {a b c : Nat} (h : a ^^^ c = b ^^^ c) : a = b := by
  have hc := congrArg (· ^^^ c) h
  simpa only [Nat.xor_assoc, Nat.xor_self, Nat.xor_zero] using hc

/-- Within a window, granules of one channel are the same. -/
theorem granuleChannel_inj {n g g' : Nat} (hw : g / 2 ^ (6 + n) = g' / 2 ^ (6 + n)) (hc : granuleChannel n g = granuleChannel n g') :
    g = g' := by
  rw [granuleChannel_eq_xor, granuleChannel_eq_xor, hw] at hc
  have hmod : g % 2 ^ (6 + n) = g' % 2 ^ (6 + n) := xor_right_cancel hc
  rw [← Nat.div_add_mod g (2 ^ (6 + n)), ← Nat.div_add_mod g' (2 ^ (6 + n)), hw, hmod]

/-- The granule of window `w` on channel `c`. -/
def windowGranule (n w c : Nat) : Nat := 2 ^ (6 + n) * w + (c ^^^ (foldBits (6 + n) 8 w % 2 ^ (6 + n)))

theorem windowGranule_offset_lt (n w : Nat) {c : Nat} (hc : c < 2 ^ (6 + n)) : c ^^^ (foldBits (6 + n) 8 w % 2 ^ (6 + n)) < 2 ^ (6 + n) :=
  Nat.xor_lt_two_pow hc (Nat.mod_lt _ (Nat.two_pow_pos _))

theorem windowGranule_window (n w : Nat) {c : Nat} (hc : c < 2 ^ (6 + n)) : windowGranule n w c / 2 ^ (6 + n) = w := by
  rw [windowGranule, Nat.mul_add_div (Nat.two_pow_pos _), Nat.div_eq_of_lt (windowGranule_offset_lt n w hc), Nat.add_zero]

theorem granuleChannel_windowGranule (n w : Nat) {c : Nat} (hc : c < 2 ^ (6 + n)) : granuleChannel n (windowGranule n w c) = c := by
  rw [granuleChannel_eq_xor, windowGranule_window n w hc, windowGranule, Nat.mul_add_mod, Nat.mod_eq_of_lt (windowGranule_offset_lt n w hc),
    Nat.xor_assoc, Nat.xor_self, Nat.xor_zero]

/-- The location of an address fixes its line. -/
theorem hbmLoc_line_inj {n a b : Nat} (h : hbmLoc n a = hbmLoc n b) : a / 128 = b / 128 := by
  have hline := congrArg HbmLoc.line h
  rw [hbmLoc_line, hbmLoc_line, h] at hline
  have hwindow : a / 256 / 2 ^ (6 + n) = b / 256 / 2 ^ (6 + n) := by omega
  have hchannel : granuleChannel n (a / 256) = granuleChannel n (b / 256) := by rw [← hbmLoc_channel, ← hbmLoc_channel, h]
  have hgranule := granuleChannel_inj hwindow hchannel
  omega

theorem hbmLoc_rank_lt (n a : Nat) : (hbmLoc n a).rank < 2 ^ n := by
  rw [hbmLoc_rank, Nat.div_lt_iff_lt_mul (by decide), Nat.mul_comm]
  exact Nat.lt_of_lt_of_eq (granuleChannel_lt n _) (Nat.pow_add 2 6 n)

theorem hbmLoc_line_lt {n a : Nat} (h : a < 2 ^ (36 + n)) : (hbmLoc n a).line < 2 ^ 27 := by
  have hwindow : a / 256 / 2 ^ (6 + n) < 2 ^ 22 := by
    rw [Nat.div_div_eq_div_mul, Nat.div_lt_iff_lt_mul (Nat.mul_pos (by decide) (Nat.two_pow_pos _))]
    calc a < 2 ^ (36 + n) := h
      _ = 2 ^ 22 * (256 * 2 ^ (6 + n)) := by rw [show 36 + n = 22 + (8 + (6 + n)) by omega, Nat.pow_add, Nat.pow_add 2 8]
  rw [hbmLoc_line]
  omega

/-- Settles O42: the line index holds the window, and within a window the channel fixes the granule. -/
theorem hbmMapIsOneToOne : Obligations.HbmMapIsOneToOne := by
  unfold Obligations.HbmMapIsOneToOne
  refine fun n _ => ⟨fun a b _ _ h => hbmLoc_line_inj h, fun a h => ⟨hbmLoc_rank_lt n a, Nat.mod_lt _ (by decide), hbmLoc_line_lt h⟩, fun w c hc => ?_⟩
  refine ⟨windowGranule n w c, windowGranule_window n w hc, ?_, fun g' hw hc' => ?_⟩
  · rw [hbmLoc_channel, Nat.mul_div_cancel _ (by decide), granuleChannel_windowGranule n w hc]
  · rw [hbmLoc_channel, Nat.mul_div_cancel _ (by decide)] at hc'
    exact granuleChannel_inj (hw.trans (windowGranule_window n w hc).symm) (hc'.trans (granuleChannel_windowGranule n w hc).symm)

end Sys2Proof.Machine
end

section
/-!
PROOFS. Registers and memory: what a field, a register write and bytes read back, and what each of them leaves alone (00_scope.md R4, R9;
03_memory_model.md R73).
-/

namespace Sys2Proof.Machine

/-! ### Fields and register writes -/

theorem State.reg_wr_other (s : State) (f : RF) (r : RegDef) {i j : Nat} (x : Nat) (h : r.off j ≠ f.reg.off i) :
    (s.wr f i x).reg r j = s.reg r j :=
  s.reg_setReg_other f.reg r i j _ h

/-- Settles O38: the value of a register is replaced bit by bit, and the register file entry by entry. -/
theorem fieldsReadBack : Obligations.FieldsReadBack := by
  unfold Obligations.FieldsReadBack
  refine ⟨fun s f i x hlo h63 => ?same, fun s f g i x hlo _ hg hreg hd => ?disjoint, fun s f r i j x h => s.reg_wr_other f r x h, fun s f i x => rfl⟩
  case same => exact s.rd_wr_same f i x hlo (by omega)
  case disjoint => exact s.rd_wr_disjoint f g i x hreg hlo hg hd

/-- The stored value of a register after a write: RW bits that the access covers are replaced, then W1C bits that it names clear. -/
theorem State.reg_store (s : State) (r : RegDef) (c : RegWr) : (s.store r c).reg r c.i =
    ((s.reg r c.i &&& ~~~ (r.bitsWith .rw &&& c.m)) ||| (c.v &&& (r.bitsWith .rw &&& c.m))) &&& ~~~ (r.bitsWith .w1c &&& c.m &&& c.v) := by
  have hnone (m : Word) : m &&& ~~~0 = m := BitVec.and_allOnes
  simp only [store, storeBut, clearBits, List.foldl_nil, reg_setReg, hnone]

/-- The same, one bit at a time. -/
theorem State.getLsbD_reg_store (s : State) (r : RegDef) (c : RegWr) {k : Nat} (hk : k < 64) : ((s.store r c).reg r c.i).getLsbD k =
    ((if (r.bitsWith .rw).getLsbD k && c.m.getLsbD k then c.v.getLsbD k else (s.reg r c.i).getLsbD k) &&
      !((r.bitsWith .w1c).getLsbD k && c.m.getLsbD k && c.v.getLsbD k)) := by
  rw [reg_store]
  simp only [BitVec.getLsbD_and, BitVec.getLsbD_or, BitVec.getLsbD_not, hk, decide_true, Bool.true_and]
  cases (r.bitsWith .rw).getLsbD k && c.m.getLsbD k <;> simp

/-- Settles O41, from the stored value bit by bit. -/
theorem storesReachOnlyWritableFields : Obligations.StoresReachOnlyWritableFields := by
  unfold Obligations.StoresReachOnlyWritableFields
  intro s r c k hk
  simp only [s.getLsbD_reg_store r c hk]
  refine ⟨fun hrw hw1c => ?reserved, fun hm => ?uncovered, fun hrw hw1c hm => ?rw, fun hrw hw1c hm => ?w1c⟩
  case reserved => simp [hrw, hw1c]
  case uncovered => simp [hm]
  case rw => simp [hrw, hw1c, hm]
  case w1c => simp [hrw, hw1c, hm]

/-! ### Bytes -/

/-- A byte after bytes were written. -/
theorem State.byte_setBytes (s : State) (a : Nat) (l : List Byte) (b : Nat) :
    (s.setBytes a l).byte b = if a ≤ b ∧ b < a + l.length then l.getD (b - a) 0 else s.byte b := by
  induction l generalizing s a with
  | nil => rw [setBytes, List.length_nil, if_neg (by omega)]
  | cons x l ih =>
    rw [setBytes, ih]
    obtain hb | hb | hb := Nat.lt_trichotomy b a
    · rw [if_neg (by omega), if_neg (by omega), s.byte_setByte_other a b x (by omega)]
    · subst hb
      rw [if_neg (by omega), byte_setByte, if_pos (by simp)]
      simp
    · have hstep : b - a = (b - (a + 1)) + 1 := by omega
      rw [s.byte_setByte_other a b x (by omega), hstep, List.getD_cons_succ]
      simp only [List.length_cons]
      exact ite_congr (propext (by omega)) (fun _ => rfl) (fun _ => rfl)

/-- Bytes that are written change memory alone. -/
theorem State.setBytes_frame (s : State) (a : Nat) (l : List Byte) : s.setBytes a l = { s with mem := (s.setBytes a l).mem } := by
  induction l generalizing s a with
  | nil => rfl
  | cons x l ih =>
    rw [setBytes, ih]
    rfl

/-- Settles O39. -/
theorem bytesReadBack : Obligations.BytesReadBack := by
  unfold Obligations.BytesReadBack
  exact ⟨State.byte_setBytes, State.setBytes_frame⟩

/-- Bytes read back whole where they were written. -/
theorem State.bytes_setBytes (s : State) (a : Nat) (l : List Byte) : (s.setBytes a l).bytes a l.length = l := by
  refine List.ext_getElem (by simp) fun j hj hj' => ?_
  simp only [bytes, List.getElem_map, List.getElem_range, byte_setBytes]
  rw [if_pos (by omega), Nat.add_sub_cancel_left]
  rw [List.getD_eq_getElem?_getD, List.getElem?_eq_getElem hj', Option.getD_some]

/-! ### Numbers -/

theorem leNat_natLe (k n : Nat) : leNat (natLe k n) = n % 256 ^ k := by
  induction k generalizing n with
  | zero => simp [natLe, leNat, Nat.mod_one]
  | succ k ih =>
    rw [natLe, leNat, ih, BitVec.toNat_ofNat, show 256 ^ (k + 1) = 256 * 256 ^ k from Nat.pow_succ', Nat.mod_mul]

theorem getElem?_natLe (k n j : Nat) (h : j < k) : (natLe k n)[j]? = some (BitVec.ofNat 8 (n / 256 ^ j)) := by
  induction k generalizing n j with
  | zero => omega
  | succ k ih =>
    cases j with
    | zero => simp [natLe]
    | succ j => rw [natLe, List.getElem?_cons_succ, ih _ _ (by omega), Nat.pow_succ', Nat.div_div_eq_div_mul]

/-- A number that was written reads back, cut to its bytes. -/
theorem State.leNat_bytes_setBytes_natLe (s : State) (a k n : Nat) : leNat ((s.setBytes a (natLe k n)).bytes a k) = n % 256 ^ k := by
  have hread := s.bytes_setBytes a (natLe k n)
  rw [natLe_length] at hread
  rw [hread, leNat_natLe]

/-- The lowest byte of a number lies at its address. -/
theorem State.byte_setBytes_natLe (s : State) (a n : Nat) {k : Nat} (hk : 0 < k) : (s.setBytes a (natLe k n)).byte a = BitVec.ofNat 8 n := by
  rw [byte_setBytes, if_pos (by rw [natLe_length]; omega), Nat.sub_self, List.getD_eq_getElem?_getD, getElem?_natLe k n 0 hk]
  simp

/-- Settles O40. -/
theorem numbersAreLittleEndian : Obligations.NumbersAreLittleEndian := by
  unfold Obligations.NumbersAreLittleEndian
  exact ⟨leNat_natLe, getElem?_natLe, State.leNat_bytes_setBytes_natLe, fun s a k n hk => s.byte_setBytes_natLe a n hk⟩

end Sys2Proof.Machine
end

section
/-!
PROOFS. Atomics (04_coherence.md R124, 03_memory_model.md R89): the new value of each operation on integers, and what an atomic does to the bytes at its
cell.
-/

namespace Sys2Proof.Machine

/-! ### The operations -/

/-- The model's two's complement reading of a pattern is that of its bit vector. -/
theorem sgn_toNat {w : Nat} (hw : 0 < w) (x : BitVec w) : sgn w x.toNat = x.toInt := by
  have hhalf : 2 ^ w = 2 * 2 ^ (w - 1) := by rw [← Nat.pow_succ', Nat.succ_eq_add_one, Nat.sub_add_cancel hw]
  rw [sgn, Nat.mod_eq_of_lt x.isLt, BitVec.toInt_eq_toNat_cond]
  by_cases h : 2 ^ (w - 1) ≤ x.toNat
  · rw [if_pos h, if_neg (by omega), Int.natCast_pow, Int.cast_ofNat_Int]
  · rw [if_neg h, if_pos (by omega)]

theorem sgn_lt_sgn_iff {w : Nat} (hw : 0 < w) (a b : BitVec w) : sgn w a.toNat < sgn w b.toNat ↔ a.slt b = true := by
  rw [sgn_toNat hw, sgn_toNat hw, BitVec.slt_iff_toInt_lt]

/-- Settles O44: each operation on numbers is that of bit vectors. -/
theorem atomicOperations : Obligations.AtomicOperations := by
  unfold Obligations.AtomicOperations
  intro w old a b hw
  refine ⟨rfl, ?add, ?and, ?or, ?xor, ?smin, ?smax, ?umin, ?umax, ?cas⟩
  case add => simp [atomNew]
  case and => simp [atomNew]
  case or => simp [atomNew]
  case xor => simp [atomNew]
  case smin => simp only [atomNew, sgn_lt_sgn_iff hw, apply_ite BitVec.toNat]
  case smax => simp only [atomNew, sgn_lt_sgn_iff hw, apply_ite BitVec.toNat]
  case umin =>
    rw [apply_ite BitVec.toNat, atomNew, Nat.min_def]
    simp only [BitVec.ult, decide_eq_true_eq]
    split <;> split <;> grind
  case umax =>
    rw [apply_ite BitVec.toNat, atomNew, Nat.max_def]
    simp only [BitVec.ult, decide_eq_true_eq]
    split <;> split <;> grind
  case cas => simp only [atomNew, BitVec.toNat_inj, apply_ite BitVec.toNat]

/-! ### An atomic at its cell -/

theorem atomNew_isSome {op : Nat} (h : op ≤ 0xA) (w old a b : Nat) : ∃ v, atomNew op w old a b = some v := by
  match op, h with
  | 0, _ | 1, _ | 2, _ | 3, _ | 4, _ | 5, _ | 6, _ | 7, _ | 8, _ | 9, _ | 10, _ => exact ⟨_, rfl⟩

theorem atomOk_op {p : Pkt} (h : atomOk p = true) : atomOp p ≤ 0xA := by
  simp only [atomOk, Bool.and_eq_true, decide_eq_true_eq] at h
  exact h.1.1

theorem State.atomAt_of_poisoned {s : State} {a : Nat} {p : Pkt} (h : s.poisoned a (atomSize p) = true) : (s.atomAt a p).2 = (true, s) := by
  simp [atomAt, h]

theorem State.atomAt_of_new {s : State} {a : Nat} {p : Pkt} {v : Nat} (h : s.poisoned a (atomSize p) = false)
    (hv : atomNew (atomOp p) (8 * atomSize p) (leNat (s.bytes a (atomSize p))) (atomA p) (atomB p) = some v) :
    s.atomAt a p = (leNat (s.bytes a (atomSize p)), false, s.setBytes a (natLe (atomSize p) v)) := by
  simp [atomAt, h, hv]

/-- A bank answers an atomic that is not well formed. -/
theorem State.memAccess_of_not_atomOk {s : State} {d a : Nat} {p : Pkt} (hopc : p.opc = 0x08) (hok : atomOk p = false) :
    s.memAccess d p a = s.answer d p stUnsupported := by
  simp [memAccess, hopc, hok]

/-- Settles O43: the bytes of the cell take the new value, and poisoned bytes none. -/
theorem atomicsActOnTheirBytes : Obligations.AtomicsActOnTheirBytes := by
  unfold Obligations.AtomicsActOnTheirBytes
  refine ⟨fun s a p hok hclean => ?_, fun s a p h => State.atomAt_of_poisoned h, fun s d a p _ hopc hok => State.memAccess_of_not_atomOk hopc hok⟩
  obtain ⟨v, hv⟩ := atomNew_isSome (atomOk_op hok) (8 * atomSize p) (leNat (s.bytes a (atomSize p))) (atomA p) (atomB p)
  refine ⟨v, hv, ?_⟩
  rw [State.atomAt_of_new hclean hv]
  refine ⟨rfl, rfl, s.leNat_bytes_setBytes_natLe a _ v, fun b hb => ?outside, s.setBytes_frame a _⟩
  case outside => rw [s.byte_setBytes, natLe_length, if_neg hb]

end Sys2Proof.Machine
end

section
/-!
PROOFS. Integer registers of a core (08_loom_isa.md), the layout of a status reply (11_steward_commands.md R368), the rounding of a quotient
(06_number_formats.md R181), and the Granary's guard (05_hbm.md R146, R147).
-/

namespace Sys2Proof.Machine

/-! ### Integer registers -/

theorem Tile.setX_zero (x : Tile) {r : Nat} (v : Nat) (h : r % 32 = 0) : x.setX r v = x := if_pos h

theorem Tile.xr_zero (x : Tile) {r : Nat} (h : r % 32 = 0) : x.xr r = 0 := if_pos h

theorem Tile.xr_setX_same (x : Tile) {r : Nat} (v : Nat) (h : r % 32 ≠ 0) : (x.setX r v).xr r = v % 2 ^ 64 := by
  rw [Tile.xr, if_neg h, Tile.setX, if_neg h]
  exact SMap.getD_set_same 0 x.x (r % 32) (v % 2 ^ 64)

theorem Tile.xr_setX_other (x : Tile) {r q : Nat} (v : Nat) (h : q % 32 ≠ r % 32) : (x.setX r v).xr q = x.xr q := by
  by_cases hr : r % 32 = 0
  · rw [x.setX_zero v hr]
  · rw [Tile.xr, Tile.xr, Tile.setX, if_neg hr]
    exact ite_congr rfl (fun _ => rfl) (fun _ => SMap.getD_set_other 0 0 x.x (r % 32) (q % 32) _ h)

/-- A write of an integer register changes the integer registers alone. -/
theorem Tile.setX_frame (x : Tile) (r v : Nat) : x.setX r v = { x with x := (x.setX r v).x } := by
  rw [Tile.setX]
  split <;> rfl

/-- Settles O54. -/
theorem zeroRegisterStaysZero : Obligations.ZeroRegisterStaysZero := by
  unfold Obligations.ZeroRegisterStaysZero
  exact ⟨fun x _ v h => ⟨x.setX_zero v h, x.xr_zero h⟩, fun x _ v h => x.xr_setX_same v h, fun x _ _ v h => x.xr_setX_other v h, Tile.setX_frame⟩

/-! ### Status replies -/

/-- A field behind the first part. -/
theorem pktField_append_right {a : List Byte} (b : List Byte) {lo : Nat} (n : Nat) (h : a.length ≤ lo) :
    pktField (a ++ b) lo n = pktField b (lo - a.length) n := by
  rw [pktField, pktField, List.drop_append, List.drop_of_length_le h, List.nil_append]

/-- A field that is the whole first part. -/
theorem pktField_append_left {a : List Byte} (b : List Byte) {n : Nat} (h : a.length = n) : pktField (a ++ b) 0 n = leNat a := by
  rw [pktField, List.drop_zero, ← h, List.take_left]

theorem pktField_whole {a : List Byte} {n : Nat} (h : a.length = n) : pktField a 0 n = leNat a := by
  rw [pktField, List.drop_zero, ← h, List.take_length]

/-- Settles O55: each field stands behind the lengths of those before it. -/
theorem replyLayout : Obligations.ReplyLayout := by
  unfold Obligations.ReplyLayout
  intro item q slot fate status unit seq result phase
  simp (disch := simp) only [replyBytes, List.append_assoc, pktField_append_right, pktField_append_left, pktField_whole, natLe_length,
    Nat.reduceSub, leNat_natLe]
  cases phase <;> simp

/-! ### Rounding -/

/-- Rounding at the exponent of the quantum divides numerator by denominator and moves the quotient up where the mode says so. -/
def roundsUp (m : RM) (neg : Bool) (r num den : Nat) : Bool :=
  match m with
  | .rne => decide (den < 2 * (num % den)) || (decide (2 * (num % den) = den) && decide (num / den % 2 = 1))
  | .rtz => false
  | .rup => !neg && decide (0 < num % den)
  | .rdn => neg && decide (0 < num % den)
  | .rsr => decide (0 < num % den) && decide (r < 2 ^ 32 * (num % den) / den)

theorem roundQ_self (m : RM) (neg : Bool) (r num den : Nat) (e : Int) :
    roundQ m neg r num den e e = (if roundsUp m neg r num den then num / den + 1 else num / den, decide (num % den ≠ 0)) := by
  cases m <;> simp [roundQ, roundsUp, ratNum, ratDen, pow2Num, pow2Den]

/-- How far the rounded quotient lies from the exact one, in units of 1 / den. -/
theorem roundQ_self_sub (m : RM) (neg : Bool) (r num den : Nat) (e : Int) :
    ((roundQ m neg r num den e e).1 : Int) * den - num =
      if roundsUp m neg r num den then (den : Int) - (num % den : Nat) else -((num % den : Nat) : Int) := by
  have hdiv : (num : Int) = (num / den : Nat) * den + (num % den : Nat) := by exact_mod_cast (Nat.div_add_mod' num den).symm
  rw [roundQ_self]
  split <;> grind

/-- The quotient moved up where there is a remainder is the quotient from above. -/
theorem div_ceil {num den : Nat} (h : 0 < den) : (if 0 < num % den then num / den + 1 else num / den) = (num + den - 1) / den := by
  have hdiv := Nat.div_add_mod num den
  have hmod := Nat.mod_lt num h
  split
  next hpos =>
    have hsum : num + den - 1 = (num % den - 1) + den * (num / den + 1) := by rw [Nat.mul_add_one]; omega
    have hsmall : (num % den - 1) / den = 0 := Nat.div_eq_of_lt (by omega)
    rw [hsum, Nat.add_mul_div_left _ _ h, hsmall, Nat.zero_add]
  next hzero =>
    have hsum : num + den - 1 = (den - 1) + den * (num / den) := by omega
    have hsmall : (den - 1) / den = 0 := Nat.div_eq_of_lt (by omega)
    rw [hsum, Nat.add_mul_div_left _ _ h, hsmall, Nat.zero_add]

/-- Settles O56: the distance to the exact quotient decides RNE, and the remainder the other modes. -/
theorem roundingModes : Obligations.RoundingModes := by
  unfold Obligations.RoundingModes
  intro neg r num den e hden
  have hmod := Nat.mod_lt num hden
  refine ⟨?near, ?even, ?rtz, ?rup, ?rupNeg, ?rdn, ?rdnNeg, fun m => ?inexact⟩
  case near =>
    rw [roundQ_self_sub, roundsUp]
    grind
  case even =>
    rw [roundQ_self_sub, roundQ_self, roundsUp]
    grind
  case rtz | rupNeg | rdn => simp [roundQ_self, roundsUp]
  case rup | rdnNeg => simp [roundQ_self, roundsUp, ← div_ceil hden]
  case inexact =>
    have hdiv := Nat.div_add_mod' num den
    simp only [roundQ_self, decide_eq_false_iff_not, Decidable.not_not]
    refine ⟨fun h => ⟨?_, h⟩, And.right⟩
    have hstays : roundsUp m neg r num den = false := by cases m <;> simp [roundsUp, h, Nat.ne_of_lt hden]
    rw [hstays]
    simpa [h] using hdiv

/-! ### The Granary -/

/-- Whether the model that holds block `b` is mapped into a tenant. -/
def State.holderMapped (s : State) (b tenant : Nat) : Bool :=
  match s.modelOf b with
  | some e => s.mapped tenant e
  | none => false

theorem State.holderMapped_iff (s : State) (b tenant : Nat) :
    s.holderMapped b tenant = true ↔ ∃ e, s.modelOf b = some e ∧ s.mapped tenant e = true := by
  rw [holderMapped]
  cases s.modelOf b <;> simp

theorem State.readVerdict_granary {s : State} {hpa tenant : Nat} {sealed : Bool} (hlow : hpa < 0x8000000000)
    (hgran : s.inGranary (blockOf hpa) = true) : s.readVerdict hpa tenant sealed =
      if segmentOf hpa = 7 then .pattern
      else if !(sealed && s.holderMapped (blockOf hpa) tenant) then .pattern
      else if s.hbm.poisonPages.contains (hpa / 2 ^ 21) then .granPoison
      else if (s.gblock (blockOf hpa)).st = 3 then .data
      else if (s.gblock (blockOf hpa)).st = 5 then
        (if (s.gblock (blockOf hpa)).page = some (pageInBlock hpa) then .granPoison else .data)
      else .status stGranBusy := by
  simp only [readVerdict, hlow, hgran, decide_true, Bool.and_self, if_true]
  rfl

theorem State.writeRefused_granary {s : State} {hpa tenant : Nat} {sealed sealing full : Bool} (hlow : hpa < 0x8000000000)
    (hgran : s.inGranary (blockOf hpa) = true) : s.writeRefused hpa tenant sealed sealing full =
      !(sealing && s.holderMapped (blockOf hpa) tenant && full && decide (segmentOf hpa ≠ 7) &&
        (decide ((s.gblock (blockOf hpa)).st = 1) ||
          (decide ((s.gblock (blockOf hpa)).st = 5) && decide ((s.gblock (blockOf hpa)).page = some (pageInBlock hpa))))) := by
  simp only [writeRefused, hlow, hgran, decide_true, Bool.and_self, if_true]
  rfl

/-- Settles O58: the checks of a read and of a write, in their order. -/
theorem granaryGuardsItsData : Obligations.GranaryGuardsItsData := by
  unfold Obligations.GranaryGuardsItsData
  intro s hpa tenant sealed hlow hgran
  rw [State.readVerdict_granary hlow hgran]
  refine ⟨fun hdata => ?read, fun sealing full htaken => ?write⟩
  case read =>
    rw [← State.holderMapped_iff]
    grind
  case write =>
    rw [State.writeRefused_granary hlow hgran] at htaken
    rw [← State.holderMapped_iff]
    simp only [Bool.not_eq_false', Bool.and_eq_true, Bool.or_eq_true, decide_eq_true_eq] at htaken
    obtain ⟨⟨⟨⟨hsealing, hmapped⟩, hfull⟩, hsegment⟩, hstate⟩ := htaken
    exact ⟨hsealing, hfull, hmapped, hsegment, hstate⟩

end Sys2Proof.Machine
end

section
/-!
PROOFS. The queue of commands and reset: a step takes the front command, an empty queue lets a nanosecond pass, and what reset leaves (02_commons.md R58;
log entries 2, 3 and 22).
-/

namespace Sys2Proof.Machine

/-- Settles O32. -/
theorem stepTakesFrontCommand : Obligations.StepTakesFrontCommand := by
  unfold Obligations.StepTakesFrontCommand
  intro c rest s h
  rw [step, h]

/-! ### An idle nanosecond -/

theorem State.lanesTurn_of_empty {s : State} {t : Nat} (h : (s.tile t).vq = []) : s.lanesTurn t = s := by
  rw [lanesTurn, h]

/-- The entry at a key that is listed stands in the list. -/
theorem SMap.mem_of_get? {α : Type} {m : SMap α} {k : Nat} {v : α} (h : SMap.get? m k = some v) : (k, v) ∈ m := by
  induction m with
  | nil => cases h
  | cons e m ih =>
    obtain ⟨a, w⟩ := e
    rw [SMap.get?] at h
    split at h
    next hk =>
      cases h
      rw [hk]
      exact List.mem_cons_self
    next => exact List.mem_cons_of_mem _ (ih h)

/-- Where every listed tile has an empty queue, so has every tile. -/
theorem State.vq_tile_of_all_empty {s : State} (h : ∀ e ∈ s.tiles, e.2.vq = []) (t : Nat) : (s.tile t).vq = [] := by
  rw [tile, SMap.getD]
  cases hg : SMap.get? s.tiles t with
  | none => rfl
  | some x => exact h _ (SMap.mem_of_get? hg)

theorem State.tickLanes_of_empty {s : State} (h : ∀ e ∈ s.tiles, e.2.vq = []) : s.tickLanes = { s with time := s.time + 1 } := by
  have hturn (t : Nat) : State.lanesTurn { s with time := s.time + 1 } t = { s with time := s.time + 1 } :=
    State.lanesTurn_of_empty (s.vq_tile_of_all_empty h t)
  have hfold (l : SMap Tile) : l.foldl (fun u e => u.lanesTurn e.1) { s with time := s.time + 1 } = { s with time := s.time + 1 } := by
    induction l with
    | nil => rfl
    | cons e l ih => rw [List.foldl_cons, hturn, ih]
  exact hfold s.tiles

theorem State.fabricTurn_of_idle {s : State} (hlinks : ∀ e ∈ s.fab.links, e.2.txq = []) (hrecv : s.fab.recv = []) : s.fabricTurn = s := by
  have hnone : s.fab.links.filter (fun e => !e.2.txq.isEmpty) = [] := by
    rw [List.filter_eq_nil_iff]
    intro e he
    simp [hlinks e he]
  rw [fabricTurn, hnone]
  simp [hrecv]

/-- Settles O33: neither part of the tick finds work. -/
theorem emptyQueueIdles : Obligations.EmptyQueueIdles := by
  unfold Obligations.EmptyQueueIdles
  intro s hqueue
  refine ⟨by rw [step, hqueue], fun htiles hlinks hrecv => ?_⟩
  rw [State.tick, State.tickLanes_of_empty htiles]
  exact State.fabricTurn_of_idle hlinks hrecv

/-! ### Reset -/

/-- Settles O34. -/
theorem resetIsSound : Obligations.ResetIsSound :=
  ⟨⟨rfl, rfl, List.Pairwise.nil, rfl, fun _ h => nomatch h⟩, rfl⟩

/-- Settles O35: nothing is listed at reset, so everything reads its default. -/
theorem resetState : Obligations.ResetState :=
  ⟨fun _ _ => rfl, fun _ => rfl, fun _ => rfl, rfl, rfl, rfl, fun _ => rfl⟩

end Sys2Proof.Machine
end

section
/-!
PROOFS. Interfaces (02_commons.md R44, R51, R58, R66, R67): what answering and refusing put on the Commons and leave alone, isolation and its release, the
checks of a router input, and reads of registers.
-/

namespace Sys2Proof.Machine

/-! ### A closed interface -/

/-- Settles O47: the domain's state is looked at first. -/
theorem closedInterfaceAnswers : Obligations.ClosedInterfaceAnswers := by
  unfold Obligations.ClosedInterfaceAnswers
  intro s d p hclosed
  by_cases hdead : s.agentState d = 5
  · simp [State.arrive, State.refuse, hdead]
  · simp [State.arrive, State.refuse, hdead, hclosed]

/-! ### Answers at an interface -/

/-- From `s` to `t` the interface of agent `a` has put the packets `ps` on the Commons; other interfaces, domains, registers, memory, the Roll, events
and time stay. -/
structure Answered (a : Nat) (s t : State) (ps : List Pkt) : Prop where
  out : t.com.out = s.com.out ++ ps
  others : ∀ b, b ≠ a → t.iface b = s.iface b
  dom : t.com.dom = s.com.dom
  regs : t.regs = s.regs
  mem : t.mem = s.mem
  roll : t.roll = s.roll
  evq : t.evq = s.evq
  time : t.time = s.time

theorem Answered.refl (a : Nat) (s : State) : Answered a s s [] := ⟨(List.append_nil _).symm, fun _ _ => rfl, rfl, rfl, rfl, rfl, rfl, rfl⟩

theorem Answered.trans {a : Nat} {s t u : State} {ps qs : List Pkt} (h : Answered a s t ps) (h' : Answered a t u qs) :
    Answered a s u (ps ++ qs) where
  out := by rw [h'.out, h.out, List.append_assoc]
  others b hb := (h'.others b hb).trans (h.others b hb)
  dom := h'.dom.trans h.dom
  regs := h'.regs.trans h.regs
  mem := h'.mem.trans h.mem
  roll := h'.roll.trans h.roll
  evq := h'.evq.trans h.evq
  time := h'.time.trans h.time

theorem Answered.updIface (a : Nat) (s : State) (f : Iface → Iface) : Answered a s (s.updIface a f) [] :=
  ⟨(List.append_nil _).symm, fun b hb => s.iface_updIface_other a b f hb, rfl, rfl, rfl, rfl, rfl, rfl⟩

theorem Answered.send (a : Nat) (s : State) (p : Pkt) : Answered a s (s.send p) [p] :=
  ⟨rfl, fun _ _ => rfl, rfl, rfl, rfl, rfl, rfl, rfl⟩

/-- Packets sent one after the other. -/
theorem Answered.foldl_send (a : Nat) {α : Type} (f : α → Pkt) (l : List α) (s : State) :
    Answered a s (l.foldl (fun t x => t.send (f x)) s) (l.map f) := by
  induction l generalizing s with
  | nil => exact .refl a s
  | cons x l ih => exact (Answered.send a s (f x)).trans (ih _)

theorem State.iface_foldl_send (a : Nat) {α : Type} (f : α → Pkt) (l : List α) (s : State) :
    (l.foldl (fun t x => t.send (f x)) s).iface a = s.iface a := by
  induction l generalizing s with
  | nil => rfl
  | cons x l ih => exact ih _

/-- An answer that is no success leaves, and its inbound entry is freed. -/
theorem State.answer_of_failed (s : State) (a : Nat) (p : Pkt) {status : Nat} (h : status ≠ 0) :
    s.answer a p status = (s.updIface a (fun i => { i with inbound := i.inbound.erase p })).send (mkAnswer p a status [] false) := by
  simp [answer, h]

/-- Answering every entry of the inbound table empties it. -/
theorem State.foldl_answer {status : Nat} (hst : status ≠ 0) (a : Nat) (l : List Pkt) (s : State) (hl : (s.iface a).inbound = l) :
    Answered a s (l.foldl (fun t p => t.answer a p status) s) (l.map (fun p => mkAnswer p a status [] false)) ∧
    (l.foldl (fun t p => t.answer a p status) s).iface a = { s.iface a with inbound := [] } := by
  induction l generalizing s with
  | nil =>
    refine ⟨.refl a s, ?_⟩
    rw [List.foldl_nil, ← hl]
  | cons p l ih =>
    have hfirst : Answered a s (s.answer a p status) [mkAnswer p a status [] false] := by
      rw [s.answer_of_failed a p hst]
      exact (Answered.updIface a s _).trans (.send a _ _)
    have hiface : (s.answer a p status).iface a = { s.iface a with inbound := l } := by
      rw [s.answer_of_failed a p hst, send_iface, iface_updIface, hl, List.erase_cons_head]
    obtain ⟨hanswered, hempty⟩ := ih (s.answer a p status) (by rw [hiface])
    rw [hiface] at hempty
    exact ⟨hfirst.trans hanswered, hempty⟩

/-- Refusing requests that were held back; an EVICT_CLEAN has no answer. -/
theorem State.foldl_refuse (a status : Nat) (l : List Pkt) (s : State) : l.foldl (fun t p => t.refuse a p status) s =
    (l.filter (fun p => p.opc ≠ 0x14)).foldl (fun t p => t.send (mkAnswer p a status [] false)) s := by
  induction l generalizing s with
  | nil => rfl
  | cons p l ih =>
    rw [List.foldl_cons, ih, refuse]
    by_cases h : p.opc = 0x14 <;> simp [h]

/-- The answers to all requests at an interface. -/
def requestAnswers (i : Iface) (a status : Nat) : List Pkt :=
  i.inbound.map (fun p => mkAnswer p a status [] false) ++
    (i.blocked.filter (fun p => p.opc ≠ 0x14)).map (fun p => mkAnswer p a status [] false)

theorem State.answerAll_eq (s : State) {a status : Nat} (h : status ≠ 0) :
    Answered a s (s.answerAll a status) (requestAnswers (s.iface a) a status) ∧
    (s.answerAll a status).iface a = { s.iface a with inbound := [], blocked := [], sent := [] } := by
  obtain ⟨hinbound, hempty⟩ := State.foldl_answer h a _ s rfl
  have hblocked := Answered.foldl_send a (fun p => mkAnswer p a status [] false) ((s.iface a).blocked.filter (fun p => p.opc ≠ 0x14))
    ((s.iface a).inbound.foldl (fun t p => t.answer a p status) s)
  have hupd := (hinbound.trans hblocked).trans (.updIface a _ (fun x => { x with blocked := [], sent := [] }))
  rw [List.append_nil] at hupd
  rw [answerAll]
  simp only [State.foldl_refuse]
  split
  · refine ⟨?_, ?_⟩
    · exact ⟨hupd.out, hupd.others, hupd.dom, hupd.regs, hupd.mem, hupd.roll, hupd.evq, hupd.time⟩
    · rw [updHome_iface, iface_updIface, State.iface_foldl_send, hempty]
  · exact ⟨hupd, by rw [iface_updIface, State.iface_foldl_send, hempty]⟩

/-! ### Isolation -/

theorem State.logicalOf_congr {s t : State} (h : t.roll = s.roll) (a : Nat) : t.logicalOf a = s.logicalOf a := by
  rw [logicalOf, logicalOf, h]

/-- Settles O46: the requests are answered, then the snoops, and the interface is isolated. -/
theorem isolationAnswersEverything : Obligations.IsolationAnswersEverything := by
  unfold Obligations.IsolationAnswersEverything
  intro s a trigger kind hfree t
  obtain ⟨hrequests, hiface⟩ := s.answerAll_eq (a := a) (status := stTargetDead) (by decide)
  let miss (q : Pkt) : Pkt := { opc := 0x2D, dst := q.src, src := a, addr := q.addr, status := stTargetDead }
  have hsnoops := hrequests.trans (Answered.foldl_send a miss (s.iface a).snoops (s.answerAll a stTargetDead))
  have hdone := hsnoops.trans (.updIface a _ (fun x => { x with isolated := true, snoops := [] }))
  have ht : t = ((((s.iface a).snoops.foldl (fun u q => u.send (miss q)) (s.answerAll a stTargetDead)).updIface a
      (fun x => { x with isolated := true, snoops := [] })).raise 0x0004 3 a trigger kind) := by
    simp only [t, State.isolateOne, hfree, Bool.false_eq_true, if_false, miss]
  have hself : t.iface a = { s.iface a with inbound := [], blocked := [], sent := [], isolated := true, snoops := [] } := by
    rw [ht, State.raise_iface, State.iface_updIface, State.iface_foldl_send, hiface]
  rw [List.append_nil] at hdone
  refine ⟨by rw [hself], by rw [hself], by rw [hself], by rw [hself], ?out, ?event, ?others, ?dom, ?regs, ?mem⟩
  case out =>
    rw [ht, State.raise_com, hdone.out, requestAnswers]
    simp only [List.append_assoc]
    rfl
  case event =>
    rw [ht, State.raise, hdone.evq, hdone.time, State.logicalOf_congr hdone.roll]
  case others => exact fun b hb => by rw [ht, State.raise_iface, hdone.others b hb]
  case dom => rw [ht, State.raise_com, hdone.dom]
  case regs =>
    rw [ht]
    exact hdone.regs
  case mem => rw [ht, State.raise_mem, hdone.mem]

/-- What a choice gives is what one of its two sides gives. -/
theorem ite_eq_cases {α : Type} {c : Prop} [Decidable c] {a b x : α} (h : (if c then a else b) = x) : c ∧ a = x ∨ ¬c ∧ b = x := by
  by_cases hc : c
  · exact .inl ⟨hc, (if_pos hc).symm.trans h⟩
  · exact .inr ⟨hc, (if_neg hc).symm.trans h⟩

/-- The agents whose interfaces a release opens: a site's modules together (R67). -/
theorem mem_modules_of_site {a n : Nat} (h : kindOf a = .site n) : ∃ u, u < 8 ∧ a = moduleAgent n u := by
  unfold kindOf at h
  iterate 6 replace h := (ite_eq_cases h).resolve_left (fun hc => nomatch hc.2) |>.2
  obtain ⟨hrange, hn⟩ | hother := ite_eq_cases h
  · injection hn with hn
    simp only [Bool.and_eq_true, decide_eq_true_eq] at hrange
    exact ⟨(a - 0x100) % 8, Nat.mod_lt _ (by decide), by rw [moduleAgent]; omega⟩
  · iterate 5 replace hother := (ite_eq_cases hother.2).resolve_left (fun hc => nomatch hc.2)
    exact nomatch hother.2

/-- Interfaces that are changed alike one after the other. -/
theorem State.foldl_updIface_isolated (g : Nat → Nat) (l : List Nat) (s : State) {a : Nat} (h : a ∈ l.map g ∨ (s.iface a).isolated = false) :
    ((l.foldl (fun t u => t.updIface (g u) (fun i => { i with isolated := false })) s).iface a).isolated = false := by
  induction l generalizing s with
  | nil => simpa using h
  | cons u l ih =>
    refine ih _ ?_
    by_cases ha : a = g u
    · right
      rw [ha, iface_updIface]
    · rw [s.iface_updIface_other _ _ _ ha]
      simpa [ha] using h

theorem State.foldl_updIface_frame (g : Nat → Nat) (f : Iface → Iface) (l : List Nat) (s : State) :
    (l.foldl (fun t u => t.updIface (g u) f) s).com.dom = s.com.dom ∧ (l.foldl (fun t u => t.updIface (g u) f) s).mem = s.mem := by
  induction l generalizing s with
  | nil => exact ⟨rfl, rfl⟩
  | cons u l ih => exact ih _

/-- RELEASE of an agent of a domain that is OFF. -/
theorem State.isoRelease_of_off {s : State} {agent a d : Nat} (hphys : s.physOf agent = some a) (hdom : agentDom a = some d)
    (hoff : s.domSt d = domOff) : ((s.isoRelease agent).iface a).isolated = false ∧ (s.isoRelease agent).com.dom = s.com.dom ∧
      (s.isoRelease agent).mem = s.mem := by
  simp only [isoRelease, hphys, hdom, hoff, ne_eq, not_true_eq_false, if_false]
  split
  next n hsite =>
    obtain ⟨u, hu, ha⟩ := mem_modules_of_site hsite
    obtain ⟨hdoms, hmem⟩ := State.foldl_updIface_frame (moduleAgent n) (fun i => { i with isolated := false }) (List.range 8)
      (s.wr COM_ISO_CMD_AGENT 0 agent)
    refine ⟨State.foldl_updIface_isolated (moduleAgent n) (List.range 8) _ (.inl ?_), hdoms, hmem⟩
    exact List.mem_map.2 ⟨u, List.mem_range.2 hu, ha.symm⟩
  next => exact ⟨by rw [iface_updIface], rfl, rfl⟩

theorem State.rd_iso_rejected (s : State) : (s.wr COM_ISO_CMD_REJECTED 0 1).rd COM_ISO_CMD_REJECTED 0 = 1 :=
  s.rd_wr_same COM_ISO_CMD_REJECTED 0 1 (by decide) (by decide)

/-- Settles O48: the Vestry and the Reeve by ID, and the domain's state before any interface is opened. -/
theorem releaseNeedsPowerOff : Obligations.ReleaseNeedsPowerOff := by
  unfold Obligations.ReleaseNeedsPowerOff
  refine ⟨fun a s ha => ⟨_, ?keeper, State.rd_iso_rejected (s.wr COM_ISO_CMD_AGENT 0 a), rfl⟩,
    fun agent a d s hphys hdom hon => ⟨_, ?powered, State.rd_iso_rejected (s.wr COM_ISO_CMD_AGENT 0 agent), rfl⟩,
    fun agent a s hphys hdom => ⟨_, ?undomained, State.rd_iso_rejected (s.wr COM_ISO_CMD_AGENT 0 agent), rfl⟩,
    fun agent a d s hphys hdom hoff => ?off⟩
  case keeper =>
    show execIsoIsolate a s = _
    simp [execIsoIsolate, ha]
  case powered =>
    show execIsoRelease agent s = _
    simp [execIsoRelease, State.isoRelease, hphys, hdom, hon]
  case undomained =>
    show execIsoRelease agent s = _
    simp [execIsoRelease, State.isoRelease, hphys, hdom]
  case off =>
    obtain ⟨hreleased, hdoms, hmem⟩ := State.isoRelease_of_off hphys hdom hoff
    exact ⟨s.isoRelease agent, rfl, hreleased, (congrArg (SMap.getD · d domOff) hdoms).trans hoff, hdoms, hmem⟩

/-! ### The checks of a router input -/

theorem State.putOut_of_travels {s : State} {p : Pkt} (h : s.travels p = true) : s.putOut p = s := by
  simp [putOut, h]

theorem State.putOut_of_response {s : State} {p : Pkt} (h : 0x16 ≤ p.opc) : s.putOut p = s := by
  simp [putOut, h]

/-- Following a packet into a router's buffer changes the mesh and the turns of the output ports. -/
theorem State.hop_frame (s : State) (p : Pkt) (col row port : Nat) : s.hop p col row port =
    { s with com := { s.com with mesh := (s.hop p col row port).com.mesh, arb := (s.hop p col row port).com.arb } } := by
  rw [hop]
  split
  · rfl
  · split
    · rfl
    · simp only
      split <;> rfl

/-- Poisoning a packet that travels. -/
theorem State.spoil_of_mem {s : State} {p : Pkt} (h : p ∈ s.com.out) (col row port : Nat) : s.spoil p col row port =
    { s with com := { s.com with
        out := s.com.out.map (fun q => if q = p then { q with poison := true } else q)
        mesh := (s.spoil p col row port).com.mesh } } := by
  have hbad : (fun q => if q = p then { p with poison := true } else q) = (fun q => if q = p then { q with poison := true } else q) := by
    funext q
    split
    next hq => rw [hq]
    next => rfl
  simp [spoil, h, hbad]

/-- The fields of COM_ERR that the checks write. -/
def flitErrFields : List RF := [COM_ERR_HDR_UE, COM_ERR_PAY_UE, COM_ERR_HDR_FLAG, COM_ERR_LAST_ROW, COM_ERR_LAST_COL, COM_ERR_LAST_PORT]

theorem State.rd_wr_comErr (s : State) {f g : RF} (hf : f ∈ flitErrFields) (hg : g ∈ flitErrFields) (hne : f ≠ g) (x : Nat) :
    (s.wr f 0 x).rd g 0 = s.rd g 0 := by
  have hfields : ∀ f ∈ flitErrFields, ∀ g ∈ flitErrFields, f ≠ g →
      g.reg = f.reg ∧ f.lo ≤ f.hi ∧ g.lo ≤ g.hi ∧ (g.hi < f.lo ∨ f.hi < g.lo) := by decide
  obtain ⟨hreg, hflo, hglo, hd⟩ := hfields f hf g hg hne
  exact s.rd_wr_disjoint f g 0 x hreg hflo hglo hd

/-- A count that was raised. -/
theorem State.rd_inc_same (s : State) (f : RF) (i n : Nat) (hlo : f.lo ≤ f.hi) (h64 : f.hi < 64) :
    (s.inc f i n).rd f i = satAdd (s.rd f i) n f.top := by
  rw [inc, s.rd_wr_same f i _ hlo h64]
  have htop := satAdd_le (s.rd f i) n f.top
  have hpos := Nat.two_pow_pos (f.hi - f.lo + 1)
  exact Nat.mod_eq_of_lt (by rw [RF.top] at *; omega)

/-- The place of the latest error leaves the counts and the flag. -/
theorem State.rd_lastError (s : State) (row col port : Nat) {g : RF} (hg : g ∈ [COM_ERR_HDR_UE, COM_ERR_PAY_UE, COM_ERR_HDR_FLAG]) :
    (s.lastError row col port).rd g 0 = s.rd g 0 := by
  have hmem : g ∈ flitErrFields ∧ COM_ERR_LAST_ROW ≠ g ∧ COM_ERR_LAST_COL ≠ g ∧ COM_ERR_LAST_PORT ≠ g := by
    revert g
    decide
  obtain ⟨hfield, hrow, hcol, hport⟩ := hmem
  rw [lastError, rd_wr_comErr _ (by decide) hfield hport, rd_wr_comErr _ (by decide) hfield hcol, rd_wr_comErr _ (by decide) hfield hrow]

theorem State.rd_lastError_place (s : State) (row col port : Nat) :
    (s.lastError row col port).rd COM_ERR_LAST_ROW 0 = row % 16 ∧ (s.lastError row col port).rd COM_ERR_LAST_COL 0 = col % 8 ∧
    (s.lastError row col port).rd COM_ERR_LAST_PORT 0 = port % 8 := by
  refine ⟨?_, ?_, State.rd_wr_same _ COM_ERR_LAST_PORT 0 port (by decide) (by decide)⟩
  · rw [lastError, rd_wr_comErr _ (by decide) (by decide) (by decide), rd_wr_comErr _ (by decide) (by decide) (by decide)]
    exact s.rd_wr_same COM_ERR_LAST_ROW 0 row (by decide) (by decide)
  · rw [lastError, rd_wr_comErr _ (by decide) (by decide) (by decide)]
    exact State.rd_wr_same _ COM_ERR_LAST_COL 0 col (by decide) (by decide)

/-- What a header error leaves in COM_ERR after the packet was dropped. -/
def State.headerError (s : State) (row col port : Nat) : State :=
  ((s.inc COM_ERR_HDR_UE 0 1).wr COM_ERR_HDR_FLAG 0 1).lastError row col port

theorem State.rd_headerError (s : State) (row col port : Nat) :
    (s.headerError row col port).rd COM_ERR_HDR_UE 0 = satAdd (s.rd COM_ERR_HDR_UE 0) 1 COM_ERR_HDR_UE.top ∧
    (s.headerError row col port).rd COM_ERR_HDR_FLAG 0 = 1 := by
  rw [headerError, rd_lastError _ _ _ _ (by decide), rd_lastError _ _ _ _ (by decide), rd_wr_comErr _ (by decide) (by decide) (by decide)]
  exact ⟨s.rd_inc_same COM_ERR_HDR_UE 0 1 (by decide) (by decide), State.rd_wr_same _ COM_ERR_HDR_FLAG 0 1 (by decide) (by decide)⟩

/-- The event of a header error. -/
def State.headerErrorRaised (s : State) (row col port : Nat) : State :=
  (s.headerError row col port).raise 0x0001 4 noAgent (((s.headerError row col port).reg COM_ERR 0).toNat / 32 % 1024)

/-- The packet of a payload error goes on, poisoned. -/
def State.payloadError (s : State) (p : Pkt) (row col port : Nat) : State :=
  (((s.inc COM_ERR_PAY_UE 0 1).lastError row col port).spoil p col row port).hop { p with poison := true } col row port

/-- What FLIT_RECEIVE does with a flit of a packet that travels, on its path. -/
theorem execFlitReceive_of_mem {p : Pkt} {s : State} {row col port : Nat} (hp : p ∈ s.com.out)
    (hpath : (col, row, port) ∈ pathOf p.src (goalOf p)) (code : FlitCode) : execFlitReceive code row col port p s = .next (match code with
      | .good => s.hop p col row port
      | .single => (s.hop p col row port).inc COM_ERR_CORR 0 1
      | .payloadDouble => s.payloadError p row col port
      | .headerDouble => (s.take p).headerErrorRaised row col port) := by
  have htravels : s.travels p = true := by simp [State.travels, hp]
  cases code <;>
    simp [execFlitReceive, State.putOut_of_travels htravels, htravels, hp, hpath, State.dropFlit, State.payloadError, State.headerErrorRaised, State.headerError]

/-- What FLIT_RECEIVE does with a flit of a response while nothing travels. -/
theorem execFlitReceive_of_response {p : Pkt} {s : State} {row col port : Nat} (hout : s.com.out = []) (hcasts : s.com.casts = [])
    (hopc : 0x16 ≤ p.opc) (code : FlitCode) : execFlitReceive code row col port p s = .next (match code with
      | .good => s
      | .single => s.inc COM_ERR_CORR 0 1
      | .payloadDouble => (s.inc COM_ERR_PAY_UE 0 1).lastError row col port
      | .headerDouble => s.headerErrorRaised row col port) := by
  have htravels : s.travels p = false := by simp [State.travels, hout, hcasts]
  cases code <;>
    simp [execFlitReceive, State.putOut_of_response hopc, htravels, hout, hcasts, State.headerErrorRaised, State.headerError]

theorem State.rd_headerErrorRaised (s : State) (row col port : Nat) (g : RF) (i : Nat) :
    (s.headerErrorRaised row col port).rd g i = (s.headerError row col port).rd g i := by
  rw [headerErrorRaised, raise_rd]

theorem State.headerErrorRaised_com (s : State) (row col port : Nat) : (s.headerErrorRaised row col port).com = s.com := rfl
theorem State.headerErrorRaised_mem (s : State) (row col port : Nat) : (s.headerErrorRaised row col port).mem = s.mem := rfl

theorem State.headerErrorRaised_evq (s : State) (row col port : Nat) :
    ∃ e, (s.headerErrorRaised row col port).evq = s.evq ++ [e] ∧ e.code = 0x0001 ∧ e.sev = 4 := ⟨_, rfl, rfl, rfl⟩

theorem State.payloadError_com (s : State) {p : Pkt} (hp : p ∈ s.com.out) (row col port : Nat) :
    (s.payloadError p row col port).com.out = s.com.out.map (fun q => if q = p then { q with poison := true } else q) ∧
    (s.payloadError p row col port).com.ifaces = s.com.ifaces ∧ (s.payloadError p row col port).com.dom = s.com.dom := by
  rw [payloadError, hop_frame, spoil_of_mem (s := (s.inc COM_ERR_PAY_UE 0 1).lastError row col port) hp]
  exact ⟨rfl, rfl, rfl⟩

theorem State.payloadError_frame (s : State) {p : Pkt} (hp : p ∈ s.com.out) (row col port : Nat) :
    (s.payloadError p row col port).regs = ((s.inc COM_ERR_PAY_UE 0 1).lastError row col port).regs ∧
    (s.payloadError p row col port).mem = s.mem ∧ (s.payloadError p row col port).evq = s.evq := by
  rw [payloadError, hop_frame, spoil_of_mem (s := (s.inc COM_ERR_PAY_UE 0 1).lastError row col port) hp]
  exact ⟨rfl, rfl, rfl⟩

theorem State.rd_payloadError (s : State) {p : Pkt} (hp : p ∈ s.com.out) (row col port : Nat) :
    (s.payloadError p row col port).rd COM_ERR_PAY_UE 0 = satAdd (s.rd COM_ERR_PAY_UE 0) 1 COM_ERR_PAY_UE.top := by
  rw [State.rd_congr (s.payloadError_frame hp row col port).1, rd_lastError _ _ _ _ (by decide)]
  exact s.rd_inc_same COM_ERR_PAY_UE 0 1 (by decide) (by decide)

/-- Settles O45: the outcomes of the checks, then what each leaves in COM_ERR and on the Commons. -/
theorem flitChecksAct : Obligations.FlitChecksAct := by
  unfold Obligations.FlitChecksAct
  refine ⟨fun row col port p s hp hpath => ?travelling, fun row col port p s hout hcasts hopc => ?response⟩
  case travelling =>
    have hexec := execFlitReceive_of_mem hp hpath
    refine ⟨hexec .good, hexec .single, ⟨s.payloadError p row col port, hexec .payloadDouble, ?payload⟩,
      ⟨(s.take p).headerErrorRaised row col port, hexec .headerDouble, ?header⟩⟩
    case payload =>
      obtain ⟨hout, hifaces, hdom⟩ := s.payloadError_com hp row col port
      obtain ⟨-, hmem, hevq⟩ := s.payloadError_frame hp row col port
      exact ⟨hout, s.rd_payloadError hp row col port, hifaces, hdom, hmem, hevq⟩
    case header =>
      obtain ⟨hcount, hflag⟩ := (s.take p).rd_headerError row col port
      obtain ⟨hrow, hcol, hport⟩ := (((s.take p).inc COM_ERR_HDR_UE 0 1).wr COM_ERR_HDR_FLAG 0 1).rd_lastError_place row col port
      simp only [State.rd_headerErrorRaised, State.headerErrorRaised_com, State.headerErrorRaised_mem]
      exact ⟨s.take_out p, hcount, hflag, hrow, hcol, hport, (s.take p).headerErrorRaised_evq row col port, rfl, rfl, rfl⟩
  case response =>
    have hexec := @execFlitReceive_of_response p s row col port hout hcasts hopc
    have hflag : (s.headerErrorRaised row col port).rd COM_ERR_HDR_FLAG 0 = 1 := by
      rw [State.rd_headerErrorRaised, (s.rd_headerError row col port).2]
    exact ⟨hexec .good, hexec .single, hexec .payloadDouble, ⟨s.headerErrorRaised row col port, hexec .headerDouble, rfl, hflag⟩⟩

/-! ### Register reads -/

/-- From `s` to `t` at most the Ledger, the counter of free values, and the registers that count refusals and dropped records have changed. -/
structure ReadFrame (s t : State) : Prop where
  rest : t = { s with regs := t.regs, ledger := t.ledger, free := t.free }
  regs : ∀ (r : RegDef) (i : Nat), r.off i ≠ VST_STAT.off 0 → r.off i ≠ LDG_STAT.off 0 → t.reg r i = s.reg r i

theorem ReadFrame.refl (s : State) : ReadFrame s s := ⟨rfl, fun _ _ _ _ => rfl⟩

theorem ReadFrame.trans {s t u : State} (h : ReadFrame s t) (h' : ReadFrame t u) : ReadFrame s u where
  rest := by
    rw [h'.rest, h.rest]
  regs r i hv hl := (h'.regs r i hv hl).trans (h.regs r i hv hl)

theorem ReadFrame.fresh (s : State) (n : Nat) : ReadFrame s (s.fresh n) := ⟨rfl, fun _ _ _ _ => rfl⟩

/-- A record changes the Ledger. -/
theorem ReadFrame.ledger (s : State) (l : Ledger) : ReadFrame s { s with ledger := l } := ⟨rfl, fun _ _ _ _ => rfl⟩

theorem ReadFrame.dropped (s : State) : ReadFrame s (s.inc LDG_STAT_DROPPED 0 1) :=
  ⟨rfl, fun r _ _ hl => s.reg_wr_other LDG_STAT_DROPPED r _ hl⟩

theorem ReadFrame.refusals (s : State) : ReadFrame s (s.inc VST_STAT_REFUSALS 0 1) :=
  ⟨rfl, fun r _ hv _ => s.reg_wr_other VST_STAT_REFUSALS r _ hv⟩

theorem ReadFrame.ledgerPut (s : State) (r : LedgerRec) : ReadFrame s (s.ledgerPut r) := by
  rw [State.ledgerPut]
  split
  · exact .dropped s
  · exact .ledger s _

theorem ReadFrame.checkpoint (s : State) : ReadFrame s s.checkpoint := by
  refine ReadFrame.trans ?_ (.ledger _ _)
  split
  · exact ((ReadFrame.ledgerPut s _).trans (.ledgerPut _ _)).trans (.ledgerPut _ _)
  · exact .ledgerPut s _

theorem ReadFrame.ledgerAdd (s : State) (r : LedgerRec) : ReadFrame s (s.ledgerAdd r) := by
  rw [State.ledgerAdd]
  split
  · exact (ReadFrame.ledgerPut s r).trans (.checkpoint _)
  · exact .ledgerPut s r

theorem ReadFrame.ledgerRefusal (s : State) (path tenant hpa : Nat) : ReadFrame s (s.ledgerRefusal path tenant hpa) := by
  refine (ReadFrame.refusals s).trans ?_
  rw [State.ledgerRefusal]
  simp only
  split
  · exact .ledger _ _
  · exact .ledgerAdd _ _

/-- A register read advances the free values where END_OF_LIFE hides the register, records a refusal where a sealed tenant's result is read, and changes
nothing otherwise. -/
theorem ReadFrame.regRead (s : State) (off size : Nat) : ReadFrame s (s.regRead off size).2.2 := by
  simp only [State.regRead]
  split
  · exact .refl s
  split
  · exact .refl s
  split
  · exact .refl s
  · exact .refl s
  · split
    · exact .fresh s size
    · split
      · exact .ledgerRefusal s _ _ _
      · exact .refl s

/-- Settles O50. -/
theorem registerReadsChangeNothing : Obligations.RegisterReadsChangeNothing := by
  unfold Obligations.RegisterReadsChangeNothing
  intro s off size
  obtain ⟨hrest, hregs⟩ := ReadFrame.regRead s off size
  refine ⟨?_, ?_, ?_, ?_, ?_, ?_, ?_, hregs⟩ <;> rw [hrest]

end Sys2Proof.Machine
end

section
/-!
PROOFS. The system instructions of a tile (07_loom_model.md R201, R202, R205, R223, R234; 08_loom_isa.md R248, R262): each is taken by a core that is ready,
and what it then does to the tile.
-/

namespace Sys2Proof.Machine

open Sys2Proof.Safety

/-! ### A core that takes an instruction -/

theorem TakesInstruction.wait_eq_none {s : State} {t len : Nat} (h : TakesInstruction s t len) : (s.tile t).wait = none := by
  have hready := h.1
  simp only [Tile.ready, Bool.and_eq_true, Option.isNone_iff_eq_none] at hready
  exact hready.1.2

theorem TakesInstruction.vtrap_eq_none {s : State} {t len : Nat} (h : TakesInstruction s t len) : (s.tile t).vtrap = none := h.2.1

/-- An instruction of custom-0 whose unused fields are 0, at a core that takes it. -/
theorem State.core32_next {s : State} {t : Nat} (f3 f7 rd r1 r2 : Nat) (f : State → State) (h : TakesInstruction s t 4)
    (hq : (s.tile t).vq.length < 16) : s.core32 t f3 f7 rd r1 r2 true false f = f s := by
  simp [core32, s.xcore_next t 4 _ h hq]

/-- The same behind the vector unit. -/
theorem State.core32_waiting {s : State} {t : Nat} (f3 f7 rd r1 r2 : Nat) (f : State → State) (h : TakesInstruction s t 4)
    (hd : TakesInstruction (s.lanesDrain t) t 4) : s.core32 t f3 f7 rd r1 r2 true true f = f (s.lanesDrain t) := by
  simp [core32, s.waiting_next t 4 _ h hd]

/-! ### Entering the queue -/

/-- From `s` to `u` nothing but tile `t` has changed. -/
def State.OnlyTile (s u : State) (t : Nat) : Prop := (∀ k, k ≠ t → u.tile k = s.tile k) ∧ u = { s with tiles := u.tiles }

theorem State.updTile_onlyTile (s : State) (t : Nat) (f : Tile → Tile) : s.OnlyTile (s.updTile t f) t :=
  ⟨fun k hk => s.tile_updTile_other t k f hk, rfl⟩

theorem State.OnlyTile.updTile {s u : State} {t : Nat} (h : s.OnlyTile u t) (f : Tile → Tile) : s.OnlyTile (u.updTile t f) t := by
  obtain ⟨hother, hframe⟩ := h
  refine ⟨fun k hk => (u.tile_updTile_other t k f hk).trans (hother k hk), ?_⟩
  have hstep : ∀ tiles, ({ u with tiles := tiles } : State) = { s with tiles := tiles } := by
    rw [hframe]
    exact fun _ => rfl
  exact hstep _

theorem State.enqueue_entered (s : State) (t len : Nat) (e : VqEntry) : Entered s (s.enqueue t len e) t len (s.tile t).lsridx e :=
  ⟨by simp [enqueue, advance], (s.updTile_onlyTile t _).updTile _⟩

theorem State.advanceRsr_enqueue_entered (s : State) (t len n : Nat) (e : VqEntry) :
    Entered s ((s.advanceRsr t n).enqueue t len e) t len (((s.tile t).lsridx + n) % 2 ^ 64) e :=
  ⟨by simp [enqueue, advance, advanceRsr], ((s.updTile_onlyTile t _).updTile _).updTile _⟩

/-- A queue instruction enters with x[rs1]. -/
theorem State.queue32_entered {s : State} {t : Nat} (f3 f7 rd rs1 rs2 : Nat) (h : TakesInstruction s t 4) (hq : (s.tile t).vq.length < 16) :
    Entered s (s.queue32 t f3 f7 rd rs1 rs2) t 4 (s.tile t).lsridx
      { off := s.offOf t (s.tile t).pc, ins := .q32 f3 f7 rd rs1 rs2 [] false, c := { x1 := (s.tile t).xr rs1 } } := by
  rw [queue32, s.xcore_next t 4 _ h hq]
  exact s.enqueue_entered t 4 _

/-! ### Writes of an integer register -/

/-- A tile whose integer register takes the result of an instruction of `len` bytes. -/
theorem State.retire_tile_other (s : State) {t k : Nat} (rd v len : Nat) (h : k ≠ t) : (s.retire t rd v len).tile k = s.tile k :=
  s.tile_updTile_other _ _ _ h

/-- A trap that a vector instruction makes pending discards the queue; a core that waits for no event stays as it is. -/
theorem State.vtrap_of_no_event {s : State} {t : Nat} (cause detail off : Nat) (h : (s.tile t).wait = none) :
    s.vtrap t cause detail off = s.updTile t (fun x => { x with
      lvepc := off % 2 ^ 21, trapRun := false, trapDetail := detail, trapIter := 0, trapUop := 0, lvdisc := (s.tile t).vq.length, vq := []
      vtrap := some cause }) := by
  simp [vtrap, h]

/-- The parts of a tile that the flags of an instruction leave alone. -/
def Tile.SameBut (x y : Tile) (flags : Nat) : Prop :=
  y.x = x.x ∧ y.pc = x.pc ∧ y.lflags = x.lflags ||| flags ∧ y.acc = x.acc ∧ y.v = x.v ∧ y.vp = x.vp ∧ y.vm = x.vm

/-- Flags accrue, and raise at most a pending trap. -/
theorem State.accrue_effect {s : State} {t : Nat} (flags off : Nat) (h : (s.tile t).wait = none) :
    (s.tile t).SameBut ((s.accrue t flags off).tile t) flags ∧ (∀ k, k ≠ t → (s.accrue t flags off).tile k = s.tile k) ∧
    (s.accrue t flags off).mem = s.mem ∧ (s.accrue t flags off).com = s.com := by
  rw [accrue]
  split
  · rw [vtrap_of_no_event _ _ _ (by simpa using h)]
    refine ⟨by simp [Tile.SameBut], fun k hk => ?_, by simp, by simp⟩
    rw [tile_updTile_other _ _ _ _ hk, tile_updTile_other _ _ _ _ hk]
  · exact ⟨by simp [Tile.SameBut], fun k hk => tile_updTile_other _ _ _ _ hk, updTile_mem _ _ _, updTile_com _ _ _⟩

theorem Tile.xr_congr {x y : Tile} (h : y.x = x.x) (r : Nat) : y.xr r = x.xr r := by rw [Tile.xr, Tile.xr, h]

theorem Tile.xr_setX_pc (x : Tile) (rd v pc r : Nat) : ({ x.setX rd v with pc := pc } : Tile).xr r = (x.setX rd v).xr r := rfl

/-- From `d` to `u` an instruction of 4 bytes has written integer register `rd` and raised flags; vector state, other tiles, memory and the Commons stay. -/
structure WroteInt (d u : State) (t rd v fl : Nat) : Prop where
  written : rd % 32 ≠ 0 → (u.tile t).xr rd = v % 2 ^ 64
  others : ∀ r, r % 32 ≠ rd % 32 → (u.tile t).xr r = (d.tile t).xr r
  pc : (u.tile t).pc = ((d.tile t).pc + 4) % 2 ^ 64
  lflags : (u.tile t).lflags = (d.tile t).lflags ||| fl
  acc : (u.tile t).acc = (d.tile t).acc
  v : (u.tile t).v = (d.tile t).v
  vm : (u.tile t).vm = (d.tile t).vm
  tiles : ∀ k, k ≠ t → u.tile k = d.tile k
  mem : u.mem = d.mem
  com : u.com = d.com

theorem Tile.setX_fields (x : Tile) (rd v : Nat) : (x.setX rd v).pc = x.pc ∧ (x.setX rd v).lflags = x.lflags ∧ (x.setX rd v).acc = x.acc ∧
    (x.setX rd v).v = x.v ∧ (x.setX rd v).vm = x.vm ∧ (x.setX rd v).wait = x.wait := by
  rw [x.setX_frame]
  exact ⟨rfl, rfl, rfl, rfl, rfl, rfl⟩

theorem WroteInt.retire (d : State) (t rd v : Nat) : WroteInt d (d.retire t rd v 4) t rd v 0 := by
  obtain ⟨-, hlflags, hacc, hv, hvm, -⟩ := (d.tile t).setX_fields rd v
  have htile := d.tile_retire_same t rd v 4
  constructor
  case written =>
    intro h
    rw [htile, Tile.xr_setX_pc, Tile.xr_setX_same _ v h]
  case others =>
    intro r h
    rw [htile, Tile.xr_setX_pc, Tile.xr_setX_other _ v h]
  case pc => rw [htile]
  case lflags => rw [htile, Nat.or_zero, hlflags]
  case acc => rw [htile, hacc]
  case v => rw [htile, hv]
  case vm => rw [htile, hvm]
  case tiles => exact fun k hk => d.retire_tile_other rd v 4 hk
  case mem => rfl
  case com => rfl

theorem State.retire_wait (d : State) (t rd v len : Nat) : ((d.retire t rd v len).tile t).wait = (d.tile t).wait := by
  rw [d.tile_retire_same t rd v len]
  exact ((d.tile t).setX_fields rd v).2.2.2.2.2

/-- A result with flags of its rounding. -/
theorem WroteInt.accrue {d : State} {t : Nat} (rd v fl off : Nat) (h : (d.tile t).wait = none) :
    WroteInt d ((d.retire t rd v 4).accrue t fl off) t rd v fl := by
  have hw := WroteInt.retire d t rd v
  obtain ⟨⟨hx, hpc, hfl, hacc, hv, -, hvm⟩, htiles, hmem, hcom⟩ := State.accrue_effect (s := d.retire t rd v 4) fl off
    ((d.retire_wait t rd v 4).trans h)
  constructor
  case written => exact fun hr => (Tile.xr_congr hx rd).trans (hw.written hr)
  case others => exact fun r hr => (Tile.xr_congr hx r).trans (hw.others r hr)
  case pc => rw [hpc, hw.pc]
  case lflags => rw [hfl, hw.lflags, Nat.or_zero]
  case acc => rw [hacc, hw.acc]
  case v => rw [hv, hw.v]
  case vm => rw [hvm, hw.vm]
  case tiles => exact fun k hk => (htiles k hk).trans (hw.tiles k hk)
  case mem => exact hmem
  case com => exact hcom

/-- Where an index is not defined the answer is a free value (log entry 41). -/
theorem WroteInt.fresh {d u : State} {t rd v fl : Nat} (h : WroteInt d u t rd v fl) : WroteInt d u.fresh t rd v fl :=
  ⟨h.written, h.others, h.pc, h.lflags, h.acc, h.v, h.vm, h.tiles, h.mem, h.com⟩

/-- What an accumulator that is not poisoned reads as. -/
theorem State.lrread_eq {u : State} {t rs1 : Nat} (rd : Nat) (index : Bool) (h3 : rs1 ≤ 3)
    (hp : (SMap.getD (u.tile t).acc rs1 {}).poison = false) : u.lrread t rd rs1 0 index =
      let x := u.tile t
      let acc := SMap.getD x.acc rs1 {}
      let r := acc.read (x.elt acc.fmt) ((rmOf .rne x.lrm).getD .rne) (rsrWord x.lseed x.lsridx)
      if index then
        (if acc.op = 5 ∨ acc.op = 6 then u.retire t rd (if acc.any then acc.idx else 2 ^ 64 - 1) 4 else (u.retire t rd u.freeNat 4).fresh)
      else (u.retire t rd r.1 4).accrue t r.2 (u.offOf t x.pc) := by
  have hlow : ¬(3 < rs1) := Nat.not_lt.2 h3
  simp [lrread, hlow, hp, Accum.readIdx]

/-! ### The end of a kernel -/

/-- An interface at which nothing is outstanding, waits or is to be fenced. -/
structure Iface.Quiet (i : Iface) : Prop where
  outstanding : i.outstanding = []
  waiting : i.waiting = []
  fences : i.fences = []
  posted : i.posted = []

/-- A fence that starts at a quiet interface sends nothing. -/
theorem State.startFence_of_quiet {s : State} {a : Nat} (stream : Nat) (remote : Bool) (h : (s.iface a).Quiet) :
    s.startFence a stream remote = s.updIface a (fun i => { i with
      posted := i.posted.filter (fun e => !(decide (e.1 = stream) && false))
      fences := i.fences ++ [(stream, remote)] }) := by
  simp [startFence, beginFence, streamHeld, h.waiting, h.fences, h.posted]

/-- A fence ends at once where nothing is outstanding and nothing waits. -/
theorem State.endFence_of_done {s : State} {a stream : Nat} {remote : Bool} (hfences : (s.iface a).fences = [(stream, remote)])
    (hout : (s.iface a).outstanding = []) (hwait : (s.iface a).waiting = []) :
    s.endFence a stream = s.updIface a (fun i => { i with fences := i.fences.erase (stream, remote) }) := by
  simp [endFence, hfences, fenceDone, hout, hwait, releaseWaiting, reissue]

/-- The fence of a core at a quiet interface leaves it quiet, and puts nothing on the Commons. -/
theorem State.coreFence_of_quiet {s : State} {t : Nat} (remote : Bool) (h : (s.iface (tileAgent t)).Quiet) :
    ((s.coreFence t remote).iface (tileAgent t)).Quiet ∧ (s.coreFence t remote).tiles = s.tiles ∧ (s.coreFence t remote).regs = s.regs ∧
    (s.coreFence t remote).mem = s.mem ∧ (s.coreFence t remote).com.out = s.com.out := by
  have hpend (f : Iface → Iface) (hf : (f (s.iface (tileAgent t))).fences = [(0, remote)]) (ho : (f (s.iface (tileAgent t))).outstanding = [])
      (hw : (f (s.iface (tileAgent t))).waiting = []) : (s.updIface (tileAgent t) f).settleFence (tileAgent t) =
        (s.updIface (tileAgent t) f).updIface (tileAgent t) (fun i => { i with fences := i.fences.erase (0, remote) }) := by
    rw [settleFence, iface_updIface, hf, List.foldl_cons, List.foldl_nil]
    exact State.endFence_of_done (by rw [iface_updIface, hf]) (by rw [iface_updIface, ho]) (by rw [iface_updIface, hw])
  rw [coreFence, State.startFence_of_quiet 0 remote h, hpend _ (by simp [h.fences]) h.outstanding h.waiting]
  refine ⟨?_, by rw [updIface_tiles, updIface_tiles], by rw [updIface_regs, updIface_regs], by rw [updIface_mem, updIface_mem],
    by rw [updIface_com_out, updIface_com_out]⟩
  rw [iface_updIface, iface_updIface]
  exact ⟨h.outstanding, h.waiting, by simp [h.fences], by simp [h.posted]⟩

/-- The fields of LOOM_LAST that the end of a kernel writes, in the order in which it writes them. -/
def loomLastFields : List RF :=
  [LOOM_LAST_ITEM, LOOM_LAST_MCAUSE, LOOM_LAST_VALID, LOOM_LAST_POISON, LOOM_LAST_LGERR, LOOM_LAST_OFFSET]

theorem State.rd_wr_loomLast (s : State) {f g : RF} (hf : f ∈ loomLastFields) (hg : g ∈ loomLastFields) (hne : f ≠ g) (t x : Nat) :
    (s.wr f t x).rd g t = s.rd g t := by
  have hfields : ∀ f ∈ loomLastFields, ∀ g ∈ loomLastFields, f ≠ g →
      g.reg = f.reg ∧ f.lo ≤ f.hi ∧ g.lo ≤ g.hi ∧ (g.hi < f.lo ∨ f.hi < g.lo) := by decide
  obtain ⟨hreg, hflo, hglo, hd⟩ := hfields f hf g hg hne
  exact s.rd_wr_disjoint f g t x hreg hflo hglo hd

/-- The registers of a tile lie at different offsets. -/
theorem loomRegs_off_ne {q r : RegDef} (hq : q ∈ [LOOM_STAT, LOOM_LAST, LOOM_RESULT, LOOM_CNT])
    (hr : r ∈ [LOOM_STAT, LOOM_LAST, LOOM_RESULT, LOOM_CNT]) (hne : q ≠ r) (t : Nat) : q.off t ≠ r.off t := by
  have hdefs : ∀ q ∈ [LOOM_STAT, LOOM_LAST, LOOM_RESULT, LOOM_CNT], q.far = true ∧ q.dims = [(0x10000, 68)] ∧ q.first = 0 ∧
      0x800000 ≤ q.base := by decide
  have hbases : ∀ q ∈ [LOOM_STAT, LOOM_LAST, LOOM_RESULT, LOOM_CNT], ∀ r ∈ [LOOM_STAT, LOOM_LAST, LOOM_RESULT, LOOM_CNT],
      q ≠ r → q.base ≠ r.base := by decide
  obtain ⟨hqfar, hqdims, hqfirst, hqbase⟩ := hdefs q hq
  obtain ⟨hrfar, hrdims, hrfirst, hrbase⟩ := hdefs r hr
  have hbase := hbases q hq r hr hne
  simp only [RegDef.off, hqfar, hrfar, hqdims, hrdims, hqfirst, hrfirst]
  split <;> omega

theorem State.rd_wr_loomOther (s : State) {f g : RF} (hf : f.reg ∈ [LOOM_STAT, LOOM_LAST, LOOM_RESULT, LOOM_CNT])
    (hg : g.reg ∈ [LOOM_STAT, LOOM_LAST, LOOM_RESULT, LOOM_CNT]) (hne : g.reg ≠ f.reg) (t x : Nat) : (s.wr f t x).rd g t = s.rd g t := by
  rw [State.rd, State.rd, s.reg_wr_other f g.reg x (loomRegs_off_ne hg hf hne t)]

/-- What the registers of a tile tell of a kernel that has ended. -/
def State.kernelTold (s : State) (t item mcause off result lastEnd : Nat) : State :=
  ((((((((s.wr LOOM_LAST_ITEM t item).wr LOOM_LAST_MCAUSE t mcause).wr LOOM_LAST_VALID t 1).wr LOOM_LAST_POISON t 0).wr LOOM_LAST_LGERR t 0).wr
    LOOM_LAST_OFFSET t off).wr LOOM_RESULT_RESULT t result).wr LOOM_STAT_LAST_END t lastEnd).inc LOOM_CNT_KERNELS t 1

theorem State.kernelTold_frame (s : State) (t item mcause off result lastEnd : Nat) : let u := s.kernelTold t item mcause off result lastEnd
    u.tiles = s.tiles ∧ u.mem = s.mem ∧ u.com = s.com := ⟨rfl, rfl, rfl⟩

theorem State.rd_kernelTold (s : State) (t item mcause off result lastEnd : Nat) :
    let u := s.kernelTold t item mcause off result lastEnd
    u.rd LOOM_LAST_ITEM t = item % 2 ^ 32 ∧ u.rd LOOM_LAST_VALID t = 1 ∧ u.rd LOOM_LAST_OFFSET t = off % 2 ^ 21 ∧
    u.rd LOOM_RESULT_RESULT t = result % 2 ^ 64 ∧ u.rd LOOM_STAT_LAST_END t = lastEnd % 2 ^ 3 := by
  refine ⟨?item, ?valid, ?offset, ?result, ?stat⟩
  case item | valid | offset =>
    rw [kernelTold, inc, rd_wr_loomOther _ (by decide) (by decide) (by decide), rd_wr_loomOther _ (by decide) (by decide) (by decide),
      rd_wr_loomOther _ (by decide) (by decide) (by decide)]
    simp (disch := decide) only [rd_wr_loomLast, rd_wr_same]
    rfl
  case result =>
    rw [kernelTold, inc, rd_wr_loomOther _ (by decide) (by decide) (by decide), rd_wr_loomOther _ (by decide) (by decide) (by decide)]
    exact State.rd_wr_same _ LOOM_RESULT_RESULT t _ (by decide) (by decide)
  case stat =>
    rw [kernelTold, inc, rd_wr_loomOther _ (by decide) (by decide) (by decide)]
    exact State.rd_wr_same _ LOOM_STAT_LAST_END t _ (by decide) (by decide)

/-- A tile whose kernel has ended. -/
def endedTile (x : Tile) : Tile := { x with run := none, wait := none, vtrap := none, vq := [], resv := none }

/-- The end of a kernel that has seen neither poison nor an error of an access, and was not stopped. -/
theorem State.endKernel_eq {s : State} {t : Nat} {r : Launch} (fate status result lastEnd mcause off : Nat) (hrun : (s.tile t).run = some r)
    (hpoison : (s.tile t).poisonSeen = false) (herr : (s.tile t).errValid = false) :
    s.endKernel t fate status result lastEnd mcause off true false =
      ((s.updTile t endedTile).kernelTold t r.item mcause off
        result lastEnd).send (completionPkt (tileAgent t) r.item fate status true result) := by
  simp [endKernel, hrun, hpoison, herr, kernelTold]
  rfl

/-- From `s` to `u` the kernel `r` of tile `t` has ended: the tile's registers tell of it, and one completion event leaves (R234). -/
structure KernelEnded (s u : State) (t : Nat) (r : Launch) (fate status value lastEnd off : Nat) : Prop where
  run : (u.tile t).run = none
  wait : (u.tile t).wait = none
  x : (u.tile t).x = (s.tile t).x
  v : (u.tile t).v = (s.tile t).v
  mem : u.mem = s.mem
  tiles : ∀ k, k ≠ t → u.tile k = s.tile k
  told : u.rd LOOM_LAST_ITEM t = r.item % 2 ^ 32 ∧ u.rd LOOM_LAST_VALID t = 1 ∧ u.rd LOOM_LAST_OFFSET t = off % 2 ^ 21 ∧
    u.rd LOOM_RESULT_RESULT t = value % 2 ^ 64 ∧ u.rd LOOM_STAT_LAST_END t = lastEnd % 2 ^ 3
  out : u.com.out = s.com.out ++ [completionPkt (tileAgent t) r.item fate status true value]

theorem State.tile_congr {s u : State} (h : u.tiles = s.tiles) (k : Nat) : u.tile k = s.tile k := by rw [tile, tile, h]

/-- A tile that waits for its kernel to end, at a quiet interface. -/
theorem KernelEnded.tryEnd {s : State} {t : Nat} {r : Launch} {fate status value lastEnd off : Nat} (hrun : (s.tile t).run = some r)
    (hwait : (s.tile t).wait = some (.ending fate status value lastEnd 0 off)) (hpoison : (s.tile t).poisonSeen = false)
    (herr : (s.tile t).errValid = false) (hquiet : (s.iface (tileAgent t)).Quiet) (hdown : status ≠ stDomainDown)
    (hcancelled : status ≠ stCancelled) : KernelEnded s (s.tryEnd t) t r fate status value lastEnd off := by
  have hend : s.tryEnd t = ((s.updTile t endedTile).kernelTold t
      r.item 0 off value lastEnd).send (completionPkt (tileAgent t) r.item fate status true value) := by
    rw [← State.endKernel_eq fate status value lastEnd 0 off hrun hpoison herr]
    simp [State.tryEnd, hwait, hquiet.outstanding, hquiet.waiting, hquiet.fences, hdown, hcancelled]
  obtain ⟨htiles, hmem, hcom⟩ := (s.updTile t endedTile).kernelTold_frame t r.item 0 off value lastEnd
  have htile : (s.tryEnd t).tile t = endedTile (s.tile t) := by
    rw [hend, State.tile_congr (State.send_tiles _ _), State.tile_congr htiles, State.tile_updTile]
  constructor
  case run | wait | x | v => rw [htile, endedTile]
  case mem => rw [hend, State.send_mem, hmem, State.updTile_mem]
  case tiles =>
    intro k hk
    rw [hend, State.tile_congr (State.send_tiles _ _), State.tile_congr htiles, State.tile_updTile_other _ _ _ _ hk]
  case told =>
    rw [hend, State.send_rd, State.send_rd, State.send_rd, State.send_rd, State.send_rd]
    exact (s.updTile t endedTile).rd_kernelTold t r.item 0 off value lastEnd
  case out => rw [hend, State.send_out, hcom, State.updTile_com]

/-- A kernel that its core ends while nothing is outstanding ends at once. -/
theorem KernelEnded.finishKernel {s : State} {t : Nat} {r : Launch} (fate status value lastEnd off : Nat) (hrun : (s.tile t).run = some r)
    (hwait : (s.tile t).wait = none) (hpoison : (s.tile t).poisonSeen = false) (herr : (s.tile t).errValid = false)
    (hquiet : (s.iface (tileAgent t)).Quiet) (hdown : status ≠ stDomainDown) (hcancelled : status ≠ stCancelled) :
    KernelEnded s (s.finishKernel t fate status value lastEnd 0 off) t r fate status value lastEnd off := by
  have hfinish : s.finishKernel t fate status value lastEnd 0 off = ((s.updTile t (fun x => { x with
      wait := some (.ending fate status value lastEnd 0 off), vtrap := none, vq := [] })).coreFence t true).tryEnd t := by
    simp [State.finishKernel, hrun, hwait]
  obtain ⟨hfenced, htiles, -, hmem, hout⟩ := State.coreFence_of_quiet (s := s.updTile t (fun x => { x with
    wait := some (.ending fate status value lastEnd 0 off), vtrap := none, vq := [] })) true hquiet
  have htile := (State.tile_congr htiles t).trans (s.tile_updTile t _)
  have hended := KernelEnded.tryEnd (fate := fate) (status := status) (value := value) (lastEnd := lastEnd) (off := off)
    (by rw [htile]; exact hrun) (by rw [htile]) (by rw [htile]; exact hpoison) (by rw [htile]; exact herr) hfenced hdown hcancelled
  rw [hfinish]
  constructor
  case run => exact hended.run
  case wait => exact hended.wait
  case x => rw [hended.x, htile]
  case v => rw [hended.v, htile]
  case mem => exact hended.mem.trans hmem
  case tiles => exact fun k hk => (hended.tiles k hk).trans ((State.tile_congr htiles k).trans (s.tile_updTile_other t k _ hk))
  case told => exact hended.told
  case out => rw [hended.out, hout, State.updTile_com]

/-! ### The clauses of the statement -/

theorem Tile.setX_vl (x : Tile) (rd v vl : Nat) : ({ x with vl := vl } : Tile).setX rd v = { x.setX rd v with vl := vl } := by
  rw [Tile.setX, Tile.setX]
  split <;> rfl

theorem Tile.setX_wait (x : Tile) (rd v : Nat) (w : Option CoreWait) :
    ({ x with wait := w } : Tile).setX rd v = { x.setX rd v with wait := w } := by
  rw [Tile.setX, Tile.setX]
  split <;> rfl

/-- LSETVL sets vl and its register. -/
theorem State.lsetvl_effect {s : State} {t rd rs1 ww : Nat} (h : TakesInstruction s t 4) (hq : (s.tile t).vq.length < 16) (hw : ww < 4) :
    let x := s.tile t
    let vl := min (x.xr rs1) (4096 / (4 * 2 ^ ww))
    (s.lsetvl t rd rs1 0 ww).tile t = { x.setX rd vl with vl := vl, pc := (x.pc + 4) % 2 ^ 64 } ∧ s.OnlyTile (s.lsetvl t rd rs1 0 ww) t := by
  have hck : (decide (0 = 0) && decide (ww < 4)) = true := by simpa using hw
  rw [lsetvl, hck, s.core32_next 0 ww rd rs1 0 _ h hq]
  refine ⟨?_, (s.updTile_onlyTile t _).updTile _⟩
  rw [tile_retire_same, tile_updTile, Tile.setX_vl]

/-- A limit that passes ends a wait with 1. -/
theorem State.lwaitLimit_effect {s : State} {t rd len limit : Nat} (h : (s.tile t).wait = some (.event rd len limit)) (hl : limit ≠ 0) :
    ∃ u, exec (.lwaitLimit t) s = .next u ∧
      u.tile t = { (s.tile t).setX rd 1 with wait := none, pc := ((s.tile t).pc + len) % 2 ^ 64 } ∧ s.OnlyTile u t := by
  refine ⟨(s.updTile t (fun x => { x with wait := none })).retire t rd 1 len, ?_, ?_, (s.updTile_onlyTile t _).updTile _⟩
  · show execLwaitLimit t s = _
    simp [execLwaitLimit, h, hl]
  · rw [tile_retire_same, tile_updTile, Tile.setX_wait]

/-- LPRUN with no program load before it in the queue enters with the PRD that it reads. -/
theorem State.lprunEnter_entered {s : State} {t : Nat} (rd rs1 rs2 : Nat) (h : TakesInstruction s t 4) (hq : (s.tile t).vq.length < 16)
    (hload : (s.tile t).loadQueued = false) :
    let x := s.tile t
    let a := x.xr rs1
    let readable : Bool := a % 128 = 0 && a + 128 ≤ padBytes
    let prd := if readable then s.bytes (scratchCell t + a) 128 else []
    let p := prdOf prd
    Entered s (s.lprunEnter t rd rs1 rs2) t 4 ((x.lsridx + if readable && p.ok then x.rsrCount rd p x.lrm * p.n else 0) % 2 ^ 64)
      { off := s.offOf t x.pc, ins := .q32 2 1 rd rs1 rs2 prd (readable && s.poisoned (scratchCell t + a) 128)
        c := { lrm := x.lrm, seed := x.lseed, sri := x.lsridx, x1 := a } } := by
  rw [lprunEnter, s.xcore_next t 4 _ h hq, hload]
  exact s.advanceRsr_enqueue_entered t 4 _ _

/-- The conjunction in which the statement names a written register. -/
theorem WroteInt.conj {d u : State} {t rd v fl : Nat} (h : WroteInt d u t rd v fl) :
    (rd % 32 ≠ 0 → (u.tile t).xr rd = v % 2 ^ 64) ∧ (∀ r, r % 32 ≠ rd % 32 → (u.tile t).xr r = (d.tile t).xr r) ∧
      (u.tile t).pc = ((d.tile t).pc + 4) % 2 ^ 64 ∧ (u.tile t).lflags = (d.tile t).lflags ||| fl ∧ (u.tile t).acc = (d.tile t).acc ∧
      (u.tile t).v = (d.tile t).v ∧ (u.tile t).vm = (d.tile t).vm ∧ (∀ k, k ≠ t → u.tile k = d.tile k) ∧ u.mem = d.mem ∧ u.com = d.com :=
  ⟨h.written, h.others, h.pc, h.lflags, h.acc, h.v, h.vm, h.tiles, h.mem, h.com⟩

/-- LRD reads the value of its accumulator, and LRDI its index: of an accumulator that keeps none, a free value. -/
theorem State.lrd_wrote {s : State} {t rs1 : Nat} (rd : Nat) (h : TakesInstruction s t 4) (hd : TakesInstruction (s.lanesDrain t) t 4)
    (h3 : rs1 ≤ 3) (hp : (SMap.getD ((s.lanesDrain t).tile t).acc rs1 {}).poison = false) :
    let d := s.lanesDrain t
    let x := d.tile t
    let acc := SMap.getD x.acc rs1 {}
    let r := acc.read (x.elt acc.fmt) ((rmOf .rne x.lrm).getD .rne) (rsrWord x.lseed x.lsridx)
    WroteInt d (s.lrd t rd rs1 0 false) t rd r.1 r.2 ∧
    (acc.op = 5 ∨ acc.op = 6 → WroteInt d (s.lrd t rd rs1 0 true) t rd (if acc.any then acc.idx else 2 ^ 64 - 1) 0) ∧
    (acc.op ≠ 5 → acc.op ≠ 6 → WroteInt d (s.lrd t rd rs1 0 true) t rd d.freeNat 0) := by
  have hread (index : Bool) : s.lrd t rd rs1 0 index = (s.lanesDrain t).lrread t rd rs1 0 index := by
    rw [lrd, s.waiting_next t 4 _ h hd]
  rw [hread, hread, lrread_eq rd false h3 hp, lrread_eq rd true h3 hp]
  refine ⟨WroteInt.accrue rd _ _ _ (TakesInstruction.wait_eq_none hd), fun hop => ?_, fun h5 h6 => ?_⟩
  · simp only [if_true, if_pos hop]
    exact WroteInt.retire _ t rd _
  · simp only [if_true, h5, h6, or_self, if_false]
    exact (WroteInt.retire _ t rd _).fresh

/-- The answer to a signal lets the core pass it. -/
theorem State.coreAnswer_signalled {s : State} {t n : Nat} {r p : Pkt} (h : (s.tile t).wait = some (.glob n 0 0 0 4 true true false))
    (htxn : p.txn = n) (hst : p.status = stOk) :
    (s.coreAnswer t r p).tile t = { s.tile t with wait := none, pc := ((s.tile t).pc + 4) % 2 ^ 64 } ∧ s.OnlyTile (s.coreAnswer t r p) t := by
  have hpass : s.coreAnswer t r p = (s.updTile t (fun x => { x with wait := none })).retire t 0 0 4 := by
    simp [coreAnswer, h, htxn, hst, leNat]
  rw [hpass]
  refine ⟨?_, (s.updTile_onlyTile t _).updTile _⟩
  rw [tile_retire_same, tile_updTile, Tile.setX_zero _ 0 (by decide)]

/-- The answer to a wait whose event is not set leaves the core waiting for it. -/
theorem State.coreAnswer_event {s : State} {t n rd limit : Nat} {r p : Pkt} (h : (s.tile t).wait = some (.reg n rd 4 limit))
    (htxn : p.txn = n) (hst : p.status = stOk) (hdata : leNat (p.data.take 1) ≠ 1) (hv : (s.tile t).vtrap = none) :
    s.coreAnswer t r p = s.updTile t (fun x => { x with wait := some (.event rd 4 limit) }) := by
  simp [coreAnswer, h, htxn, hst, hdata, hv]

/-- LEND and LFAIL end a kernel that has nothing outstanding. -/
theorem KernelEnded.lend {s : State} {t rs1 : Nat} (fail : Bool) {r : Launch} (h : TakesInstruction s t 4)
    (hd : TakesInstruction (s.lanesDrain t) t 4) (hrun : ((s.lanesDrain t).tile t).run = some r)
    (hpoison : ((s.lanesDrain t).tile t).poisonSeen = false) (herr : ((s.lanesDrain t).tile t).errValid = false)
    (hquiet : ((s.lanesDrain t).iface (tileAgent t)).Quiet) :
    let d := s.lanesDrain t
    let x := d.tile t
    KernelEnded d (s.lend t 0 rs1 0 fail) t r (if fail then fateFailed else fateDone) (if fail then stKernelError else 0)
      (if fail then x.xr rs1 % 2 ^ 32 else x.xr rs1) (if fail then 1 else 0) (d.offOf t x.pc % 2 ^ 21) := by
  rw [State.lend]
  simp only [decide_true, Bool.and_self, s.core32_waiting 3 _ 0 rs1 0 _ h hd, State.core_next _ t 4 _ hd]
  cases fail
  · exact KernelEnded.finishKernel _ _ _ _ _ hrun (TakesInstruction.wait_eq_none hd) hpoison herr hquiet (by decide) (by decide)
  · exact KernelEnded.finishKernel _ _ _ _ _ hrun (TakesInstruction.wait_eq_none hd) hpoison herr hquiet (by decide) (by decide)

/-- Settles O60: the instruction at a core that is ready runs its own function, and each such function is followed to its end: the queue, the tile's
registers and one integer register, a request on the Commons, or the end of the kernel. -/
theorem tileInstructionsComplete : Obligations.TileInstructionsComplete := by
  unfold Obligations.TileInstructionsComplete
  refine ⟨?lsetvl, ?enters, ?behind, ?signalled, ?lwait, ?waited, ?limit, ?ends⟩
  case lsetvl =>
    intro s t rd rs1 ww h hq hw
    obtain ⟨htile, hother, hframe⟩ := State.lsetvl_effect (rd := rd) (rs1 := rs1) h hq hw
    exact ⟨s.lsetvl t rd rs1 0 ww, rfl, htile, hother, hframe⟩
  case enters =>
    intro s t rd rs1 rs2 h hq
    exact ⟨⟨_, rfl, State.queue32_entered 1 0 rd rs1 rs2 h hq⟩, ⟨_, rfl, State.queue32_entered 1 3 rd rs1 rs2 h hq⟩,
      ⟨_, rfl, State.queue32_entered 1 4 rd rs1 rs2 h hq⟩, ⟨_, rfl, State.queue32_entered 2 0 rd rs1 rs2 h hq⟩,
      fun hload => ⟨_, rfl, State.lprunEnter_entered rd rs1 rs2 h hq hload⟩⟩
  case behind =>
    intro s t rd rs1 h d x acc a wrote hd
    refine ⟨?lvsync, fun h3 hp => ?lrd, ?lsignal⟩
    case lvsync =>
      show execLvsync t 0 0 0 s = _
      rw [execLvsync, State.lvsync]
      exact congrArg _ (State.core32_waiting 3 0 0 0 0 _ h hd)
    case lrd =>
      obtain ⟨hvalue, hindex, hfree⟩ := State.lrd_wrote rd h hd h3 hp
      exact ⟨⟨_, rfl, hvalue.conj⟩, fun hop => ⟨_, rfl, (hindex hop).conj⟩, fun h5 h6 => ⟨_, _, rfl, (hfree h5 h6).conj⟩⟩
    case lsignal =>
      show execLsignal t 0 rs1 0 s = _
      rw [execLsignal, State.lsignal]
      exact congrArg _ (State.core32_waiting 3 2 0 rs1 0 _ h hd)
  case signalled =>
    intro s t n r p hwait htxn hst
    obtain ⟨htile, hother, hframe⟩ := State.coreAnswer_signalled (r := r) hwait htxn hst
    exact ⟨_, rfl, htile, hother, hframe⟩
  case lwait =>
    intro s t rd rs1 rs2 h hq
    show execLwait t rd rs1 rs2 s = _
    rw [execLwait, State.lwait]
    exact congrArg _ (State.core32_next 3 3 rd rs1 rs2 _ h hq)
  case waited =>
    intro s t n rd limit r p hwait htxn hst passed
    refine ⟨fun hdata => ?_, fun hdata hv => ?_⟩
    · simp [State.coreAnswer, hwait, htxn, hst, hdata, passed]
    · rw [State.coreAnswer_event hwait htxn hst hdata hv]
      exact ⟨_, rfl, s.tile_updTile t _, fun k hk => s.tile_updTile_other t k _ hk⟩
  case limit =>
    intro s t rd len limit hwait hlimit
    obtain ⟨u, hu, htile, hother, hframe⟩ := State.lwaitLimit_effect hwait hlimit
    exact ⟨u, hu, htile, hother, hframe⟩
  case ends =>
    intro s t rs1 fail r h d x i hd hrun hpoison herr hout hwait hfences hposted v
    have hended := KernelEnded.lend (rs1 := rs1) fail h hd hrun hpoison herr ⟨hout, hwait, hfences, hposted⟩
    obtain ⟨hitem, hvalid, hoffset, hresult, hlast⟩ := hended.told
    refine ⟨s.lend t 0 rs1 0 fail, ?_, hended.run, hended.wait, hended.x, hended.v, hended.mem, hended.tiles, hitem, hvalid, ?_, hresult, ?_,
      hended.out⟩
    · cases fail <;> rfl
    · rw [hoffset, Nat.mod_mod]
    · rw [hlast]
      cases fail <;> rfl

end Sys2Proof.Machine
end

section
/-!
PROOFS. LMPOP counts its lane steps into LOOM_BUSY, and a register that is stored with its reset value then leaves the register file: VectorInstructionsComplete
demands more than that every register of the model keeps its value.
-/

namespace Sys2Proof.Machine

open Sys2Proof.Safety

/-- Tile 0 runs a kernel, and LOOM_BUSY of the tile is listed in the register file although it holds its reset value. -/
def busyListed : State :=
  { State.reset with tiles := [(0, { run := some {}, pc := 0x20000000000 })], regs := [(LOOM_BUSY.off 0, 0)] }

/-- A register at the offset of LOOM_BUSY whose reset value is 1. -/
def resetsToOne : RegDef := { base := LOOM_BUSY.off 0, dims := [], ret := .domain, fields := [{ hi := 63, lo := 0, acc := .ro, rst := 1 }] }

theorem busyListed_takes : TakesInstruction busyListed 0 8 := by
  unfold TakesInstruction
  decide

theorem busyListed_reg : busyListed.reg resetsToOne 0 = 0 := by decide

/-- LMPOP performs 0 lane steps there; the write of their count takes the register off the list. -/
theorem lmpop_reg_resetsToOne : (busyListed.vec 0 0x6C {}).reg resetsToOne 0 = 1 := by decide

/-- Refutes O59: LMPOP adds its lane steps, none, to LOOM_BUSY (08_loom_isa.md), and a register that is written with its reset value is no longer
listed. From a state that lists it with that value, a register description of the same offset with another reset value reads otherwise than before. -/
theorem not_vectorInstructionsComplete : ¬ Obligations.VectorInstructionsComplete := by
  unfold Obligations.VectorInstructionsComplete
  rintro ⟨-, hanswers, -⟩
  obtain ⟨-, hlmpop, -⟩ := hanswers busyListed 0 {} busyListed_takes (by decide)
  obtain ⟨u, hu, -, -, -, hregs⟩ := hlmpop (by decide)
  have hnext : exec (.lmpop 0 {}) busyListed = .next (busyListed.vec 0 0x6C {}) := rfl
  rw [hnext, Host.Outcome.next.injEq] at hu
  have hsame := hregs resetsToOne 0
  rw [← hu, lmpop_reg_resetsToOne, busyListed_reg] at hsame
  exact absurd hsame (by decide)

end Sys2Proof.Machine
end


section
/-!
PROOFS. What each operation of the hub keeps (`Kept`, Laws/Kept.lean), in the order of the model: one lemma per operation, from the updates of a state
that can touch memory, the register file, poison, domains, bell time or the queue up to the commands.
-/

namespace Sys2Proof.Machine

open Sys2Proof.Safety

/-! ### Forms that a state takes in the model -/

/-- A record update of other fields. -/
theorem Kept.same {o s : State} {fr ifs ak fo su ou me ar ca ro hb le he st sl ti mi xl mo ms vs rv fm si fa ev} (h : Kept o s) :
    Kept o (State.mk s.regs s.mem s.poison s.time fr (Commons.mk ifs s.com.dom ak fo su ou me ar ca) ro hb le he st sl ti mi xl mo ms vs rv fm
      si fa ev s.pending) :=
  h.of rfl rfl rfl rfl rfl

/-- The Commons at its reset state: every domain is OFF. -/
theorem Kept.commonsReset {o s : State} {fr co ro hb le he st sl ti mi xl mo ms vs rv fm si fa ev} (h : Kept o s)
    (hd : co.dom = []) :
    Kept o (State.mk s.regs s.mem s.poison s.time fr co ro hb le he st sl ti mi xl mo ms vs rv fm si fa ev s.pending) := by
  refine ⟨h.mem, h.regs, h.poison, fun _ => ?_, h.time, h.queue⟩
  rw [hd]
  exact ⟨rfl, List.forall_mem_nil _⟩

/-- The state of an answer that comes with it. -/
theorem Kept.fst {α : Type} {o s : State} {p : State × α} {a : α} (hp : p = (s, a)) (h : Kept o p.1) : Kept o s := by
  rwa [hp] at h

theorem Kept.snd {α : Type} {o s : State} {p : α × State} {a : α} (hp : p = (a, s)) (h : Kept o p.2) : Kept o s := by
  rwa [hp] at h

theorem Kept.third {α β : Type} {o s : State} {p : α × β × State} {a : α} {b : β} (hp : p = (a, b, s)) (h : Kept o p.2.2) : Kept o s := by
  rwa [hp] at h

theorem Kept.fourth {α β γ : Type} {o s : State} {p : α × β × γ × State} {a : α} {b : β} {c : γ} (hp : p = (a, b, c, s))
    (h : Kept o p.2.2.2) : Kept o s := by
  rwa [hp] at h

theorem Kept.iteFourth {α β γ : Type} {o : State} {a b : α × β × γ × State} {c : Prop} [Decidable c] (ha : Kept o a.2.2.2)
    (hb : Kept o b.2.2.2) : Kept o (if c then a else b).2.2.2 := by
  split <;> assumption

theorem Kept.inFst {α : Type} {o s : State} {a : α} (h : Kept o s) : Kept o (s, a).1 := h

theorem Kept.inSnd {α : Type} {o s : State} {a : α} (h : Kept o s) : Kept o (a, s).2 := h

theorem Kept.inThird {α β : Type} {o s : State} {a : α} {b : β} (h : Kept o s) : Kept o (a, b, s).2.2 := h

theorem Kept.inFourth {α β γ : Type} {o s : State} {a : α} {b : β} {c : γ} (h : Kept o s) : Kept o (a, b, c, s).2.2.2 := h

theorem Kept.iteThird {α β : Type} {o : State} {a b : α × β × State} {c : Prop} [Decidable c] (ha : Kept o a.2.2) (hb : Kept o b.2.2) :
    Kept o (if c then a else b).2.2 := by
  split <;> assumption

/-- A map that was set holds what was set and what it held before. -/
theorem SMap.mem_set {α : Type} [DecidableEq α] {d : α} {m : SMap α} {k : Nat} {v : α} {e : Nat × α} (h : e ∈ SMap.set d m k v) :
    e = (k, v) ∨ e ∈ m := by
  rw [SMap.set] at h
  split at h
  · rw [SMap.del_eq_filter] at h
    exact .inr (List.mem_filter.1 h).1
  · exact SMap.mem_put m k v e h

/-- Where a vector instruction ends with a state, it is kept. -/
def KeptOut (o : State) (x : VStop ⊕ VOut) : Prop := ∀ v, x = .inr v → Kept o v.st

theorem KeptOut.stop {o : State} {e : VStop} : KeptOut o (.inl e) := fun _ hv => (Sum.inl_ne_inr hv).elim

theorem KeptOut.out {o : State} {v : VOut} (h : Kept o v.st) : KeptOut o (.inr v) := fun _ hv => Sum.inr.inj hv ▸ h

theorem KeptOut.ite {o : State} {a b : VStop ⊕ VOut} {c : Prop} [Decidable c] (ha : KeptOut o a) (hb : KeptOut o b) :
    KeptOut o (if c then a else b) := by
  split <;> assumption

/-- A command runs: it answers a next state, which is kept. -/
def NextKept (o : State) (r : Res) : Prop := ∃ t, r = .next t ∧ Kept o t

theorem NextKept.intro {o t : State} (h : Kept o t) : NextKept o (.next t) := ⟨t, rfl, h⟩

theorem NextKept.ite {o : State} {a b : Res} {c : Prop} [Decidable c] (ha : NextKept o a) (hb : NextKept o b) :
    NextKept o (if c then a else b) := by
  split <;> assumption

/-- A command that a register write performs. -/
theorem Kept.stateOr {o s : State} {r : Res} (hr : NextKept o r) : Kept o (stateOr r s) := by
  obtain ⟨t, rfl, ht⟩ := hr
  exact ht

/-- A command that another operation performs. -/
theorem Kept.doing {o s : State} {f : State → Res} (_ : Kept o s) (hf : NextKept o (f s)) : Kept o (s.doing f) := .stateOr hf

/-! ### Updates of memory, registers, poison and domains -/

section
variable {o s : State} (h : Kept o s)
include h

theorem Kept.setReg {r i v} : Kept o (s.setReg r i v) :=
  ⟨h.mem, fun hr => SMap.rising_set _ _ _ _ (h.regs hr), h.poison, h.doms, h.time, h.queue⟩

theorem Kept.resetReg {r i} : Kept o (s.resetReg r i) := by
  refine ⟨h.mem, fun hr => ?_, h.poison, h.doms, h.time, h.queue⟩
  rw [State.resetReg, SMap.del_eq_filter]
  exact SMap.rising_filter _ _ _ (h.regs hr)

theorem Kept.setByte {a b} : Kept o (s.setByte a b) :=
  ⟨fun hm => State.setByte_wf _ _ _ (h.mem hm), h.regs, h.poison, h.doms, h.time, h.queue⟩

theorem Kept.setBytes {a l} : Kept o (s.setBytes a l) := by
  induction l generalizing s a with
  | nil => exact h
  | cons b l ih => exact ih h.setByte

theorem Kept.setMasked {a mask l} : Kept o (s.setMasked a mask l) := by
  induction l generalizing s a mask with
  | nil => exact h
  | cons b l ih => exact ih (.ite h.setByte h)

theorem Kept.poisonLine {l} : Kept o (s.poisonLine l) :=
  ⟨h.mem, h.regs, fun hp => insertNat_rising _ _ (h.poison hp), h.doms, h.time, h.queue⟩

theorem Kept.unpoisonLine {l} : Kept o (s.unpoisonLine l) :=
  ⟨h.mem, h.regs, fun hp => (h.poison hp).filter _, h.doms, h.time, h.queue⟩

/-- Memory and poison that are cut to a part of themselves. -/
theorem Kept.cut {p : Host.Cell → Bool} {q : Nat → Bool} : Kept o { s with mem := s.mem.filter p, poison := s.poison.filter q } :=
  ⟨fun hm => SMap.wf_filter _ _ _ (h.mem hm), h.regs, fun hp => (h.poison hp).filter _, h.doms, h.time, h.queue⟩

/-- Memory alone. -/
theorem Kept.cutMem {p : Host.Cell → Bool} : Kept o { s with mem := s.mem.filter p } :=
  ⟨fun hm => SMap.wf_filter _ _ _ (h.mem hm), h.regs, h.poison, h.doms, h.time, h.queue⟩

theorem Kept.zeroRange {lo hi} : Kept o (s.zeroRange lo hi) := h.cut

theorem Kept.resetRegs {f} : Kept o (s.resetRegs f) :=
  ⟨h.mem, fun hr => SMap.rising_filter _ _ _ (h.regs hr), h.poison, h.doms, h.time, h.queue⟩

/-- Bell time goes on. -/
theorem Kept.later {n} : Kept o { s with time := s.time + n } :=
  ⟨h.mem, h.regs, h.poison, h.doms, Nat.le_add_right_of_le h.time, h.queue⟩

/-- A domain enters one of the states of R58. -/
theorem Kept.setDom {d st : Nat} (hst : st ≤ domOpening) : Kept o (s.setDom d st) := by
  refine ⟨h.mem, h.regs, h.poison, fun hd => ?_, h.time, h.queue⟩
  obtain ⟨hrising, hstates⟩ := h.doms hd
  refine ⟨SMap.rising_set _ _ _ _ hrising, fun e he => ?_⟩
  rcases SMap.mem_set he with rfl | he
  · exact hst
  · exact hstates e he

end

end Sys2Proof.Machine
end

section
/-!
PROOFS. What the operations of the hub keep: memory, the homes of lines and their checks.
-/

namespace Sys2Proof.Machine

open Sys2Proof.Safety

section
variable {o s : State} (h : Kept o s)
include h

/-! ### Machine/Ops.lean: registers, memory and events -/

theorem Kept.wr {f i x} : Kept o (s.wr f i x) := by
  unfold State.wr
  exact h.setReg

theorem Kept.inc {f i n} : Kept o (s.inc f i n) := by
  unfold State.inc
  exact h.wr

theorem Kept.writeLine {l d poison} : Kept o (s.writeLine l d poison) := by
  unfold State.writeLine
  extract_lets s1
  have hs1 : Kept o s1 := h.setBytes
  exact .ite hs1.poisonLine hs1.unpoisonLine

theorem Kept.writePart {a mask d poison} : Kept o (s.writePart a mask d poison) := by
  unfold State.writePart
  extract_lets s1
  have hs1 : Kept o s1 := h.setMasked
  exact .ite (Kept.foldl (fun _ _ ht => ht.poisonLine) hs1) hs1

theorem Kept.fresh {n} : Kept o (s.fresh n) := by
  unfold State.fresh
  exact h.same

theorem Kept.raise {code sev agent arg0 arg1} : Kept o (s.raise code sev agent arg0 arg1) := by
  unfold State.raise
  exact h.same

theorem Kept.updIface {p f} : Kept o (s.updIface p f) := by
  unfold State.updIface
  extract_lets
  exact h.same

theorem Kept.send {p} : Kept o (s.send p) := by
  unfold State.send
  extract_lets
  exact h.same

theorem Kept.take {p} : Kept o (s.take p) := by
  unfold State.take
  extract_lets
  exact h.same

theorem Kept.answer {d p status data poison} : Kept o (s.answer d p status data poison) := by
  unfold State.answer
  extract_lets s1
  have hs1 : Kept o s1 := h.updIface
  exact .ite hs1 hs1.send

theorem Kept.refuse {d p status} : Kept o (s.refuse d p status) := by
  unfold State.refuse
  exact .ite h h.send

/-! ### Machine/Atomics.lean: atomics -/

theorem Kept.atomAt {a p} : Kept o (s.atomAt a p).2.2 := by
  unfold State.atomAt
  extract_lets
  refine .iteThird h ?_
  split
  · exact Kept.inThird h.setBytes
  · exact h

/-! ### Machine/Sealing.lean: sealed data -/

theorem Kept.updBlock {b f} : Kept o (s.updBlock b f) := by
  unfold State.updBlock
  extract_lets
  exact h.same

theorem Kept.ledgerPut {r0} : Kept o (s.ledgerPut r0) := by
  unfold State.ledgerPut
  extract_lets
  exact .ite h.inc h.same

theorem Kept.checkpoint : Kept o s.checkpoint := by
  unfold State.checkpoint
  extract_lets _ _ s1 s2
  have hs1 : Kept o s1 := h.ledgerPut
  have hs2 : Kept o s2 := .ite hs1.ledgerPut.ledgerPut hs1
  clear_value s2
  exact hs2.same

theorem Kept.ledgerAdd {r} : Kept o (s.ledgerAdd r) := by
  unfold State.ledgerAdd
  extract_lets s1
  have hs1 : Kept o s1 := h.ledgerPut
  exact .ite hs1.checkpoint hs1

theorem Kept.ledgerRefusal {path tenant hpa} : Kept o (s.ledgerRefusal path tenant hpa) := by
  unfold State.ledgerRefusal
  extract_lets t
  have ht : Kept o t := h.inc
  refine .ite ?_ ht.ledgerAdd
  exact ht.same

/-! ### Machine/SiteTx.lean: messages to sites -/

theorem Kept.updSite {n f} : Kept o (s.updSite n f) := by
  unfold State.updSite
  exact h.same

theorem Kept.updSlot {n u f} : Kept o (s.updSlot n u f) := by
  unfold State.updSlot
  exact h.updSite

theorem Kept.siteEmit {n u m} : Kept o (s.siteEmit n u m) := by
  unfold State.siteEmit
  extract_lets
  exact h.updSlot.updSite.inc

theorem Kept.postedDone {n u o'} : Kept o (s.postedDone n u o') := by
  unfold State.postedDone
  split
  · exact .ite h.updIface h
  · exact h

theorem Kept.reqReturned {n u k} : Kept o (s.reqReturned n u k) := by
  unfold State.reqReturned
  exact (Kept.foldl (fun _ _ ht => ht.postedDone) h).updSlot

theorem Kept.probeCovers {n u p} : Kept o (s.probeCovers n u p) := by
  unfold State.probeCovers
  extract_lets
  exact .ite h ((Kept.foldl (fun _ _ ht => ht.postedDone) h).updSlot)

theorem Kept.postedEnded {n u p} : Kept o (s.postedEnded n u p) := by
  unfold State.postedEnded
  exact h.updSlot

theorem Kept.siteSend {n u m} : Kept o (s.siteSend n u m) := by
  unfold State.siteSend
  extract_lets
  exact .ite h.updSlot h.updSlot.siteEmit

theorem Kept.siteDrain {n u j} : Kept o (State.siteDrain n u j s) := by
  induction j generalizing s with
  | zero =>
    rw [State.siteDrain]
    exact h
  | succ j ih =>
    rw [State.siteDrain]
    split
    · exact ih h.updSlot.siteEmit
    · exact h

theorem Kept.hostSend {t} : Kept o (s.hostSend t) := by
  unfold State.hostSend
  extract_lets
  exact h.same

/-! ### Machine/Sluice.lean: the Sluice -/

theorem Kept.sluCharge {key cls n excess} : Kept o (s.sluCharge key cls n excess) := by
  unfold State.sluCharge
  extract_lets
  exact h.same

theorem Kept.chargeHome {h' p} : Kept o (s.chargeHome h' p) := by
  unfold State.chargeHome
  exact h.sluCharge

theorem Kept.chargePort {k u d p} : Kept o (s.chargePort k u d p) := by
  unfold State.chargePort
  exact h.sluCharge

theorem Kept.sluDiscard {dom} : Kept o (s.sluDiscard dom) := by
  unfold State.sluDiscard
  extract_lets
  exact h.same

/-! ### Machine/Home.lean: the home of a line -/

theorem Kept.updHome {h' f} : Kept o (s.updHome h' f) := by
  unfold State.updHome
  extract_lets
  exact h.same

theorem Kept.lostLine {h' cause agent l} : Kept o (s.lostLine h' cause agent l) := by
  unfold State.lostLine
  extract_lets _ s1
  have hs1 : Kept o s1 := .ite h.updHome h.inc
  exact hs1.raise

theorem Kept.loseLine {h' cause c l} : Kept o (s.loseLine h' cause c l) := by
  unfold State.loseLine
  split
  · exact h
  · extract_lets s1
    have hs1 : Kept o s1 := h.updHome
    exact .ite h (.ite hs1.poisonLine.lostLine hs1)

theorem Kept.walkLost {h' cause c} : Kept o (s.walkLost h' cause c) := by
  unfold State.walkLost
  extract_lets s1
  have hs1 : Kept o s1 := Kept.foldl (fun _ _ ht => ht.loseLine) h
  exact hs1.updHome

theorem Kept.loseCache {cause c} : Kept o (s.loseCache cause c) := by
  unfold State.loseCache
  exact Kept.foldl (fun _ _ ht => ht.walkLost) h

theorem Kept.passSnoop {a q} : Kept o (s.passSnoop a q) := by
  unfold State.passSnoop
  extract_lets
  exact .ite h.hostSend h.updSlot.siteSend

theorem Kept.sendSnoop {h' kind c l} : Kept o (s.sendSnoop h' kind c l) := by
  unfold State.sendSnoop
  extract_lets _ _ s1
  have hs1 : Kept o s1 := h.inc
  exact .ite hs1.updIface.passSnoop hs1.send

theorem Kept.sendSnoops {h' kind l cs} : Kept o (s.sendSnoops h' kind l cs) := by
  unfold State.sendSnoops
  exact Kept.foldl (fun _ _ ht => ht.sendSnoop) h

theorem Kept.halveSet {h' set} : Kept o (s.halveSet h' set) := by
  unfold State.halveSet
  exact .ite h h.updHome

theorem Kept.setBusy {h' l t} : Kept o (s.setBusy h' l t) := by
  unfold State.setBusy
  exact h.updHome

theorem Kept.release {h' l} : Kept o (s.release h' l) := by
  unfold State.release
  exact h.updHome

theorem Kept.reply {d p q} : Kept o (s.reply d p q) := by
  unfold State.reply
  exact h.updIface.send

theorem Kept.grantEntry {h' l c owned} : Kept o (s.grantEntry h' l c owned) := by
  unfold State.grantEntry
  extract_lets
  exact h.updHome

theorem Kept.grantUntracked {h' l c} : Kept o (s.grantUntracked h' l c) := by
  unfold State.grantUntracked
  exact h.updHome

theorem Kept.dropUntracked {h' l c} : Kept o (s.dropUntracked h' l c) := by
  unfold State.dropUntracked
  exact h.updHome

theorem Kept.dropEntry {h' l} : Kept o (s.dropEntry h' l) := by
  unfold State.dropEntry
  exact h.updHome

theorem Kept.performWrite {a p} : Kept o (s.performWrite a p) := by
  unfold State.performWrite
  exact .ite h.writeLine (.ite h.writeLine.writeLine h.writePart)

theorem Kept.grantRefused {h' p status data poison} : Kept o (s.grantRefused h' p status data poison) := by
  unfold State.grantRefused
  exact h.reply

theorem Kept.homeStatus {h' p status} : Kept o (s.homeStatus h' p status) := by
  unfold State.homeStatus
  exact .ite h.grantRefused h.answer

/-! ### Machine/Ecc.lean: the outer code -/

theorem Kept.updStack {m f} : Kept o (s.updStack m f) := by
  unfold State.updStack
  extract_lets
  exact h.same

theorem Kept.logHbm {kind hpa} : Kept o (s.logHbm kind hpa) := by
  unfold State.logHbm
  extract_lets
  exact h.wr.wr.wr.wr

theorem Kept.countUe {m} : Kept o (s.countUe m) := by
  unfold State.countUe
  exact h.inc.updStack

theorem Kept.loseStack {m cause} : Kept o (s.loseStack m cause) := by
  unfold State.loseStack
  exact .ite h h.updStack.wr.raise

theorem Kept.checkUe {m} : Kept o (s.checkUe m) := by
  unfold State.checkUe
  exact .ite h.loseStack h

theorem Kept.checkUes : Kept o s.checkUes := by
  unfold State.checkUes
  exact Kept.foldl (fun _ _ ht => ht.checkUe) h

theorem Kept.enterGpois {page} : Kept o (s.enterGpois page) := by
  unfold State.enterGpois
  extract_lets
  exact .ite h.same h.inc

theorem Kept.tellMappers {hpa e} : Kept o (s.tellMappers hpa e) := by
  unfold State.tellMappers
  exact h.same

theorem Kept.poisonPage {page} : Kept o (s.poisonPage page) := by
  unfold State.poisonPage
  extract_lets _ _ _ s1 s2
  have hs1 : Kept o s1 := h.same.enterGpois
  have hs2 : Kept o s2 := hs1.raise
  exact .ite h (.ite hs2.tellMappers hs2)

theorem Kept.countMembers {g bad} : Kept o (s.countMembers g bad) := by
  unfold State.countMembers
  refine Kept.foldl (fun u a hu1 => ?_) h
  extract_lets
  exact .ite hu1 hu1.countUe

theorem Kept.poisonMembers {g bad} : Kept o (s.poisonMembers g bad) := by
  unfold State.poisonMembers
  exact Kept.foldl (fun _ _ ht => ht.poisonPage) h

theorem Kept.granuleUe {g l n c} : Kept o (s.granuleUe g l n c).2.2.2 := by
  unfold State.granuleUe
  extract_lets _ s1 _ s2 s2' s3
  have hs1 : Kept o s1 := h.countMembers
  have hs2 : Kept o s2 := .ite hs1 hs1.setBytes
  have hs2' : Kept o s2' := hs1.poisonPage.poisonMembers
  have hs3 : Kept o s3 := hs2'.logHbm
  exact Kept.iteFourth (Kept.inFourth hs2.inc.logHbm) (Kept.inFourth (Kept.ite hs3.logHbm hs3))

theorem Kept.parityUe {g c} : Kept o (s.parityUe g c) := by
  unfold State.parityUe
  extract_lets _ s1
  have hs1 : Kept o s1 := h.logHbm.countMembers
  exact .ite hs1.setBytes (.ite hs1.poisonMembers hs1)

theorem Kept.lineUe {scrub l} : Kept o (s.lineUe scrub l) := by
  unfold State.lineUe
  exact h.poisonLine.logHbm.raise

theorem Kept.codeRead {l data poison c scrub} : Kept o (s.codeRead l data poison c scrub).2.2.2 := by
  unfold State.codeRead
  extract_lets _ _ _ _ _ s0 _ s1 _ _ _ s2
  have hs0 : Kept o s0 := h.inc.inc
  have hs1 : Kept o s1 := .ite hs0.fresh hs0
  have hs2 : Kept o s2 := .ite hs1 (Kept.foldl (fun _ _ ht => ht.countUe) hs1)
  refine .iteFourth ?_ ?_
  · exact hs1
  · refine .iteFourth ?_ ?_
    · exact Kept.inFourth hs2.parityUe
    · exact Kept.iteFourth hs2.granuleUe (Kept.inFourth (Kept.foldl (fun _ _ ht5 => ht5.lineUe) hs2))

theorem Kept.chargeMembers {p g} : Kept o (s.chargeMembers p g) := by
  unfold State.chargeMembers
  exact Kept.foldl (fun _ _ ht => ht.sluCharge) h

theorem Kept.scrubRow {m row} : Kept o (s.scrubRow m row) := by
  unfold State.scrubRow
  extract_lets _ s1 s2
  have hs1 : Kept o s1 := h.updStack
  have hs2 : Kept o s2 := hs1.updStack.inc
  exact .ite h (.ite (.ite hs2 hs2.updStack.inc) hs1)

theorem Kept.scrubGranule {hpa c row} : Kept o (s.scrubGranule hpa c row) := by
  unfold State.scrubGranule
  extract_lets _ _ s0
  have hs0 : Kept o s0 := .ite h.updStack h
  clear_value s0
  refine .ite h ?_
  split
  · rename_i x d fst fst1 s1 heq
    have hs1 : Kept o s1 := Kept.fourth heq hs0.codeRead
    extract_lets s1
    have hs1 : Kept o s1 := .ite hs1.setBytes hs1
    exact (Kept.ite hs1.scrubRow hs1).checkUes

/-! ### Machine/HomeTx.lean: line transactions -/

theorem Kept.startRead {h' l n p} : Kept o (s.startRead h' l n p) := by
  unfold State.startRead
  exact h.updHome

theorem Kept.releaseAll {h' p} : Kept o (s.releaseAll h' p) := by
  unfold State.releaseAll
  exact Kept.foldl (fun _ _ ht => ht.release) h

theorem Kept.readGrant {h' l c keep p} : Kept o (s.readGrant h' l c keep p) := by
  unfold State.readGrant
  exact h.startRead.setBusy

theorem Kept.farAtom {h' l p} : Kept o (s.farAtom h' l p) := by
  unfold State.farAtom
  split
  · rename_i x old bad s1 heq
    have hs1 : Kept o s1 := Kept.third heq h.inc.dropEntry.atomAt
    exact hs1.answer.release

theorem Kept.finishShared {h' l p t} : Kept o (s.finishShared h' l p t) := by
  unfold State.finishShared
  extract_lets
  split
  · exact .ite h.readGrant h.grantEntry.readGrant
  · exact .ite h.grantUntracked.readGrant (.ite h.grantEntry.readGrant h.grantEntry.readGrant)

theorem Kept.finish {h' l t} : Kept o (s.finish h' l t) := by
  unfold State.finish
  extract_lets _ _ _ _ s1 s1'
  have hs1 : Kept o s1 := h.grantEntry
  have hs1' : Kept o s1' := Kept.foldl (fun _ _ ht => ht.dropEntry) h
  clear_value s1 s1'
  refine .ite h.homeStatus.releaseAll ?_
  split
  · exact h.finishShared
  · exact h.grantEntry.readGrant
  · exact .ite hs1.reply.setBusy hs1.readGrant
  · exact .ite h.inc.grantEntry.readGrant h.farAtom
  · exact h.farAtom
  · exact h.startRead.release
  · exact h.startRead.release
  · exact h.startRead.releaseAll
  · exact hs1'.performWrite.answer.releaseAll

theorem Kept.tryFinish {h' l} : Kept o (s.tryFinish h' l) := by
  unfold State.tryFinish
  split
  · exact .ite h.finish h
  · exact h

theorem Kept.snoopFor {h' p l} : Kept o (s.snoopFor h' p l) := by
  unfold State.snoopFor
  split
  · extract_lets s1
    have hs1 : Kept o s1 := .ite h.inc h
    clear_value s1
    refine .ite h ?_
    split
    · exact hs1.setBusy.sendSnoops
    · exact hs1

theorem Kept.proceed {h' l p} : Kept o (s.proceed h' l p) := by
  unfold State.proceed
  exact (Kept.foldl (fun _ _ ht => ht.snoopFor) h).tryFinish

theorem Kept.allot {h' l t w} : Kept o (s.allot h' l t w) := by
  unfold State.allot
  extract_lets
  split
  · exact h.setBusy.proceed
  · exact h.setBusy.proceed
  · exact h.setBusy.proceed
  · exact h.setBusy
  · extract_lets _ _ s1
    have hs1 : Kept o s1 := h.inc.setBusy.setBusy
    exact hs1.sendSnoops

theorem Kept.serve {h' p} : Kept o (s.serve h' p) := by
  unfold State.serve
  extract_lets _ _ _ s1 s2
  have hs1 : Kept o s1 := h.chargeHome
  have hs2 : Kept o s2 := hs1.updHome
  clear_value s1 s2
  refine .ite hs1.homeStatus ?_
  split
  · exact (Kept.foldl (fun _ _ ht2 => ht2.setBusy) hs2).proceed
  · exact .ite hs2.halveSet.allot (.ite hs2.allot ((Kept.foldl (fun _ _ ht3 => ht3.setBusy) hs2).proceed))

theorem Kept.nextWait {h' w u} (heq : s.nextWait h' = some (w, u)) : Kept o u := by
  have hstate {a : HWait} {t : State} (ht : some (a, t) = some (w, u)) (hk : Kept o t) : Kept o u := (Prod.mk.inj (Option.some.inj ht)).2 ▸ hk
  unfold State.nextWait at heq
  extract_lets at heq
  split at heq
  · cases heq
  · extract_lets at heq
    split at heq
    · exact hstate heq h
    · split at heq
      · exact hstate heq h.updHome.fresh
      · exact hstate heq h.fresh

theorem Kept.serveWait {h' w} : Kept o (s.serveWait h' w) := by
  unfold State.serveWait
  extract_lets
  split
  · rename_i x a a1 s1
    exact h.updHome.serve
  · rename_i x a a1 a2 s1
    exact h.updHome.scrubGranule
  · rename_i x a a1 s1
    split
    · exact .ite h.updHome.setBusy.sendSnoop h.updHome
    · exact h.updHome

theorem Kept.pump {h' stop n} : Kept o (State.pump h' stop n s) := by
  induction n generalizing s with
  | zero =>
    rw [State.pump]
    exact h
  | succ n ih =>
    rw [State.pump]
    refine .ite h ?_
    split
    · rename_i w t heq
      exact ih (h.nextWait heq).serveWait
    · exact h

theorem Kept.pumpAll {h'} : Kept o (s.pumpAll h') := by
  unfold State.pumpAll
  exact h.pump

theorem Kept.enterWait {h' w} : Kept o (s.enterWait h' w) := by
  unfold State.enterWait
  extract_lets s1
  have hs1 : Kept o s1 := h.updHome
  exact .ite hs1.serveWait hs1

theorem Kept.predict {h' l p} : Kept o (s.predict h' l p).1 := by
  unfold State.predict
  extract_lets
  exact Kept.iteFst h (Kept.inFst h.updHome)

theorem Kept.enter {h' l p} : Kept o (s.enter h' l p) := by
  unfold State.enter
  split
  · rename_i x s1 q heq
    have hs1 : Kept o s1 := Kept.fst heq h.predict
    extract_lets s2
    have hs2 : Kept o s2 := .ite hs1 hs1.updIface
    exact hs2.enterWait

theorem Kept.patternAnswer {h' p status} : Kept o (s.patternAnswer h' p status) := by
  unfold State.patternAnswer
  extract_lets s1
  have hs1 : Kept o s1 := .ite h.ledgerRefusal h
  exact .ite hs1.grantRefused hs1.answer

theorem Kept.sealedRo {h' p} : Kept o (s.sealedRo h' p) := by
  unfold State.sealedRo
  exact (Kept.ite h.ledgerRefusal h).homeStatus

theorem Kept.homeRequest {p} : Kept o (s.homeRequest p) := by
  unfold State.homeRequest
  extract_lets
  refine .ite h.answer ?_
  refine .ite h.answer ?_
  refine .ite h.homeStatus ?_
  refine .ite h.sealedRo ?_
  refine .ite h.sealedRo ?_
  refine .ite h.homeStatus ?_
  refine .ite h.enter ?_
  split
  · exact h.patternAnswer
  · exact h.patternAnswer
  · exact h.homeStatus
  · exact h.enter

theorem Kept.sendRead {h' p d poison status} : Kept o (s.sendRead h' p d poison status) := by
  unfold State.sendRead
  extract_lets
  exact .ite (.ite h.updHome.homeStatus.release h.updIface.send.setBusy) (.ite h.homeStatus h.answer)

theorem Kept.retryAlloc {h' set} : Kept o (s.retryAlloc h' set) := by
  unfold State.retryAlloc
  extract_lets
  refine Kept.foldl (fun u a hu1 => ?_) h
  extract_lets
  split
  · exact .ite hu1.allot hu1
  · exact hu1

theorem Kept.settle {h' l} : Kept o (s.settle h' l) := by
  unfold State.settle
  split
  · split
    · exact h.tryFinish
    · extract_lets s1
      have hs1 : Kept o s1 := h.dropEntry.release
      clear_value s1
      split
      · split
        · exact hs1.setBusy.proceed
        · exact hs1
      · exact hs1
    · exact h.release
    · exact h
  · exact h

theorem Kept.updBusy {h' l f} : Kept o (s.updBusy h' l f) := by
  unfold State.updBusy
  split
  · exact h.setBusy
  · exact h

theorem Kept.goOn {h' l} : Kept o (s.goOn h' l) := by
  unfold State.goOn
  exact h.settle.retryAlloc

theorem Kept.putWb {l p} : Kept o (s.putWb l p) := by
  unfold State.putWb
  exact .ite h (.ite h.writeLine h.writePart)

theorem Kept.ackWb {h' l p} : Kept o (s.ackWb h' l p) := by
  unfold State.ackWb
  exact h.putWb.reply

theorem Kept.clearHolder {h' l c} : Kept o (s.clearHolder h' l c) := by
  unfold State.clearHolder
  exact h.updHome

theorem Kept.snoopKeep {h' l c keep} : Kept o (s.snoopKeep h' l c keep) := by
  unfold State.snoopKeep
  exact .ite h.updHome h.clearHolder

/-! ### Machine/Walks.lean: the hub's own walks -/

theorem Kept.recall {src l} : Kept o (s.recall src l) := by
  unfold State.recall
  extract_lets _ _ s1
  have hs1 : Kept o s1 := h.updIface
  exact .ite h hs1.updIface.enterWait

theorem Kept.walkRead {src hpa n f} (hf : ∀ {u}, Kept o u → Kept o (f u)) : Kept o (s.walkRead src hpa n f) := by
  unfold State.walkRead
  extract_lets
  exact .ite (hf h) (Kept.foldl (fun _ _ ht => ht.recall) h)

theorem Kept.snoopRead {src hpa n} : Kept o (s.snoopRead src hpa n).2 := by
  unfold State.snoopRead
  extract_lets
  exact Kept.iteSnd h (Kept.iteSnd h (Kept.inSnd (Kept.foldl (fun _ _ ht => ht.recall) h)))

theorem Kept.homeWrite {src stream hpa d} : Kept o (s.homeWrite src stream hpa d) := by
  unfold State.homeWrite
  refine .ite ?_ ?_
  · split
    · exact h.setBytes
    · exact h
  · refine Kept.foldl (fun u a hu2 => ?_) h
    extract_lets _ _ t1
    have ht1 : Kept o t1 := hu2.updIface
    exact ht1.updIface.enterWait

theorem Kept.homeWriteLine {src stream l d} : Kept o (s.homeWriteLine src stream l d) := by
  unfold State.homeWriteLine
  extract_lets _ _ s1
  have hs1 : Kept o s1 := h.updIface
  exact .ite h.writeLine (.ite h hs1.updIface.enterWait)

theorem Kept.zeroHome {lo hi} : Kept o (s.zeroHome lo hi) := by
  unfold State.zeroHome
  exact Kept.foldl (fun _ _ ht => ht.homeWriteLine) h.cut

/-! ### Machine/Fates.lean: fates of items -/

theorem Kept.msix {v} : Kept o (s.msix v) := by
  unfold State.msix
  extract_lets
  exact .ite h.hostSend h.same

theorem Kept.msixAfter {src stream v} : Kept o (s.msixAfter src stream v) := by
  unfold State.msixAfter
  extract_lets
  exact .ite h.msix h.same

theorem Kept.announced : Kept o s.announced := by
  unfold State.announced
  extract_lets
  exact Kept.foldl (fun _ _ ht => ht.msix) h.same

theorem Kept.stwErr {cause queue cq} : Kept o (s.stwErr cause queue cq) := by
  unfold State.stwErr
  extract_lets s1
  have hs1 : Kept o s1 := .ite h.inc h.wr.wr.wr.wr.wr
  exact hs1.msix

theorem Kept.holdRecords {f} : Kept o (s.holdRecords f) := by
  unfold State.holdRecords
  extract_lets
  exact h.same

theorem Kept.enterError {q cause} : Kept o (s.enterError q cause) := by
  unfold State.enterError
  exact .ite h.wr.wr.wr.holdRecords h

theorem Kept.queueError {q cause} : Kept o (s.queueError q cause) := by
  unfold State.queueError
  exact h.stwErr.enterError

theorem Kept.logFate {q cq cause held reply irq} : Kept o (s.logFate q cq cause held reply irq) := by
  unfold State.logFate
  extract_lets _ _ s1 _ first s2 s3
  have hs1 : Kept o s1 := h.same
  split
  · exact hs1.same
  · have hfirst : Kept o first := .ite hs1.wr hs1
    have hs2 : Kept o s2 := hfirst.wr.inc
    have hs3 : Kept o s3 := .ite hs2.inc hs2
    exact .ite hs3.wr hs3

theorem Kept.coalesce {c now} : Kept o (s.coalesce c now) := by
  unfold State.coalesce
  extract_lets
  exact .ite h.same.msixAfter h.same

theorem Kept.pushReply {c mk} : Kept o (s.pushReply c mk).1 := by
  unfold State.pushReply
  extract_lets _ _ _ _ _ adv
  have hadv : ∀ {t}, Kept o t → Kept o (adv t) := by
    intro t hu
    unfold adv
    extract_lets t1 t2
    have ht1 : Kept o t1 := hu.wr.wr
    have ht2 : Kept o t2 := .ite ht1.wr ht1
    clear_value t2
    exact ht2.same
  exact Kept.iteFst (Kept.iteFst (Kept.inFst (hadv h.homeWrite)) (Kept.inFst (hadv h))) (Kept.inFst (hadv h.hostSend))

theorem Kept.replyLost {c d} : Kept o (s.replyLost c d) := by
  unfold State.replyLost
  extract_lets
  exact h.logFate.queueError

theorem Kept.report {i fate status result} : Kept o (s.report i fate status result) := by
  unfold State.report
  extract_lets
  refine .ite h.logFate ?_
  refine .ite h.same ?_
  refine .ite h.same ?_
  refine .ite h.logFate ?_
  split
  · rename_i x s1 ok heq
    have hs1 : Kept o s1 := Kept.fst heq h.pushReply
    exact .ite hs1.coalesce hs1.logFate.queueError

theorem Kept.evtAdd {e n} : Kept o (s.evtAdd e n) := by
  unfold State.evtAdd
  exact h.wr

theorem Kept.dropItem {i} : Kept o (s.dropItem i) := by
  unfold State.dropItem
  extract_lets
  exact h.same

theorem Kept.noteEnded {i} : Kept o (s.noteEnded i) := by
  unfold State.noteEnded
  extract_lets
  exact .ite h h.same

theorem Kept.fixOne {i fate0 status0 result0 signal} : Kept o (s.fixOne i fate0 status0 result0 signal) := by
  unfold State.fixOne
  extract_lets s1 _ _ _ s2
  have hs1 : Kept o s1 := h.dropItem.noteEnded
  have hs2 : Kept o s2 := .ite (.ite hs1.evtAdd hs1.wr) hs1
  exact hs2.report

theorem Kept.endWait {w} : Kept o (s.endWait w) := by
  unfold State.endWait
  extract_lets _ s1
  have hs1 : Kept o s1 := h.same
  clear_value s1
  split
  · exact hs1.send
  · split
    · exact .ite hs1.fixOne hs1.fixOne
    · exact hs1

theorem Kept.reevaluate {n} : Kept o (State.reevaluate n s) := by
  induction n generalizing s with
  | zero =>
    rw [State.reevaluate]
    exact h
  | succ n ih =>
    rw [State.reevaluate]
    split
    · exact ih h.endWait
    · exact h

theorem Kept.settleWaits : Kept o s.settleWaits := by
  unfold State.settleWaits
  exact h.reevaluate

theorem Kept.fixFate {i fate status result signal} : Kept o (s.fixFate i fate status result signal) := by
  unfold State.fixFate
  exact h.fixOne.settleWaits

theorem Kept.failItems {f status} : Kept o (s.failItems f status) := by
  unfold State.failItems
  exact Kept.foldl (fun _ _ ht => Kept.ite ht.fixFate ht) h

end

end Sys2Proof.Machine
end

section
/-!
PROOFS. What the operations of the hub keep: the Commons, the coherence commands and the stacks.
-/

namespace Sys2Proof.Machine

open Sys2Proof.Safety

section
variable {o s : State} (h : Kept o s)
include h

/-! ### Machine/Isolate.lean: isolation -/

theorem Kept.answerAll {a status} : Kept o (s.answerAll a status) := by
  unfold State.answerAll
  extract_lets _ s1 s2
  have hs1 : Kept o s1 := Kept.foldl (fun _ _ ht => ht.answer) h
  have hs2 : Kept o s2 := (Kept.foldl (fun _ _ ht1 => ht1.refuse) hs1).updIface
  exact .ite hs2.updHome hs2

theorem Kept.isolateOne {a trigger kind} : Kept o (s.isolateOne a trigger kind) := by
  unfold State.isolateOne
  extract_lets s1 s2 s3
  have hs1 : Kept o s1 := h.answerAll
  have hs2 : Kept o s2 := Kept.foldl (fun _ _ ht => ht.send) hs1
  have hs3 : Kept o s3 := hs2.updIface
  exact .ite h hs3.raise

theorem Kept.isolateSite {n a trigger kind} : Kept o (s.isolateSite n a trigger kind) := by
  unfold State.isolateSite
  extract_lets s1 s2 s3 s4
  have hs1 : Kept o s1 := h.isolateOne
  have hs2 : Kept o s2 := Kept.foldl (fun _ _ ht => ht.isolateOne) hs1
  have hs3 : Kept o s3 := hs2.loseCache.wr
  have hs4 : Kept o s4 := hs3.wr.raise
  exact .ite h hs4.failItems

theorem Kept.isolate {a trigger kind} : Kept o (s.isolate a trigger kind) := by
  unfold State.isolate
  refine .ite h ?_
  split
  · exact h.isolateSite
  · exact h.isolateOne

/-! ### Machine/Mesh.lean: routers -/

theorem Kept.noteServed {col row o' h'} : Kept o (s.noteServed col row o' h') := by
  unfold State.noteServed
  extract_lets
  exact h.same

theorem Kept.hop {p col row port} : Kept o (s.hop p col row port) := by
  unfold State.hop
  extract_lets
  refine .ite h ?_
  split
  · exact h.same
  · extract_lets _ s1
    have hs1 : Kept o s1 := h.noteServed
    clear_value s1
    exact .ite h hs1.same

theorem Kept.land {p} : Kept o (s.land p) := by
  unfold State.land
  refine Kept.take ?_
  split
  · exact h
  · exact h.noteServed

theorem Kept.delivering {p f other} (hf : ∀ {u}, Kept o u → Kept o (f u)) (hother : Kept o other) : Kept o (s.delivering p f other) := by
  unfold State.delivering
  exact .ite (.ite (hf h.land) h) hother

/-! ### Machine/Coherence.lean: writebacks, evictions and snoop answers -/

theorem Kept.wbError {h' p} : Kept o (s.wbError h' p) := by
  unfold State.wbError
  exact h.updIface.isolate

theorem Kept.applyWb {h' l p} : Kept o (s.applyWb h' l p) := by
  unfold State.applyWb
  exact .ite h.ackWb h.wbError

theorem Kept.writeback {p} : Kept o (s.writeback p) := by
  unfold State.writeback
  extract_lets
  split
  · exact .ite h.updHome (.ite h.wbError h.ackWb.clearHolder.updBusy.goOn)
  · exact .ite h.ackWb.clearHolder.retryAlloc h.wbError

theorem Kept.evict {p} : Kept o (s.evict p) := by
  unfold State.evict
  extract_lets _ _ _ s1
  have hs1 : Kept o s1 := h.updIface
  clear_value s1
  split
  · exact hs1.clearHolder.retryAlloc
  · exact .ite hs1.dropUntracked hs1

theorem Kept.cacheGone {h' cause c} : Kept o (s.cacheGone h' cause c) := by
  unfold State.cacheGone
  extract_lets s1
  have hs1 : Kept o s1 := h.walkLost
  exact Kept.foldl (fun _ _ ht => ht.retryAlloc) hs1

theorem Kept.snoopAnswer {h' l c status keep} : Kept o (s.snoopAnswer h' l c status keep) := by
  unfold State.snoopAnswer
  split
  · exact h
  · extract_lets _ _ _ s1 s2 s3
    have hs1 : Kept o s1 := h.updHome
    have hs2 : Kept o s2 := Kept.foldl (fun _ _ ht => ht.applyWb) hs1
    have hs3 : Kept o s3 := .ite (.ite hs2.inc hs2.inc.clearHolder) (.ite hs2.cacheGone (.ite hs2.dropUntracked hs2.snoopKeep))
    exact .ite h hs3.updBusy.goOn

theorem Kept.absorb : Kept o s.absorb := by
  unfold State.absorb
  exact h.inc

theorem Kept.absorbRsp {p} : Kept o (s.absorbRsp p) := by
  unfold State.absorbRsp
  exact h.inc

theorem Kept.snoopReply {p withData} : Kept o (s.snoopReply p withData) := by
  unfold State.snoopReply
  extract_lets _ _ _ s1 _ s2
  have hs1 : Kept o s1 := h.updIface
  have hs2 : Kept o s2 := .ite hs1.putWb hs1
  exact .ite hs1.absorb (.ite hs1 hs2.snoopAnswer)

theorem Kept.cmpAck {p} : Kept o (s.cmpAck p) := by
  unfold State.cmpAck
  extract_lets
  split
  · exact .ite h.release.retryAlloc h.absorb
  · exact h.absorb

/-! ### Machine/Windows.lean: site windows -/

theorem Kept.winSend {n u p typ addr aux data last} : Kept o (s.winSend n u p typ addr aux data last) := by
  unfold State.winSend
  extract_lets
  exact h.updSlot.siteSend

theorem Kept.winParts {n u p typ l} : Kept o (s.winParts n u p typ l) := by
  induction l generalizing s with
  | nil =>
    rw [State.winParts]
    exact h
  | cons a l ih =>
    rw [State.winParts]
    exact ih h.winSend

theorem Kept.winPass {n u p} : Kept o (s.winPass n u p) := by
  unfold State.winPass
  extract_lets _ s1
  have hs1 : Kept o s1 := h.chargePort
  clear_value s1
  refine .ite h.winSend ?_
  split
  · exact hs1.winSend
  · exact hs1.winParts
  · exact hs1.winParts
  · exact hs1.winSend
  · exact hs1.winSend

theorem Kept.outPump {n u j} : Kept o (State.outPump n u j s) := by
  induction j generalizing s with
  | zero =>
    rw [State.outPump]
    exact h
  | succ j ih =>
    rw [State.outPump]
    split
    · exact ih h.updSlot.winPass
    · exact h

theorem Kept.pumpOut {n u} : Kept o (s.pumpOut n u) := by
  unfold State.pumpOut
  exact h.outPump

theorem Kept.windowAccess {a p} : Kept o (s.windowAccess a p) := by
  unfold State.windowAccess
  exact .ite h.updSlot.pumpOut h.answer

theorem Kept.updHep {f} : Kept o (s.updHep f) := by
  unfold State.updHep
  exact h.same

theorem Kept.hostIssue {p} : Kept o (s.hostIssue p) := by
  unfold State.hostIssue
  refine .ite ?_ (.ite ((Kept.foldl (fun _ _ ht => ht.hostSend) h).answer) h.answer)
  split
  · exact h.updHep.hostSend
  · exact h

theorem Kept.hostPump {n} : Kept o (State.hostPump n s) := by
  induction n generalizing s with
  | zero =>
    rw [State.hostPump]
    exact h
  | succ n ih =>
    rw [State.hostPump]
    split
    · exact .ite h (ih h.updHep.hostIssue)
    · exact h

theorem Kept.hostAccess {p} : Kept o (s.hostAccess p) := by
  unfold State.hostAccess
  extract_lets s1
  have hs1 : Kept o s1 := h.updHep
  exact .ite h.inc.answer hs1.hostPump

theorem Kept.ltrTo {st} : Kept o (s.ltrTo st) := by
  unfold State.ltrTo
  extract_lets s1
  have hs1 : Kept o s1 := h.updHep
  exact .ite h (.ite hs1.hostSend hs1)

theorem Kept.ltrActive : Kept o s.ltrActive := by
  unfold State.ltrActive
  exact .ite h.ltrTo h

theorem Kept.hostBlock {ps} : Kept o (s.hostBlock ps) := by
  unfold State.hostBlock
  exact Kept.foldl (fun _ _ ht => ht.inc.answer) h

theorem Kept.hostDead : Kept o s.hostDead := by
  unfold State.hostDead
  exact h.hostBlock.updHep

theorem Kept.hostDrop : Kept o s.hostDrop := by
  unfold State.hostDrop
  exact h.hostBlock.updHep

/-! ### Machine/Deliver.lean: delivery of requests -/

theorem Kept.wakeTile {t} : Kept o (s.wakeTile t) := by
  unfold State.wakeTile
  exact .ite h.same h

theorem Kept.memAccess {d p a} : Kept o (s.memAccess d p a) := by
  unfold State.memAccess
  extract_lets _ _ rdPattern read
  have hrdPattern : ∀ {n}, Kept o (rdPattern n) := h.ledgerRefusal.answer
  have hread : ∀ {lo n}, Kept o (read lo n) := by
    intro lo n
    unfold read
    split
    · extract_lets
      exact h.answer
    · exact hrdPattern
  clear_value rdPattern read
  split
  · exact hread
  · exact hread
  · exact hread
  · refine .ite h.answer ?_
    refine .ite h.answer ?_
    split
    · rename_i x old bad s1 heq
      have hs1 : Kept o s1 := Kept.third heq h.atomAt
      exact hs1.answer
  · exact .ite h.answer h.performWrite.answer

theorem Kept.cacheReturn {d p} : Kept o (s.cacheReturn d p) := by
  unfold State.cacheReturn
  exact .ite h.answer (.ite h.chargeHome.writeback h.evict)

theorem Kept.perform {d p} : Kept o (s.perform d p) := by
  unfold State.perform
  refine .ite (.ite h h.answer) ?_
  refine .ite h.hostAccess ?_
  refine .ite ?_ ?_
  · split
    · exact h.windowAccess
    · exact h
  · refine .ite (.ite h h.answer) ?_
    split
    · exact h.answer
    · split
      · exact .ite h.cacheReturn (.ite h.homeRequest h.answer)
      · exact .ite h.memAccess h.answer
      · split
        · extract_lets s1
          have hs1 : Kept o s1 := h.wakeTile
          exact .ite h.answer (.ite hs1.answer hs1.memAccess)
        · exact h.answer
      · exact h.windowAccess
      · exact h.answer

theorem Kept.accept {d p} : Kept o (s.accept d p) := by
  unfold State.accept
  extract_lets
  exact h.updIface.perform

theorem Kept.arrive {d p} : Kept o (s.arrive d p) := by
  unfold State.arrive
  extract_lets
  exact .ite h.refuse (.ite h.refuse (.ite h.updIface h.accept))

theorem Kept.notePosted {src stream d} : Kept o (s.notePosted src stream d) := by
  unfold State.notePosted
  exact h.updIface

theorem Kept.senderAnswer {p status} : Kept o (s.senderAnswer p status) := by
  unfold State.senderAnswer
  exact h.refuse

theorem Kept.depart {p later} : Kept o (s.depart p later) := by
  unfold State.depart
  extract_lets s1
  have hs1 : Kept o s1 := .ite h.notePosted h
  exact .ite hs1.send hs1.arrive

theorem Kept.launchAs {q later} : Kept o (s.launchAs q later) := by
  unfold State.launchAs
  extract_lets _ s1
  have hs1 : Kept o s1 := .ite h h.updIface
  clear_value s1
  refine .ite hs1.senderAnswer ?_
  refine .ite hs1 ?_
  split
  · exact hs1.senderAnswer
  · exact .ite ((Kept.ite hs1.ledgerRefusal hs1).senderAnswer) (.ite hs1.senderAnswer hs1.depart)

theorem Kept.launch {q} : Kept o (s.launch q) := by
  unfold State.launch
  exact h.launchAs

theorem Kept.issue {p} : Kept o (s.issue p) := by
  unfold State.issue
  extract_lets
  exact .ite h (.ite h.isolate (.ite h.updIface h.launch))

theorem Kept.request {p} : Kept o (s.request p) := by
  unfold State.request
  exact h.delivering (fun hu => hu.arrive) h.issue

theorem Kept.beginFence {agent stream remote} : Kept o (s.beginFence agent stream remote) := by
  unfold State.beginFence
  extract_lets _ _ s1
  have hs1 : Kept o s1 := h.updIface
  exact Kept.foldl (fun _ _ ht => ht.issue) hs1

theorem Kept.reissue {a n} : Kept o (State.reissue a n s) := by
  induction n generalizing s with
  | zero =>
    rw [State.reissue]
    exact h
  | succ n ih =>
    rw [State.reissue]
    split
    · exact ih h.updIface.beginFence
    · split
      · exact ih h.updIface.launch
      · exact h

theorem Kept.releaseWaiting {a} : Kept o (s.releaseWaiting a) := by
  unfold State.releaseWaiting
  exact .ite h.reissue h

theorem Kept.startFence {agent stream remote} : Kept o (s.startFence agent stream remote) := by
  unfold State.startFence
  extract_lets
  exact .ite h.updIface h.beginFence

theorem Kept.endFence {agent stream} : Kept o (s.endFence agent stream) := by
  unfold State.endFence
  split
  · exact .ite h.updIface.releaseWaiting h
  · exact h

theorem Kept.settleFence {a} : Kept o (s.settleFence a) := by
  unfold State.settleFence
  exact Kept.foldl (fun _ _ ht => ht.endFence) h

/-! ### Machine/Resets.lean: resets of settings -/

theorem Kept.showLive {s'} : Kept o (s.showLive s') := by
  unfold State.showLive
  extract_lets units t1 t2 t3
  have hunits : ∀ {u n f}, Kept o u → Kept o (units u n f) := fun hu => Kept.foldl (fun _ _ ht => ht.wr) hu
  have ht1 : Kept o t1 := hunits (hunits (hunits h))
  have ht2 : Kept o t2 := Kept.foldl (fun _ _ ht1 => hunits ht1) ht1
  have ht3 : Kept o t3 := Kept.foldl (fun _ _ ht2 => hunits ht2) ht2
  exact Kept.foldl (fun _ _ ht3 => hunits ht3) ht3

theorem Kept.resetFunction : Kept o s.resetFunction := by
  unfold State.resetFunction
  exact h.resetRegs.showLive

theorem Kept.resetWarm : Kept o s.resetWarm := by
  unfold State.resetWarm
  exact h.resetRegs

theorem Kept.grpRet {gs} : Kept o (s.grpRet gs) := by
  unfold State.grpRet
  exact h.setReg

theorem Kept.domRet {d} : Kept o (s.domRet d) := by
  unfold State.domRet
  exact h.setReg

theorem Kept.resetDomainRegs {d} : Kept o (s.resetDomainRegs d) := by
  unfold State.resetDomainRegs
  exact h.resetRegs.domRet.grpRet

theorem Kept.dropContents {d} : Kept o (s.dropContents d) := by
  unfold State.dropContents
  exact .ite h.zeroRange (.ite h.zeroRange h)

theorem Kept.dropSoft {d} : Kept o (s.dropSoft d) := by
  unfold State.dropSoft
  exact .ite h.updStack.wr h

theorem Kept.dropUnit {d} : Kept o (s.dropUnit d) := by
  unfold State.dropUnit
  extract_lets
  exact .ite h.same (.ite h.same (.ite h.same h))

theorem Kept.dropLink {d} : Kept o (s.dropLink d) := by
  unfold State.dropLink
  extract_lets
  exact .ite h.same h

theorem Kept.powerOff {d} : Kept o (s.powerOff d) := by
  unfold State.powerOff
  extract_lets s0 s1
  have hs0 : Kept o s0 := Kept.foldl (fun _ _ ht => Kept.foldl (fun _ _ ht1 => ht1.refuse) ht) h
  have hs1 : Kept o s1 := hs0.resetDomainRegs.dropContents.dropUnit.dropLink.dropSoft
  exact Kept.foldl (fun _ _ ht2 => ht2.updIface) hs1

/-! ### Machine/Commons.lean: commands of the Commons -/

theorem Kept.setBootStep {k v} : Kept o (s.setBootStep k v) := by
  unfold State.setBootStep
  exact h.wr

theorem Kept.bootEnd {k done} : Kept o (s.bootEnd k done) := by
  unfold State.bootEnd
  exact h.setBootStep.wr.wr

theorem Kept.bootErr {k code agent detail} : Kept o (s.bootErr k code agent detail) := by
  unfold State.bootErr
  exact h.wr.wr.wr.wr.wr

theorem Kept.bootFail {k code agent detail} : Kept o (s.bootFail k code agent detail) := by
  unfold State.bootFail
  exact h.bootErr.bootEnd

theorem Kept.sitesBooted : Kept o s.sitesBooted := by
  unfold State.sitesBooted
  exact .ite h.bootEnd h

theorem Kept.execStageWindowEnd {stageFs} : NextKept o (Machine.execStageWindowEnd stageFs s) := by
  unfold Machine.execStageWindowEnd
  exact .intro (.ite h.wr.wr h)

theorem Kept.lastError {row col port} : Kept o (s.lastError row col port) := by
  unfold State.lastError
  exact h.wr.wr.wr

theorem Kept.putOut {p} : Kept o (s.putOut p) := by
  unfold State.putOut
  exact .ite h h.launchAs

theorem Kept.spoil {p col row port} : Kept o (s.spoil p col row port) := by
  unfold State.spoil
  extract_lets
  exact .ite h.same h.same

theorem Kept.dropFlit {p col row port} : Kept o (s.dropFlit p col row port) := by
  unfold State.dropFlit
  extract_lets
  exact .ite h.take h.same

theorem Kept.execFlitReceive {code row col port p} : NextKept o (Machine.execFlitReceive code row col port p s) := by
  unfold Machine.execFlitReceive
  extract_lets s0 _ _ _ go s1 s1' s2
  have hs0 : Kept o s0 := h.putOut
  have hgo : ∀ {t x}, Kept o t → Kept o (go t x) := fun hu => Kept.ite hu.hop hu
  have hs1 : Kept o s1 := hs0.inc.lastError
  have hs1' : Kept o s1' := .ite hs0.dropFlit hs0
  have hs2 : Kept o s2 := hs1'.inc.wr.lastError
  clear_value s0 go s1 s1' s2
  refine .intro ?_
  split
  · exact hgo hs0
  · exact (hgo hs0).inc
  · exact .ite (hgo hs1.spoil) hs1
  · exact hs2.raise

theorem Kept.execComErrClear : NextKept o (Machine.execComErrClear s) := by
  unfold Machine.execComErrClear
  exact .intro h.wr.wr.wr.wr

theorem Kept.execRd {p} : NextKept o (Machine.execRd p s) := by
  unfold Machine.execRd
  exact .intro h.request

theorem Kept.execRdLine {p} : NextKept o (Machine.execRdLine p s) := by
  unfold Machine.execRdLine
  exact .intro h.request

theorem Kept.execRd2line {p} : NextKept o (Machine.execRd2line p s) := by
  unfold Machine.execRd2line
  exact .intro h.request

theorem Kept.execWr {p} : NextKept o (Machine.execWr p s) := by
  unfold Machine.execWr
  exact .intro h.request

theorem Kept.execWrLine {p} : NextKept o (Machine.execWrLine p s) := by
  unfold Machine.execWrLine
  exact .intro h.request

theorem Kept.execWr2line {p} : NextKept o (Machine.execWr2line p s) := by
  unfold Machine.execWr2line
  exact .intro h.request

theorem Kept.execWrn {p} : NextKept o (Machine.execWrn p s) := by
  unfold Machine.execWrn
  exact .intro h.request

theorem Kept.execWrnLine {p} : NextKept o (Machine.execWrnLine p s) := by
  unfold Machine.execWrnLine
  exact .intro h.request

theorem Kept.execAtom {p} : NextKept o (Machine.execAtom p s) := by
  unfold Machine.execAtom
  exact .intro h.request

theorem Kept.execInboundAcceptResume {agent} : NextKept o (Machine.execInboundAcceptResume agent s) := by
  unfold Machine.execInboundAcceptResume
  refine .intro ?_
  split
  · extract_lets s1
    have hs1 : Kept o s1 := h.updIface
    exact .ite hs1.refuse (.ite h hs1.accept)
  · exact h

theorem Kept.execDeadTimeout {agent} : NextKept o (Machine.execDeadTimeout agent s) := by
  unfold Machine.execDeadTimeout
  exact .intro (.ite h h.isolate)

theorem Kept.execTxnHoldEnd {agent txn} : NextKept o (Machine.execTxnHoldEnd agent txn s) := by
  unfold Machine.execTxnHoldEnd
  exact .intro h.updIface.releaseWaiting

theorem Kept.stileEnd {d op} : Kept o (s.stileEnd d op) := by
  unfold State.stileEnd
  exact h.wr.raise

theorem Kept.stileCmd {d op f} (hf : ∀ {u}, Kept o u → Kept o (f u)) : Kept o (s.stileCmd d op f) := by
  unfold State.stileCmd
  extract_lets s1
  have hs1 : Kept o s1 := h.wr.wr
  exact .ite h.wr (.ite hs1.wr (hf hs1.wr))

theorem Kept.stilePackets {d op} : Kept o (s.stilePackets d op) := by
  unfold State.stilePackets
  exact Kept.foldl (fun _ _ ht => ht.send) h

theorem Kept.unstick {d} : Kept o (s.unstick d) := by
  unfold State.unstick
  extract_lets
  exact h.same

theorem Kept.openDom {d} : Kept o (s.openDom d) := by
  unfold State.openDom
  exact .ite h (.ite (h.setDom (by decide)).stilePackets (.ite ((Kept.foldl (fun _ _ ht => ht.updIface) (h.setDom (by decide)).stilePackets).unstick) h))

theorem Kept.execStileOpen {dom} : NextKept o (Machine.execStileOpen dom s) := by
  unfold Machine.execStileOpen
  refine .intro ?_
  refine Kept.stileCmd h (fun hu3 => ?_)
  extract_lets _ t1 t2
  have ht1 : Kept o t1 := hu3.openDom
  have ht2 : Kept o t2 := .ite ht1.updSite.wr ht1
  exact .ite hu3.stileEnd (.ite ht2.stileEnd hu3.openDom)

theorem Kept.forceOff {d} : Kept o (s.forceOff d) := by
  unfold State.forceOff
  extract_lets _ _ s1
  have hs1 : Kept o s1 := h.same
  exact hs1.unstick.stilePackets

theorem Kept.execStileForceOff {dom} : NextKept o (Machine.execStileForceOff dom s) := by
  unfold Machine.execStileForceOff
  exact .intro (h.stileCmd (fun hu => hu.forceOff))

theorem Kept.execStileOpReserved {op dom} : NextKept o (Machine.execStileOpReserved op dom s) := by
  unfold Machine.execStileOpReserved
  exact .intro (.ite (h.stileCmd fun hu => hu) h)

theorem Kept.execStile {op agent} : NextKept o (Machine.execStile op agent s) := by
  unfold Machine.execStile
  extract_lets
  refine .intro ?_
  refine Kept.delivering h (fun hu3 => ?_) h
  extract_lets t1
  have ht1 : Kept o t1 := .ite hu3.isolate hu3
  exact ht1.send

theorem Kept.stileAck {agent st} : Kept o (s.stileAck agent st) := by
  unfold State.stileAck
  exact h.delivering (fun hu => hu.same) h

theorem Kept.drainWalk {c} : Kept o (s.drainWalk c) := by
  unfold State.drainWalk
  refine Kept.foldl (fun u a hu1 => ?_) h
  extract_lets
  exact (Kept.foldl (fun _ _ ht2 => ht2.enterWait) hu1).updHome

theorem Kept.execAgentIdle {agent} : NextKept o (Machine.execAgentIdle agent s) := by
  unfold Machine.execAgentIdle
  split
  · exact .intro h
  · extract_lets s1
    have hs1 : Kept o s1 := h.updIface
    exact .ite (.intro h) (.intro (.ite hs1.drainWalk hs1))

theorem Kept.domainFenced {dom} : Kept o (s.domainFenced dom) := by
  unfold State.domainFenced
  extract_lets s1
  have hs1 : Kept o s1 := h.setDom (by decide)
  exact .ite h (.ite hs1.updSite hs1)

theorem Kept.domainPowerOff {dom} : Kept o (s.domainPowerOff dom) := by
  unfold State.domainPowerOff
  extract_lets _ _ s1 _ s2 s3
  have hs1 : Kept o s1 := (h.powerOff.setDom (by decide)).sluDiscard
  clear_value s1
  have hs2 : Kept o s2 := hs1.same
  have hs3 : Kept o s3 := .ite hs2.updSite.wr hs2
  exact .ite h (.ite hs3.stileEnd (.ite hs3.raise hs3))

theorem Kept.domainOpened {dom ok} : Kept o (s.domainOpened dom ok) := by
  unfold State.domainOpened
  extract_lets _ s0 s1
  have hs0 : Kept o s0 := h.setDom (by split <;> decide)
  have hs1 : Kept o s1 := .ite hs0.wr hs0
  exact .ite h (.ite hs1.stileEnd hs1)

theorem Kept.execDrainTimeout {dom} : NextKept o (Machine.execDrainTimeout dom s) := by
  unfold Machine.execDrainTimeout
  extract_lets s1 _ s2
  have hs1 : Kept o s1 := h.wr.raise
  clear_value s1
  have hs2 : Kept o s2 := hs1.same
  exact .intro (.ite h (.ite hs1.forceOff (.ite hs2.stileEnd hs2)))

theorem Kept.execIsoIsolate {agent} : NextKept o (Machine.execIsoIsolate agent s) := by
  unfold Machine.execIsoIsolate
  extract_lets
  refine .intro ?_
  refine .ite h.wr.wr ?_
  split
  · exact h.wr.isolate
  · exact h.wr

theorem Kept.isoRelease {agent} : Kept o (s.isoRelease agent) := by
  unfold State.isoRelease
  extract_lets
  split
  · exact h.wr
  · split
    · exact h.wr.wr
    · refine .ite h.wr.wr ?_
      split
      · exact Kept.foldl (fun _ _ ht => ht.updIface) h.wr
      · exact h.wr.updIface

theorem Kept.execIsoRelease {agent} : NextKept o (Machine.execIsoRelease agent s) := by
  unfold Machine.execIsoRelease
  exact .intro h.isoRelease

theorem Kept.execFence {agent stream} : NextKept o (Machine.execFence agent stream s) := by
  unfold Machine.execFence
  exact .intro h.startFence

theorem Kept.execFenceRemote {agent stream} : NextKept o (Machine.execFenceRemote agent stream s) := by
  unfold Machine.execFenceRemote
  exact .intro h.startFence

theorem Kept.execFlushProbe {p} : NextKept o (Machine.execFlushProbe p s) := by
  unfold Machine.execFlushProbe
  exact .intro h.request

theorem Kept.execFlushProbeAnswer {agent src txn} : NextKept o (Machine.execFlushProbeAnswer agent src txn s) := by
  unfold Machine.execFlushProbeAnswer
  refine .intro ?_
  split
  · exact .ite h.answer h
  · exact h

/-! ### Machine/HomeCmds.lean: commands of the homes -/

theorem Kept.execRdShared {p} : NextKept o (Machine.execRdShared p s) := by
  unfold Machine.execRdShared
  exact .intro h.request

theorem Kept.execRdUnique {p} : NextKept o (Machine.execRdUnique p s) := by
  unfold Machine.execRdUnique
  exact .intro h.request

theorem Kept.execClaim {p} : NextKept o (Machine.execClaim p s) := by
  unfold Machine.execClaim
  exact .intro h.request

theorem Kept.execAtomP {p} : NextKept o (Machine.execAtomP p s) := by
  unfold Machine.execAtomP
  exact .intro h.request

theorem Kept.execWbDirty {p} : NextKept o (Machine.execWbDirty p s) := by
  unfold Machine.execWbDirty
  exact .intro h.request

theorem Kept.execEvictClean {p} : NextKept o (Machine.execEvictClean p s) := by
  unfold Machine.execEvictClean
  exact .intro h.request

theorem Kept.fromCache {p f} (hf : ∀ {u}, Kept o u → Kept o (f u)) : Kept o (s.fromCache p f) := by
  unfold State.fromCache
  exact h.delivering (fun hu => hf hu) (Kept.ite (hf h) h)

theorem Kept.execSnpRsp {p} : NextKept o (Machine.execSnpRsp p s) := by
  unfold Machine.execSnpRsp
  extract_lets
  exact .intro (h.fromCache (fun hu => hu.snoopReply))

theorem Kept.execSnpRspData {p} : NextKept o (Machine.execSnpRspData p s) := by
  unfold Machine.execSnpRspData
  extract_lets
  exact .intro (h.fromCache (fun hu => hu.snoopReply))

theorem Kept.execCmpAck {p} : NextKept o (Machine.execCmpAck p s) := by
  unfold Machine.execCmpAck
  extract_lets
  exact .intro (h.fromCache (fun hu => hu.cmpAck))

theorem Kept.execAckTimeout {line} : NextKept o (Machine.execAckTimeout line s) := by
  unfold Machine.execAckTimeout
  extract_lets
  refine .intro ?_
  split
  · split
    · extract_lets s1 s2
      have hs1 : Kept o s1 := .ite h h.lostLine
      have hs2 : Kept o s2 := hs1.release.cacheGone
      exact (Kept.ite hs2.isolate hs2).retryAlloc
    · exact h
  · exact h

theorem Kept.execBiTimeout {line} : NextKept o (Machine.execBiTimeout line s) := by
  unfold Machine.execBiTimeout
  extract_lets _ s1 s2
  have hs1 : Kept o s1 := h.updIface
  have hs2 : Kept o s2 := .ite hs1 hs1.lostLine
  clear_value s1 s2
  refine .intro ?_
  split
  · exact .ite h hs2.cacheGone.updBusy.goOn
  · exact h

theorem Kept.execFilterWalkDone {h' cache} : NextKept o (Machine.execFilterWalkDone h' cache s) := by
  unfold Machine.execFilterWalkDone
  exact .intro (.ite h h.updHome)

theorem Kept.execLostLinePop {h'} : NextKept o (Machine.execLostLinePop h' s) := by
  unfold Machine.execLostLinePop
  exact .intro h.updHome

theorem Kept.execHomeCntClear {h'} : NextKept o (Machine.execHomeCntClear h' s) := by
  unfold Machine.execHomeCntClear
  exact .intro h.resetReg.resetReg.resetReg

/-! ### Machine/HbmCmds.lean: commands of the stacks -/

theorem Kept.setStep {m step} : Kept o (s.setStep m step) := by
  unfold State.setStep
  extract_lets
  exact .ite h h.same.wr.raise

theorem Kept.checkEnv {m} : Kept o (s.checkEnv m) := by
  unfold State.checkEnv
  extract_lets
  exact .ite h h.wr

theorem Kept.execCapRiseTimer {m} : NextKept o (Machine.execCapRiseTimer m s) := by
  unfold Machine.execCapRiseTimer
  exact .intro (.ite h.setStep h)

theorem Kept.execHbmBurn {m} : NextKept o (Machine.execHbmBurn m s) := by
  unfold Machine.execHbmBurn
  refine .intro ?_
  refine .ite h.wr ?_
  split
  · exact h
  · extract_lets s1 s2
    have hs1 : Kept o s1 := h.ledgerAdd
    have hs2 : Kept o s2 := hs1.updStack
    exact .ite h hs2.wr

theorem Kept.execHbmErrClear {m} : NextKept o (Machine.execHbmErrClear m s) := by
  unfold Machine.execHbmErrClear
  exact .intro h.resetReg

theorem Kept.saveSet {m} : Kept o (s.saveSet m) := by
  unfold State.saveSet
  exact h.updStack

theorem Kept.execHbmTrainSave {m} : NextKept o (Machine.execHbmTrainSave m s) := by
  unfold Machine.execHbmTrainSave
  exact .intro (.ite h.saveSet h)

theorem Kept.execRecentreStart {m} : NextKept o (Machine.execRecentreStart m s) := by
  unfold Machine.execRecentreStart
  exact .intro (.ite h.updStack.raise h)

theorem Kept.endRecentre {m} : Kept o (s.endRecentre m) := by
  unfold State.endRecentre
  extract_lets _ _ _ lo hi s1
  have hlo : ∀ {f x u}, Kept o u → Kept o (lo f x u) := fun hu => hu.wr
  have hhi : ∀ {f x u}, Kept o u → Kept o (hi f x u) := fun hu => hu.wr
  have hs1 : Kept o s1 := hhi (hlo (hhi (hlo (hhi (hlo h)))))
  exact hs1.wr.inc.updStack.fresh

theorem Kept.execRecentreEnd {m} : NextKept o (Machine.execRecentreEnd m s) := by
  unfold Machine.execRecentreEnd
  extract_lets u
  have hu : Kept o u := h.endRecentre
  clear_value u
  exact .intro (.ite h (.ite hu.same.wr h.endRecentre))

theorem Kept.execLoadClassWindowEnd {m share} : NextKept o (Machine.execLoadClassWindowEnd m share s) := by
  unfold Machine.execLoadClassWindowEnd
  exact .intro (.ite h.wr.checkEnv h)

theorem Kept.granEnd {block result} : Kept o (s.granEnd block result) := by
  unfold State.granEnd
  exact h.wr.wr.wr

theorem Kept.granCmd {w op block page? f} (hf : ∀ {u}, Kept o u → Kept o (f u)) : Kept o (s.granCmd w op block page? f) := by
  unfold State.granCmd
  extract_lets _ s1
  have hs1 : Kept o s1 := h.wr.wr.wr
  exact .ite h.wr (.ite hs1 (.ite hs1.granEnd (hf hs1)))

theorem Kept.execGranQuery {w block} : NextKept o (Machine.execGranQuery w block s) := by
  unfold Machine.execGranQuery
  exact .intro (h.granCmd (fun hu => hu.granEnd))

theorem Kept.execGranFill {w block} : NextKept o (Machine.execGranFill w block s) := by
  unfold Machine.execGranFill
  exact .intro (h.granCmd (fun hu => Kept.ite hu.updBlock.granEnd hu.granEnd))

theorem Kept.execGranSeal {w block} : NextKept o (Machine.execGranSeal w block s) := by
  unfold Machine.execGranSeal
  exact .intro (h.granCmd (fun hu => Kept.ite hu.updBlock.wr.wr hu.granEnd))

theorem Kept.releaseBlock {block} : Kept o (s.releaseBlock block) := by
  unfold State.releaseBlock
  exact .ite h h.updBlock

theorem Kept.execGranRelease {w block} : NextKept o (Machine.execGranRelease w block s) := by
  unfold Machine.execGranRelease
  exact .intro (h.granCmd (fun hu => Kept.ite hu.granEnd hu.releaseBlock.wr.wr))

theorem Kept.modelState {block st} : Kept o (s.modelState block st) := by
  unfold State.modelState
  split
  · exact h.wr
  · exact h

theorem Kept.beginRestore {block page} : Kept o (s.beginRestore block page) := by
  unfold State.beginRestore
  extract_lets s1
  have hs1 : Kept o s1 := h.updBlock.modelState
  clear_value s1
  exact hs1.same

theorem Kept.execGranRestoreBegin {w block page} : NextKept o (Machine.execGranRestoreBegin w block page s) := by
  unfold Machine.execGranRestoreBegin
  exact .intro (h.granCmd (fun hu => Kept.ite hu.granEnd (.ite hu.granEnd hu.beginRestore.granEnd)))

theorem Kept.endRestore {block page} : Kept o (s.endRestore block page) := by
  unfold State.endRestore
  extract_lets s1
  have hs1 : Kept o s1 := h.updBlock
  clear_value s1
  split
  · exact .ite hs1 hs1.wr
  · exact hs1

theorem Kept.execGranRestoreEnd {w block page} : NextKept o (Machine.execGranRestoreEnd w block page s) := by
  unfold Machine.execGranRestoreEnd
  exact .intro (h.granCmd (fun hu => Kept.ite hu.endRestore.granEnd hu.granEnd))

theorem Kept.execGranOpNone {w op block} : NextKept o (Machine.execGranOpNone w op block s) := by
  unfold Machine.execGranOpNone
  exact .intro (h.granCmd fun hu => hu)

theorem Kept.writeParity {b f} : Kept o (s.writeParity b f) := by
  unfold State.writeParity
  exact Kept.foldl (fun _ _ ht => ht.setByte) h.cutMem

theorem Kept.granEndIf {block result} : Kept o (s.granEndIf block result) := by
  unfold State.granEndIf
  exact .ite h.granEnd h

theorem Kept.execParityPassEnd {block uncorrectable} : NextKept o (Machine.execParityPassEnd block uncorrectable s) := by
  unfold Machine.execParityPassEnd
  exact .intro (.ite h (.ite h.updBlock.granEndIf h.writeParity.updBlock.granEndIf))

theorem Kept.dropMarks {f} : Kept o (s.dropMarks f) := by
  unfold State.dropMarks
  extract_lets
  exact h.same

theorem Kept.wiped {block} : Kept o (s.wiped block) := by
  unfold State.wiped
  exact h.zeroRange.dropMarks.updBlock

theorem Kept.freeModels : Kept o s.freeModels := by
  unfold State.freeModels
  refine Kept.foldl (fun u a hu1 => ?_) h
  extract_lets u
  have hu : Kept o u := hu1.resetReg.resetReg
  clear_value u
  exact .ite hu.same hu1

theorem Kept.execWipeEnd {block} : NextKept o (Machine.execWipeEnd block s) := by
  unfold Machine.execWipeEnd
  exact .intro (.ite h h.wiped.granEndIf.freeModels)

theorem Kept.execRestoreParityEnd {block page stillBad} : NextKept o (Machine.execRestoreParityEnd block page stillBad s) := by
  unfold Machine.execRestoreParityEnd
  extract_lets
  exact .intro (.ite h h.writeParity.dropMarks.updBlock)

end

end Sys2Proof.Machine
end

section
/-!
PROOFS. What the operations of the hub keep: the fabric links and the event records.
-/

namespace Sys2Proof.Machine

open Sys2Proof.Safety

section
variable {o s : State} (h : Kept o s)
include h

/-! ### Machine/Links.lean: links and pairs of hubs -/

theorem Kept.updLink {l f} : Kept o (s.updLink l f) := by
  unfold State.updLink
  extract_lets
  exact h.same

theorem Kept.setLink {l st} : Kept o (s.setLink l st) := by
  unfold State.setLink
  exact .ite h h.wr.raise

theorem Kept.sendFrame {l hub f} : Kept o (s.sendFrame l hub f) := by
  unfold State.sendFrame
  extract_lets _ s1
  have hs1 : Kept o s1 := h.same
  exact hs1.updLink

theorem Kept.paceAfter {l hub n} : Kept o (s.paceAfter l hub n) := by
  unfold State.paceAfter
  extract_lets
  exact .ite h h.same

theorem Kept.linkEmit {l vc m more} : Kept o (s.linkEmit l vc m more) := by
  unfold State.linkEmit
  extract_lets s0
  have hs0 : Kept o s0 := Kept.foldl (fun _ _ ht => Kept.ite ht.chargePort ht) h
  exact .ite hs0.updLink hs0.sendFrame.paceAfter

theorem Kept.linkDrain {l n} : Kept o (State.linkDrain l n s) := by
  induction n generalizing s with
  | zero =>
    rw [State.linkDrain]
    exact h
  | succ n ih =>
    rw [State.linkDrain]
    split
    · extract_lets _ s1
      have hs1 : Kept o s1 := h.updLink
      exact ih hs1.linkEmit
    · exact h

theorem Kept.drainLink {l} : Kept o (s.drainLink l) := by
  unfold State.drainLink
  exact h.linkDrain

theorem Kept.linkPush {l vc m} : Kept o (s.linkPush l vc m) := by
  unfold State.linkPush
  exact h.updLink.drainLink

theorem Kept.retrainLink {l} : Kept o (s.retrainLink l) := by
  unfold State.retrainLink
  exact h.setLink.updLink

theorem Kept.replay {l} : Kept o (s.replay l) := by
  unfold State.replay
  extract_lets s1
  have hs1 : Kept o s1 := h.inc.updLink
  exact .ite hs1.retrainLink.updLink hs1

theorem Kept.linkAck {l f} : Kept o (s.linkAck l f) := by
  unfold State.linkAck
  extract_lets _ _ s1
  have hs1 : Kept o s1 := h.updLink
  exact .ite hs1.replay hs1.drainLink

theorem Kept.linkIdle {l vc cred} : Kept o (s.linkIdle l vc cred) := by
  unfold State.linkIdle
  exact h.updLink

theorem Kept.rxAdd {l es} : Kept o (s.rxAdd l es) := by
  unfold State.rxAdd
  refine Kept.foldl (fun u a hu1 => ?_) h
  extract_lets t1
  have ht1 : Kept o t1 := hu1.inc
  exact .ite (.ite ht1.linkIdle ht1) hu1.updLink

theorem Kept.execLinkFlitReceive {l f} : NextKept o (Machine.execLinkFlitReceive l f s) := by
  unfold Machine.execLinkFlitReceive
  extract_lets s1 s2
  have hs1 : Kept o s1 := h.inc.inc
  have hs2 : Kept o s2 := hs1.linkAck
  exact .intro (.ite h (.ite hs1.updLink.linkIdle (.ite hs1.retrainLink (.ite hs2 (.ite hs2.updLink.rxAdd.linkIdle hs2.updLink.linkIdle)))))

theorem Kept.execLinkReplayTimeout {l} : NextKept o (Machine.execLinkReplayTimeout l s) := by
  unfold Machine.execLinkReplayTimeout
  exact .intro (.ite h h.replay)

theorem Kept.execMarkerLock {l gained} : NextKept o (Machine.execMarkerLock l gained s) := by
  unfold Machine.execMarkerLock
  exact .intro h.updLink

theorem Kept.transmit {m} : Kept o (s.transmit m) := by
  unfold State.transmit
  split
  · exact .ite h h.linkPush
  · exact h

theorem Kept.putSend {hub c} : Kept o (s.putSend hub c) := by
  unfold State.putSend
  extract_lets
  exact h.same

theorem Kept.putRecv {hub c} : Kept o (s.putRecv hub c) := by
  unfold State.putRecv
  extract_lets
  exact h.same

theorem Kept.freeSend {hub} : Kept o (s.freeSend hub) := by
  unfold State.freeSend
  split
  · extract_lets
    exact h.same
  · exact h

theorem Kept.ctxSend {hub c m first} : Kept o (s.ctxSend hub c m first) := by
  unfold State.ctxSend
  extract_lets
  exact h.putSend.transmit

theorem Kept.openSend {hub m} : Kept o (s.openSend hub m) := by
  unfold State.openSend
  extract_lets
  exact h.same.ctxSend

theorem Kept.xpSend {hub m} : Kept o (s.xpSend hub m) := by
  unfold State.xpSend
  split
  · extract_lets
    exact .ite h.same h.openSend
  · exact .ite h.putSend h.ctxSend

theorem Kept.ctxDrain {hub n} : Kept o (State.ctxDrain hub n s) := by
  induction n generalizing s with
  | zero =>
    rw [State.ctxDrain]
    exact h
  | succ n ih =>
    rw [State.ctxDrain]
    split
    · split
      · exact .ite (ih h.ctxSend) h
      · exact h
    · exact h

theorem Kept.drainPairs {hub} : Kept o (s.drainPairs hub) := by
  unfold State.drainPairs
  extract_lets _ s1
  have hs1 : Kept o s1 := Kept.foldl (fun _ _ ht => ht.ctxDrain) h
  clear_value s1
  exact Kept.foldl (fun _ _ ht1 => ht1.xpSend) hs1.same

theorem Kept.xpPlain {hub typ addr epoch} : Kept o (s.xpPlain hub typ addr epoch) := by
  unfold State.xpPlain
  exact h.transmit

theorem Kept.sendAck {hub} : Kept o (s.sendAck hub) := by
  unfold State.sendAck
  split
  · exact h.putRecv.xpPlain
  · exact h

theorem Kept.anchorSend {a p} : Kept o (s.anchorSend a p) := by
  unfold State.anchorSend
  extract_lets hub i behind n segs runs
  refine .ite h (.ite h.answer (.ite h (.ite ?_ ?_)))
  · exact (Kept.foldl (fun _ _ ht => ht.xpSend) h).answer
  · split
    rename_i psns s1 heq
    exact (Kept.snd heq (Kept.foldlSnd (fun _ _ ht => ht.xpSend) h)).updIface

theorem Kept.execAnchorSend {p} : NextKept o (Machine.execAnchorSend p s) := by
  unfold Machine.execAnchorSend
  extract_lets s1
  have hs1 : Kept o s1 := h.request
  clear_value s1
  refine .intro ?_
  refine .ite h.anchorSend ?_
  split
  · exact hs1.anchorSend
  · exact hs1

theorem Kept.sendPerf {hub} : Kept o (s.sendPerf hub) := by
  unfold State.sendPerf
  split
  · exact .ite h h.putRecv.xpPlain
  · exact h

theorem Kept.xpRespond {hub m status data poison} : Kept o (s.xpRespond hub m status data poison) := by
  unfold State.xpRespond
  exact .ite h (.ite (.ite h h.xpSend) (.ite h.xpSend h.xpSend))

theorem Kept.countClosed {hpa} : Kept o (s.countClosed hpa) := by
  unfold State.countClosed
  split
  · exact h.inc
  · exact h

theorem Kept.xpIssue {hub m} : Kept o (s.xpIssue hub m) := by
  unfold State.xpIssue
  extract_lets
  split
  · exact h.countClosed.xpRespond.sendPerf
  · extract_lets
    refine .ite h.inc.xpRespond.sendPerf ?_
    refine Kept.foldl (fun u a hu3 => ?_) h
    extract_lets
    exact hu3.putRecv.issue

theorem Kept.xpAnswer {hub m} : Kept o (s.xpAnswer hub m) := by
  unfold State.xpAnswer
  extract_lets
  split
  · exact h
  · extract_lets
    exact .ite h.updIface.answer (.ite h.updIface.answer h.updIface)

theorem Kept.xpColl {hub m} : Kept o (s.xpColl hub m) := by
  unfold State.xpColl
  extract_lets
  exact .ite h.putRecv.inc (.ite h.putRecv.issue h.putRecv)

theorem Kept.applyPerfs {hub} : Kept o (s.applyPerfs hub) := by
  unfold State.applyPerfs
  split
  · exact h
  · extract_lets _ _ s1
    have hs1 : Kept o s1 := h.putSend
    exact Kept.foldl (fun _ _ ht => ht.updIface) hs1

theorem Kept.dropRecv {hub silent} : Kept o (s.dropRecv hub silent) := by
  unfold State.dropRecv
  extract_lets
  exact h.same

theorem Kept.xpDeliver {hub m} : Kept o (s.xpDeliver hub m) := by
  unfold State.xpDeliver
  split
  · exact h.xpColl.sendPerf
  · exact h.sendAck.applyPerfs.dropRecv
  · exact h.xpAnswer
  · exact h.xpAnswer
  · exact h.xpAnswer
  · exact h.xpIssue

theorem Kept.xpPump {hub n} : Kept o (State.xpPump hub n s) := by
  induction n generalizing s with
  | zero =>
    rw [State.xpPump]
    exact h
  | succ n ih =>
    rw [State.xpPump]
    split
    · exact h
    · split
      · exact h
      · extract_lets _ s1 s2
        have hs1 : Kept o s1 := h.putRecv.xpDeliver.applyPerfs
        have hs2 : Kept o s2 := by
          unfold s2
          split
          · exact .ite hs1.sendAck hs1
          · exact hs1
        exact ih hs2

theorem Kept.takeRx {m} : Kept o (s.takeRx m) := by
  unfold State.takeRx
  split
  · exact h
  · split
    · exact h
    · extract_lets s1
      have hs1 : Kept o s1 := h.updLink
      exact .ite hs1.linkIdle hs1

theorem Kept.ingress {m f} (hf : ∀ {u}, Kept o u → Kept o (f u)) : Kept o (s.ingress m f) := by
  unfold State.ingress
  extract_lets s1
  have hs1 : Kept o s1 := by
    unfold s1
    split
    · exact .ite h.chargePort h
    · exact h
  exact .ite h (hf hs1.takeRx)

theorem Kept.xpReceive {m} : Kept o (s.xpReceive m) := by
  unfold State.xpReceive
  refine Kept.ingress h (fun hu2 => ?_)
  extract_lets _ _ _ _ s1
  have hs1 : Kept o s1 := .ite hu2.dropRecv.putRecv hu2
  clear_value s1
  refine .ite hu2 ?_
  refine .ite hu2.inc ?_
  refine .ite hu2 ?_
  refine .ite hu2.xpPlain ?_
  split
  · exact hs1
  · extract_lets
    exact .ite hs1 (.ite hs1.sendAck (.ite hs1 (.ite hs1 hs1.putRecv.xpPump)))

theorem Kept.execXpRd {m} : NextKept o (Machine.execXpRd m s) := by
  unfold Machine.execXpRd
  exact .intro h.xpReceive

theorem Kept.execXpWr {m} : NextKept o (Machine.execXpWr m s) := by
  unfold Machine.execXpWr
  exact .intro h.xpReceive

theorem Kept.execXpWrn {m} : NextKept o (Machine.execXpWrn m s) := by
  unfold Machine.execXpWrn
  exact .intro h.xpReceive

theorem Kept.execXpAtom {m} : NextKept o (Machine.execXpAtom m s) := by
  unfold Machine.execXpAtom
  exact .intro h.xpReceive

theorem Kept.execXpColl {m} : NextKept o (Machine.execXpColl m s) := by
  unfold Machine.execXpColl
  exact .intro h.xpReceive

theorem Kept.execXpClose {m} : NextKept o (Machine.execXpClose m s) := by
  unfold Machine.execXpClose
  exact .intro h.xpReceive

theorem Kept.execXpRsp {m} : NextKept o (Machine.execXpRsp m s) := by
  unfold Machine.execXpRsp
  exact .intro h.xpReceive

theorem Kept.execXpRspData {m} : NextKept o (Machine.execXpRspData m s) := by
  unfold Machine.execXpRspData
  exact .intro h.xpReceive

theorem Kept.execXpWfail {m} : NextKept o (Machine.execXpWfail m s) := by
  unfold Machine.execXpWfail
  exact .intro h.xpReceive

theorem Kept.clearOld {x} : Kept o (s.clearOld x) := by
  unfold State.clearOld
  extract_lets
  exact .ite h.wr h

theorem Kept.linkAnswer {a p} : Kept o (s.linkAnswer a p) := by
  unfold State.linkAnswer
  extract_lets
  split
  · split
    · extract_lets s1
      have hs1 : Kept o s1 := h.putRecv
      exact (Kept.ite hs1 hs1.xpRespond.sendPerf).clearOld
  · split
    · split
      · extract_lets s1
        have hs1 : Kept o s1 := h.same
        exact (Kept.ite hs1 hs1.xpRespond).clearOld
    · exact h

theorem Kept.execXpAck {m} : NextKept o (Machine.execXpAck m s) := by
  unfold Machine.execXpAck
  extract_lets _ s0
  have hs0 : Kept o s0 := h.takeRx
  clear_value s0
  refine .intro ?_
  split
  · exact hs0
  · extract_lets _ _ _ _ s1
    have hs1 : Kept o s1 := hs0.putSend
    exact .ite hs0 ((Kept.ite hs1.freeSend hs1).drainPairs)

theorem Kept.execXpPerf {m} : NextKept o (Machine.execXpPerf m s) := by
  unfold Machine.execXpPerf
  extract_lets _ s0
  have hs0 : Kept o s0 := h.takeRx
  clear_value s0
  refine .intro ?_
  split
  · exact .ite hs0 hs0.putSend.applyPerfs
  · exact hs0

theorem Kept.execXpBusy {m} : NextKept o (Machine.execXpBusy m s) := by
  unfold Machine.execXpBusy
  extract_lets s0
  have hs0 : Kept o s0 := h.takeRx
  clear_value s0
  refine .intro ?_
  split
  · exact .ite hs0.putSend hs0
  · exact hs0

theorem Kept.execXpAckTimer {hub} : NextKept o (Machine.execXpAckTimer hub s) := by
  unfold Machine.execXpAckTimer
  refine .intro ?_
  split
  · exact .ite h.sendAck h
  · exact h

theorem Kept.loseFar {a c p} : Kept o (s.loseFar a c p) := by
  unfold State.loseFar
  extract_lets
  exact .ite h.updIface h.answer

theorem Kept.losePair {hub tell} (htell : ∀ {u}, Kept o u → Kept o (tell u)) : Kept o (s.losePair hub tell) := by
  unfold State.losePair
  extract_lets
  split
  · exact h
  · extract_lets s1 s3 s4
    have hs1 : Kept o s1 := Kept.foldl (fun _ _ ht => ht.loseFar) h
    have hs3 : Kept o s3 := hs1.updIface
    have hs4 : Kept o s4 := hs3.freeSend.inc.drainPairs
    exact (htell hs4).raise

theorem Kept.resend {hub c} : Kept o (s.resend hub c) := by
  unfold State.resend
  extract_lets
  exact (Kept.foldl (fun _ _ ht => ht.transmit) h.putSend).inc

theorem Kept.execXpIdleClose {hub} : NextKept o (Machine.execXpIdleClose hub s) := by
  unfold Machine.execXpIdleClose
  refine .intro ?_
  split
  · extract_lets
    exact .ite h.ctxSend h
  · exact h

theorem Kept.execIntermediateForward {l vc m} : NextKept o (Machine.execIntermediateForward l vc m s) := by
  unfold Machine.execIntermediateForward
  refine .intro ?_
  refine .ite h ?_
  refine Kept.ingress h (fun hu5 => ?_)
  refine .ite hu5.inc ?_
  split
  · exact hu5.linkPush
  · exact hu5.inc

theorem Kept.halveRate {hub} : Kept o (s.halveRate hub) := by
  unfold State.halveRate
  extract_lets
  exact h.same

theorem Kept.bufferFrame {l port f u} (heq : s.bufferFrame l port f = some u) : Kept o u := by
  unfold State.bufferFrame at heq
  extract_lets full s1 at heq
  split at heq
  · cases heq
  · cases heq
    exact Kept.foldl (fun _ _ ht => ht.updLink) h.rxAdd

theorem Kept.execEthFrameReceive {l port f} : NextKept o (Machine.execEthFrameReceive l port f s) := by
  unfold Machine.execEthFrameReceive
  refine .intro ?_
  refine .ite h ?_
  split
  · extract_lets
    exact h.updLink.drainLink
  · refine .ite h.inc ?_
    refine .ite h.halveRate ?_
    split
    · exact h
    · rename_i x s1 heq
      have hs1 : Kept o s1 := h.bufferFrame heq
      extract_lets _ _ s2
      have hs2 : Kept o s2 := hs1.same
      exact .ite hs2.sendFrame hs1

theorem Kept.execEthCnp {hub} : NextKept o (Machine.execEthCnp hub s) := by
  unfold Machine.execEthCnp
  exact .intro h.halveRate

theorem Kept.execEthRateRise {hub} : NextKept o (Machine.execEthRateRise hub s) := by
  unfold Machine.execEthRateRise
  extract_lets
  exact .intro h.same

theorem Kept.execTimeSyncTimer : NextKept o (Machine.execTimeSyncTimer s) := by
  unfold Machine.execTimeSyncTimer
  extract_lets
  exact .intro (.ite h (Kept.foldl (fun _ _ ht => ht.updLink) h))

/-- The clock of the hub is never set back: a step goes forward (15_fabric_links.md R506). -/
theorem Kept.timeOffset {off} : Kept o (s.timeOffset off) := by
  unfold State.timeOffset
  extract_lets _ n was now _ s1 rate s2 s3
  have hs1 : Kept o s1 := h.same.wr
  have hs2 : Kept o s2 := hs1.fresh.wr.wr
  have hs3 : Kept o s3 := .ite hs2.later hs2
  exact .ite hs3.raise hs3

theorem Kept.execLinkTimeMsg {l t1 r1 r2} : NextKept o (Machine.execLinkTimeMsg l t1 r1 r2 s) := by
  unfold Machine.execLinkTimeMsg
  extract_lets _ s1
  have hs1 : Kept o s1 := h.updLink
  exact .intro (.ite h (.ite hs1 (.ite hs1.timeOffset hs1)))

theorem Kept.execPtpFrame {l port offset} : NextKept o (Machine.execPtpFrame l port offset s) := by
  unfold Machine.execPtpFrame
  refine .intro ?_
  refine .ite ?_ h
  split
  · exact h.timeOffset
  · exact h

theorem Kept.linkLost {l st} : Kept o (s.linkLost l st) := by
  unfold State.linkLost
  extract_lets _ s1 s2
  have hs1 : Kept o s1 := by
    unfold s1
    refine Kept.foldl (fun u a hu2 => ?_) h
    split
    · exact hu2.putRecv
    · exact hu2
  have hs2 : Kept o s2 := hs1.setLink.updLink
  exact .ite hs2.inc hs2

theorem Kept.execLinkLaneFail {l lane} : NextKept o (Machine.execLinkLaneFail l lane s) := by
  unfold Machine.execLinkLaneFail
  extract_lets _ _ _ _ s2
  have hs2 : Kept o s2 := h.wr.wr
  exact .intro (.ite h (.ite h.wr.retrainLink (.ite hs2.linkLost hs2)))

theorem Kept.trainEnd {l ok lanes failed} : Kept o (s.trainEnd l ok lanes failed) := by
  unfold State.trainEnd
  extract_lets _ _ _ _ s1 s2
  have hs1 : Kept o s1 := h.wr.wr.wr
  have hs2 : Kept o s2 := hs1.setLink.updLink
  exact .ite hs2.drainLink h.linkLost

theorem Kept.execLinkTrainingEnd {l ok lanes} : NextKept o (Machine.execLinkTrainingEnd l ok lanes s) := by
  unfold Machine.execLinkTrainingEnd
  exact .intro (.ite h.trainEnd h)

theorem Kept.execLinkRetrainTimer {l} : NextKept o (Machine.execLinkRetrainTimer l s) := by
  unfold Machine.execLinkRetrainTimer
  exact .intro (.ite h.updLink.retrainLink h)

theorem Kept.execLinkRetrain {l} : NextKept o (Machine.execLinkRetrain l s) := by
  unfold Machine.execLinkRetrain
  exact .intro (.ite h.updLink.wr.retrainLink h)

theorem Kept.execLnkErrClear {l} : NextKept o (Machine.execLnkErrClear l s) := by
  unfold Machine.execLnkErrClear
  exact .intro h.resetReg

theorem Kept.execRouteWrite {idx valid set} : NextKept o (Machine.execRouteWrite idx valid set s) := by
  unfold Machine.execRouteWrite
  extract_lets s1
  have hs1 : Kept o s1 := h.wr.wr.wr
  clear_value s1
  exact .intro hs1.same

theorem Kept.execWindowCommit {w} : NextKept o (Machine.execWindowCommit w s) := by
  unfold Machine.execWindowCommit
  extract_lets _ _ _ _ _ s1
  have hs1 : Kept o s1 := h.same
  exact .intro (.ite h.wr hs1.wr.wr.wr)

/-! ### Machine/Events.lean: event records -/

theorem Kept.updRve {f} : Kept o (s.updRve f) := by
  unfold State.updRve
  exact h.same

theorem Kept.oobPut {m} : Kept o (s.oobPut m) := by
  unfold State.oobPut
  extract_lets
  exact h.updRve

theorem Kept.oobLog {e} : Kept o (s.oobLog e) := by
  unfold State.oobLog
  extract_lets _ s1
  have hs1 : Kept o s1 := h.updRve
  clear_value s1
  split
  · exact .ite hs1.oobPut hs1
  · exact hs1

theorem Kept.evtPut {e} : Kept o (s.evtPut e) := by
  unfold State.evtPut
  extract_lets _ _ _ _ _ _ s1
  have hs1 : Kept o s1 := .ite h.homeWrite h.hostSend
  exact hs1.wr.wr.msixAfter

theorem Kept.evtFlush {n} : Kept o (State.evtFlush n s) := by
  induction n generalizing s with
  | zero =>
    rw [State.evtFlush]
    exact h
  | succ n ih =>
    rw [State.evtFlush]
    refine .ite h ?_
    split
    · exact ih h.updRve.evtPut
    · extract_lets
      exact .ite h h.wr.oobLog.evtPut

theorem Kept.evtDrain : Kept o s.evtDrain := by
  unfold State.evtDrain
  exact h.evtFlush

theorem Kept.evtHandle {e} : Kept o (s.evtHandle e) := by
  unfold State.evtHandle
  extract_lets s1
  have hs1 : Kept o s1 := h.oobLog
  exact .ite hs1.inc (.ite hs1.evtPut (.ite hs1.updRve.evtDrain hs1.inc))

end

end Sys2Proof.Machine
end

section
/-!
PROOFS. What the operations of the hub keep: the Loom tiles.
-/

namespace Sys2Proof.Machine

open Sys2Proof.Safety

section
variable {o s : State} (h : Kept o s)
include h

/-! ### Machine/LoomCore.lean: the control core -/

theorem Kept.updTile {t f} : Kept o (s.updTile t f) := by
  unfold State.updTile
  exact h.same

theorem Kept.retire {t rd v len} : Kept o (s.retire t rd v len) := by
  unfold State.retire
  exact h.updTile

theorem Kept.advance {t len} : Kept o (s.advance t len) := by
  unfold State.advance
  exact h.updTile

theorem Kept.endKernel {t fate status result lastEnd mcause off started keep} : Kept o (s.endKernel t fate status result lastEnd mcause off started keep) := by
  unfold State.endKernel
  extract_lets _ _ _ _ _ s1
  have hs1 : Kept o s1 := h.updTile
  clear_value s1
  split
  · exact h
  · extract_lets s2
    have hs2 : Kept o s2 := hs1.wr.wr.wr.wr.wr.wr.wr.wr
    exact hs2.inc.send

theorem Kept.coreFence {t remote} : Kept o (s.coreFence t remote) := by
  unfold State.coreFence
  exact h.startFence.settleFence

theorem Kept.awaitFence {t} : Kept o (s.awaitFence t) := by
  unfold State.awaitFence
  exact .ite h.updTile h

theorem Kept.tryEnd {t} : Kept o (s.tryEnd t) := by
  unfold State.tryEnd
  split
  · extract_lets
    exact .ite h.endKernel h
  · exact h

theorem Kept.finishKernel {t fate status result lastEnd mcause off} : Kept o (s.finishKernel t fate status result lastEnd mcause off) := by
  unfold State.finishKernel
  split
  · exact h
  · exact h
  · exact h.updTile.coreFence.tryEnd

theorem Kept.stopKernel {t status lastEnd} : Kept o (s.stopKernel t status lastEnd) := by
  unfold State.stopKernel
  exact h.finishKernel

theorem Kept.trap {t cause epc tval lane} : Kept o (s.trap t cause epc tval lane) := by
  unfold State.trap
  extract_lets s1
  have hs1 : Kept o s1 := h.inc
  exact .ite hs1.finishKernel hs1.updTile

theorem Kept.core {t len f} (hf : ∀ {u}, Kept o u → Kept o (f u)) : Kept o (s.core t len f) := by
  unfold State.core
  extract_lets
  refine .ite h ?_
  split
  · exact h.trap
  · exact .ite h.trap (hf h)

theorem Kept.tileDispatch {d p} : Kept o (s.tileDispatch d p) := by
  unfold State.tileDispatch
  extract_lets _ s'
  have hs' : Kept o s' := h.wakeTile
  refine .ite ?_ ?_
  · exact hs'.answer
  · refine .ite ?_ ?_
    · exact .ite hs'.answer hs'.updTile.answer
    · exact .ite hs'.answer (.ite (.ite hs'.answer hs'.updTile.answer) (.ite hs'.answer hs'.updTile.answer))

theorem Kept.startKernel {t r} : Kept o (s.startKernel t r) := by
  unfold State.startKernel
  extract_lets _ s1
  have hs1 : Kept o s1 := h.updTile
  exact hs1.wr

theorem Kept.wipeTile {t} : Kept o (s.wipeTile t) := by
  unfold State.wipeTile
  exact h.zeroRange.updTile

theorem Kept.coreIssue {t p w} : Kept o (s.coreIssue t p w) := by
  unfold State.coreIssue
  extract_lets
  exact h.updTile.issue

/- The kernel must not meet the body of such a function beside the function itself: it would reduce the match on the address. The function is therefore
replaced by its text as a whole, and the offset by a variable. -/
theorem Kept.coreLoad {t rd addr size len uns} : Kept o (s.coreLoad t rd addr size len uns) := by
  generalize hload : @State.coreLoad = load
  delta State.coreLoad at hload
  subst hload
  dsimp -iota -zeta -proj only
  generalize s.padOff t addr size = a
  cases a with
  | none => exact .ite h.trap (.ite h.trap h.coreIssue)
  | some a => exact .ite h.updTile.trap h.retire

theorem Kept.coreStore {t val addr size len} : Kept o (s.coreStore t val addr size len) := by
  generalize hstore : @State.coreStore = store
  delta State.coreStore at hstore
  subst hstore
  dsimp -iota -zeta -proj only
  generalize s.padOff t addr size = a
  cases a with
  | none => exact .ite h.trap (.ite h.trap (.ite h.updTile.issue.advance h.coreIssue))
  | some a => exact h.writePart.advance

theorem Kept.coreAmo {t aop rd addr val size len aq rl} : Kept o (s.coreAmo t aop rd addr val size len aq rl) := by
  generalize hamo : @State.coreAmo = amo
  delta State.coreAmo at hamo
  subst hamo
  dsimp -iota -zeta -proj only
  generalize s.padOff t addr size = a
  cases a with
  | none => exact .ite h.trap (Kept.ite h.coreFence h).coreIssue
  | some a => exact .ite h.trap (.ite h.updTile.trap h.setBytes.retire)

theorem Kept.coreLr {t rd addr size len} : Kept o (s.coreLr t rd addr size len) := by
  unfold State.coreLr
  refine .ite h.trap ?_
  split
  · exact h.coreLoad.updTile
  · exact h.coreLoad

theorem Kept.coreSc {t rd addr val size len} : Kept o (s.coreSc t rd addr val size len) := by
  unfold State.coreSc
  refine .ite h.trap ?_
  split
  · extract_lets _ s1
    have hs1 : Kept o s1 := h.updTile
    exact .ite hs1.writePart.retire hs1.retire
  · exact h.retire

theorem Kept.coreAnswer {t r p} : Kept o (s.coreAnswer t r p) := by
  unfold State.coreAnswer
  extract_lets _ s1
  have hs1 : Kept o s1 := h.updTile
  clear_value s1
  split
  · extract_lets _ s2
    have hs2 : Kept o s2 := hs1.retire
    exact .ite h (.ite (.ite hs2.coreFence.awaitFence hs2) hs1.updTile.trap)
  · exact .ite h (.ite h.updTile.trap (.ite h.updTile.retire.coreFence.awaitFence (.ite h.updTile.retire h.updTile)))
  · exact (Kept.ite h h.updTile).tryEnd

theorem Kept.coreFenced {t} : Kept o (s.coreFenced t) := by
  unfold State.coreFenced
  split
  · exact .ite h h.updTile
  · exact h.tryEnd

theorem Kept.coreWfail {t status} : Kept o (s.coreWfail t status) := by
  unfold State.coreWfail
  exact h.updTile

/-! ### Machine/LoomScalar.lean: scalar instructions -/

theorem Kept.csrWrite {t c v u} (heq : s.csrWrite t c v = some u) : Kept o u := by
  unfold State.csrWrite at heq
  extract_lets up at heq
  have hup : ∀ {f u}, up f = some u → Kept o u := by
    rintro f u ⟨⟩
    exact h.updTile
  clear_value up
  split at heq
  case h_14 | h_15 => cases heq
  case h_16 =>
    split at heq
    · cases heq
      exact h
    · cases heq
  all_goals exact hup heq

theorem Kept.jump {t rd link target} : Kept o (s.jump t rd link target) := by
  unfold State.jump
  exact h.updTile

theorem Kept.csrOp {t w len} : Kept o (s.csrOp t w len) := by
  unfold State.csrOp
  extract_lets
  split
  · exact h.trap
  · extract_lets
    refine .ite h.retire ?_
    split
    · exact h.trap
    · rename_i x s1 heq
      have hs1 : Kept o s1 := h.csrWrite heq
      exact hs1.retire

theorem Kept.mret {t} : Kept o (s.mret t) := by
  unfold State.mret
  exact h.updTile

theorem Kept.rv {t w len} : Kept o (s.rv t w len) := by
  unfold State.rv
  extract_lets _ _ _ _ _ _ ill
  have hill : Kept o ill := h.trap
  have hresult : ∀ r : Option Nat, Kept o (match r with | some v => s.retire t (wBits w 11 7) v len | none => ill) := by
    intro r
    cases r with
    | none => exact hill
    | some v => exact h.retire
  clear_value ill
  split
  · exact h.retire
  · exact h.retire
  · exact h.jump
  · exact .ite h.jump hill
  · split
    · exact h.jump
    · exact h.advance
    · exact hill
  · exact .ite hill h.coreLoad
  · exact .ite hill h.coreStore
  · exact hresult _
  · exact hresult _
  · exact hresult _
  · exact hresult _
  · exact .ite h.advance.coreFence.awaitFence (.ite h.advance hill)
  · exact .ite (.ite h.trap (.ite h.trap (.ite h.mret (.ite h.advance hill)))) (.ite hill h.csrOp)
  · refine .ite hill (.ite (.ite h.coreLr hill) (.ite h.coreSc ?_))
    split
    · exact h.coreAmo
    · exact hill
  · exact hill

/-! ### Machine/LoomVec.lean: vector instructions -/

theorem Kept.writeSpan {t b v} : Kept o (s.writeSpan t b v) := by
  unfold State.writeSpan
  extract_lets
  exact h.setBytes

theorem Kept.storeSpans {t ws} : Kept o (s.storeSpans t ws) := by
  unfold State.storeSpans
  extract_lets s1
  have hs1 : Kept o s1 := Kept.foldl (fun _ _ ht => ht.writeSpan) h
  refine Kept.foldl (fun u a hu2 => ?_) hs1
  extract_lets
  exact .ite hu2.poisonLine (.ite hu2.unpoisonLine hu2)

theorem Kept.vcvt {t f c} : KeptOut o (s.vcvt t f c) := by
  unfold State.vcvt
  extract_lets _ _ _ _ _ _ _ _ _ _ _ _ mark
  have hmark : ∀ {u}, Kept o u → Kept o (mark u) := fun hu => .ite hu.updTile hu
  refine .ite .stop (.ite (.out (hmark h.updTile)) ?_)
  split
  exact .out (hmark h.updTile).storeSpans

theorem Kept.vload {t mc f c base scale stride idx} : KeptOut o (s.vload t mc f c base scale stride idx) := by
  unfold State.vload
  extract_lets
  split
  · exact .stop
  · exact .out h.updTile

theorem Kept.vstore {t mc rmc sat f c base scale stride idx} : KeptOut o (s.vstore t mc rmc sat f c base scale stride idx) := by
  unfold State.vstore
  extract_lets
  split
  · exact .stop
  · split
    exact .out h.storeSpans

theorem Kept.vperform {t op f c} : KeptOut o (s.vperform t op f c) := by
  unfold State.vperform
  extract_lets _ up
  have hup : ∀ {g}, Kept o (up g) := h.updTile
  refine .ite (.out hup) (.ite (.out hup) (.ite h.vcvt (.ite (.out hup) (.ite (.ite .stop (.out h)) (.ite h.vload (.ite h.vstore
    (.ite h.vload (.ite h.vstore (.ite (.ite .stop (.out hup)) (.ite (.ite .stop (.out h.storeSpans)) (.ite ?_ (.ite (.out hup)
      (.ite (.out hup) (.out h))))))))))))))
  split
  exact .out hup

theorem Kept.vtrap {t cause detail off} : Kept o (s.vtrap t cause detail off) := by
  unfold State.vtrap
  extract_lets _ s1
  have hs1 : Kept o s1 := h.updTile
  clear_value s1
  split
  · exact hs1.updTile.retire
  · exact hs1

theorem Kept.endFormat {t off} : Kept o (s.endFormat t off) := by
  unfold State.endFormat
  exact h.finishKernel

theorem Kept.busySteps {t n} : Kept o (s.busySteps t n) := by
  unfold State.busySteps
  exact h.inc

theorem Kept.accrue {t flags off} : Kept o (s.accrue t flags off) := by
  unfold State.accrue
  extract_lets s1
  have hs1 : Kept o s1 := h.updTile
  exact .ite hs1.vtrap hs1

theorem Kept.vdo {t op f c} : KeptOut o (s.vdo t op f c) := by
  unfold State.vdo
  split
  · exact .stop
  · exact h.vperform

omit h in
theorem Kept.apply {v : VOut} {t off} (hv : Kept o v.st) : Kept o (v.apply t off) := by
  unfold VOut.apply
  extract_lets s1
  have hs1 : Kept o s1 := by
    unfold s1
    split
    · exact hv.updTile
    · exact hv
  exact hs1.busySteps.accrue

theorem Kept.vexec {t off op f c} : Kept o (s.vexec t off op f c) := by
  unfold State.vexec
  split
  · exact h.endFormat
  · exact h.vtrap
  · rename_i v heq
    exact .apply (h.vdo v heq)

/-! ### Machine/LoomProg.lean: accumulators and element programs -/

theorem Kept.lrreset {t off rd rs1 rs2} : Kept o (s.lrreset t off rd rs1 rs2) := by
  unfold State.lrreset
  extract_lets
  exact .ite h.endFormat (.ite h.vtrap (.ite h.vtrap (.ite h.vtrap h.updTile)))

theorem Kept.lrsave {t off rd rs2 a} : Kept o (s.lrsave t off rd rs2 a) := by
  unfold State.lrsave
  extract_lets
  exact .ite h.vtrap (.ite h.vtrap (.ite h.vtrap (.ite h.vtrap h.storeSpans.busySteps)))

theorem Kept.lrmerge {t off rd rs2 a} : Kept o (s.lrmerge t off rd rs2 a) := by
  unfold State.lrmerge
  extract_lets
  refine .ite h.vtrap ?_
  refine .ite h.vtrap ?_
  refine .ite h.vtrap ?_
  split
  · exact h.updTile.busySteps.accrue

theorem Kept.lrread {t rd rs1 rs2 index} : Kept o (s.lrread t rd rs1 rs2 index) := by
  unfold State.lrread
  extract_lets
  refine .ite h.trap ?_
  refine .ite h.updTile.trap ?_
  refine .ite (.ite h.retire h.retire.fresh) ?_
  split
  · exact h.retire.accrue

theorem Kept.lpload {t off rd rs2 a} : Kept o (s.lpload t off rd rs2 a) := by
  unfold State.lpload
  extract_lets _ _ _ illegal
  have hillegal : ∀ {k}, Kept o (illegal k) := h.vtrap.updTile
  clear_value illegal
  refine .ite h.vtrap ?_
  refine .ite h.vtrap ?_
  refine .ite h.vtrap ?_
  refine .ite h.vtrap ?_
  refine .ite hillegal ?_
  refine .ite h.endFormat ?_
  split
  · exact hillegal
  · exact h.updTile.busySteps

theorem Kept.micro {t p m c0 l k pos} : KeptOut o (s.micro t p m c0 l k pos) := by
  unfold State.micro
  extract_lets
  split
  · exact .stop
  · exact .ite h.vload (.ite h.vstore h.vperform)

theorem Kept.runTrap {t cause detail off p iter uop pos} : Kept o (s.runTrap t cause detail off p iter uop pos) := by
  unfold State.runTrap
  extract_lets
  exact h.vtrap.updTile

theorem Kept.iterate {t off p c l iter pos ms uop k} : Kept o (State.iterate t off p c l iter pos ms uop k s).1 := by
  induction ms generalizing s uop k with
  | nil => exact h
  | cons m ms ih =>
    change Kept o (match s.micro t p m c l k pos with
      | .inl .badFmt => (s.endFormat t off, false)
      | .inl (.trap cause d) => (s.runTrap t cause d off p iter uop pos, false)
      | .inr o =>
        let s1 := (o.st.busySteps t o.steps).updTile t (fun y => { y with lflags := y.lflags ||| o.flags })
        if o.flags &&& (s1.tile t).ltrapen ≠ 0 then (s1.runTrap t 24 0x20 off p iter uop pos, false)
        else State.iterate t off p c l iter pos ms (uop + 1) (if m.rsr p c.lrm then k + 1 else k) s1).1
    split
    · exact .inFst h.endFormat
    · exact .inFst h.runTrap
    · rename_i v heq
      extract_lets s1
      have hs1 : Kept o s1 := (h.micro v heq).busySteps.updTile
      exact .iteFst (.inFst hs1.runTrap) (ih hs1)

theorem Kept.runLoop {t off p ms vlmax l c n iter} : Kept o (State.runLoop t off p ms vlmax l c n iter s) := by
  induction n generalizing s iter with
  | zero =>
    rw [State.runLoop]
    exact h
  | succ n ih =>
    rw [State.runLoop]
    split
    · rename_i x s1 heq
      have hs1 : Kept o s1 := Kept.fst heq h.iterate
      exact ih hs1
    · rename_i x s1 heq
      have hs1 : Kept o s1 := Kept.fst heq h.iterate
      exact hs1

theorem Kept.lprun {t off rd rs2 c prd bad} : Kept o (s.lprun t off rd rs2 c prd bad) := by
  unfold State.lprun
  extract_lets _ _ _ _ illegal _ u1
  have hillegal : ∀ {d k}, Kept o (illegal d k) := h.runTrap
  have hu1 : Kept o u1 := h.updTile
  clear_value illegal u1
  refine .ite h.endFormat ?_
  refine .ite h.vtrap ?_
  refine .ite h.vtrap ?_
  refine .ite h.vtrap ?_
  refine .ite h.vtrap ?_
  refine .ite hillegal ?_
  refine .ite hillegal ?_
  refine .ite hillegal ?_
  refine .ite hillegal ?_
  split
  · exact hillegal
  · exact hu1.runLoop

/-! ### Machine/LoomQueue.lean: the vector queue -/

theorem Kept.vqPerform {t e} : Kept o (s.vqPerform t e) := by
  unfold State.vqPerform
  split
  · exact h.vexec
  · split
    · exact h.lrreset
    · exact h.lrsave
    · exact h.lrmerge
    · exact h.lpload
    · exact h.lprun

theorem Kept.lanesTurn {t} : Kept o (s.lanesTurn t) := by
  unfold State.lanesTurn
  split
  · exact h.updTile.vqPerform
  · exact h

theorem Kept.lanesRun {t n} : Kept o (State.lanesRun t n s) := by
  induction n generalizing s with
  | zero =>
    rw [State.lanesRun]
    exact h
  | succ n ih =>
    rw [State.lanesRun]
    exact .ite h (ih h.lanesTurn)

theorem Kept.lanesDrain {t} : Kept o (s.lanesDrain t) := by
  unfold State.lanesDrain
  exact h.lanesRun

theorem Kept.tickLanes : Kept o s.tickLanes := by
  unfold State.tickLanes
  exact Kept.foldl (fun _ _ hu => hu.lanesTurn) h.later

theorem Kept.xcore {t len f} (hf : ∀ {u}, Kept o u → Kept o (f u)) : Kept o (s.xcore t len f) := by
  unfold State.xcore
  exact h.core (fun hu => Kept.ite (hu.lanesTurn.core (fun hu1 => hf hu1)) (hf hu))

theorem Kept.waiting {t len f} (hf : ∀ {u}, Kept o u → Kept o (f u)) : Kept o (s.waiting t len f) := by
  unfold State.waiting
  refine Kept.core h (fun hu2 => ?_)
  extract_lets u1
  have hu1 : Kept o u1 := hu2.lanesDrain
  exact .ite (hf hu1) hu1

theorem Kept.enqueue {t len e} : Kept o (s.enqueue t len e) := by
  unfold State.enqueue
  exact h.updTile.advance

theorem Kept.advanceRsr {t n} : Kept o (s.advanceRsr t n) := by
  unfold State.advanceRsr
  exact h.updTile

theorem Kept.vecRead {t op f} : Kept o (s.vecRead t op f) := by
  unfold State.vecRead
  refine Kept.waiting h (fun {u} hu => ?_)
  extract_lets
  split
  · exact hu.endFormat
  · exact hu.updTile.trap
  · exact hu.vtrap.advance
  · rename_i v heq
    exact (Kept.apply (hu.vdo v heq)).advance

theorem Kept.vec {t op f} : Kept o (s.vec t op f) := by
  unfold State.vec
  refine .ite h.vecRead ?_
  refine Kept.xcore h (fun hu4 => ?_)
  extract_lets
  exact (Kept.ite hu4.advanceRsr hu4).enqueue

theorem Kept.queue32 {t f3 f7 rd rs1 rs2} : Kept o (s.queue32 t f3 f7 rd rs1 rs2) := by
  unfold State.queue32
  refine Kept.xcore h (fun hu2 => ?_)
  extract_lets
  exact hu2.enqueue

theorem Kept.lprunEnter {t rd rs1 rs2} : Kept o (s.lprunEnter t rd rs1 rs2) := by
  unfold State.lprunEnter
  extract_lets enter
  have henter : ∀ {u}, Kept o u → Kept o (enter u) := by
    intro u hu
    unfold enter
    extract_lets
    exact hu.advanceRsr.enqueue
  exact h.xcore (fun hu => Kept.ite (hu.lanesDrain.core (fun hu1 => henter hu1)) (henter hu))

/-! ### Machine/LoomCmds.lean: commands of the tiles -/

theorem Kept.execFmtCommit : NextKept o (Machine.execFmtCommit s) := by
  unfold Machine.execFmtCommit
  extract_lets _ _ s1
  have hs1 : Kept o s1 := h.same
  exact .intro (.ite h.wr hs1.wr.wr.wr)

theorem Kept.execFmtCommitDone : NextKept o (Machine.execFmtCommitDone s) := by
  unfold Machine.execFmtCommitDone
  exact .intro h.wr

theorem Kept.deliverUnit {p h'} (hh' : ∀ {u a1 a2}, Kept o u → Kept o (h' u a1 a2)) : Kept o (s.deliverUnit p h') := by
  unfold State.deliverUnit
  extract_lets _ _ s1
  have hs1 : Kept o s1 := h.request
  clear_value s1
  split
  · exact hh' h
  · split
    · exact hh' hs1
    · exact hs1

theorem Kept.execLoomDispatch {p} : NextKept o (Machine.execLoomDispatch p s) := by
  unfold Machine.execLoomDispatch
  exact .intro (h.deliverUnit (fun hu => Kept.ite hu.tileDispatch hu))

theorem Kept.execLoomLaunch {tile} : NextKept o (Machine.execLoomLaunch tile s) := by
  unfold Machine.execLoomLaunch
  extract_lets
  refine .intro ?_
  split
  · exact h.startKernel
  · exact h

theorem Kept.execLoomClaimRecord {tile} : NextKept o (Machine.execLoomClaimRecord tile s) := by
  unfold Machine.execLoomClaimRecord
  refine .intro ?_
  split
  · extract_lets s1 s2
    have hs1 : Kept o s1 := h.updTile
    have hs2 : Kept o s2 := .ite hs1.wipeTile hs1
    exact hs2.wr.send
  · exact h

theorem Kept.execLoomParkRecord {tile} : NextKept o (Machine.execLoomParkRecord tile s) := by
  unfold Machine.execLoomParkRecord
  refine .intro ?_
  split
  · exact h.updTile.send
  · exact h

theorem Kept.execLoomBudgetExpire {tile} : NextKept o (Machine.execLoomBudgetExpire tile s) := by
  unfold Machine.execLoomBudgetExpire
  refine .intro ?_
  split
  · exact .ite h.stopKernel h
  · exact h

theorem Kept.core32 {t f3 f7 rd r1 r2 ok waits f} (hf : ∀ {u}, Kept o u → Kept o (f u)) : Kept o (s.core32 t f3 f7 rd r1 r2 ok waits f) := by
  unfold State.core32
  extract_lets g
  have hg : ∀ {u}, Kept o u → Kept o (g u) := fun hu => Kept.ite (hf hu) hu.trap
  exact .ite (h.waiting (fun hu => hg hu)) (h.xcore (fun hu1 => hg hu1))

theorem Kept.lrd {t rd rs1 rs2 index} : Kept o (s.lrd t rd rs1 rs2 index) := by
  unfold State.lrd
  exact h.waiting (fun hu => hu.lrread)

theorem Kept.lsetvl {t rd rs1 rs2 ww} : Kept o (s.lsetvl t rd rs1 rs2 ww) := by
  unfold State.lsetvl
  refine Kept.core32 h (fun hu2 => ?_)
  extract_lets
  exact hu2.updTile.retire

theorem Kept.lvsync {t rd rs1 rs2} : Kept o (s.lvsync t rd rs1 rs2) := by
  unfold State.lvsync
  exact h.core32 (fun hu => hu.advance)

theorem Kept.lsignal {t rd rs1 rs2} : Kept o (s.lsignal t rd rs1 rs2) := by
  unfold State.lsignal
  refine Kept.core32 h (fun hu2 => ?_)
  extract_lets
  exact hu2.coreFence.coreIssue

theorem Kept.lwait {t rd rs1 rs2} : Kept o (s.lwait t rd rs1 rs2) := by
  unfold State.lwait
  refine Kept.core32 h (fun hu2 => ?_)
  extract_lets
  exact hu2.coreIssue

theorem Kept.lend {t rd rs1 rs2 fail} : Kept o (s.lend t rd rs1 rs2 fail) := by
  unfold State.lend
  extract_lets
  refine Kept.core32 h (fun hu4 => ?_)
  refine Kept.core hu4 (fun hu7 => ?_)
  extract_lets
  exact .ite hu7.finishKernel hu7.finishKernel

theorem Kept.xFenceRemote {t rd rs1 rs2} : Kept o (s.xFenceRemote t rd rs1 rs2) := by
  unfold State.xFenceRemote
  exact h.core32 (fun hu => hu.advance.coreFence.awaitFence)

theorem Kept.custom0 {t w} : Kept o (s.custom0 t w) := by
  unfold State.custom0
  extract_lets
  split
  · exact h.queue32
  · exact h.lrd
  · exact h.lrd
  · exact h.queue32
  · exact h.queue32
  · exact h.queue32
  · exact h.lprunEnter
  · exact h.lvsync
  · exact h.xFenceRemote
  · exact h.lsignal
  · exact h.lwait
  · exact h.lend
  · exact h.lend
  · exact .ite h.lsetvl (h.core (fun hu => hu.trap))
  · exact h.core (fun hu1 => hu1.trap)

theorem Kept.coreWord {t w} : Kept o (s.coreWord t w) := by
  unfold State.coreWord
  extract_lets
  refine .ite ?_ (.ite (.ite h.vec (h.core (fun hu2 => hu2.trap))) (.ite (h.core (fun hu3 => hu3.trap)) (.ite h.custom0 (.ite (h.waiting (fun hu4 => hu4.rv)) (h.core (fun hu5 => hu5.rv))))))
  refine Kept.core h (fun hu8 => ?_)
  split
  · exact hu8.rv
  · exact hu8.trap

theorem Kept.execScalarInstruction {tile w} : NextKept o (Machine.execScalarInstruction tile w s) := by
  unfold Machine.execScalarInstruction
  exact .intro h.coreWord

theorem Kept.execMret {tile} : NextKept o (Machine.execMret tile s) := by
  unfold Machine.execMret
  exact .intro (h.core (fun hu => hu.mret))

theorem Kept.execFenceI {tile} : NextKept o (Machine.execFenceI tile s) := by
  unfold Machine.execFenceI
  exact .intro (h.core (fun hu => hu.advance))

theorem Kept.execGlobalLoad {tile rd rs1 imm size uns} : NextKept o (Machine.execGlobalLoad tile rd rs1 imm size uns s) := by
  unfold Machine.execGlobalLoad
  exact .intro (h.core (fun hu => hu.coreLoad))

theorem Kept.execGlobalStore {tile rs1 rs2 imm size} : NextKept o (Machine.execGlobalStore tile rs1 rs2 imm size s) := by
  unfold Machine.execGlobalStore
  exact .intro (h.core (fun hu => hu.coreStore))

theorem Kept.execGlobalAmo {tile aop rd rs1 rs2 size aq rl} : NextKept o (Machine.execGlobalAmo tile aop rd rs1 rs2 size aq rl s) := by
  unfold Machine.execGlobalAmo
  exact .intro (h.core (fun hu => hu.coreAmo))

theorem Kept.execLr {tile rd rs1 size} : NextKept o (Machine.execLr tile rd rs1 size s) := by
  unfold Machine.execLr
  exact .intro (h.core (fun hu => hu.coreLr))

theorem Kept.execSc {tile rd rs1 rs2 size} : NextKept o (Machine.execSc tile rd rs1 rs2 size s) := by
  unfold Machine.execSc
  exact .intro (h.core (fun hu => hu.coreSc))

theorem Kept.execLsetvl {tile rd rs1 rs2 ww} : NextKept o (Machine.execLsetvl tile rd rs1 rs2 ww s) := by
  unfold Machine.execLsetvl
  exact .intro h.lsetvl

theorem Kept.execLvsync {tile rd rs1 rs2} : NextKept o (Machine.execLvsync tile rd rs1 rs2 s) := by
  unfold Machine.execLvsync
  exact .intro h.lvsync

theorem Kept.execLsignal {tile rd rs1 rs2} : NextKept o (Machine.execLsignal tile rd rs1 rs2 s) := by
  unfold Machine.execLsignal
  exact .intro h.lsignal

theorem Kept.execLwait {tile rd rs1 rs2} : NextKept o (Machine.execLwait tile rd rs1 rs2 s) := by
  unfold Machine.execLwait
  exact .intro h.lwait

theorem Kept.execLwaitLimit {tile} : NextKept o (Machine.execLwaitLimit tile s) := by
  unfold Machine.execLwaitLimit
  refine .intro ?_
  split
  · exact .ite h h.updTile.retire
  · exact h

theorem Kept.execLend {tile rd rs1 rs2} : NextKept o (Machine.execLend tile rd rs1 rs2 s) := by
  unfold Machine.execLend
  exact .intro h.lend

theorem Kept.execLfail {tile rd rs1 rs2} : NextKept o (Machine.execLfail tile rd rs1 rs2 s) := by
  unfold Machine.execLfail
  exact .intro h.lend

theorem Kept.execLrreset {tile rd rs1 rs2} : NextKept o (Machine.execLrreset tile rd rs1 rs2 s) := by
  unfold Machine.execLrreset
  exact .intro h.queue32

theorem Kept.execLrd {tile rd rs1 rs2} : NextKept o (Machine.execLrd tile rd rs1 rs2 s) := by
  unfold Machine.execLrd
  exact .intro h.lrd

theorem Kept.execLrdi {tile rd rs1 rs2} : NextKept o (Machine.execLrdi tile rd rs1 rs2 s) := by
  unfold Machine.execLrdi
  exact .intro h.lrd

theorem Kept.execLrsave {tile rd rs1 rs2} : NextKept o (Machine.execLrsave tile rd rs1 rs2 s) := by
  unfold Machine.execLrsave
  exact .intro h.queue32

theorem Kept.execLrmerge {tile rd rs1 rs2} : NextKept o (Machine.execLrmerge tile rd rs1 rs2 s) := by
  unfold Machine.execLrmerge
  exact .intro h.queue32

theorem Kept.execLpload {tile rd rs1 rs2} : NextKept o (Machine.execLpload tile rd rs1 rs2 s) := by
  unfold Machine.execLpload
  exact .intro h.queue32

theorem Kept.execLprun {tile rd rs1 rs2} : NextKept o (Machine.execLprun tile rd rs1 rs2 s) := by
  unfold Machine.execLprun
  exact .intro h.lprunEnter

theorem Kept.execVadd {tile f} : NextKept o (Machine.execVadd tile f s) := by
  unfold Machine.execVadd
  exact .intro h.vec

theorem Kept.execVsub {tile f} : NextKept o (Machine.execVsub tile f s) := by
  unfold Machine.execVsub
  exact .intro h.vec

theorem Kept.execVmul {tile f} : NextKept o (Machine.execVmul tile f s) := by
  unfold Machine.execVmul
  exact .intro h.vec

theorem Kept.execVfma {tile f} : NextKept o (Machine.execVfma tile f s) := by
  unfold Machine.execVfma
  exact .intro h.vec

theorem Kept.execVfms {tile f} : NextKept o (Machine.execVfms tile f s) := by
  unfold Machine.execVfms
  exact .intro h.vec

theorem Kept.execVfnma {tile f} : NextKept o (Machine.execVfnma tile f s) := by
  unfold Machine.execVfnma
  exact .intro h.vec

theorem Kept.execVfnms {tile f} : NextKept o (Machine.execVfnms tile f s) := by
  unfold Machine.execVfnms
  exact .intro h.vec

theorem Kept.execVmin {tile f} : NextKept o (Machine.execVmin tile f s) := by
  unfold Machine.execVmin
  exact .intro h.vec

theorem Kept.execVmax {tile f} : NextKept o (Machine.execVmax tile f s) := by
  unfold Machine.execVmax
  exact .intro h.vec

theorem Kept.execVabs {tile f} : NextKept o (Machine.execVabs tile f s) := by
  unfold Machine.execVabs
  exact .intro h.vec

theorem Kept.execVneg {tile f} : NextKept o (Machine.execVneg tile f s) := by
  unfold Machine.execVneg
  exact .intro h.vec

theorem Kept.execVsel {tile f} : NextKept o (Machine.execVsel tile f s) := by
  unfold Machine.execVsel
  exact .intro h.vec

theorem Kept.execVand {tile f} : NextKept o (Machine.execVand tile f s) := by
  unfold Machine.execVand
  exact .intro h.vec

theorem Kept.execVor {tile f} : NextKept o (Machine.execVor tile f s) := by
  unfold Machine.execVor
  exact .intro h.vec

theorem Kept.execVxor {tile f} : NextKept o (Machine.execVxor tile f s) := by
  unfold Machine.execVxor
  exact .intro h.vec

theorem Kept.execVsll {tile f} : NextKept o (Machine.execVsll tile f s) := by
  unfold Machine.execVsll
  exact .intro h.vec

theorem Kept.execVsrl {tile f} : NextKept o (Machine.execVsrl tile f s) := by
  unfold Machine.execVsrl
  exact .intro h.vec

theorem Kept.execVsra {tile f} : NextKept o (Machine.execVsra tile f s) := by
  unfold Machine.execVsra
  exact .intro h.vec

theorem Kept.execVmulh {tile f} : NextKept o (Machine.execVmulh tile f s) := by
  unfold Machine.execVmulh
  exact .intro h.vec

theorem Kept.execVcmpeq {tile f} : NextKept o (Machine.execVcmpeq tile f s) := by
  unfold Machine.execVcmpeq
  exact .intro h.vec

theorem Kept.execVcmpne {tile f} : NextKept o (Machine.execVcmpne tile f s) := by
  unfold Machine.execVcmpne
  exact .intro h.vec

theorem Kept.execVcmplt {tile f} : NextKept o (Machine.execVcmplt tile f s) := by
  unfold Machine.execVcmplt
  exact .intro h.vec

theorem Kept.execVcmple {tile f} : NextKept o (Machine.execVcmple tile f s) := by
  unfold Machine.execVcmple
  exact .intro h.vec

theorem Kept.execVcmpun {tile f} : NextKept o (Machine.execVcmpun tile f s) := by
  unfold Machine.execVcmpun
  exact .intro h.vec

theorem Kept.execVcvt {tile f} : NextKept o (Machine.execVcvt tile f s) := by
  unfold Machine.execVcvt
  exact .intro h.vec

theorem Kept.execVrcp {tile f} : NextKept o (Machine.execVrcp tile f s) := by
  unfold Machine.execVrcp
  exact .intro h.vec

theorem Kept.execVrsqrt {tile f} : NextKept o (Machine.execVrsqrt tile f s) := by
  unfold Machine.execVrsqrt
  exact .intro h.vec

theorem Kept.execVsqrt {tile f} : NextKept o (Machine.execVsqrt tile f s) := by
  unfold Machine.execVsqrt
  exact .intro h.vec

theorem Kept.execVdiv {tile f} : NextKept o (Machine.execVdiv tile f s) := by
  unfold Machine.execVdiv
  exact .intro h.vec

theorem Kept.execVexp {tile f} : NextKept o (Machine.execVexp tile f s) := by
  unfold Machine.execVexp
  exact .intro h.vec

theorem Kept.execVexp2 {tile f} : NextKept o (Machine.execVexp2 tile f s) := by
  unfold Machine.execVexp2
  exact .intro h.vec

theorem Kept.execVln {tile f} : NextKept o (Machine.execVln tile f s) := by
  unfold Machine.execVln
  exact .intro h.vec

theorem Kept.execVlog2 {tile f} : NextKept o (Machine.execVlog2 tile f s) := by
  unfold Machine.execVlog2
  exact .intro h.vec

theorem Kept.execVtanh {tile f} : NextKept o (Machine.execVtanh tile f s) := by
  unfold Machine.execVtanh
  exact .intro h.vec

theorem Kept.execVsigm {tile f} : NextKept o (Machine.execVsigm tile f s) := by
  unfold Machine.execVsigm
  exact .intro h.vec

theorem Kept.execVsin {tile f} : NextKept o (Machine.execVsin tile f s) := by
  unfold Machine.execVsin
  exact .intro h.vec

theorem Kept.execVcos {tile f} : NextKept o (Machine.execVcos tile f s) := by
  unfold Machine.execVcos
  exact .intro h.vec

theorem Kept.execVerf {tile f} : NextKept o (Machine.execVerf tile f s) := by
  unfold Machine.execVerf
  exact .intro h.vec

theorem Kept.execVrand {tile f} : NextKept o (Machine.execVrand tile f s) := by
  unfold Machine.execVrand
  exact .intro h.vec

theorem Kept.execVperm {tile f} : NextKept o (Machine.execVperm tile f s) := by
  unfold Machine.execVperm
  exact .intro h.vec

theorem Kept.execVslideup {tile f} : NextKept o (Machine.execVslideup tile f s) := by
  unfold Machine.execVslideup
  exact .intro h.vec

theorem Kept.execVslidedn {tile f} : NextKept o (Machine.execVslidedn tile f s) := by
  unfold Machine.execVslidedn
  exact .intro h.vec

theorem Kept.execVcompress {tile f} : NextKept o (Machine.execVcompress tile f s) := by
  unfold Machine.execVcompress
  exact .intro h.vec

theorem Kept.execLbcast {tile f} : NextKept o (Machine.execLbcast tile f s) := by
  unfold Machine.execLbcast
  exact .intro h.vec

theorem Kept.execLext {tile f} : NextKept o (Machine.execLext tile f s) := by
  unfold Machine.execLext
  exact .intro h.vec

theorem Kept.execVld {tile f} : NextKept o (Machine.execVld tile f s) := by
  unfold Machine.execVld
  exact .intro h.vec

theorem Kept.execVst {tile f} : NextKept o (Machine.execVst tile f s) := by
  unfold Machine.execVst
  exact .intro h.vec

theorem Kept.execVldx {tile f} : NextKept o (Machine.execVldx tile f s) := by
  unfold Machine.execVldx
  exact .intro h.vec

theorem Kept.execVstx {tile f} : NextKept o (Machine.execVstx tile f s) := by
  unfold Machine.execVstx
  exact .intro h.vec

theorem Kept.execVmld {tile f} : NextKept o (Machine.execVmld tile f s) := by
  unfold Machine.execVmld
  exact .intro h.vec

theorem Kept.execVmst {tile f} : NextKept o (Machine.execVmst tile f s) := by
  unfold Machine.execVmst
  exact .intro h.vec

theorem Kept.execVredAdd {tile f} : NextKept o (Machine.execVredAdd tile f s) := by
  unfold Machine.execVredAdd
  exact .intro h.vec

theorem Kept.execVredExact {tile f} : NextKept o (Machine.execVredExact tile f s) := by
  unfold Machine.execVredExact
  exact .intro h.vec

theorem Kept.execVredIadd {tile f} : NextKept o (Machine.execVredIadd tile f s) := by
  unfold Machine.execVredIadd
  exact .intro h.vec

theorem Kept.execVredMax {tile f} : NextKept o (Machine.execVredMax tile f s) := by
  unfold Machine.execVredMax
  exact .intro h.vec

theorem Kept.execVredMin {tile f} : NextKept o (Machine.execVredMin tile f s) := by
  unfold Machine.execVredMin
  exact .intro h.vec

theorem Kept.execVredArgmax {tile f} : NextKept o (Machine.execVredArgmax tile f s) := by
  unfold Machine.execVredArgmax
  exact .intro h.vec

theorem Kept.execVredArgmin {tile f} : NextKept o (Machine.execVredArgmin tile f s) := by
  unfold Machine.execVredArgmin
  exact .intro h.vec

theorem Kept.execVredAnd {tile f} : NextKept o (Machine.execVredAnd tile f s) := by
  unfold Machine.execVredAnd
  exact .intro h.vec

theorem Kept.execVredOr {tile f} : NextKept o (Machine.execVredOr tile f s) := by
  unfold Machine.execVredOr
  exact .intro h.vec

theorem Kept.execVredXor {tile f} : NextKept o (Machine.execVredXor tile f s) := by
  unfold Machine.execVredXor
  exact .intro h.vec

theorem Kept.execLrbcast {tile f} : NextKept o (Machine.execLrbcast tile f s) := by
  unfold Machine.execLrbcast
  exact .intro h.vec

theorem Kept.execVmand {tile f} : NextKept o (Machine.execVmand tile f s) := by
  unfold Machine.execVmand
  exact .intro h.vec

theorem Kept.execVmor {tile f} : NextKept o (Machine.execVmor tile f s) := by
  unfold Machine.execVmor
  exact .intro h.vec

theorem Kept.execVmxor {tile f} : NextKept o (Machine.execVmxor tile f s) := by
  unfold Machine.execVmxor
  exact .intro h.vec

theorem Kept.execVmandn {tile f} : NextKept o (Machine.execVmandn tile f s) := by
  unfold Machine.execVmandn
  exact .intro h.vec

theorem Kept.execLmpop {tile f} : NextKept o (Machine.execLmpop tile f s) := by
  unfold Machine.execLmpop
  exact .intro h.vec

theorem Kept.execLmfirst {tile f} : NextKept o (Machine.execLmfirst tile f s) := by
  unfold Machine.execLmfirst
  exact .intro h.vec

end

end Sys2Proof.Machine
end

section
/-!
PROOFS. What the operations of the hub keep: the Mill.
-/

namespace Sys2Proof.Machine

open Sys2Proof.Safety

section
variable {o s : State} (h : Kept o s)
include h

/-! ### Machine/Dma.lean: memory accesses of units -/

theorem Kept.dmaRead {q host addr n} : Kept o (s.dmaRead q host addr n) := by
  unfold State.dmaRead
  refine Kept.foldl (fun u a hu1 => ?_) h
  extract_lets
  exact hu1.issue

theorem Kept.dmaWrite {q host posted addr d poison} : Kept o (s.dmaWrite q host posted addr d poison) := by
  unfold State.dmaWrite
  refine Kept.foldl (fun u a hu1 => ?_) h
  extract_lets _ _ put part
  have hput : ∀ {u p}, Kept o u → Kept o (put u p) := fun hu => hu.issue
  have hpart : ∀ {u o'}, Kept o u → Kept o (part u o') := by
    intro u o' hu
    unfold part
    extract_lets
    exact .ite hu (hput hu)
  exact .ite (hput hu1) (hpart (hpart hu1))

/-! ### Machine/Mill.lean: items and messages of the Mill -/

theorem Kept.updMill {f} : Kept o (s.updMill f) := by
  unfold State.updMill
  exact h.same

theorem Kept.updMillItem {seq f} : Kept o (s.updMillItem seq f) := by
  unfold State.updMillItem
  exact h.updMill

theorem Kept.updStripe {seq i f} : Kept o (s.updStripe seq i f) := by
  unfold State.updStripe
  exact h.updMillItem

theorem Kept.collOut {q hub d bad} : Kept o (s.collOut q hub d bad) := by
  unfold State.collOut
  exact h.issue

theorem Kept.collSend {it i rank typ phase arg payload bad} : Kept o (s.collSend it i rank typ phase arg payload bad) := by
  unfold State.collSend
  extract_lets _ _ s1
  have hs1 : Kept o s1 := h.collOut
  exact hs1.updStripe

theorem Kept.sendJoin {it i rank} : Kept o (s.sendJoin it i rank) := by
  unfold State.sendJoin
  exact h.collSend

theorem Kept.degrade {gid} : Kept o (s.degrade gid) := by
  unfold State.degrade
  exact Kept.foldl (fun _ _ ht => Kept.ite ht.wr ht) h

theorem Kept.millStop {it i lost cause status result sparing} : Kept o (s.millStop it i lost cause status result sparing) := by
  unfold State.millStop
  extract_lets _ _ s1
  have hs1 : Kept o s1 := .ite (Kept.foldl (fun _ _ ht => ht.collSend) h) h
  exact hs1.updMillItem

theorem Kept.millLoss {it lost cause} : Kept o (s.millLoss it lost cause) := by
  unfold State.millLoss
  extract_lets _ s1
  have hs1 : Kept o s1 := h.millStop
  exact .ite h hs1.degrade.wr.wr.wr.wr.wr

theorem Kept.millHubLost {hub} : Kept o (s.millHubLost hub) := by
  unfold State.millHubLost
  refine Kept.foldl (fun u a hu1 => ?_) h
  split
  · split
    · exact hu1.millLoss
    · exact hu1
  · exact hu1

theorem Kept.millEndOwn {it i cause status} : Kept o (s.millEndOwn it i cause status) := by
  unfold State.millEndOwn
  exact .ite h h.millStop

theorem Kept.millRetire : Kept o s.millRetire := by
  unfold State.millRetire
  exact Kept.foldl (fun _ _ ht => ht.millEndOwn) h

theorem Kept.millSliceDown {k} : Kept o (s.millSliceDown k) := by
  unfold State.millSliceDown
  refine Kept.foldl (fun u a hu1 => ?_) h
  split
  · exact hu1.millEndOwn
  · exact .ite hu1.millEndOwn hu1

theorem Kept.millCancel {k item} : Kept o (s.millCancel k item) := by
  unfold State.millCancel
  split
  · exact h.millEndOwn
  · exact h

theorem Kept.readSources {it i} : Kept o (s.readSources it i) := by
  unfold State.readSources
  extract_lets
  exact .ite h (Kept.foldl (fun _ _ ht => Kept.foldl (fun _ _ ht1 => ht1.dmaRead) ht) h)

theorem Kept.pumpMsg {seq i g k} : Kept o (s.pumpMsg seq i g k) := by
  unfold State.pumpMsg
  split
  · exact h
  · split
    · exact h
    · extract_lets
      refine .ite h ?_
      split
      · exact h
      · extract_lets s1
        have hs1 : Kept o s1 := h.collSend
        exact hs1.updStripe.updMillItem

theorem Kept.pumpBlock {seq i b} : Kept o (s.pumpBlock seq i b) := by
  unfold State.pumpBlock
  split
  · exact h
  · split
    · exact h
    · extract_lets _ _ done
      have hdone : ∀ {t}, Kept o t → Kept o (done t) := fun hu => hu.updStripe
      clear_value done
      refine .ite h ?_
      split
      · exact .ite (hdone h) h
      · split
        · exact h
        · extract_lets s1
          have hs1 : Kept o s1 := h.dmaWrite
          exact (hdone hs1).updMillItem

theorem Kept.millPump {seq} : Kept o (s.millPump seq) := by
  unfold State.millPump
  split
  · exact h
  · refine .ite h ?_
    refine Kept.foldl (fun u a hu3 => ?_) h
    extract_lets _ t1
    have ht1 : Kept o t1 := by
      unfold t1
      refine Kept.foldl (fun u a hu6 => ?_) hu3
      split
      · exact hu6.pumpMsg
    exact Kept.foldl (fun _ _ ht7 => ht7.pumpBlock) ht1

theorem Kept.millFetch {k} : Kept o (s.millFetch k) := by
  unfold State.millFetch
  split
  · exact .ite h h.updMillItem.dmaRead
  · exact h

theorem Kept.millDispatch {d p} : Kept o (s.millDispatch d p) := by
  unfold State.millDispatch
  extract_lets _ _ _ s1
  have hs1 : Kept o s1 := h.updMill
  exact .ite h.answer (.ite h.answer hs1.answer.millFetch)

theorem Kept.execMillDispatch {p} : NextKept o (Machine.execMillDispatch p s) := by
  unfold Machine.execMillDispatch
  exact .intro (h.deliverUnit (fun hu => Kept.ite hu.millDispatch hu))

theorem Kept.sendLate {it i} : Kept o (s.sendLate it i) := by
  unfold State.sendLate
  exact Kept.foldl (fun _ _ ht => ht.collSend.inc) h

theorem Kept.nack {hub stripe rank gid tag arg} : Kept o (s.nack hub stripe rank gid tag arg) := by
  unfold State.nack
  exact h.collOut

theorem Kept.matchJoin {it j} : Kept o (s.matchJoin it j) := by
  unfold State.matchJoin
  exact .ite h.nack.millLoss h.updStripe

theorem Kept.heard {seq rank} : Kept o (s.heard seq rank) := by
  unfold State.heard
  extract_lets
  exact h.updMillItem

theorem Kept.takeJoins {seq} : Kept o (s.takeJoins seq) := by
  unfold State.takeJoins
  split
  · exact h
  · extract_lets _ s1
    have hs1 : Kept o s1 := h.updMill
    clear_value s1
    refine Kept.foldl (fun u a hu3 => ?_) hs1
    split
    · exact .ite hu3.matchJoin.heard hu3
    · exact hu3

theorem Kept.millStart {slice item} : Kept o (s.millStart slice item) := by
  unfold State.millStart
  split
  · exact h
  · extract_lets _ _ bad _ s1 s2 s3
    have hbad : ∀ {t st}, Kept o t → Kept o (bad t st) := fun hu => hu.updMillItem.millFetch
    have hs1 : Kept o s1 := h.updMillItem.millFetch
    have hs2 : Kept o s2 := by
      unfold s2
      refine Kept.foldl (fun u a hu2 => ?_) hs1
      extract_lets u
      have hu : Kept o u := hu2.readSources
      exact Kept.foldl (fun _ _ ht3 => ht3.sendJoin) hu
    have hs3 : Kept o s3 := .ite (Kept.foldl (fun _ _ ht4 => ht4.sendLate) hs2) hs2
    clear_value bad s1 s2 s3
    refine .ite h ?_
    refine .ite (hbad h) ?_
    refine .ite (.ite h.dmaRead h) ?_
    split
    · exact hbad h
    · exact .ite h hs3.takeJoins.millPump

theorem Kept.execMillItemStart {slice item} : NextKept o (Machine.execMillItemStart slice item s) := by
  unfold Machine.execMillItemStart
  exact .intro h.millStart

theorem Kept.collAccept {p f} (hf : ∀ {u a1}, Kept o u → Kept o (f u a1)) : Kept o (s.collAccept p f) := by
  unfold State.collAccept
  exact h.deliverUnit (fun hu => Kept.ite (hf hu.answer) hu)

theorem Kept.collRecv {p f} (hf : ∀ {u a1 a2}, Kept o u → Kept o (f u a1 a2)) : Kept o (s.collRecv p f) := by
  unfold State.collRecv
  extract_lets
  split
  · exact .ite ((hf h.heard).millPump) h
  · exact h

theorem Kept.collJoin {p} : Kept o (s.collJoin p) := by
  unfold State.collJoin
  extract_lets
  split
  · exact .ite (h.collRecv (fun hu => hu.matchJoin)) h.nack.millLoss
  · exact .ite h.nack h.updMill

theorem Kept.execCollJoin {p} : NextKept o (Machine.execCollJoin p s) := by
  unfold Machine.execCollJoin
  exact .intro (h.collAccept (fun hu => hu.collJoin))

theorem Kept.storeBlocks {it h' es} : Kept o (s.storeBlocks it h' es) := by
  unfold State.storeBlocks
  exact h.updStripe.collSend

theorem Kept.execCollExp {p0} : NextKept o (Machine.execCollExp p0 s) := by
  unfold Machine.execCollExp
  refine .intro ?_
  refine Kept.collAccept h (fun hu6 => ?_)
  refine Kept.collRecv hu6 (fun hu9 => ?_)
  extract_lets
  exact hu9.storeBlocks

theorem Kept.execCollData {p0} : NextKept o (Machine.execCollData p0 s) := by
  unfold Machine.execCollData
  refine .intro ?_
  refine Kept.collAccept h (fun hu6 => ?_)
  refine Kept.collRecv hu6 (fun hu9 => ?_)
  extract_lets
  exact hu9.storeBlocks

theorem Kept.execCollCredit {p0} : NextKept o (Machine.execCollCredit p0 s) := by
  unfold Machine.execCollCredit
  exact .intro (h.collAccept (fun hu => hu.collRecv (fun hu1 => hu1.updStripe)))

theorem Kept.execCollKeep {p0} : NextKept o (Machine.execCollKeep p0 s) := by
  unfold Machine.execCollKeep
  exact .intro (h.collAccept (fun hu => hu.collRecv (fun hu1 => hu1)))

theorem Kept.collLate {p} : Kept o (s.collLate p) := by
  unfold State.collLate
  extract_lets _ s1
  have hs1 : Kept o s1 := h.inc
  exact .ite ((hs1.collRecv (fun hu => hu.updMillItem)).inc) ((hs1.collRecv (fun hu1 => hu1)).inc)

theorem Kept.execCollLate {p} : NextKept o (Machine.execCollLate p s) := by
  unfold Machine.execCollLate
  exact .intro (h.collAccept (fun hu => hu.collLate))

theorem Kept.collAbort {p} : Kept o (s.collAbort p) := by
  unfold State.collAbort
  extract_lets _ s2
  have hs2 : Kept o s2 := h.updMill
  clear_value s2
  split
  · exact hs2.millLoss
  · exact hs2.degrade

theorem Kept.execCollAbort {p} : NextKept o (Machine.execCollAbort p s) := by
  unfold Machine.execCollAbort
  exact .intro (h.collAccept (fun hu => hu.collAbort))

theorem Kept.collNack {p} : Kept o (s.collNack p) := by
  unfold State.collNack
  extract_lets
  split
  · extract_lets
    exact .ite h.millLoss h.updStripe
  · exact h

theorem Kept.execCollNack {p} : NextKept o (Machine.execCollNack p s) := by
  unfold Machine.execCollNack
  exact .intro (h.collAccept (fun hu => hu.collNack))

theorem Kept.execJoinRetryTimer {slice item} : NextKept o (Machine.execJoinRetryTimer slice item s) := by
  unfold Machine.execJoinRetryTimer
  refine .intro ?_
  split
  · refine .ite h ?_
    refine Kept.foldl (fun u a hu3 => ?_) h
    split
    · exact Kept.foldl (fun _ _ ht4 => ht4.sendJoin.updStripe) hu3
  · exact h

theorem Kept.execKeepTimer {slice item} : NextKept o (Machine.execKeepTimer slice item s) := by
  unfold Machine.execKeepTimer
  extract_lets
  refine .intro ?_
  split
  · refine .ite h ?_
    refine Kept.foldl (fun u a hu3 => ?_) h
    split
    · exact Kept.foldl (fun _ _ ht4 => Kept.ite ht4.collSend ht4) hu3
  · exact h

theorem Kept.execLateTimer : NextKept o (Machine.execLateTimer s) := by
  unfold Machine.execLateTimer
  extract_lets s1
  have hs1 : Kept o s1 := Kept.foldl (fun _ _ ht => Kept.foldl (fun _ _ ht1 => ht1.sendLate) ht) h
  clear_value s1
  refine .intro ?_
  refine .ite h ?_
  refine Kept.foldl (fun u a hu13 => ?_) hs1
  split
  · exact hu13
  · extract_lets
    refine Kept.foldl (fun u a hu15 => ?_) hu13
    split
    · exact hu15.collOut.inc

theorem Kept.execMillStartDeadline {slice item rank} : NextKept o (Machine.execMillStartDeadline slice item rank s) := by
  unfold Machine.execMillStartDeadline
  refine .intro ?_
  split
  · extract_lets
    exact .ite h.millLoss h
  · exact h

theorem Kept.execMillProgressDeadline {slice item rank} : NextKept o (Machine.execMillProgressDeadline slice item rank s) := by
  unfold Machine.execMillProgressDeadline
  refine .intro ?_
  split
  · split
    · exact .ite h.millLoss h
    · exact h
  · exact h

theorem Kept.execMillItemEnd {slice item} : NextKept o (Machine.execMillItemEnd slice item s) := by
  unfold Machine.execMillItemEnd
  refine .intro ?_
  split
  · exact h
  · extract_lets _ fate
    clear_value fate
    split
    · exact h
    · exact .ite h.updMill.inc.send.millFetch h

theorem Kept.millAnswer {q p} : Kept o (s.millAnswer q p) := by
  unfold State.millAnswer
  split
  · exact h
  · refine .ite ?_ (.ite (.ite h h.updMillItem) (.ite h.updMillItem.millPump h))
    refine .ite h ?_
    split
    · exact h.millLoss
    · exact h

theorem Kept.execMillGrpCommit {w g} : NextKept o (Machine.execMillGrpCommit w g s) := by
  unfold Machine.execMillGrpCommit
  extract_lets
  refine .intro ?_
  refine .ite h.wr ?_
  split
  · rename_i x s1 heq
    have hs1 : Kept o s1 := Kept.snd heq h.snoopRead
    exact hs1.wr
  · rename_i x s1 heq
    have hs1 : Kept o s1 := Kept.snd heq h.snoopRead
    exact hs1.wr.wr
  · rename_i x bytes bad s0 heq
    have hs0 : Kept o s0 := Kept.snd heq h.snoopRead
    extract_lets s1 _ _ s2 s3
    have hs1 : Kept o s1 := hs0.wr
    have hs2 : Kept o s2 := hs1.wr
    have hs3 : Kept o s3 := hs2.wr
    exact .ite hs3.wr.updMill hs3

theorem Kept.execMillCntClear : NextKept o (Machine.execMillCntClear s) := by
  unfold Machine.execMillCntClear
  exact .intro h.resetReg.resetReg

end

end Sys2Proof.Machine
end

section
/-!
PROOFS. What the operations of the hub keep: translation and the data movers.
-/

namespace Sys2Proof.Machine

open Sys2Proof.Safety

section
variable {o s : State} (h : Kept o s)
include h

/-! ### Machine/Xlt.lean: translation and faults -/

theorem Kept.updXlt {f} : Kept o (s.updXlt f) := by
  unfold State.updXlt
  exact h.same

theorem Kept.updSlice {k f} : Kept o (s.updSlice k f) := by
  unfold State.updSlice
  exact h.updXlt

theorem Kept.ctxOf {src asid} : Kept o (s.ctxOf src asid).2 := by
  unfold State.ctxOf
  split
  · rename_i x b t heq
    have ht : Kept o t := Kept.snd heq h.snoopRead
    extract_lets
    exact ht
  · rename_i x t heq
    have ht : Kept o t := Kept.snd heq h.snoopRead
    exact ht
  · rename_i x fst t x1 x2 heq
    have ht : Kept o t := Kept.snd heq h.snoopRead
    exact ht

theorem Kept.xltAnswer {k r status d} : Kept o (s.xltAnswer k r status d) := by
  unfold State.xltAnswer
  extract_lets s1 s2
  have hs1 : Kept o s1 := h.updSlice
  have hs2 : Kept o s2 := hs1.updIface
  exact hs2.send

theorem Kept.startWalk {k r va} : Kept o (s.startWalk k r va) := by
  unfold State.startWalk
  extract_lets _ hit
  clear_value hit
  split
  rename_i lt s1 heq
  have hs1 : Kept o s1 := by
    split at heq
    · cases heq
      exact h
    · split at heq <;> rename_i hq <;> cases heq <;> exact Kept.snd hq h.ctxOf
  split
  · exact hs1
  · exact hs1.updXlt.updSlice.inc
  · exact hs1.updSlice

theorem Kept.lookup {k r va} : Kept o (s.lookup k r va) := by
  unfold State.lookup
  extract_lets
  exact .ite h h.startWalk

theorem Kept.faultTo {f} : Kept o (s.faultTo f) := by
  unfold State.faultTo
  exact h.updXlt.inc

theorem Kept.settleReq {k r} : Kept o (s.settleReq k r) := by
  unfold State.settleReq
  extract_lets
  split
  · exact h
  · exact h.xltAnswer
  · exact .ite h.xltAnswer h.xltAnswer.faultTo

theorem Kept.xltServe {k} : Kept o (s.xltServe k) := by
  unfold State.xltServe
  extract_lets s1
  have hs1 : Kept o s1 := Kept.foldl (fun _ _ ht => Kept.foldl (fun _ _ ht1 => ht1.lookup) ht) h
  exact Kept.foldl (fun _ _ ht2 => ht2.settleReq) hs1

theorem Kept.xltAccept {d p} : Kept o (s.xltAccept d p) := by
  unfold State.xltAccept
  extract_lets _ _ s0
  have hs0 : Kept o s0 := h.updSlice
  clear_value s0
  refine .ite h ?_
  refine .ite hs0.xltAnswer ?_
  split
  · rename_i x v root tenant t heq
    have ht : Kept o t := Kept.snd heq hs0.ctxOf
    exact .ite ht.xltAnswer ht.xltServe
  · rename_i x t heq
    have ht : Kept o t := Kept.snd heq hs0.ctxOf
    exact ht.xltServe
  · rename_i x t heq
    have ht : Kept o t := Kept.snd heq hs0.ctxOf
    exact ht.updSlice

theorem Kept.xltResume {d} : Kept o (s.xltResume d) := by
  unfold State.xltResume
  extract_lets
  exact (Kept.foldl (fun _ _ ht => ht.xltAccept) h).xltServe

theorem Kept.execXltRequest {p} : NextKept o (Machine.execXltRequest p s) := by
  unfold Machine.execXltRequest
  refine .intro ?_
  refine Kept.deliverUnit h (fun hu3 => ?_)
  split
  · exact hu3.xltAccept
  · exact hu3

theorem Kept.badWalk {k w kind} : Kept o (s.badWalk k w kind) := by
  unfold State.badWalk
  exact h.updSlice.xltServe

theorem Kept.execWalkStep {slice walk} : NextKept o (Machine.execWalkStep slice walk s) := by
  unfold Machine.execWalkStep
  refine .intro ?_
  split
  · exact h
  · split
    · rename_i x s1 heq
      have hs1 : Kept o s1 := Kept.snd heq h.snoopRead
      exact hs1
    · rename_i x s1 heq
      have hs1 : Kept o s1 := Kept.snd heq h.snoopRead
      exact hs1.badWalk
    · rename_i x bytes bad s0 heq
      have hs0 : Kept o s0 := Kept.snd heq h.snoopRead
      extract_lets
      exact .ite hs0.badWalk (.ite hs0.badWalk (.ite hs0.badWalk (.ite hs0.updSlice.xltServe hs0.updSlice)))

theorem Kept.execFaultOpen : NextKept o (Machine.execFaultOpen s) := by
  unfold Machine.execFaultOpen
  refine .intro ?_
  split
  · exact h
  · extract_lets
    exact .ite h.updXlt (.ite (.ite h.updXlt.inc h) h.updXlt)

theorem Kept.ringWrite {r} : Kept o (s.ringWrite r) := by
  unfold State.ringWrite
  extract_lets _ _ _ s1 s2
  have hs1 : Kept o s1 := h.hostSend
  have hs2 : Kept o s2 := hs1.wr.updXlt
  exact hs2.msix

theorem Kept.ringDrain {n} : Kept o (State.ringDrain n s) := by
  induction n generalizing s with
  | zero =>
    rw [State.ringDrain]
    exact h
  | succ n ih =>
    rw [State.ringDrain]
    split
    · exact .ite (ih h.updXlt.ringWrite) h
    · exact h

theorem Kept.execFaultRecordWrite {fid} : NextKept o (Machine.execFaultRecordWrite fid s) := by
  unfold Machine.execFaultRecordWrite
  refine .intro ?_
  split
  · exact h
  · extract_lets s1
    have hs1 : Kept o s1 := h.updXlt
    exact hs1.ringDrain

theorem Kept.execFaultRingHead {w head} : NextKept o (Machine.execFaultRingHead w head s) := by
  unfold Machine.execFaultRingHead
  extract_lets
  exact .intro (.ite h (.ite h.wr h.wr.ringDrain))

/-! ### Machine/Movers.lean: mover items -/

theorem Kept.setMovQ {m q l} : Kept o (s.setMovQ m q l) := by
  unfold State.setMovQ
  exact h.same

theorem Kept.updJob {m q f} : Kept o (s.updJob m q f) := by
  unfold State.updJob
  split
  · exact h.setMovQ
  · exact h

theorem Kept.fetchDescs {m q n} : Kept o (State.fetchDescs m q n s) := by
  induction n generalizing s with
  | zero =>
    rw [State.fetchDescs]
    exact h
  | succ n ih =>
    rw [State.fetchDescs]
    split
    · extract_lets
      exact .ite (ih h.updJob.dmaRead) h
    · exact h

theorem Kept.finishJob {m q} : Kept o (s.finishJob m q) := by
  unfold State.finishJob
  extract_lets
  exact h.updJob.startFence.settleFence

theorem Kept.failJob {m q status extra} : Kept o (s.failJob m q status extra) := by
  unfold State.failJob
  exact h.updJob.finishJob

theorem Kept.moverDispatch {d p} : Kept o (s.moverDispatch d p) := by
  unfold State.moverDispatch
  extract_lets _ _ _ _ _ _ s1 s2
  have hs1 : Kept o s1 := h.same
  have hs2 : Kept o s2 := hs1.setMovQ.answer
  exact .ite h.answer (.ite h.answer (.ite hs2.fetchDescs hs2))

theorem Kept.execMoverDispatch {p} : NextKept o (Machine.execMoverDispatch p s) := by
  unfold Machine.execMoverDispatch
  refine .intro ?_
  refine Kept.deliverUnit h (fun hu3 => ?_)
  split
  · exact hu3.moverDispatch
  · exact hu3

theorem Kept.askXlt {m q j ahead prefetch pages} : Kept o (s.askXlt m q j ahead prefetch pages) := by
  unfold State.askXlt
  extract_lets
  exact h.issue

theorem Kept.readSpan64 {m q j d note x} : Kept o (s.readSpan64 m q j d note x) := by
  unfold State.readSpan64
  extract_lets
  refine Kept.foldl (fun u a hu1 => ?_) h
  split
  · extract_lets
    exact hu1.dmaRead

theorem Kept.descStart {m q} : Kept o (s.descStart m q) := by
  unfold State.descStart
  split
  · exact h
  · extract_lets
    refine .ite h ?_
    refine .ite h.failJob ?_
    refine .ite h.failJob ?_
    split
    · extract_lets
      refine .ite h.failJob ?_
      refine .ite (.ite h.updJob.askXlt (.ite (.ite h.failJob (.ite h.failJob (.ite h.failJob h.updJob.askXlt))) h.updJob.readSpan64)) ?_
      refine .ite h.failJob ?_
      refine .ite h.failJob ?_
      refine .ite h.failJob ?_
      refine .ite h.failJob ?_
      refine .ite h.failJob ?_
      refine .ite h.failJob ?_
      split
      · extract_lets _ s1 s2
        have hs1 : Kept o s1 := h.updJob
        have hs2 : Kept o s2 := .ite hs1 hs1.startFence.settleFence
        exact .ite h.updJob.askXlt (.ite h.updJob (Kept.foldl (fun _ _ ht => ht.readSpan64) hs2))

theorem Kept.execMovDescStart {mover q} : NextKept o (Machine.execMovDescStart mover q s) := by
  unfold Machine.execMovDescStart
  exact .intro h.descStart

theorem Kept.writeRun {m q j d r} : Kept o (s.writeRun m q j d r) := by
  unfold State.writeRun
  split
  · extract_lets
    refine Kept.foldl (fun u a hu1 => ?_) h
    split
    · extract_lets
      exact hu1.dmaWrite

theorem Kept.descEnd {m q} : Kept o (s.descEnd m q) := by
  unfold State.descEnd
  split
  · exact h
  · refine .ite h ?_
    split
    · exact h.failJob
    · extract_lets _ _ _ _ _ _ _ _ _ _ s1 s2 s3
      have hs1 : Kept o s1 := Kept.foldl (fun _ _ ht => ht.writeRun) h.fresh
      have hs2 : Kept o s2 := hs1.inc
      have hs3 : Kept o s3 := hs2.updJob
      clear_value s1 s2 s3
      refine .ite h.failJob ?_
      split
      · exact hs3.failJob
      · exact .ite hs3.finishJob hs3.updJob.fetchDescs

theorem Kept.execMovDescEnd {mover q} : NextKept o (Machine.execMovDescEnd mover q s) := by
  unfold Machine.execMovDescEnd
  exact .intro h.descEnd

theorem Kept.execMovItemComplete {mover q} : NextKept o (Machine.execMovItemComplete mover q s) := by
  unfold Machine.execMovItemComplete
  extract_lets
  refine .intro ?_
  split
  · exact h
  · refine .ite h ?_
    split
    · exact h.setMovQ.send.fetchDescs

theorem Kept.prefetchXlt {m q k} : Kept o (s.prefetchXlt m q k) := by
  unfold State.prefetchXlt
  split
  · exact h
  · extract_lets
    refine .ite h ?_
    split
    · extract_lets
      exact .ite h h.askXlt
    · exact h

theorem Kept.moverAnswer {r p} : Kept o (s.moverAnswer r p) := by
  unfold State.moverAnswer
  extract_lets _ _ _ s1
  have hs1 : Kept o s1 := h.updJob
  clear_value s1
  split
  · exact h
  · extract_lets _ s1'
    have hs1' : Kept o s1' := .ite h.updXlt h
    refine .ite ?_ ?_
    · exact .ite hs1' (.ite hs1' (.ite hs1'.updJob (.ite hs1'.updJob hs1'.failJob)))
    · exact .ite (.ite (.ite (.ite h h.failJob) h.updJob) (.ite h.updJob.prefetchXlt (.ite (.ite hs1.updJob hs1) h.updJob))) h

theorem Kept.moverWfail {a p} : Kept o (s.moverWfail a p) := by
  unfold State.moverWfail
  extract_lets
  exact h.updJob

theorem Kept.stopMover {m item status} : Kept o (s.stopMover m item status) := by
  unfold State.stopMover
  refine Kept.foldl (fun u a hu1 => ?_) h
  split
  · exact hu1
  · extract_lets
    exact .ite (.ite hu1 hu1.failJob) (Kept.foldl (fun _ _ ht2 => ht2.send) hu1.setMovQ)

theorem Kept.leaveFaults {w} : Kept o (s.leaveFaults w) := by
  unfold State.leaveFaults
  exact h.updXlt

theorem Kept.moverDrain {m} : Kept o (s.moverDrain m) := by
  unfold State.moverDrain
  refine Kept.foldl (fun u a hu1 => ?_) h
  split
  · exact hu1
  · extract_lets t1
    have ht1 : Kept o t1 := Kept.foldl (fun _ _ ht2 => ht2.send) hu1.leaveFaults.setMovQ
    exact .ite ht1 ht1.failJob

theorem Kept.resumeMover {w failWith} : Kept o (s.resumeMover w failWith) := by
  unfold State.resumeMover
  extract_lets
  split
  · refine .ite h ?_
    split
    · exact h.updJob
    · exact h.failJob
  · exact h

/-! ### Machine/FuncReset.lean: function-level reset -/

theorem Kept.noteReset {kind source} : Kept o (s.noteReset kind source) := by
  unfold State.noteReset
  extract_lets s1
  have hs1 : Kept o s1 := h.wr.wr
  exact .ite hs1.inc (.ite hs1.inc hs1)

theorem Kept.fateSummaries : Kept o s.fateSummaries := by
  unfold State.fateSummaries
  refine Kept.foldl (fun u a hu1 => ?_) h
  extract_lets
  exact .ite hu1 hu1.wr.wr.wr

theorem Kept.flrEnd : Kept o s.flrEnd := by
  unfold State.flrEnd
  extract_lets s1 _ _ s2
  have hs1 : Kept o s1 := h.fateSummaries.holdRecords.resetFunction
  clear_value s1
  have hs2 : Kept o s2 := hs1.of rfl rfl rfl rfl rfl
  exact hs2.grpRet

theorem Kept.wakeStart : Kept o s.wakeStart := by
  unfold State.wakeStart
  extract_lets u _ s1 s2
  have hu : Kept o u := h.noteReset
  clear_value u
  have hs1 : Kept o s1 := hu.same.ltrTo
  have hs2 : Kept o s2 := by
    unfold s2
    refine Kept.foldl (fun u a hu2 => ?_) hs1
    extract_lets u'
    have hu' : Kept o u' := .ite hu2.wr hu2
    exact .ite hu'.openDom hu'
  exact Kept.foldl (fun _ _ ht3 => ht3.openDom) hs2

theorem Kept.wake : Kept o s.wake := by
  unfold State.wake
  extract_lets
  exact .ite h.wakeStart (.ite h.same h)

theorem Kept.zeroSealed : Kept o s.zeroSealed := by
  unfold State.zeroSealed
  extract_lets s1 s2
  have hs1 : Kept o s1 := Kept.foldl (fun _ _ ht => ht.zeroRange) h
  have hs2 : Kept o s2 := by
    unfold s2
    refine Kept.foldl (fun u a hu3 => ?_) hs1
    extract_lets
    exact .ite hu3.zeroRange hu3
  clear_value s2
  exact hs2.same

theorem Kept.bootWarm : Kept o s.bootWarm := by
  unfold State.bootWarm
  extract_lets
  exact .ite h.wr.wr.wr h

theorem Kept.showPopulated : Kept o s.showPopulated := by
  unfold State.showPopulated
  refine Kept.foldl (fun u a hu1 => ?_) h
  extract_lets t1
  have ht1 : Kept o t1 := .ite hu1.wr hu1
  exact .ite ht1.wr ht1

theorem Kept.warmEnd : Kept o s.warmEnd := by
  unfold State.warmEnd
  extract_lets s1 t doms t1
  have hs1 : Kept o s1 := h.fateSummaries.holdRecords
  have ht : Kept o t := hs1.zeroSealed.resetWarm.bootWarm
  have ht1 : Kept o t1 := Kept.foldl (fun _ _ hu => hu.domRet) ht.grpRet
  clear_value t1
  refine Kept.showPopulated ?_
  exact ht1.commonsReset rfl

theorem Kept.resetEnd : Kept o s.resetEnd := by
  unfold State.resetEnd
  exact .ite h.warmEnd h.flrEnd

theorem Kept.flrBegin : Kept o s.flrBegin := by
  unfold State.flrBegin
  extract_lets s1 s2
  have hs1 : Kept o s1 := h.updHep.hostDead.hostDrop.loseCache
  have hs2 : Kept o s2 := by
    unfold s2
    split
    · exact hs1.logFate
    · exact hs1
  clear_value s2
  exact hs2.same.holdRecords

end

end Sys2Proof.Machine
end

section
/-!
PROOFS. What the operations of the hub keep: the Steward and the generation service.
-/

namespace Sys2Proof.Machine

open Sys2Proof.Safety

section
variable {o s : State} (h : Kept o s)
include h

/-! ### Machine/Steward.lean: queues, packets and items -/

theorem Kept.takeIn {q slot tenant asid pkt} : Kept o (s.takeIn q slot tenant asid pkt) := by
  unfold State.takeIn
  extract_lets _ _ _ s1
  have hs1 : Kept o s1 := h.same
  clear_value s1
  split
  · exact hs1.fixFate
  · exact hs1.same.ltrActive

theorem Kept.updOrder {o' f} : Kept o (s.updOrder o' f) := by
  unfold State.updOrder
  extract_lets
  exact h.same

theorem Kept.need {i host addr n} : Kept o (s.need i host addr n).2 := by
  unfold State.need
  exact Kept.iteSnd h (Kept.iteSnd (Kept.inSnd h.dmaRead) h)

theorem Kept.walkFrom {n va level table} : Kept o (State.walkFrom n s va level table).2 := by
  induction n generalizing s level table with
  | zero =>
    rw [State.walkFrom]
    exact h
  | succ n ih =>
    rw [State.walkFrom]
    split
    · rename_i t heq
      exact Kept.snd heq h.snoopRead
    · rename_i t heq
      exact Kept.snd heq h.snoopRead
    · rename_i b bad t heq
      have ht : Kept o t := Kept.snd heq h.snoopRead
      extract_lets
      exact .iteSnd ht (.iteSnd ht (.iteSnd ht (.iteSnd ht (ih ht))))

theorem Kept.stwWalk {asid tenant va} : Kept o (s.stwWalk asid tenant va).2 := by
  unfold State.stwWalk
  refine .iteSnd h ?_
  split
  · rename_i x v root tenant t heq
    have ht : Kept o t := Kept.snd heq h.ctxOf
    exact Kept.iteSnd ht ht.walkFrom
  · rename_i x t heq
    have ht : Kept o t := Kept.snd heq h.ctxOf
    exact ht
  · rename_i x t heq
    have ht : Kept o t := Kept.snd heq h.ctxOf
    exact ht

theorem Kept.sendUnit {i} : Kept o (s.sendUnit i) := by
  unfold State.sendUnit
  split
  · exact h.fixFate
  · exact h.updOrder
  · extract_lets _ s1
    have hs1 : Kept o s1 := h.updOrder
    exact hs1.issue

theorem Kept.judge {n} : Kept o (State.judge n s) := by
  induction n generalizing s with
  | zero =>
    rw [State.judge]
    exact h
  | succ n ih =>
    rw [State.judge]
    split
    · exact ih h.fixFate
    · exact h

theorem Kept.joinClass {c} : Kept o (s.joinClass c) := by
  unfold State.joinClass
  extract_lets _ _ _ _ s1
  have hs1 : Kept o s1 := .ite h h.same
  clear_value s1
  exact .ite hs1 hs1.same

theorem Kept.flrGo : Kept o s.flrGo := by
  unfold State.flrGo
  extract_lets s1
  have hs1 : Kept o s1 := h.failItems
  exact .ite hs1.resetEnd hs1

theorem Kept.stwTurn : Kept o s.stwTurn := by
  unfold State.stwTurn
  extract_lets s' _ _ s1
  have hs' : Kept o s' := h.judge
  have hs1 : Kept o s1 := Kept.foldl (fun _ _ ht => ht.joinClass) hs'
  clear_value s1
  exact .ite h.flrGo hs1.same

theorem Kept.charge {i} : Kept o (s.charge i) := by
  unfold State.charge
  extract_lets
  exact h.same

theorem Kept.itemDispatch : Kept o s.itemDispatch := by
  unfold State.itemDispatch
  extract_lets s1
  have hs1 : Kept o s1 := h.stwTurn
  clear_value s1
  split
  · exact hs1.charge.updOrder.stwTurn
  · exact hs1

theorem Kept.execBusyRetryTimer {q item} : NextKept o (Machine.execBusyRetryTimer q item s) := by
  unfold Machine.execBusyRetryTimer
  refine .intro ?_
  split
  · exact .ite h.sendUnit h
  · exact h

theorem Kept.execSqDoorbell {w q tail} : NextKept o (Machine.execSqDoorbell w q tail s) := by
  unfold Machine.execSqDoorbell
  extract_lets s1
  have hs1 : Kept o s1 := h.ltrActive.wr.wake
  exact .intro (.ite h (.ite hs1 (.ite hs1.queueError hs1.wr)))

theorem Kept.cqError {c cause} : Kept o (s.cqError c cause) := by
  unfold State.cqError
  exact Kept.foldl (fun _ _ ht => ht.enterError) h.stwErr

theorem Kept.execCqDoorbell {w q head} : NextKept o (Machine.execCqDoorbell w q head s) := by
  unfold Machine.execCqDoorbell
  extract_lets s1
  have hs1 : Kept o s1 := h.ltrActive.wr.wake
  exact .intro (.ite h (.ite hs1.cqError (.ite hs1.cqError hs1.wr)))

theorem Kept.takePackets {q n d} : Kept o (State.takePackets q n d s) := by
  induction n generalizing s d with
  | zero =>
    rw [State.takePackets]
    exact h
  | succ n ih =>
    rw [State.takePackets]
    exact ih h.wr.wr.wr.takeIn

theorem Kept.fetchFrom {q data bad} : Kept o (s.fetchFrom q data bad) := by
  unfold State.fetchFrom
  extract_lets _ _ _ _ s1
  have hs1 : Kept o s1 := h.same
  exact .ite (.ite hs1.queueError (h.walkRead (fun hu => hs1.takePackets.stwTurn))) (.ite hs1.queueError hs1.takePackets.stwTurn)

theorem Kept.execPacketFetch {data bad} : NextKept o (Machine.execPacketFetch data bad s) := by
  unfold Machine.execPacketFetch
  refine .intro (.ite h ?_)
  cases s.fetchQueue with
  | none => exact h
  | some q => exact h.fetchFrom

theorem Kept.execQueueEnable {w q} : NextKept o (Machine.execQueueEnable w q s) := by
  unfold Machine.execQueueEnable
  extract_lets _ s1
  have hs1 : Kept o s1 := h.wr.wr.wr.wr.resetReg
  clear_value s1
  exact .intro (.ite h (.ite h.wr hs1.same))

theorem Kept.execQueueDisable {w q} : NextKept o (Machine.execQueueDisable w q s) := by
  unfold Machine.execQueueDisable
  extract_lets
  exact .intro (.ite h h.wr.wr.wr)

theorem Kept.execQueueDrained {q} : NextKept o (Machine.execQueueDrained q s) := by
  unfold Machine.execQueueDrained
  exact .intro (.ite h.wr h)

theorem Kept.execCqbaseWrite {w c value} : NextKept o (Machine.execCqbaseWrite w c value s) := by
  unfold Machine.execCqbaseWrite
  extract_lets s1 s2
  have hs1 : Kept o s1 := h.wr.wr.wr
  have hs2 : Kept o s2 := hs1.wr.wr.wr
  clear_value s2
  exact .intro (.ite h (.ite h.wr hs2.same.holdRecords))

theorem Kept.execCqCoalTimeout {c} : NextKept o (Machine.execCqCoalTimeout c s) := by
  unfold Machine.execCqCoalTimeout
  extract_lets
  exact .intro (.ite h.same.msixAfter h)

theorem Kept.execMboxGo {w} : NextKept o (Machine.execMboxGo w s) := by
  unfold Machine.execMboxGo
  extract_lets _ s1
  have hs1 : Kept o s1 := h.wr.wr.wr
  exact .intro (.ite h (.ite h.wr hs1.wr.wr.takeIn.stwTurn))

theorem Kept.execMboxReady : NextKept o (Machine.execMboxReady s) := by
  unfold Machine.execMboxReady
  refine .intro ?_
  split
  · exact h
  · extract_lets _ s0 s1 s2
    have hs0 : Kept o s0 := h.same
    have hs1 : Kept o s1 := Kept.foldl (fun _ _ ht => ht.wr) hs0
    have hs2 : Kept o s2 := hs1.wr.wr.wr
    exact .ite hs2.msix hs2

theorem Kept.execResAck {w} : NextKept o (Machine.execResAck w s) := by
  unfold Machine.execResAck
  exact .intro (.ite h.wr.wr.wr h)

theorem Kept.doneItem {i result} : Kept o (s.doneItem i result) := by
  unfold State.doneItem
  exact h.fixFate

theorem Kept.doneTable {i result} : Kept o (s.doneTable i result) := by
  unfold State.doneTable
  exact .ite h.doneItem h.updOrder

theorem Kept.runItem {q item opc f} (hf : ∀ {u a1}, Kept o u → Kept o (f u a1)) : Kept o (s.runItem q item opc f) := by
  unfold State.runItem
  split
  · exact .ite ((Kept.ite h.doneTable (hf h)).stwTurn) h
  · exact h

theorem Kept.failItem {i status} : Kept o (s.failItem i status) := by
  unfold State.failItem
  exact h.fixFate

theorem Kept.endFailed {i} : Kept o (s.endFailed i) := by
  unfold State.endFailed
  refine .ite h ?_
  split
  · exact h.failItem
  · split
    · exact h.failItem
    · exact .ite h.failItem h

theorem Kept.runLong {q item opc f} (hf : ∀ {u a1}, Kept o u → Kept o (f u a1)) : Kept o (s.runLong q item opc f) := by
  unfold State.runLong
  exact h.runItem (fun hu => Kept.ite (hf hu) hu.endFailed)

theorem Kept.execNop {q item} : NextKept o (Machine.execNop q item s) := by
  unfold Machine.execNop
  exact .intro (h.runItem (fun hu => hu.doneItem))

theorem Kept.execLoomRun {q item} : NextKept o (Machine.execLoomRun q item s) := by
  unfold Machine.execLoomRun
  exact .intro (h.runItem (fun hu => hu.sendUnit))

theorem Kept.execLoomClaim {q item} : NextKept o (Machine.execLoomClaim q item s) := by
  unfold Machine.execLoomClaim
  exact .intro (h.runItem (fun hu => hu.sendUnit))

theorem Kept.execLoomPark {q item} : NextKept o (Machine.execLoomPark q item s) := by
  unfold Machine.execLoomPark
  exact .intro (h.runItem (fun hu => hu.sendUnit))

theorem Kept.execMove {q item} : NextKept o (Machine.execMove q item s) := by
  unfold Machine.execMove
  exact .intro (h.runItem (fun hu => hu.sendUnit))

theorem Kept.execCollective {q item} : NextKept o (Machine.execCollective q item s) := by
  unfold Machine.execCollective
  exact .intro (h.runItem (fun hu => hu.sendUnit))

theorem Kept.execSiteWork {q item} : NextKept o (Machine.execSiteWork q item s) := by
  unfold Machine.execSiteWork
  exact .intro (h.runItem (fun hu => hu.sendUnit))

theorem Kept.stwFault {i va kind level} : Kept o (s.stwFault i va kind level) := by
  unfold State.stwFault
  exact h.faultTo.updOrder

theorem Kept.stwBusy {i} : Kept o (s.stwBusy i) := by
  unfold State.stwBusy
  exact .ite h.updOrder (.ite h.failItem h)

theorem Kept.execWriteImm {q item} : NextKept o (Machine.execWriteImm q item s) := by
  unfold Machine.execWriteImm
  refine .intro ?_
  refine Kept.runLong h (fun hu3 => ?_)
  extract_lets _ _ put
  have hput : ∀ {u host addr}, Kept o u → Kept o (put u host addr) := fun hu => hu.dmaWrite.updOrder
  clear_value put
  refine .ite hu3.doneItem ?_
  refine .ite hu3 ?_
  refine .ite ?_ ?_
  · refine .ite hu3.failItem ?_
    split
    · exact hu3.failItem
    · exact hput hu3
  · split
    · rename_i x u heq
      have hu : Kept o u := Kept.snd heq hu3.stwWalk
      exact hu
    · rename_i x u heq
      have hu : Kept o u := Kept.snd heq hu3.stwWalk
      exact hu.failItem
    · rename_i x kind level u heq
      have hu : Kept o u := Kept.snd heq hu3.stwWalk
      exact hu.stwFault
    · rename_i x addr l e u heq
      have hu : Kept o u := Kept.snd heq hu3.stwWalk
      exact .ite hu.stwBusy (.ite hu.stwFault (hput hu))

theorem Kept.execBarrier {q item} : NextKept o (Machine.execBarrier q item s) := by
  unfold Machine.execBarrier
  refine .intro ?_
  refine Kept.runItem h (fun hu3 => ?_)
  extract_lets
  exact .ite hu3 hu3.doneItem

theorem Kept.execEvtSignal {q item} : NextKept o (Machine.execEvtSignal q item s) := by
  unfold Machine.execEvtSignal
  refine .intro ?_
  refine Kept.runItem h (fun hu3 => ?_)
  extract_lets _ t1
  have ht1 : Kept o t1 := .ite hu3.wr hu3.evtAdd
  exact .ite hu3.failItem ht1.doneItem

theorem Kept.execEvtWait {q item} : NextKept o (Machine.execEvtWait q item s) := by
  unfold Machine.execEvtWait
  refine .intro ?_
  refine Kept.runItem h (fun hu3 => ?_)
  extract_lets
  exact .ite hu3 (.ite hu3.failItem (.ite hu3.failItem (.ite hu3.doneItem hu3.same)))

theorem Kept.execEvtWaitTimeout {q item} : NextKept o (Machine.execEvtWaitTimeout q item s) := by
  unfold Machine.execEvtWaitTimeout
  exact .intro (h.runItem (fun hu => Kept.ite hu.failItem hu))

theorem Kept.execEvtReset {q item} : NextKept o (Machine.execEvtReset q item s) := by
  unfold Machine.execEvtReset
  refine .intro ?_
  refine Kept.runItem h (fun hu3 => ?_)
  extract_lets
  exact .ite hu3.failItem hu3.wr.wr.doneItem

theorem Kept.stopUnit {i} : Kept o (s.stopUnit i) := by
  unfold State.stopUnit
  extract_lets
  exact h.issue

theorem Kept.flrStart : Kept o s.flrStart := by
  unfold State.flrStart
  extract_lets s1
  have hs1 : Kept o s1 := h.flrBegin
  exact (Kept.foldl (fun _ _ ht => ht.updOrder.stopUnit) hs1).flrGo

theorem Kept.cancel {self tq titem} : Kept o (s.cancel self tq titem).2 := by
  unfold State.cancel
  split
  · exact h
  · extract_lets s1
    have hs1 : Kept o s1 := h.updOrder
    refine .iteSnd ?_ ?_
    · exact h
    · exact Kept.iteSnd (Kept.inSnd h.failItem) (Kept.iteSnd (Kept.inSnd hs1.stopUnit) (Kept.inSnd (Kept.ite hs1.failItem hs1)))

theorem Kept.execCancel {q item} : NextKept o (Machine.execCancel q item s) := by
  unfold Machine.execCancel
  refine .intro ?_
  refine Kept.runItem h (fun hu3 => ?_)
  split
  · rename_i x r t1 heq
    have ht1 : Kept o t1 := Kept.snd heq hu3.cancel
    exact ht1.doneItem

theorem Kept.execItemQuery {q item} : NextKept o (Machine.execItemQuery q item s) := by
  unfold Machine.execItemQuery
  exact .intro (h.runItem (fun hu => hu.doneItem))

theorem Kept.domainDown {i} : Kept o (s.domainDown i) := by
  unfold State.domainDown
  extract_lets _ back
  have hback : ∀ {t}, Kept o t → Kept o (back t) := fun hu => hu.updOrder
  exact .ite (hback h) (.ite (hback h) h.failItem)

theorem Kept.retryBusy {u} : Kept o (s.retryBusy u) := by
  unfold State.retryBusy
  exact Kept.foldl (fun _ _ ht => ht.sendUnit) h

theorem Kept.completeItem {i fate status started result} : Kept o (s.completeItem i fate status started result) := by
  unfold State.completeItem
  extract_lets
  split
  · exact h.failItem
  · exact .ite h.updOrder (.ite h.doneItem (.ite h.updOrder.domainDown h.fixFate))

theorem Kept.completionEvent {p} : Kept o (s.completionEvent p) := by
  unfold State.completionEvent
  extract_lets _ s0
  have hs0 : Kept o s0 := h.take
  clear_value s0
  split
  · exact hs0.completeItem.retryBusy.stwTurn
  · exact hs0.inc

theorem Kept.evtOp {p} : Kept o (s.evtOp p) := by
  unfold State.evtOp
  extract_lets op h' e v answer mine clear s1
  have hanswer : ∀ {t status x}, Kept o t → Kept o (answer t status x) := fun ht => ht.updIface.send
  have hclear : ∀ {t}, Kept o t → Kept o (clear t) := fun ht => ht.same
  have hs1 : Kept o s1 := hclear h
  clear_value s1 clear answer op
  refine .ite (hanswer h) (.ite (hanswer h) ?_)
  split
  · exact (hanswer h.evtAdd).settleWaits
  · refine .ite (hanswer hs1) (hanswer ?_)
    exact hs1.same
  · exact hanswer (hclear h)

theorem Kept.execEvtOp {p} : NextKept o (Machine.execEvtOp p s) := by
  unfold Machine.execEvtOp
  exact .intro (h.deliverUnit (fun hu => hu.evtOp.stwTurn))

theorem Kept.execEvtRegWrite {w e value} : NextKept o (Machine.execEvtRegWrite w e value s) := by
  unfold Machine.execEvtRegWrite
  extract_lets s1
  have hs1 : Kept o s1 := h.wr.wr.wr
  exact .intro (.ite h hs1.wr.settleWaits.stwTurn)

theorem Kept.stwResume {stream failWith} : Kept o (s.stwResume stream failWith) := by
  unfold State.stwResume
  split
  · exact h
  · split
    · exact h.fixFate.stwTurn
    · exact h.updOrder

theorem Kept.stwAnswer {r p} : Kept o (s.stwAnswer r p) := by
  unfold State.stwAnswer
  split
  · exact .ite h.replyLost h
  · split
    · extract_lets
      refine .ite h ?_
      refine .ite ?_ ?_
      · split
        · exact h.failItem
        · exact h.updOrder
      · split
        · exact h.failItem
        · exact .ite h.domainDown h.failItem
    · exact h
    · exact .ite h.updOrder h.updOrder

/-! ### Machine/XltCmds.lean: coverage of an invalidation -/

theorem Kept.dropScope {x} : Kept o (s.dropScope x) := by
  unfold State.dropScope
  exact h.updXlt

theorem Kept.busyAgain {x} : Kept o (s.busyAgain x) := by
  unfold State.busyAgain
  exact h.same

/-! ### Machine/StwRes.lean: pools, sequences and page moves -/

theorem Kept.updStw {f} : Kept o (s.updStw f) := by
  unfold State.updStw
  exact h.same

theorem Kept.stwWrite {hpa d} : Kept o (s.stwWrite hpa d) := by
  unfold State.stwWrite
  exact h.homeWrite

theorem Kept.zeroHpa {hpa n} : Kept o (s.zeroHpa hpa n) := by
  unfold State.zeroHpa
  refine .ite h.zeroHome ?_
  refine Kept.foldl (fun u a hu3 => ?_) h
  extract_lets
  exact hu3.zeroRange

theorem Kept.execRsvWrite {w value} : NextKept o (Machine.execRsvWrite w value s) := by
  unfold Machine.execRsvWrite
  extract_lets _ _ s0
  have hs0 : Kept o s0 := .ite h.wr h
  exact .intro (.ite h (.ite hs0.wr hs0.wr.wr))

theorem Kept.allocate {p o' tenant} : Kept o (s.allocate p o' tenant).2 := by
  unfold State.allocate
  refine .iteSnd h ?_
  split
  · exact h
  · exact Kept.inSnd h.updStw

theorem Kept.freeBlock {b} : Kept o (s.freeBlock b) := by
  unfold State.freeBlock
  exact .ite h.updStw h.updStw

theorem Kept.execPoolCommit {w pool value} : NextKept o (Machine.execPoolCommit w pool value s) := by
  unfold Machine.execPoolCommit
  extract_lets _ _ _ _ _ _ _ _ _ _ s0 put
  have hs0 : Kept o s0 := .ite h.wr h
  have hput : ∀ {t}, Kept o t → Kept o (put t) := fun hu => hu.wr.wr.wr.wr.wr.wr
  exact .intro (.ite h (.ite hs0.wr (.ite (((hput (Kept.ite hs0.zeroHpa hs0)).wr).updStw) ((hput hs0).wr))))

theorem Kept.execPoolZeroDone {pool} : NextKept o (Machine.execPoolZeroDone pool s) := by
  unfold Machine.execPoolZeroDone
  extract_lets t
  have ht : Kept o t := h.zeroHpa
  exact .intro (.ite (.ite ht.wr ht) h)

theorem Kept.execBlockZeroDone {hpa} : NextKept o (Machine.execBlockZeroDone hpa s) := by
  unfold Machine.execBlockZeroDone
  refine .intro ?_
  split
  · extract_lets t
    have ht : Kept o t := h.zeroHpa
    exact .ite ht.updStw ht
  · exact h

theorem Kept.execAlloc {q item} : NextKept o (Machine.execAlloc q item s) := by
  unfold Machine.execAlloc
  refine .intro ?_
  refine Kept.runItem h (fun hu3 => ?_)
  extract_lets
  refine .ite hu3.failItem ?_
  refine .ite hu3.failItem ?_
  split
  · rename_i x st u heq
    have hu : Kept o u := Kept.snd heq hu3.allocate
    exact hu.failItem
  · rename_i x a u heq
    have hu : Kept o u := Kept.snd heq hu3.allocate
    exact hu.doneItem

theorem Kept.execFree {q item} : NextKept o (Machine.execFree q item s) := by
  unfold Machine.execFree
  refine .intro ?_
  refine Kept.runItem h (fun hu3 => ?_)
  split
  · exact .ite hu3.failItem hu3.freeBlock.doneItem
  · exact hu3.failItem

theorem Kept.kvSet {k b n} : Kept o (s.kvSet k b n) := by
  unfold State.kvSet
  exact h.updStw.stwWrite

theorem Kept.execKvPoolCommit {w pool cfg0 cfg1} : NextKept o (Machine.execKvPoolCommit w pool cfg0 cfg1 s) := by
  unfold Machine.execKvPoolCommit
  extract_lets _ _ _ _ _ _ _ _ s0 bad s1
  have hs0 : Kept o s0 := .ite h.wr h
  have hbad : Kept o bad := hs0.wr
  have hs1 : Kept o s1 := hs0.wr.wr.wr
  exact .intro (.ite h (.ite hbad (.ite (.ite hs0.wr.wr hbad) (.ite hbad hs1.wr.wr.wr))))

theorem Kept.updSeq {slot f} : Kept o (s.updSeq slot f) := by
  unfold State.updSeq
  exact h.updStw

theorem Kept.writeTable {slot n} : Kept o (s.writeTable slot n) := by
  unfold State.writeTable
  extract_lets
  exact h.stwWrite

theorem Kept.writeTokens {slot} : Kept o (s.writeTokens slot) := by
  unfold State.writeTokens
  exact h.stwWrite

theorem Kept.growTable {slot n} : Kept o (State.growTable slot n s).2 := by
  induction n generalizing s with
  | zero =>
    rw [State.growTable]
    exact h
  | succ n ih =>
    rw [State.growTable]
    refine .iteSnd h ?_
    split
    · exact h
    · exact ih h.kvSet.updSeq

theorem Kept.shrinkTable {slot n} : Kept o (s.shrinkTable slot n) := by
  unfold State.shrinkTable
  extract_lets _ _ s1
  have hs1 : Kept o s1 := Kept.foldl (fun _ _ ht => ht.kvSet) h
  exact hs1.updSeq.writeTable

theorem Kept.execKvAlloc {q item} : NextKept o (Machine.execKvAlloc q item s) := by
  unfold Machine.execKvAlloc
  refine .intro ?_
  refine Kept.runItem h (fun hu3 => ?_)
  extract_lets
  refine .ite hu3.failItem ?_
  split
  · exact hu3.failItem
  · extract_lets
    exact .ite hu3.failItem (.ite hu3.failItem (.ite hu3.failItem hu3.growTable.writeTable.doneTable))

theorem Kept.execKvFree {q item} : NextKept o (Machine.execKvFree q item s) := by
  unfold Machine.execKvFree
  refine .intro ?_
  refine Kept.runItem h (fun hu3 => ?_)
  split
  · exact hu3.failItem
  · exact .ite hu3.failItem hu3.shrinkTable.doneTable

theorem Kept.vaPlaces {i l} : Kept o (s.vaPlaces i l).2 := by
  induction l generalizing s with
  | nil =>
    rw [State.vaPlaces]
    exact h
  | cons a l ih =>
    rw [State.vaPlaces]
    split
    · rename_i t heq
      exact Kept.snd heq h.stwWalk
    · rename_i t heq
      exact Kept.snd heq h.stwWalk
    · rename_i kind level t heq
      exact Kept.snd heq h.stwWalk
    · rename_i t heq
      have ht : Kept o t := Kept.snd heq h.stwWalk
      split
      split
      · rename_i u hrest
        exact Kept.snd hrest (ih ht)
      · rename_i u hrest
        exact Kept.snd hrest (ih ht)

theorem Kept.vaRead {i va n} : Kept o (s.vaRead i va n).2 := by
  unfold State.vaRead
  split
  · rename_i x st u heq
    have hu : Kept o u := Kept.snd heq h.vaPlaces
    exact hu
  · rename_i x ps u heq
    have hu : Kept o u := Kept.snd heq h.vaPlaces
    extract_lets
    exact Kept.iteSnd hu (Kept.inSnd (Kept.foldl (fun _ _ ht => ht.dmaRead) hu))

theorem Kept.openSeq {i d prompt} : Kept o (s.openSeq i d prompt) := by
  unfold State.openSeq
  extract_lets _ _ _ _ _ _ _ _ _ s1 s2
  have hs1 : Kept o s1 := h.fresh.updSeq.updStw
  have hs2 : Kept o s2 := Kept.foldl (fun _ _ ht => ht.kvSet) hs1
  exact .ite h.failItem hs2.writeTokens.writeTable.doneTable

theorem Kept.seqOpenItem {i} : Kept o (s.seqOpenItem i) := by
  unfold State.seqOpenItem
  refine .ite h.failItem ?_
  split
  · rename_i x st v heq
    have hv : Kept o v := Kept.snd heq h.vaRead
    exact hv.failItem
  · rename_i x v heq
    have hv : Kept o v := Kept.snd heq h.vaRead
    exact hv
  · rename_i x p v heq
    have hv : Kept o v := Kept.snd heq h.vaRead
    extract_lets
    refine .ite hv.failItem ?_
    refine .ite hv.failItem ?_
    refine .ite hv.openSeq ?_
    split
    · rename_i x st v heq
      have hv : Kept o v := Kept.snd heq hv.vaRead
      exact hv.failItem
    · rename_i x v heq
      have hv : Kept o v := Kept.snd heq hv.vaRead
      exact hv
    · rename_i x p v heq
      have hv : Kept o v := Kept.snd heq hv.vaRead
      exact hv.openSeq

theorem Kept.execSeqOpen {q item} : NextKept o (Machine.execSeqOpen q item s) := by
  unfold Machine.execSeqOpen
  exact .intro (h.runLong (fun hu => hu.seqOpenItem))

theorem Kept.feed {i toks} : Kept o (s.feed i toks) := by
  unfold State.feed
  split
  · exact h.failItem
  · extract_lets
    exact .ite h.failItem (.ite h.failItem h.updSeq.writeTokens.doneTable)

theorem Kept.feedToks {i} : Kept o (s.feedToks i).2 := by
  unfold State.feedToks
  exact Kept.iteSnd h h.vaRead

theorem Kept.execSeqFeed {q item} : NextKept o (Machine.execSeqFeed q item s) := by
  unfold Machine.execSeqFeed
  refine .intro ?_
  refine Kept.runLong h (fun hu3 => ?_)
  split
  · exact hu3.failItem
  · refine .ite hu3.failItem ?_
    split
    · rename_i x st v heq
      have hv : Kept o v := Kept.snd heq hu3.feedToks
      exact hv.failItem
    · rename_i x v heq
      have hv : Kept o v := Kept.snd heq hu3.feedToks
      exact hv
    · rename_i x p v heq
      have hv : Kept o v := Kept.snd heq hu3.feedToks
      exact .ite hv.updOrder hv.feed

theorem Kept.closeSeq {slot} : Kept o (s.closeSeq slot) := by
  unfold State.closeSeq
  exact h.shrinkTable.updSeq

theorem Kept.execSeqClose {q item} : NextKept o (Machine.execSeqClose q item s) := by
  unfold Machine.execSeqClose
  refine .intro ?_
  refine Kept.runItem h (fun hu3 => ?_)
  split
  · exact hu3.failItem
  · extract_lets
    exact .ite hu3.failItem (.ite hu3.closeSeq.doneTable hu3.updOrder)

theorem Kept.writeLeaf {a e} : Kept o (s.writeLeaf a e) := by
  unfold State.writeLeaf
  exact h.stwWrite

theorem Kept.execAdvise {q item} : NextKept o (Machine.execAdvise q item s) := by
  unfold Machine.execAdvise
  refine .intro (h.runItem fun hu => ?_)
  extract_lets base r
  have hr : Kept o r.2.2 := by
    refine Kept.foldlThird (fun x k hx => ?_) hu
    split
    · rename_i u heq
      exact Kept.snd heq hx.stwWalk
    · rename_i u heq
      exact Kept.snd heq hx.stwWalk
    · rename_i u heq
      exact Kept.snd heq hx.stwWalk
    · rename_i u heq
      exact .inThird (Kept.snd heq hx.stwWalk).writeLeaf
  exact .ite hr.failItem (.ite hr hr.doneTable)

theorem Kept.nextPage {i skipped} : Kept o (s.nextPage i skipped) := by
  unfold State.nextPage
  exact h.updOrder

theorem Kept.execPrefetch {q item} : NextKept o (Machine.execPrefetch q item s) := by
  unfold Machine.execPrefetch
  refine .intro ?_
  refine Kept.runLong h (fun hu3 => ?_)
  extract_lets
  refine .ite hu3.doneTable ?_
  split
  · rename_i x u heq
    have hu : Kept o u := Kept.snd heq hu3.stwWalk
    exact hu
  · rename_i x u heq
    have hu : Kept o u := Kept.snd heq hu3.stwWalk
    exact hu.failItem
  · rename_i x kind level u heq
    have hu : Kept o u := Kept.snd heq hu3.stwWalk
    exact hu.failItem
  · rename_i x addr l e u heq
    have hu : Kept o u := Kept.snd heq hu3.stwWalk
    split
    · split
      · extract_lets _ busy
        have hbusy : ∀ {v n}, Kept o v → Kept o (busy v n) := by
          intro v n hu
          unfold busy
          extract_lets v1 v2
          have hv1 : Kept o v1 := hu.writeLeaf.dropScope
          have hv2 : Kept o v2 := hv1.updOrder
          exact hv2.dmaRead
        clear_value busy
        refine .ite hu.nextPage ?_
        refine .ite hu.nextPage ?_
        refine .ite (hbusy hu) ?_
        refine .ite hu.failItem ?_
        split
        · rename_i x st u heq
          have hu : Kept o u := Kept.snd heq hu.fresh.allocate
          exact hu.failItem
        · rename_i x a u heq
          have hu : Kept o u := Kept.snd heq hu.fresh.allocate
          exact hbusy hu
      · exact .ite hu hu.dmaWrite.updOrder
      · extract_lets _ u1 u2
        have hu1 : Kept o u1 := hu.writeLeaf.dropScope.busyAgain
        have hu2 : Kept o u2 := by
          unfold u2
          split
          · exact hu1.freeBlock
          · exact hu1
        exact hu2.nextPage

theorem Kept.evacWrite {i dst d} : Kept o (s.evacWrite i dst d) := by
  unfold State.evacWrite
  exact h.dmaWrite

theorem Kept.evacModel {i dst e k n} : Kept o (s.evacModel i dst e k n).1 := by
  unfold State.evacModel
  refine Kept.foldlFst (fun x j hx => ?_) h
  extract_lets ls t
  have ht : Kept o t := Kept.foldl (fun _ _ hu => hu.poisonPage) hx
  exact .iteFst ht (.inFst ht.evacWrite)

theorem Kept.evacStart {i} : Kept o (s.evacStart i) := by
  unfold State.evacStart
  extract_lets _ _ _ fails _ u
  have hfails : ∀ {st}, Kept o (fails st) := h.wr.failItem
  have hu : Kept o u := h.wr.inc
  clear_value fails u
  refine .ite hfails ?_
  refine .ite hfails ?_
  refine .ite ?_ ((Kept.foldl (fun _ _ ht1 => ht1.dmaRead) hu).updOrder)
  split
  · exact hfails
  · split
    · rename_i x u skipped heq
      have hu : Kept o u := Kept.fst heq h.wr.evacModel
      exact hu.updOrder

theorem Kept.evacCopy {i} : Kept o (s.evacCopy i) := by
  unfold State.evacCopy
  extract_lets
  refine Kept.updOrder ?_
  refine Kept.foldl (fun u a hu2 => ?_) h
  extract_lets
  exact hu2.dmaWrite

theorem Kept.execEvacuate {q item} : NextKept o (Machine.execEvacuate q item s) := by
  unfold Machine.execEvacuate
  refine .intro ?_
  refine Kept.runItem h (fun hu3 => ?_)
  extract_lets u
  have hu : Kept o u := hu3.wr
  clear_value u
  refine .ite ?_ ?_
  · split
    · exact hu3.evacStart
    · exact hu3.evacCopy
    · exact hu3.startFence.settleFence.updOrder
    · exact .ite hu3 hu3.wr.doneItem
  · refine .ite hu3 ?_
    split
    · exact hu.failItem
    · exact hu.fixFate
    · exact hu

/-! ### Machine/Gen.lean: generation -/

theorem Kept.updGen {f} : Kept o (s.updGen f) := by
  unfold State.updGen
  exact h.updStw

theorem Kept.pushRec {r} : Kept o (s.pushRec r) := by
  unfold State.pushRec
  exact h.updGen

theorem Kept.endSeq {slot reason status} : Kept o (s.endSeq slot reason status) := by
  unfold State.endSeq
  extract_lets
  exact h.pushRec.shrinkTable.updSeq

theorem Kept.execGenStart {q item} : NextKept o (Machine.execGenStart q item s) := by
  unfold Machine.execGenStart
  extract_lets
  refine .intro ?_
  refine Kept.runLong h (fun hu3 => ?_)
  refine .ite hu3.failItem ?_
  split
  · rename_i x v heq
    have hv : Kept o v := Kept.snd heq hu3.need
    exact hv
  · rename_i x plan v heq
    have hv : Kept o v := Kept.snd heq hu3.need
    extract_lets
    refine .ite hv.failItem ?_
    split
    · rename_i x v heq
      have hv : Kept o v := Kept.snd heq hv.need
      exact hv
    · rename_i x plan v heq
      have hv : Kept o v := Kept.snd heq hv.need
      extract_lets
      exact .ite hv.failItem (.ite hv.failItem hv.updGen.wr.wr.doneItem)

theorem Kept.execGenStop {q item} : NextKept o (Machine.execGenStop q item s) := by
  unfold Machine.execGenStop
  refine .intro ?_
  refine Kept.runItem h (fun hu3 => ?_)
  extract_lets _ _ wait
  have hwait : ∀ {u}, Kept o u → Kept o (wait u) := fun hu => hu.updOrder
  exact .ite hu3.doneItem (.ite (hwait hu3.wr) (hwait hu3.updGen))

theorem Kept.stopsDone : Kept o s.stopsDone := by
  unfold State.stopsDone
  exact Kept.foldl (fun _ _ ht => ht.doneItem) h

theorem Kept.boundaryItems : Kept o s.boundaryItems := by
  unfold State.boundaryItems
  refine Kept.foldl (fun u a hu1 => ?_) h
  refine .ite ?_ ?_
  · split
    · rename_i x d u heq
      have hu : Kept o u := Kept.snd heq hu1.feedToks
      exact hu.feed
    · rename_i x fst u x1 heq
      have hu : Kept o u := Kept.snd heq hu1.feedToks
      exact hu
  · split
    · exact hu1.failItem
    · extract_lets _ t1
      have ht1 : Kept o t1 := .ite hu1 hu1.endSeq
      exact ht1.closeSeq.doneTable

theorem Kept.kvRoom {slot pos n} : Kept o (s.kvRoom slot pos n).2 := by
  unfold State.kvRoom
  extract_lets _ _ _ t
  have ht : Kept o t := h.growTable.writeTable
  exact ht

theorem Kept.readyChildren {slot} : Kept o (s.readyChildren slot) := by
  unfold State.readyChildren
  extract_lets
  refine Kept.foldl (fun u a hu1 => ?_) h
  extract_lets _ _ u
  have hu : Kept o u := Kept.foldl (fun _ _ ht2 => ht2.kvSet) hu1
  exact hu.updSeq.writeTable

theorem Kept.allocEnts {l} : Kept o (s.allocEnts l).2 := by
  induction l generalizing s with
  | nil =>
    rw [State.allocEnts]
    exact h
  | cons e l ih =>
    rw [State.allocEnts]
    split
    rename_i n t heq
    have ht : Kept o t := Kept.snd heq h.kvRoom
    exact .iteSnd (ih (.ite ht ht.endSeq)) (ih ht.updSeq)

theorem Kept.writeBatch {es} : Kept o (s.writeBatch es) := by
  unfold State.writeBatch
  extract_lets
  exact h.stwWrite

theorem Kept.startPlan : Kept o s.startPlan := by
  unfold State.startPlan
  extract_lets _ s1
  have hs1 : Kept o s1 := by
    unfold s1
    refine Kept.foldl (fun u a hu2 => ?_) h
    extract_lets
    exact hu2.updStw
  exact hs1.updStw.updGen.stwTurn

theorem Kept.endSeqs {f reason status} : Kept o (s.endSeqs f reason status) := by
  unfold State.endSeqs
  exact Kept.foldl (fun _ _ ht => ht.endSeq) h

theorem Kept.genGo : Kept o s.genGo := by
  unfold State.genGo
  extract_lets
  exact .ite h ((Kept.ite h h.wr).startPlan)

theorem Kept.genTables : Kept o s.genTables := by
  unfold State.genTables
  exact .ite h h.writeBatch.updGen.genGo

theorem Kept.genStep : Kept o s.genStep := by
  unfold State.genStep
  extract_lets s1 s2 s3
  have hs1 : Kept o s1 := h.boundaryItems
  have hs2 : Kept o s2 := hs1.endSeqs
  have hs3 : Kept o s3 := .ite hs2.endSeqs hs2
  clear_value s1 s2 s3
  refine .ite hs1.updGen.wr.stopsDone ?_
  refine .ite hs3.wr.stopsDone ?_
  split
  · rename_i x es u heq
    have hu : Kept o u := Kept.snd heq hs3.allocEnts
    exact .ite hu hu.updGen.genTables

theorem Kept.execGenStepBoundary : NextKept o (Machine.execGenStepBoundary s) := by
  unfold Machine.execGenStepBoundary
  refine .intro ?_
  refine .ite h ?_
  split
  · exact h.genStep
  · exact h.genGo
  · exact h.genTables
  · exact h

theorem Kept.emit {slot tok} : Kept o (s.emit slot tok) := by
  unfold State.emit
  extract_lets _ _ _ s1
  have hs1 : Kept o s1 := h.pushRec
  exact .ite hs1.updSeq hs1.shrinkTable.updSeq

theorem Kept.settleEntry {b e} : Kept o (s.settleEntry b e) := by
  unfold State.settleEntry
  extract_lets _ _ _ _ s1
  have hs1 : Kept o s1 := h.updSeq.writeTokens.readyChildren
  clear_value s1
  refine .ite hs1 ?_
  refine .ite (.ite hs1.pushRec hs1) ?_
  refine .ite hs1.endSeq ?_
  split
  · exact hs1.emit
  · exact hs1.endSeq

theorem Kept.execGenSample : NextKept o (Machine.execGenSample s) := by
  unfold Machine.execGenSample
  extract_lets s1
  have hs1 : Kept o s1 := Kept.foldl (fun _ _ ht => ht.settleEntry) h
  exact .intro (.ite h hs1.updGen.wr)

theorem Kept.execGenStepRetry : NextKept o (Machine.execGenStepRetry s) := by
  unfold Machine.execGenStepRetry
  refine .intro ?_
  split
  · extract_lets _ _ s1
    have hs1 : Kept o s1 := h.endSeqs
    exact .ite (.ite h.startPlan h.updGen) (.ite h.updGen.startPlan hs1.updGen.wr.wr)
  · exact h

theorem Kept.execGenRecordsWrite : NextKept o (Machine.execGenRecordsWrite s) := by
  unfold Machine.execGenRecordsWrite
  extract_lets _ _ _ _ s1
  have hs1 : Kept o s1 := by
    unfold s1
    refine Kept.foldl (fun u a hu2 => ?_) h
    extract_lets _ _ _ t1
    have ht1 : Kept o t1 := .ite hu2.hostSend hu2.stwWrite
    exact ht1.updGen
  exact .intro (.ite h hs1.updGen.msixAfter)

theorem Kept.execGenOutHead {w head} : NextKept o (Machine.execGenOutHead w head s) := by
  unfold Machine.execGenOutHead
  extract_lets
  exact .intro (.ite h (.ite h.wr h.wr))

end

end Sys2Proof.Machine
end

section
/-!
PROOFS. What the operations of the hub keep: the chiplet sites.
-/

namespace Sys2Proof.Machine

open Sys2Proof.Safety

section
variable {o s : State} (h : Kept o s)
include h

/-! ### Machine/Sites.lean: modules of the sites -/

theorem Kept.siteLog {n u kind sev code} : Kept o (s.siteLog n u kind sev code) := by
  unfold State.siteLog
  exact .ite h.inc h.wr.wr.wr.wr.wr.wr

theorem Kept.siteFault {n u kind sev code} : Kept o (s.siteFault n u kind sev code) := by
  unfold State.siteFault
  exact h.siteLog.isolate

theorem Kept.creditBack {n u m} : Kept o (s.creditBack n u m) := by
  unfold State.creditBack
  extract_lets
  exact .ite h h.siteEmit

theorem Kept.stlReply {n u typ tag status data poison keep near} : Kept o (s.stlReply n u typ tag status data poison keep near) := by
  unfold State.stlReply
  extract_lets
  exact .ite h.siteSend (.ite h.siteSend (.ite h.siteSend h.siteSend))

theorem Kept.stlIssue {n u m ga} : Kept o (s.stlIssue n u m ga) := by
  unfold State.stlIssue
  extract_lets _ _ _ s0 put _ parts
  have hs0 : Kept o s0 := .ite h h.chargePort
  have hput : ∀ {t p}, Kept o t → Kept o (put t p) := fun hu => hu.issue
  have hparts : ∀ {t opc}, Kept o t → Kept o (parts t opc) := by
    intro t opc hu
    unfold parts
    extract_lets t1
    have ht1 : Kept o t1 := hput hu
    exact .ite ht1 (hput ht1)
  clear_value s0 put parts
  split
  · exact .ite (hput hs0) (hput hs0)
  · exact .ite (hput hs0) (hparts hs0)
  · exact .ite (hput hs0) (hparts hs0)
  · exact hput hs0
  · exact hput hs0
  · exact hput hs0
  · refine .ite (hput hs0) ?_
    split
    · exact hs0.stlReply
    · exact hs0.stlReply
  · exact .ite (hput hs0) (.ite (hput hs0) (hparts hs0))
  · exact .ite hs0.issue hs0
  · exact hput hs0

theorem Kept.stlAsk {n u m} : Kept o (s.stlAsk n u m) := by
  unfold State.stlAsk
  extract_lets _ _ _ s1
  have hs1 : Kept o s1 := h.updSlot
  exact hs1.issue

theorem Kept.siteFence {n u ch tag typ remote} : Kept o (s.siteFence n u ch tag typ remote) := by
  unfold State.siteFence
  exact h.updSlot.startFence

theorem Kept.stlTurn {n u m} : Kept o (s.stlTurn n u m) := by
  unfold State.stlTurn
  extract_lets _ t
  have ht : Kept o t := .ite h.siteFence h
  clear_value t
  split
  · exact h.siteFence
  · exact h.siteFence
  · exact h.siteFence
  · exact ht.issue
  · exact h.updSite.send
  · exact h.stlIssue

theorem Kept.stlBar {n u m ga} : Kept o (s.stlBar n u m ga) := by
  unfold State.stlBar
  exact h.updSlot

theorem Kept.stlPump {n u ch j} : Kept o (State.stlPump n u ch j s) := by
  induction j generalizing s with
  | zero =>
    rw [State.stlPump]
    exact h
  | succ j ih =>
    rw [State.stlPump]
    split
    · exact h
    · extract_lets s1
      have hs1 : Kept o s1 := h.updSlot
      exact .ite h (.ite h.stlAsk (.ite h.stlBar (ih hs1.stlTurn.creditBack)))

theorem Kept.pumpSlot {n u ch} : Kept o (s.pumpSlot n u ch) := by
  unfold State.pumpSlot
  exact h.stlPump

theorem Kept.stlLeave {n u m} : Kept o (s.stlLeave n u m) := by
  unfold State.stlLeave
  exact h.updSlot.creditBack.pumpSlot

theorem Kept.stlXlt {n u ch status data} : Kept o (s.stlXlt n u ch status data) := by
  unfold State.stlXlt
  split
  · exact h
  · extract_lets
    refine .ite h.updSlot ?_
    refine .ite h.stlReply.stlLeave ?_
    split
    · exact h.stlReply.stlLeave
    · split
      · extract_lets
        exact .ite h.stlReply.stlLeave (.ite h.stlReply.stlLeave (.ite h.updSlot (.ite h.stlBar h.stlIssue.stlLeave)))

theorem Kept.inPump {n u j} : Kept o (State.inPump n u j s) := by
  induction j generalizing s with
  | zero =>
    rw [State.inPump]
    exact h
  | succ j ih =>
    rw [State.inPump]
    split
    · extract_lets s1
      have hs1 : Kept o s1 := h.updSlot.stlIssue
      clear_value s1
      refine ih ?_
      split
      · exact hs1.stlLeave
      · exact hs1
    · exact h

theorem Kept.pumpIn {n u} : Kept o (s.pumpIn n u) := by
  unfold State.pumpIn
  exact h.inPump

theorem Kept.stlResume {a ch failWith} : Kept o (s.stlResume a ch failWith) := by
  unfold State.stlResume
  extract_lets
  split
  · exact h.updSlot.pumpSlot
  · exact Kept.foldl (fun _ _ ht => ht.stlReply.creditBack) h.updSlot

theorem Kept.stlRequest {n u m} : Kept o (s.stlRequest n u m) := by
  unfold State.stlRequest
  extract_lets _ _ _ _ refuse
  have hrefuse : ∀ {kind st}, Kept o (refuse kind st) := h.siteLog.stlReply.creditBack
  exact .ite h.creditBack (.ite hrefuse (.ite (.ite h.siteLog.creditBack hrefuse) (.ite hrefuse h.updSlot.pumpSlot)))

theorem Kept.stlArrive {n u m f} (hf : ∀ {u}, Kept o u → Kept o (f u)) : Kept o (s.stlArrive n u m f) := by
  unfold State.stlArrive
  extract_lets _ s1
  have hs1 : Kept o s1 := h.updSite.inc
  exact .ite hs1.siteFault (.ite hs1.siteFault (hf hs1))

theorem Kept.stlIn {n u typ m f} (hf : ∀ {u a1}, Kept o u → Kept o (f u a1)) : Kept o (s.stlIn n u typ m f) := by
  unfold State.stlIn
  exact .ite h (h.stlArrive (fun hu => hf hu))

theorem Kept.execStlRd {n u m} : NextKept o (Machine.execStlRd n u m s) := by
  unfold Machine.execStlRd
  exact .intro (h.stlIn (fun hu => hu.stlRequest))

theorem Kept.execStlWr {n u m} : NextKept o (Machine.execStlWr n u m s) := by
  unfold Machine.execStlWr
  exact .intro (h.stlIn (fun hu => hu.stlRequest))

theorem Kept.execStlWrn {n u m} : NextKept o (Machine.execStlWrn n u m s) := by
  unfold Machine.execStlWrn
  exact .intro (h.stlIn (fun hu => hu.stlRequest))

theorem Kept.execStlAtom {n u m} : NextKept o (Machine.execStlAtom n u m s) := by
  unfold Machine.execStlAtom
  exact .intro (h.stlIn (fun hu => hu.stlRequest))

theorem Kept.execStlRdShared {n u m} : NextKept o (Machine.execStlRdShared n u m s) := by
  unfold Machine.execStlRdShared
  exact .intro (h.stlIn (fun hu => hu.stlRequest))

theorem Kept.execStlRdUnique {n u m} : NextKept o (Machine.execStlRdUnique n u m s) := by
  unfold Machine.execStlRdUnique
  exact .intro (h.stlIn (fun hu => hu.stlRequest))

theorem Kept.execStlClaim {n u m} : NextKept o (Machine.execStlClaim n u m s) := by
  unfold Machine.execStlClaim
  exact .intro (h.stlIn (fun hu => hu.stlRequest))

theorem Kept.execStlWbDirty {n u m} : NextKept o (Machine.execStlWbDirty n u m s) := by
  unfold Machine.execStlWbDirty
  exact .intro (h.stlIn (fun hu => hu.stlRequest))

theorem Kept.execStlEvictClean {n u m} : NextKept o (Machine.execStlEvictClean n u m s) := by
  unfold Machine.execStlEvictClean
  exact .intro (h.stlIn (fun hu => hu.stlRequest))

theorem Kept.execStlAtomP {n u m} : NextKept o (Machine.execStlAtomP n u m s) := by
  unfold Machine.execStlAtomP
  exact .intro (h.stlIn (fun hu => hu.stlRequest))

theorem Kept.execStlFence {n u m} : NextKept o (Machine.execStlFence n u m s) := by
  unfold Machine.execStlFence
  exact .intro (h.stlIn (fun hu => hu.stlRequest))

theorem Kept.execStlFenceRemote {n u m} : NextKept o (Machine.execStlFenceRemote n u m s) := by
  unfold Machine.execStlFenceRemote
  exact .intro (h.stlIn (fun hu => hu.stlRequest))

theorem Kept.execXltReq {n u m} : NextKept o (Machine.execXltReq n u m s) := by
  unfold Machine.execXltReq
  exact .intro (h.stlIn (fun hu => hu.stlRequest))

theorem Kept.execStlEvt {n u m} : NextKept o (Machine.execStlEvt n u m s) := by
  unfold Machine.execStlEvt
  exact .intro (h.stlIn (fun hu => hu.stlRequest))

theorem Kept.execStlIrq {n u m} : NextKept o (Machine.execStlIrq n u m s) := by
  unfold Machine.execStlIrq
  exact .intro (h.stlIn (fun hu => hu.stlRequest))

theorem Kept.execWqDone {n u m} : NextKept o (Machine.execWqDone n u m s) := by
  unfold Machine.execWqDone
  exact .intro (h.stlIn (fun hu => hu.stlRequest))

theorem Kept.stlErr {n u m} : Kept o (s.stlErr n u m) := by
  unfold State.stlErr
  extract_lets _ _ s1
  have hs1 : Kept o s1 := h.siteLog.creditBack
  exact .ite h.siteFault (.ite hs1.raise hs1)

theorem Kept.execStlErr {n u m} : NextKept o (Machine.execStlErr n u m s) := by
  unfold Machine.execStlErr
  exact .intro (h.stlIn (fun hu => hu.stlErr))

theorem Kept.stlSnp {n u m} : Kept o (s.stlSnp n u m) := by
  unfold State.stlSnp
  split
  · exact h.siteFault
  · exact h.updSlot.creditBack.send

theorem Kept.execStlSnpRsp {n u m} : NextKept o (Machine.execStlSnpRsp n u m s) := by
  unfold Machine.execStlSnpRsp
  exact .intro (h.stlIn (fun hu => hu.stlSnp))

theorem Kept.execStlSnpRspData {n u m} : NextKept o (Machine.execStlSnpRspData n u m s) := by
  unfold Machine.execStlSnpRspData
  exact .intro (h.stlIn (fun hu => hu.stlSnp))

theorem Kept.execStlCmpAck {n u m} : NextKept o (Machine.execStlCmpAck n u m s) := by
  unfold Machine.execStlCmpAck
  refine .intro ?_
  refine Kept.stlIn h (fun hu3 => ?_)
  split
  · exact hu3.creditBack.inc
  · exact hu3.updSlot.creditBack.send

theorem Kept.winPosted {n u w status} : Kept o (s.winPosted n u w status) := by
  unfold State.winPosted
  extract_lets _ _ _ s1
  have hs1 : Kept o s1 := h.updSlot
  exact .ite hs1 (.ite hs1.postedEnded.answer (.ite hs1.updSlot.postedDone.postedEnded hs1))

theorem Kept.winRsp {n u m} : Kept o (s.winRsp n u m) := by
  unfold State.winRsp
  extract_lets _ _ s0 _ s1
  have hs0 : Kept o s0 := h.creditBack
  have hs1 : Kept o s1 := hs0.updSlot
  clear_value s0 s1
  split
  · exact h.siteFault
  · extract_lets drop _ _ s2
    have hdrop : ∀ {t}, Kept o t → Kept o (drop t) := fun hu => hu.updSlot
    have hs2 : Kept o s2 := hdrop hs1
    exact .ite hs0.winPosted (.ite hs1 (.ite ((Kept.ite hs2.updSite hs2).answer) ((Kept.ite hs2.probeCovers hs2).answer)))

theorem Kept.winIn {n u typ m} : Kept o (s.winIn n u typ m) := by
  unfold State.winIn
  exact .ite h (h.stlArrive (fun hu => hu.winRsp))

theorem Kept.execWRsp {n u m} : NextKept o (Machine.execWRsp n u m s) := by
  unfold Machine.execWRsp
  exact .intro h.winIn

theorem Kept.execWRspData {n u m} : NextKept o (Machine.execWRspData n u m s) := by
  unfold Machine.execWRspData
  exact .intro h.winIn

theorem Kept.stlInvDone {n u m} : Kept o (s.stlInvDone n u m) := by
  unfold State.stlInvDone
  split
  · exact .ite h.siteFault (Kept.foldl (fun _ _ ht => Kept.foldl (fun _ _ ht1 => ht1.siteFence) ht.updSlot) h.creditBack)
  · exact h.siteFault

theorem Kept.execXltInvDone {n u m} : NextKept o (Machine.execXltInvDone n u m s) := by
  unfold Machine.execXltInvDone
  exact .intro (h.stlIn (fun hu => hu.stlInvDone))

theorem Kept.siteAnswer {r p} : Kept o (s.siteAnswer r p) := by
  unfold State.siteAnswer
  extract_lets _ _ _ _ _ _ _ _ s1 s2
  have hs1 : Kept o s1 := .ite h.siteFence h
  have hs2 : Kept o s2 := .ite hs1.updSlot hs1
  exact .ite h.stlXlt (.ite h (.ite (.ite (.ite h h.updSlot) h.updSlot.stlReply) (.ite h.stlReply (.ite hs2.stlReply h.stlReply))))

theorem Kept.siteGrant {r p} : Kept o (s.siteGrant r p) := by
  unfold State.siteGrant
  extract_lets _ _ _ s1
  have hs1 : Kept o s1 := .ite h h.updSlot
  exact hs1.stlReply

theorem Kept.siteWfail {p} : Kept o (s.siteWfail p) := by
  unfold State.siteWfail
  exact h.stlReply

theorem Kept.siteIrq {n u k} : Kept o (s.siteIrq n u k) := by
  unfold State.siteIrq
  exact .ite h.wr h.send

theorem Kept.siteFenced {a ch} : Kept o (s.siteFenced a ch) := by
  unfold State.siteFenced
  extract_lets
  split
  · extract_lets s1
    have hs1 : Kept o s1 := h.updSlot
    clear_value s1
    split
    · exact hs1
    · exact .ite hs1 hs1.updSlot
    · exact hs1.siteIrq
    · exact hs1.stlReply
  · exact h

theorem Kept.siteDispatch {d p} : Kept o (s.siteDispatch d p) := by
  unfold State.siteDispatch
  extract_lets
  exact .ite h (.ite h.answer h.windowAccess)

theorem Kept.execSiteDispatch {p} : NextKept o (Machine.execSiteDispatch p s) := by
  unfold Machine.execSiteDispatch
  refine .intro ?_
  refine Kept.deliverUnit h (fun hu3 => ?_)
  split
  · exact hu3.siteDispatch
  · exact hu3

theorem Kept.siteStop {d item} : Kept o (s.siteStop d item) := by
  unfold State.siteStop
  extract_lets
  split
  · exact h
  · exact h.updSite.siteSend

theorem Kept.execSiteIrqUnmask {w n mask} : NextKept o (Machine.execSiteIrqUnmask w n mask s) := by
  unfold Machine.execSiteIrqUnmask
  extract_lets
  exact .intro (.ite h (Kept.foldl (fun _ _ ht => Kept.ite ht.wr.send ht) h.wr))

theorem Kept.execCredTimeout {n u} : NextKept o (Machine.execCredTimeout n u s) := by
  unfold Machine.execCredTimeout
  exact .intro (.ite h.siteFault h)

theorem Kept.execInvTimeout {n} : NextKept o (Machine.execInvTimeout n s) := by
  unfold Machine.execInvTimeout
  refine .intro ?_
  split
  · exact h.siteFault
  · exact h

theorem Kept.execStopTimeout {n item} : NextKept o (Machine.execStopTimeout n item s) := by
  unfold Machine.execStopTimeout
  refine .intro ?_
  split
  · exact h.siteFault
  · exact h

theorem Kept.execModuleRetrain {n u ok} : NextKept o (Machine.execModuleRetrain n u ok s) := by
  unfold Machine.execModuleRetrain
  extract_lets s1
  have hs1 : Kept o s1 := h.inc
  exact .intro (.ite hs1 hs1.siteFault)

theorem Kept.execSidebandFatal {n} : NextKept o (Machine.execSidebandFatal n s) := by
  unfold Machine.execSidebandFatal
  exact .intro h.siteFault

theorem Kept.execSidebandIdle {n} : NextKept o (Machine.execSidebandIdle n s) := by
  unfold Machine.execSidebandIdle
  exact .intro (.ite h ((Kept.foldl (fun _ _ ht => ht.updIface) h).drainWalk))

theorem Kept.siteCxlFlush {n u ch} : Kept o (s.siteCxlFlush n u ch) := by
  unfold State.siteCxlFlush
  refine Kept.foldl (fun u a hu1 => ?_) h
  extract_lets
  exact .ite hu1.siteFence hu1

theorem Kept.cxlPump {n j} : Kept o (State.cxlPump n j s) := by
  induction j generalizing s with
  | zero =>
    rw [State.cxlPump]
    exact h
  | succ j ih =>
    rw [State.cxlPump]
    split
    · exact ih h.updSite.stlRequest
    · exact Kept.foldl (fun _ _ ht => Kept.ite ht.siteCxlFlush ht) h

theorem Kept.cxlGo {n} : Kept o (s.cxlGo n) := by
  unfold State.cxlGo
  exact .ite h h.cxlPump

theorem Kept.cxlIn {n m} : Kept o (s.cxlIn n m) := by
  unfold State.cxlIn
  extract_lets
  exact h.stlArrive (fun hu => Kept.ite hu.stlErr (.ite hu.stlInvDone hu.updSite.cxlGo))

theorem Kept.execSiteCxlRequest {n r} : NextKept o (Machine.execSiteCxlRequest n r s) := by
  unfold Machine.execSiteCxlRequest
  extract_lets
  exact .intro (.ite h (Kept.foldl (fun _ _ ht => ht.cxlIn) h))

/-! ### Machine/SiteBoot.lean: bring-up of a site -/

theorem Kept.siteFail {n} : Kept o (s.siteFail n) := by
  unfold State.siteFail
  extract_lets _ s1 s2
  have hs1 : Kept o s1 := h.updSite.wr.setDom (by decide)
  have hs2 : Kept o s2 := ((Kept.ite hs1.inc hs1).raise).sitesBooted
  exact .ite hs2.stileEnd hs2

theorem Kept.siteTrain {n t} : Kept o (s.siteTrain n t) := by
  unfold State.siteTrain
  extract_lets
  split
  · exact h.siteFail
  · extract_lets s1 s2 s3
    have hs1 : Kept o s1 := h.wr.wr.wr.wr.wr
    have hs2 : Kept o s2 := Kept.foldl (fun _ _ ht => ht.wr.wr.wr) hs1
    have hs3 : Kept o s3 := hs2.updSite.wr
    exact .ite h.siteFail (.ite (Kept.foldl (fun _ _ ht1 => ht1.updSlot) hs3) (Kept.foldl (fun _ _ ht2 => ht2.siteEmit) hs3))

theorem Kept.execSiteBringup {n t} : NextKept o (Machine.execSiteBringup n t s) := by
  unfold Machine.execSiteBringup
  extract_lets
  exact .intro (.ite h (.ite ((Kept.foldl (fun _ _ ht => ht.wr) h.updSite).siteTrain) (.ite h.siteTrain h)))

theorem Kept.siteTested {n} : Kept o (s.siteTested n) := by
  unfold State.siteTested
  exact .ite h.updSite h.updSite

theorem Kept.siteChecks {n} : Kept o (s.siteChecks n) := by
  unfold State.siteChecks
  extract_lets
  exact .ite (Kept.foldl (fun _ _ ht => Kept.foldl (fun _ _ ht1 => ht1.siteSend) ht.updSlot) h.updSite) h

theorem Kept.execSidebandSelftest {n result} : NextKept o (Machine.execSidebandSelftest n result s) := by
  unfold Machine.execSidebandSelftest
  extract_lets
  exact .intro (.ite h.wr (.ite h.wr.siteFail h.wr.updSite.siteChecks))

theorem Kept.echoFail {n u} : Kept o (s.echoFail n u) := by
  unfold State.echoFail
  extract_lets
  exact .ite h.wr.siteFail h.wr.updSite.wr

theorem Kept.execEcho {n u m} : NextKept o (Machine.execEcho n u m s) := by
  unfold Machine.execEcho
  extract_lets _ s1
  have hs1 : Kept o s1 := h.updSlot.creditBack
  exact .intro (.ite (.ite h.siteFault.siteFail (.ite h.echoFail (.ite hs1.siteTested hs1))) (h.stlIn (fun hu => hu.siteFault)))

theorem Kept.execEchoTimeout {n u} : NextKept o (Machine.execEchoTimeout n u s) := by
  unfold Machine.execEchoTimeout
  exact .intro (.ite h.echoFail h)

theorem Kept.execSiteTrainTimeout {n} : NextKept o (Machine.execSiteTrainTimeout n s) := by
  unfold Machine.execSiteTrainTimeout
  exact .intro (.ite h.siteFail h)

theorem Kept.execCredit {n u m} : NextKept o (Machine.execCredit n u m s) := by
  unfold Machine.execCredit
  extract_lets _ _ _ s1
  have hs1 : Kept o s1 := (Kept.ite h h.reqReturned).updSlot
  exact .intro (.ite h (.ite h.siteFault (.ite h.siteFail hs1.siteDrain.siteChecks)))

theorem Kept.revokeGo {n t} : Kept o (s.revokeGo n t) := by
  unfold State.revokeGo
  extract_lets s1
  have hs1 : Kept o s1 := h.updSite
  exact .ite h (.ite (.ite hs1.wr hs1) (Kept.foldl (fun _ _ ht => Kept.foldl (fun _ _ ht1 => ht1.enterWait) ht) h))

theorem Kept.revokeRight {n t} : Kept o (s.revokeRight n t) := by
  unfold State.revokeRight
  extract_lets
  exact .ite h.revokeGo (.ite h h.wr.wr.updSite.revokeGo)

end

end Sys2Proof.Machine
end

section
/-!
PROOFS. What the operations of the hub keep: the Vestry and the weights that it guards.
-/

namespace Sys2Proof.Machine

open Sys2Proof.Safety

section
variable {o s : State} (h : Kept o s)
include h

/-! ### Machine/Vestry.lean: the Vestry's commands -/

theorem Kept.updVst {f} : Kept o (s.updVst f) := by
  unfold State.updVst
  exact h.same

theorem Kept.updOtp {f} : Kept o (s.updOtp f) := by
  unfold State.updOtp
  exact h.updVst

theorem Kept.tallyUse {k} : Kept o (s.tallyUse k) := by
  unfold State.tallyUse
  exact h.ledgerAdd

theorem Kept.execLedgerRecordInFlash : NextKept o (Machine.execLedgerRecordInFlash s) := by
  unfold Machine.execLedgerRecordInFlash
  refine .intro ?_
  split
  · exact h
  · extract_lets _ _ s1
    have hs1 : Kept o s1 := .ite h.fresh h
    clear_value s1
    exact .ite h hs1.same

theorem Kept.execLedgerExport {w value} : NextKept o (Machine.execLedgerExport w value s) := by
  unfold Machine.execLedgerExport
  extract_lets
  exact .intro (.ite h (.ite h.wr h))

theorem Kept.putBuf {d} : Kept o (s.putBuf d) := by
  unfold State.putBuf
  exact Kept.foldl (fun _ _ ht => ht.wr) h

theorem Kept.vstDone {status result} : Kept o (s.vstDone status result) := by
  unfold State.vstDone
  exact h.wr.wr.wr

theorem Kept.vstCmd {w cmd len states f} (hf : ∀ {u a1}, Kept o u → Kept o (f u a1)) : Kept o (s.vstCmd w cmd len states f) := by
  unfold State.vstCmd
  extract_lets s1 s2
  have hs1 : Kept o s1 := h.wr.wr
  have hs2 : Kept o s2 := hs1.wr.wr.wr.wr
  exact .ite h (.ite h.wr (.ite hs1.wr (.ite hs2.vstDone (hf hs2))))

theorem Kept.execVstMboxAck {w} : NextKept o (Machine.execVstMboxAck w s) := by
  unfold Machine.execVstMboxAck
  exact .intro (.ite h.wr h)

theorem Kept.clearTenant {t} : Kept o (s.clearTenant t) := by
  unfold State.clearTenant
  extract_lets s1
  have hs1 : Kept o s1 := Kept.foldl (fun _ _ ht => Kept.ite ht.zeroHpa ht) h
  exact Kept.foldl (fun _ _ ht1 => Kept.ite ht1.wipeTile ht1) hs1

theorem Kept.sealTenant {t} : Kept o (s.sealTenant t) := by
  unfold State.sealTenant
  exact .ite h h.clearTenant.wr

theorem Kept.unseal {t} : Kept o (s.unseal t) := by
  unfold State.unseal
  exact h.clearTenant.wr.wr

theorem Kept.mapModel {t e on} : Kept o (s.mapModel t e on) := by
  unfold State.mapModel
  extract_lets
  exact .ite h h.wr

theorem Kept.releaseModel {e} : Kept o (s.releaseModel e) := by
  unfold State.releaseModel
  extract_lets s1
  have hs1 : Kept o s1 := h.updVst.wr
  exact (Kept.foldl (fun _ _ ht => ht.releaseBlock) hs1).freeModels

theorem Kept.sealFail {i} : Kept o (s.sealFail i) := by
  unfold State.sealFail
  exact .ite h.updOrder.stopUnit (.ite h.updOrder h.failItem)

theorem Kept.clearRights {n} : Kept o (s.clearRights n) := by
  unfold State.clearRights
  exact Kept.foldl (fun _ _ ht => Kept.ite ht.revokeRight ht) h.updSite

theorem Kept.purge : Kept o s.purge := by
  unfold State.purge
  extract_lets s1 _ s2 s3 s4 s5
  have hs1 : Kept o s1 := h.wr.ledgerAdd
  have hs2 : Kept o s2 := .ite hs1.updGen.wr.wr hs1
  have hs3 : Kept o s3 := Kept.foldl (fun _ _ ht => Kept.ite ht.sealFail ht) hs2
  have hs4 : Kept o s4 := Kept.foldl (fun _ _ ht1 => (Kept.ite ht1.wr ht1).wr) hs3
  have hs5 : Kept o s5 := Kept.foldl (fun _ _ ht2 => Kept.ite ht2.releaseModel ht2) hs4
  exact Kept.foldl (fun _ _ ht3 => ht3.clearRights) hs5

theorem Kept.zeroSram : Kept o s.zeroSram := by
  unfold State.zeroSram
  exact h.zeroRange.zeroRange

theorem Kept.lcFinish {k} : Kept o (s.lcFinish k) := by
  unfold State.lcFinish
  extract_lets s1 s2
  have hs1 : Kept o s1 := .ite h h.zeroSram.updHep
  have hs2 : Kept o s2 := .ite hs1.updOtp hs1
  exact hs2.updOtp.ledgerAdd

theorem Kept.execLcTransition {w len} : NextKept o (Machine.execLcTransition w len s) := by
  unfold Machine.execLcTransition
  refine .intro ?_
  refine Kept.vstCmd h (fun hu3 => ?_)
  extract_lets _ _ t1
  have ht1 : Kept o t1 := hu3.updOtp.ledgerAdd
  exact .ite hu3.vstDone (.ite hu3.wr.wr.vstDone (.ite ht1.purge ht1.lcFinish.vstDone))

theorem Kept.openRights {r} : Kept o (s.openRights r) := by
  unfold State.openRights
  extract_lets bit s1
  have hbit : ∀ {f k t}, Kept o t → Kept o (bit f k t) := fun hu => Kept.ite hu.wr hu
  have hs1 : Kept o s1 := hbit (hbit (hbit h))
  exact hs1.updVst

theorem Kept.execDebugCert {w len} : NextKept o (Machine.execDebugCert w len s) := by
  unfold Machine.execDebugCert
  refine .intro ?_
  refine Kept.vstCmd h (fun hu3 => ?_)
  extract_lets _ t1
  have ht1 : Kept o t1 := hu3.ledgerAdd
  exact .ite hu3.vstDone (.ite hu3.vstDone (.ite ht1.vstDone ht1.updVst.purge))

theorem Kept.execEpochRaise {w len} : NextKept o (Machine.execEpochRaise w len s) := by
  unfold Machine.execEpochRaise
  refine .intro ?_
  refine Kept.vstCmd h (fun hu3 => ?_)
  extract_lets
  exact .ite hu3.vstDone (.ite hu3.vstDone (((Kept.foldl (fun _ _ ht4 => ht4.tallyUse) hu3).updOtp).vstDone))

theorem Kept.execOwnerSet {w len} : NextKept o (Machine.execOwnerSet w len s) := by
  unfold Machine.execOwnerSet
  refine .intro ?_
  refine Kept.vstCmd h (fun hu3 => ?_)
  extract_lets
  exact .ite hu3.vstDone (.ite hu3.vstDone hu3.tallyUse.updOtp.vstDone)

theorem Kept.execLedgerCheckpoint {w len} : NextKept o (Machine.execLedgerCheckpoint w len s) := by
  unfold Machine.execLedgerCheckpoint
  exact .intro (h.vstCmd (fun hu => hu.checkpoint.vstDone))

theorem Kept.execPurge {w len} : NextKept o (Machine.execPurge w len s) := by
  unfold Machine.execPurge
  exact .intro (h.vstCmd (fun hu => hu.purge))

theorem Kept.execPurgeEnd : NextKept o (Machine.execPurgeEnd s) := by
  unfold Machine.execPurgeEnd
  extract_lets s1 s2 s3 s4
  have hs1 : Kept o s1 := Kept.foldl (fun _ _ ht => .ite ht.unseal ht) h
  have hs3 : Kept o s3 := .ite hs1.wr.lcFinish hs1.wr
  clear_value s3
  have hs4 : Kept o s4 := by
    unfold s4
    split
    · exact hs3.openRights
    · exact hs3
  exact .intro (.ite h (.ite hs4.vstDone hs4))

theorem Kept.execIdentity {w len} : NextKept o (Machine.execIdentity w len s) := by
  unfold Machine.execIdentity
  refine .intro ?_
  refine Kept.vstCmd h (fun hu3 => ?_)
  extract_lets
  exact ((Kept.ite hu3 hu3.fresh).putBuf).vstDone

theorem Kept.giveRights {n} : Kept o (s.giveRights n) := by
  unfold State.giveRights
  extract_lets s1
  have hs1 : Kept o s1 := Kept.foldl (fun _ _ ht => Kept.ite ht.revokeRight ht) h
  exact .ite hs1.updSite (Kept.foldl (fun _ _ ht1 => Kept.ite ht1.wr ht1) hs1)

theorem Kept.execRightRevoke {n tenant} : NextKept o (Machine.execRightRevoke n tenant s) := by
  unfold Machine.execRightRevoke
  extract_lets s1
  have hs1 : Kept o s1 := h.revokeRight
  exact .intro (.ite hs1.updSite.giveRights hs1)

theorem Kept.execSiteAttest {w len} : NextKept o (Machine.execSiteAttest w len s) := by
  unfold Machine.execSiteAttest
  refine .intro ?_
  refine Kept.vstCmd h (fun hu3 => ?_)
  extract_lets
  exact .ite hu3.vstDone hu3.updSite.updVst

theorem Kept.execSiteSpdmResponse {n result meas} : NextKept o (Machine.execSiteSpdmResponse n result meas s) := by
  unfold Machine.execSiteSpdmResponse
  extract_lets _ _ s1 s2 s3 s4
  have hs1 : Kept o s1 := h.wr.updSite
  have hs2 : Kept o s2 := .ite hs1.inc hs1
  have hs3 : Kept o s3 := .ite hs2.clearRights hs2
  have hs4 : Kept o s4 := .ite hs3.giveRights hs3
  exact .intro (.ite h (.ite hs4.updVst.vstDone hs4))

theorem Kept.spdmAnswer {via ask data} : Kept o (s.spdmAnswer via ask data) := by
  unfold State.spdmAnswer
  extract_lets s'
  have hs' : Kept o s' := h.updRve
  exact hs'.updVst

theorem Kept.execSpdmRequest {via ask} : NextKept o (Machine.execSpdmRequest via ask s) := by
  unfold Machine.execSpdmRequest
  extract_lets std ident inSession
  have hident : ∀ {d}, Kept o (ident d) := h.spdmAnswer
  have hsession : ∀ {k}, Kept o (inSession k) := h.spdmAnswer
  clear_value ident inSession
  refine .intro (.ite h ?_)
  cases ask with
  | getVersion | getCapabilities | negotiateAlgorithms => exact h.spdmAnswer
  | getDigests | getCertificate | challenge | getMeasurements => exact hident
  | keyExchange =>
    dsimp only
    split
    · exact .ite h.updVst.spdmAnswer h.spdmAnswer
    · exact h.spdmAnswer
  | finish | heartbeat | keyUpdate => exact hsession
  | endSession => exact hsession.updVst
  | other => exact h.spdmAnswer

/-! ### Machine/Weights.lean: weights -/

theorem Kept.readHpa {hpa n} : Kept o (s.readHpa hpa n).2.2 := by
  unfold State.readHpa
  refine Kept.foldlThird (fun x g hx => ?_) h
  obtain ⟨st, d, t⟩ := x
  refine .iteThird hx (.iteThird hx ?_)
  split
  · split
    · rename_i u heq
      exact Kept.snd heq hx.snoopRead
    · rename_i u heq
      exact Kept.snd heq hx.snoopRead
    · rename_i b bad u heq
      have hu : Kept o u := Kept.snd heq hx.snoopRead
      exact .iteThird hu hu
  · exact .iteThird hx (.iteThird hx hx)
  · exact hx

theorem Kept.dirWrite {hpa d} : Kept o (s.dirWrite hpa d) := by
  unfold State.dirWrite
  extract_lets
  exact Kept.foldl (fun _ _ ht => ht.unpoisonLine) h.stwWrite

theorem Kept.failRead {i status} : Kept o (s.failRead i status) := by
  unfold State.failRead
  exact .ite h h.failItem

theorem Kept.readManifest {hpa} : Kept o (s.readManifest hpa).2 := by
  unfold State.readManifest
  split
  · rename_i x st fst u heq
    have hu : Kept o u := Kept.third heq h.readHpa
    exact hu
  · rename_i x b u heq
    have hu : Kept o u := Kept.third heq h.readHpa
    extract_lets
    refine .iteSnd hu ?_
    split
    · rename_i x st fst u heq
      have hu : Kept o u := Kept.third heq hu.readHpa
      exact hu
    · rename_i x b u heq
      have hu : Kept o u := Kept.third heq hu.readHpa
      exact hu

theorem Kept.bindModel {t e} : Kept o (s.bindModel t e) := by
  unfold State.bindModel
  extract_lets s1
  have hs1 : Kept o s1 := h.sealTenant.mapModel
  exact .ite hs1 (Kept.foldl (fun _ _ ht => Kept.ite ht.updSite ht) hs1)

theorem Kept.readTable {hpa m b} : Kept o (s.readTable hpa m b).2 := by
  unfold State.readTable
  split
  · rename_i x st fst u heq
    have hu : Kept o u := Kept.third heq h.readHpa
    exact hu
  · rename_i x b u heq
    have hu : Kept o u := Kept.third heq h.readHpa
    exact Kept.iteSnd hu hu

theorem Kept.loadNew {i hpa m b bind} : Kept o (s.loadNew i hpa m b bind) := by
  unfold State.loadNew
  extract_lets
  split
  · split
    · exact h.failItem
    · split
      · rename_i x st t heq
        have ht : Kept o t := Kept.snd heq h.readTable
        exact ht.failRead
      · rename_i x d t heq
        have ht : Kept o t := Kept.snd heq h.readTable
        extract_lets _ t1 t2 t3 t4
        have ht1 : Kept o t1 := ht.updVst
        have ht2 : Kept o t2 := ht1.dirWrite.dirWrite
        have ht3 : Kept o t3 := ht2.wr.wr.wr.wr.wr.wr
        have ht4 : Kept o t4 := Kept.foldl (fun _ _ ht => ht.updBlock) ht3
        exact ht4.bindModel.doneItem
  · exact h.failItem

theorem Kept.execWeightLoad {q item} : NextKept o (Machine.execWeightLoad q item s) := by
  unfold Machine.execWeightLoad
  refine .intro (h.runItem fun hu => ?_)
  extract_lets
  refine .ite hu (.ite hu.failItem ?_)
  split
  · rename_i st u heq
    exact (Kept.snd heq hu.readManifest).failRead
  · rename_i m b u heq
    have hm := Kept.snd heq hu.readManifest
    split
    · rename_i st d v hv
      exact (Kept.third hv hm.readHpa).failRead
    · rename_i d v hv
      have hread := Kept.third hv hm.readHpa
      refine .ite hread.failItem ?_
      split
      · exact hread.failItem
      · extract_lets old unshared
        clear_value unshared old
        refine .ite hread.failItem (.ite hread.failItem ?_)
        split
        · exact hread.loadNew
        · split
          · rename_i st z hz
            exact (Kept.snd hz hread.readTable).failRead
          · rename_i d z hz
            exact (Kept.snd hz hread.readTable).dirWrite.bindModel.doneItem

theorem Kept.startChunk {i e k} : Kept o (s.startChunk i e k) := by
  unfold State.startChunk
  extract_lets _ _ _ _ _ _ _ s1
  have hs1 : Kept o s1 := h.same
  clear_value s1
  refine .ite h.failItem ?_
  split
  · exact h
  · extract_lets
    exact hs1.setMovQ.updOrder

theorem Kept.updModel {e f} : Kept o (s.updModel e f) := by
  unfold State.updModel
  exact h.updVst

theorem Kept.chunkRestored {e k} : Kept o (s.chunkRestored e k) := by
  unfold State.chunkRestored
  extract_lets s1
  have hs1 : Kept o s1 := h.updModel
  exact .ite hs1.updModel.endRestore hs1

theorem Kept.chunkWritten {e k} : Kept o (s.chunkWritten e k) := by
  unfold State.chunkWritten
  extract_lets _ _ s1
  have hs1 : Kept o s1 := .ite h h.stwWrite.updModel
  exact .ite (Kept.foldl (fun _ _ ht => Kept.ite ht.updBlock ht) hs1) hs1

theorem Kept.execWeightChunk {q item} : NextKept o (Machine.execWeightChunk q item s) := by
  unfold Machine.execWeightChunk
  refine .intro ?_
  refine Kept.runItem h (fun hu3 => ?_)
  extract_lets
  split
  · exact hu3.failItem
  · refine .ite ?_ ?_
    · refine Kept.walkRead hu3 (fun hu8 => ?_)
      extract_lets u
      have hu : Kept o u := hu8.chunkWritten
      exact .ite hu8.chunkRestored.doneItem (.ite hu8.failItem (.ite hu.updOrder hu.doneItem))
    · refine .ite (.ite hu3.failItem (.ite hu3.wr.doneItem hu3)) ?_
      refine .ite hu3 ?_
      refine .ite hu3.failItem ?_
      split
      · exact hu3.failItem
      · exact .ite hu3.failItem (.ite hu3.failItem hu3.startChunk)

theorem Kept.execWeightRelease {q item} : NextKept o (Machine.execWeightRelease q item s) := by
  unfold Machine.execWeightRelease
  refine .intro ?_
  refine Kept.runItem h (fun hu3 => ?_)
  extract_lets
  refine .ite hu3.unseal.doneItem ?_
  refine .ite hu3 ?_
  refine .ite hu3.failItem ?_
  split
  · rename_i x st u heq
    have hu : Kept o u := Kept.snd heq hu3.readManifest
    exact hu.failRead
  · rename_i x m b u heq
    have hu : Kept o u := Kept.snd heq hu3.readManifest
    split
    · exact hu.failItem
    · extract_lets u1 u2
      have hu1 : Kept o u1 := hu.mapModel
      have hu2 : Kept o u2 := .ite hu1.releaseModel hu1
      exact .ite hu.failItem (.ite hu2.wr.updOrder hu2.doneItem)

/-! ### Machine/Close.lean: CLOSE of a domain -/

theorem Kept.tileDrain {t} : Kept o (s.tileDrain t) := by
  unfold State.tileDrain
  extract_lets _ _ s1
  have hs1 : Kept o s1 := h.updTile
  exact (Kept.foldl (fun _ _ ht => ht.send) hs1).stopKernel

theorem Kept.siteDrain_ {n} : Kept o (s.siteDrain_ n) := by
  unfold State.siteDrain_
  exact h.updSite.wr

theorem Kept.closeDom {d} : Kept o (s.closeDom d) := by
  unfold State.closeDom
  extract_lets s1
  have hs1 : Kept o s1 := (h.setDom (by decide)).stilePackets.sluDiscard
  exact .ite hs1.tileDrain (.ite hs1.moverDrain (.ite hs1.millSliceDown (.ite hs1.siteDrain_ hs1)))

theorem Kept.execStileClose {dom} : NextKept o (Machine.execStileClose dom s) := by
  unfold Machine.execStileClose
  exact .intro (h.stileCmd (fun hu => Kept.ite hu.closeDom hu.stileEnd))

theorem Kept.dropWork {a} : Kept o (s.dropWork a) := by
  unfold State.dropWork
  extract_lets
  refine Kept.foldl (fun u a hu1 => ?_) h
  extract_lets
  exact hu1.updOrder.domainDown

end

end Sys2Proof.Machine
end

section
/-!
PROOFS. What the operations of the hub keep: the Crier, the Roll and firmware.
-/

namespace Sys2Proof.Machine

open Sys2Proof.Safety

section
variable {o s : State} (h : Kept o s)
include h

/-! ### Machine/Crier.lean: images and rounds -/

theorem Kept.flashPut {a l} : Kept o (s.flashPut a l) := by
  induction l generalizing s a with
  | nil =>
    rw [State.flashPut]
    exact h
  | cons a l ih =>
    rw [State.flashPut]
    exact ih h.updRve

theorem Kept.updRx {a f} : Kept o (s.updRx a f) := by
  unfold State.updRx
  exact h.updRve

theorem Kept.crierAt {a b} : Kept o (s.crierAt a b) := by
  unfold State.crierAt
  split
  · exact h
  · extract_lets _ _ _ s1
    have hs1 : Kept o s1 := .ite h h.updRx
    exact .ite h (.ite hs1.updRx (.ite hs1.send (.ite hs1.updRx hs1)))

theorem Kept.castTaken {c a} : Kept o (s.castTaken c a) := by
  unfold State.castTaken
  extract_lets
  exact h.same

theorem Kept.broadcast {p} : Kept o (s.broadcast p) := by
  unfold State.broadcast
  extract_lets
  exact h.same

theorem Kept.execCrier {agent p0} : NextKept o (Machine.execCrier agent p0 s) := by
  unfold Machine.execCrier
  extract_lets _ read
  have hread : ∀ {t}, Kept o t → Kept o (read t) := fun hu => Kept.ite hu hu.crierAt
  clear_value read
  refine .intro ?_
  split
  · exact .ite (hread h.castTaken) (.ite (h.delivering (fun hu2 => hread hu2) h) h)
  · exact .ite (h.delivering (fun hu3 => hread hu3) h) h

theorem Kept.execImageDigestDone {agent} : NextKept o (Machine.execImageDigestDone agent s) := by
  unfold Machine.execImageDigestDone
  extract_lets _ s1
  have hs1 : Kept o s1 := h.updRx
  clear_value s1
  refine .intro ?_
  split
  · exact .ite h (.ite (.ite hs1.wr hs1) h.updRx)
  · exact h

theorem Kept.unicast {c a ks} : Kept o (s.unicast c a ks) := by
  unfold State.unicast
  exact Kept.foldl (fun _ _ ht => ht.send) h

theorem Kept.query {c a} : Kept o (s.query c a) := by
  unfold State.query
  exact Kept.foldl (fun _ _ ht => ht.send) h

theorem Kept.crierStart {mode slot i targets} : Kept o (s.crierStart mode slot i targets) := by
  unfold State.crierStart
  extract_lets _ s1 _ s2
  have hs1 : Kept o s1 := h.updRve
  have hs2 : Kept o s2 := .ite (Kept.foldl (fun _ _ ht => ht.unicast) hs1) (Kept.foldl (fun _ _ ht1 => ht1.broadcast) hs1)
  exact Kept.foldl (fun _ _ ht2 => ht2.query) hs2

theorem Kept.crierRepair {c} : Kept o (s.crierRepair c) := by
  unfold State.crierRepair
  extract_lets _ _ s1
  have hs1 : Kept o s1 := h.updRve
  refine Kept.foldl (fun u a hu1 => ?_) hs1
  extract_lets
  exact hu1.unicast.query

theorem Kept.takeReport {p} : Kept o (s.takeReport p) := by
  unfold State.takeReport
  split
  · exact .ite h.updRve h
  · exact h

/-! ### Machine/Swap.lean: spared units -/

theorem Kept.rollCounts : Kept o s.rollCounts := by
  unfold State.rollCounts
  extract_lets
  exact h.wr.wr.wr.wr.wr.wr

theorem Kept.physMark {p} : Kept o (s.physMark p) := by
  unfold State.physMark
  extract_lets
  refine .ite (.ite h h.wr) ?_
  refine .ite h.wr.wr ?_
  split
  · exact h.wr.wr
  · exact h.wr.wr

theorem Kept.markFailed {p cause detail} : Kept o (s.markFailed p cause detail) := by
  unfold State.markFailed
  extract_lets _ _ s1
  have hs1 : Kept o s1 := h.same
  exact hs1.wr.wr.wr

theorem Kept.updSwap {f} : Kept o (s.updSwap f) := by
  unfold State.updSwap
  exact h.updRve

theorem Kept.execRollUpd {agent logical phys gen} : NextKept o (Machine.execRollUpd agent logical phys gen s) := by
  unfold Machine.execRollUpd
  extract_lets
  exact .intro (h.delivering (fun hu => hu.updSwap.send) h)

theorem Kept.sendRoll {w phys} : Kept o (s.sendRoll w phys) := by
  unfold State.sendRoll
  extract_lets
  exact (Kept.foldl (fun _ _ ht => ht.send) h).updSwap

theorem Kept.swapTurn : Kept o s.swapTurn := by
  unfold State.swapTurn
  split
  · exact h
  · refine .ite h ?_
    split
    · exact h.sendRoll
    · extract_lets
      refine .ite h.openDom ?_
      refine .ite h.sendRoll ?_
      refine .ite h ?_
      split
      · exact h.crierStart
      · exact h

theorem Kept.rollAck {p} : Kept o (s.rollAck p) := by
  unfold State.rollAck
  extract_lets s1
  have hs1 : Kept o s1 := h.land.updSwap
  clear_value s1
  split
  · split
    · exact .ite hs1.send hs1
    · exact hs1
  · exact hs1

theorem Kept.reeveClose {d} : Kept o (s.reeveClose d) := by
  unfold State.reeveClose
  exact .ite h (.ite h.closeDom h.wr.wr.wr.closeDom)

theorem Kept.skipSpare {p} : Kept o (s.skipSpare p) := by
  unfold State.skipSpare
  split
  · extract_lets
    exact .ite h.same.updSwap h
  · exact h

theorem Kept.dropTarget {p} : Kept o (s.dropTarget p) := by
  unfold State.dropTarget
  split
  · exact h.updRve
  · exact h

theorem Kept.unitFail {p cause} : Kept o (s.unitFail p cause) := by
  unfold State.unitFail
  extract_lets _ s1 _ _ s2 s3
  have hs1 : Kept o s1 := h.raise.markFailed.skipSpare.dropTarget
  clear_value s1
  have hs2 : Kept o s2 := by
    unfold s2
    split
    · exact hs1.same
    · exact hs1
  have hs3 : Kept o s3 := .ite hs2.dropWork (.ite (hs2.powerOff.setDom (by decide)) hs2.reeveClose)
  exact .ite h (((Kept.ite hs3.rollCounts hs3).swapTurn).stwTurn)

theorem Kept.execUnitDrainTimeout {agent} : NextKept o (Machine.execUnitDrainTimeout agent s) := by
  unfold Machine.execUnitDrainTimeout
  refine .intro ?_
  split
  · exact .ite h.forceOff h
  · exact h

/-- The lines of a bank take their place in the rising order. -/
theorem Kept.poisonBank {b} : Kept o (s.poisonBank b) := by
  refine ⟨h.mem, h.regs, fun hp => ?_, h.doms, h.time, h.queue⟩
  have hsorted := h.poison hp
  simp only [State.poisonBank, List.append_assoc, List.pairwise_append, List.pairwise_map, List.mem_append, List.mem_filter, List.mem_map,
    List.mem_range, decide_eq_true_eq]
  refine ⟨hsorted.filter _, ⟨List.pairwise_lt_range.imp (by omega), hsorted.filter _, by omega⟩, by omega⟩

theorem Kept.unitSwapped : Kept o s.unitSwapped := by
  unfold State.unitSwapped
  split
  · extract_lets _ _ _ _ _ s1 s2 s3
    have hs1 : Kept o s1 := h.same
    have hs2 : Kept o s2 := hs1.wr.physMark
    have hs3 : Kept o s3 := by
      unfold s3
      split
      · extract_lets t u t1
        have ht : Kept o t := hs2.physMark
        have hu : Kept o u := ht.resetReg
        clear_value u
        have ht1 : Kept o t1 := .ite hu.same (.ite ht.poisonBank ht)
        exact ht1.raise
      · exact hs2.raise
    exact .ite h hs3.rollCounts.swapTurn.stwTurn
  · exact h

/-! ### Machine/Firmware.lean: firmware update and wake -/

theorem Kept.svcEnd {status} : Kept o (s.svcEnd status) := by
  unfold State.svcEnd
  exact h.wr.wr

theorem Kept.svcRefuse {status} : Kept o (s.svcRefuse status) := by
  unfold State.svcRefuse
  exact h.svcEnd.wr

theorem Kept.receiverFailed {boot slot a} : Kept o (s.receiverFailed boot slot a) := by
  unfold State.receiverFailed
  extract_lets s1 _ s2
  have hs1 : Kept o s1 := (Kept.ite h.inc h).inc
  have hs2 : Kept o s2 := hs1.markFailed.dropWork.powerOff.setDom (by decide)
  clear_value s1 s2
  refine .ite hs1 ?_
  split
  · exact hs2.same
  · exact hs2.rollCounts

theorem Kept.crierSlots {mode n k} : Kept o (State.crierSlots mode n k s) := by
  induction n generalizing s k with
  | zero =>
    rw [State.crierSlots]
    exact .ite h.bootEnd h.updRve
  | succ n ih =>
    rw [State.crierSlots]
    refine .ite (ih h) ?_
    split
    · exact .ite h.bootFail (ih (Kept.foldl (fun _ _ ht => ht.receiverFailed) h))
    · extract_lets s1 s2
      have hs1 : Kept o s1 := h.wr.wr.wr.wr.wr
      have hs2 : Kept o s2 := hs1.updRve
      exact .ite (ih hs2.wr) hs2.crierStart

theorem Kept.slotEnd {c} : Kept o (s.slotEnd c) := by
  unfold State.slotEnd
  extract_lets s1 s2
  have hs1 : Kept o s1 := (Kept.foldl (fun _ _ ht => ht.receiverFailed) h.updRve).wr
  have hs2 : Kept o s2 := hs1.swapTurn.stwTurn
  exact .ite hs2.bootFail hs2.crierSlots

theorem Kept.fwNext {failed} : Kept o (s.fwNext failed) := by
  unfold State.fwNext
  split
  · exact h
  · extract_lets _ s1
    have hs1 : Kept o s1 := h.updRve.svcEnd.raise
    clear_value s1
    split
    · exact h.updRve
    · split
      · extract_lets s2
        have hs2 : Kept o s2 := hs1.updRve
        exact .ite hs2.wr.wr hs2.updRve
      · exact hs1

theorem Kept.fwLoad {f a} : Kept o (s.fwLoad f a) := by
  unfold State.fwLoad
  split
  · exact h.crierStart
  · exact h

theorem Kept.fwClose {f a} : Kept o (s.fwClose f a) := by
  unfold State.fwClose
  extract_lets s1
  have hs1 : Kept o s1 := h.updRve
  exact .ite hs1.wr.fwLoad hs1.reeveClose

theorem Kept.fwTurn : Kept o s.fwTurn := by
  unfold State.fwTurn
  split
  · exact h
  · split
    · exact h
    · extract_lets
      exact .ite h (.ite (.ite h.fwClose h) (.ite h.fwNext (.ite (.ite h.fwClose h) (.ite h.openDom (.ite h.fwLoad h)))))

theorem Kept.restartStack {d} : Kept o (s.restartStack d) := by
  unfold State.restartStack
  extract_lets _ _ s1 s2 s3
  have hs1 : Kept o s1 := h.resetDomainRegs
  have hs2 : Kept o s2 := hs1.wr.wr.wr.wr.wr.wr
  have hs3 : Kept o s3 := hs2.wr.wr
  exact Kept.foldl (fun _ _ ht => ht.updHome) hs3

theorem Kept.releaseDom {d} : Kept o (s.releaseDom d) := by
  unfold State.releaseDom
  exact Kept.foldl (fun _ _ ht => Kept.ite ht.isoRelease ht) h

theorem Kept.domTurn : Kept o s.domTurn := by
  unfold State.domTurn
  split
  · exact h
  · extract_lets dest gone s1 s2 _ s1'
    have hdest : ∀ {t k}, Kept o t → Kept o (dest t k) := fun hu => hu.updRve
    have hgone : ∀ {t}, Kept o t → Kept o (gone t) := fun hu => hu.updRve
    have hs1 : Kept o s1 := hdest h
    have hs2 : Kept o s2 := .ite (Kept.foldl (fun _ _ ht => Kept.ite ht.closeDom ht) hs1) hs1
    have hs1' : Kept o s1' := .ite h.releaseDom h
    refine .ite ?_ ?_
    · exact .ite h (.ite hs2.forceOff (.ite hs2.closeDom (.ite hs2.resetRegs.domRet.grpRet hs2)))
    · refine .ite ?_ ?_
      · exact .ite (.ite (hdest (hs1'.restartStack.setDom (by decide)).openDom) h) (.ite (hdest hs1'.openDom) h)
      · exact .ite h ((hgone (Kept.ite (Kept.foldl (fun _ _ ht5 => Kept.ite ht5.openDom ht5) h) h)).svcEnd)

theorem Kept.wakeTurn : Kept o s.wakeTurn := by
  unfold State.wakeTurn
  exact .ite h.crierSlots h

theorem Kept.crierTurn : Kept o s.crierTurn := by
  unfold State.crierTurn
  split
  · exact h
  · extract_lets s1 s1' s2
    have hs1 : Kept o s1 := h.crierRepair
    have hs1' : Kept o s1' := h.updRve
    have hs2 : Kept o s2 := Kept.foldl (fun _ _ ht => ht.unitFail) hs1'
    exact .ite h (.ite (.ite hs1.wr hs1) (.ite h.slotEnd (.ite hs2.fwNext hs2)))

theorem Kept.reeveTurn : Kept o s.reeveTurn := by
  unfold State.reeveTurn
  exact .ite h h.crierTurn.swapTurn.fwTurn.domTurn.wakeTurn

theorem Kept.execCrierReport {p} : NextKept o (Machine.execCrierReport p s) := by
  unfold Machine.execCrierReport
  extract_lets
  exact .intro (h.delivering (fun hu => Kept.ite hu hu.takeReport.reeveTurn) h)

theorem Kept.execUnitFailure {agent} : NextKept o (Machine.execUnitFailure agent s) := by
  unfold Machine.execUnitFailure
  exact .intro (.ite h h.unitFail.reeveTurn)

theorem Kept.execUnitSwapped : NextKept o (Machine.execUnitSwapped s) := by
  unfold Machine.execUnitSwapped
  exact .intro h.unitSwapped.reeveTurn

theorem Kept.execFwUpdateWaitTimeout : NextKept o (Machine.execFwUpdateWaitTimeout s) := by
  unfold Machine.execFwUpdateWaitTimeout
  refine .intro ?_
  split
  · split
    · exact .ite h.reeveTurn h.fwClose.reeveTurn
    · exact h
  · exact h

theorem Kept.execCompletionEvent {p} : NextKept o (Machine.execCompletionEvent p s) := by
  unfold Machine.execCompletionEvent
  exact .intro (h.delivering (fun hu => hu.completionEvent.fwTurn) h.completionEvent.fwTurn)

theorem Kept.execItemDispatch : NextKept o (Machine.execItemDispatch s) := by
  unfold Machine.execItemDispatch
  exact .intro h.fwTurn.itemDispatch

end

end Sys2Proof.Machine
end

section
/-!
PROOFS. What the operations of the hub keep: the host endpoint, power, faults and boot.
-/

namespace Sys2Proof.Machine

open Sys2Proof.Safety

section
variable {o s : State} (h : Kept o s)
include h

/-! ### Machine/HostEnd.lean: the host endpoint -/

theorem Kept.hepUnsup {region write off} : Kept o (s.hepUnsup region write off) := by
  unfold State.hepUnsup
  exact h.inc.wr.wr.wr

theorem Kept.freeHostTag {tag} : Kept o (s.freeHostTag tag) := by
  unfold State.freeHostTag
  extract_lets s1
  have hs1 : Kept o s1 := h.updHep
  exact hs1.hostPump

theorem Kept.execHostCompletion {tag status data ep} : NextKept o (Machine.execHostCompletion tag status data ep s) := by
  unfold Machine.execHostCompletion
  refine .intro ?_
  split
  · exact h
  · extract_lets s1
    have hs1 : Kept o s1 := h.freeHostTag
    exact .ite hs1.inc (.ite hs1.answer hs1.answer)

theorem Kept.execHostCplTimeout {tag} : NextKept o (Machine.execHostCplTimeout tag s) := by
  unfold Machine.execHostCplTimeout
  refine .intro ?_
  split
  · exact h
  · extract_lets s1
    have hs1 : Kept o s1 := h.freeHostTag
    exact .ite hs1 hs1.answer

theorem Kept.bmeClear {d3} : Kept o (s.bmeClear d3) := by
  unfold State.bmeClear
  extract_lets s1
  have hs1 : Kept o s1 := h.updHep
  exact .ite hs1.inc.hostDead hs1

theorem Kept.execBmeClear {d3} : NextKept o (Machine.execBmeClear d3 s) := by
  unfold Machine.execBmeClear
  exact .intro h.bmeClear

theorem Kept.execBmeDrainTimeout : NextKept o (Machine.execBmeDrainTimeout s) := by
  unfold Machine.execBmeDrainTimeout
  exact .intro (.ite h h.hostDrop)

theorem Kept.flushRecord {r} : Kept o (s.flushRecord r).1 := by
  unfold State.flushRecord
  split
  · rename_i x s1 ok heq
    have hs1 : Kept o s1 := Kept.fst heq h.pushReply
    extract_lets
    exact Kept.inFst hs1.same

theorem Kept.flushFates : Kept o s.flushFates := by
  unfold State.flushFates
  split
  rename_i s1 due heq
  exact Kept.foldl (fun _ _ ht => ht.coalesce) (Kept.fst heq (Kept.foldlFst (fun _ _ ht => ht.flushRecord) h))

theorem Kept.bmeSet {d0} : Kept o (s.bmeSet d0) := by
  unfold State.bmeSet
  extract_lets s1
  have hs1 : Kept o s1 := h.updHep
  exact .ite hs1.flushFates.evtDrain hs1

theorem Kept.execBmeSet {d0} : NextKept o (Machine.execBmeSet d0 s) := by
  unfold Machine.execBmeSet
  exact .intro h.bmeSet

theorem Kept.execMsixPendingSend {vector} : NextKept o (Machine.execMsixPendingSend vector s) := by
  unfold Machine.execMsixPendingSend
  exact .intro (.ite h.updHep.hostSend h)

theorem Kept.execLtrIdleTimer : NextKept o (Machine.execLtrIdleTimer s) := by
  unfold Machine.execLtrIdleTimer
  exact .intro (.ite h.ltrTo h)

theorem Kept.execFatePop {w} : NextKept o (Machine.execFatePop w s) := by
  unfold Machine.execFatePop
  refine .intro ?_
  refine .ite h ?_
  split
  · exact h
  · extract_lets s1
    have hs1 : Kept o s1 := h.updHep
    exact .ite hs1.wr hs1

theorem Kept.execFateAck {w} : NextKept o (Machine.execFateAck w s) := by
  unfold Machine.execFateAck
  exact .intro (.ite h (Kept.foldl (fun _ _ ht => ht.resetReg) h.resetReg.wr))

theorem Kept.execHepUnsupClear {w} : NextKept o (Machine.execHepUnsupClear w s) := by
  unfold Machine.execHepUnsupClear
  exact .intro (.ite h.resetReg h)

theorem Kept.functionReset {kind} : Kept o (s.functionReset kind) := by
  unfold State.functionReset
  extract_lets s1
  have hs1 : Kept o s1 := h.noteReset.updHep
  exact .ite h (.ite hs1 hs1.flrStart)

theorem Kept.execFunctionLevelReset {kind} : NextKept o (Machine.execFunctionLevelReset kind s) := by
  unfold Machine.execFunctionLevelReset
  exact .intro h.functionReset

theorem Kept.execFlrUnitWaitTimeout : NextKept o (Machine.execFlrUnitWaitTimeout s) := by
  unfold Machine.execFlrUnitWaitTimeout
  extract_lets _ s1
  have hs1 : Kept o s1 := by
    unfold s1
    refine Kept.foldl (fun u a hu2 => ?_) h
    split
    · exact hu2.isolate
    · exact hu2
  exact .intro (.ite h hs1.failItems.resetEnd)

theorem Kept.cfgWrite {off v} : Kept o (s.cfgWrite off v) := by
  unfold State.cfgWrite
  extract_lets keep s1 s1'
  have hkeep : ∀ {t x}, Kept o t → Kept o (keep t x) := fun hu => hu.updHep
  have hs1 : Kept o s1 := (hkeep h).updHep
  have hs1' : Kept o s1' := hkeep h
  clear_value keep
  split
  · exact .ite hs1 (.ite hs1.bmeSet hs1.bmeClear)
  · exact .ite (.ite h h.bmeClear) (.ite h.bmeSet h)
  · exact .ite hs1'.functionReset hs1'
  · exact (hkeep h).updHep
  · exact h.updHep
  · exact hkeep h
  · exact h.updHep
  · exact .ite h (hkeep h)

theorem Kept.execHostConfigRequest {tag write off be value} : NextKept o (Machine.execHostConfigRequest tag write off be value s) := by
  unfold Machine.execHostConfigRequest
  extract_lets _ s1
  have hs1 : Kept o s1 := h.updHep
  exact .intro (.ite h (.ite h.hostSend (.ite hs1.cfgWrite.hostSend hs1.hostSend)))

theorem Kept.aer {bit} : Kept o (s.aer bit) := by
  unfold State.aer
  exact h.updHep

theorem Kept.cxlDone {txn m} : Kept o (s.cxlDone txn m) := by
  unfold State.cxlDone
  extract_lets s1
  have hs1 : Kept o s1 := h.updHep.hostSend
  exact Kept.foldl (fun _ _ ht => ht.hostSend) hs1.updHep

theorem Kept.execCxlBiconflict {tag line} : NextKept o (Machine.execCxlBiconflict tag line s) := by
  unfold Machine.execCxlBiconflict
  extract_lets
  exact .intro (.ite h.hostSend h.updHep)

theorem Kept.cxlAnswer {c r p} : Kept o (s.cxlAnswer c r p) := by
  unfold State.cxlAnswer
  extract_lets _ s1 _ s2
  have hs1 : Kept o s1 := .ite h.hepUnsup h
  have hs2 : Kept o s2 := .ite hs1.send hs1
  exact .ite hs1.cxlDone (.ite hs2.fresh.cxlDone hs2.cxlDone)

/-! ### Machine/Power.lean: power -/

theorem Kept.updPw {f} : Kept o (s.updPw f) := by
  unfold State.updPw
  exact h.updRve

theorem Kept.limitEvent {old new iout sensor cap} : Kept o (s.limitEvent old new iout sensor cap) := by
  unfold State.limitEvent
  extract_lets ev
  have hev : ∀ {t k code a0}, Kept o t → Kept o (ev t k code a0) := fun hu => Kept.ite hu.raise (.ite hu.raise hu)
  exact .ite h (hev (hev (hev h)))

theorem Kept.setVcore : Kept o s.setVcore := by
  unfold State.setVcore
  extract_lets
  split
  · extract_lets _ s1
    have hs1 : Kept o s1 := h.wr.wr
    exact hs1.limitEvent

theorem Kept.moveTarget : Kept o s.moveTarget := by
  unfold State.moveTarget
  extract_lets
  exact .ite h (.ite h.updPw (.ite h.updPw h))

theorem Kept.readPmb {reads} : Kept o (s.readPmb reads) := by
  unfold State.readPmb
  refine Kept.foldl (fun u a hu1 => ?_) h
  extract_lets _ t1
  have ht1 : Kept o t1 := hu1.updPw
  exact .ite hu1.updPw (.ite ht1.raise ht1)

theorem Kept.execPowerEval {reads} : NextKept o (Machine.execPowerEval reads s) := by
  unfold Machine.execPowerEval
  extract_lets _ _ s1
  have hs1 : Kept o s1 := h.readPmb.wr.wr
  clear_value s1
  refine .intro ?_
  refine .ite h ?_
  split
  · exact (Kept.ite hs1 hs1.moveTarget).setVcore
  · extract_lets s2 s3 _ _ s4
    have hs2 : Kept o s2 := hs1.updPw
    have hs3 : Kept o s3 := hs2.moveTarget.setVcore
    have hs4 : Kept o s4 := hs3.updPw
    exact .ite hs4.raise hs4

theorem Kept.execThermalSensorRead {k temp ok} : NextKept o (Machine.execThermalSensorRead k temp ok s) := by
  unfold Machine.execThermalSensorRead
  extract_lets _ _ s1 s2 s3
  have hs1 : Kept o s1 := h.wr.wr
  have hs2 : Kept o s2 := .ite hs1.updPw (.ite hs1 hs1.updPw.raise)
  have hs3 : Kept o s3 := hs2.wr
  clear_value s1 s2 s3
  refine .intro ?_
  refine .ite h ?_
  split
  · exact .ite hs3.oobPut hs3
  · exact hs3

theorem Kept.execThermalCeilingTick {rise} : NextKept o (Machine.execThermalCeilingTick rise s) := by
  unfold Machine.execThermalCeilingTick
  extract_lets
  exact .intro (.ite h (.ite (.ite h.updPw.setVcore h) (.ite h.updPw.setVcore h)))

theorem Kept.execStageMissTimer : NextKept o (Machine.execStageMissTimer s) := by
  unfold Machine.execStageMissTimer
  extract_lets
  exact .intro (.ite h.raise h)

theorem Kept.execPinThrottle {pin low} : NextKept o (Machine.execPinThrottle pin low s) := by
  unfold Machine.execPinThrottle
  extract_lets _ _ s1
  have hs1 : Kept o s1 := .ite h.updPw.wr h.updPw.wr
  exact .intro (.ite h (.ite hs1.setVcore.raise hs1))

/-! ### Machine/Faults.lean: faults and service commands -/

theorem Kept.bigReset {kind source fatal} : Kept o (s.bigReset kind source fatal) := by
  unfold State.bigReset
  extract_lets s1 s2 _ _ s3 s4
  have hs1 : Kept o s1 := h.noteReset
  have hs2 : Kept o s2 := .ite hs1.wr hs1
  clear_value s2
  have hs3 : Kept o s3 := .ite hs2.same hs2
  have hs4 : Kept o s4 := hs3.updRve
  exact .ite hs3 (.ite hs4.flrGo hs4.flrStart)

theorem Kept.execWarmReset : NextKept o (Machine.execWarmReset s) := by
  unfold Machine.execWarmReset
  exact .intro (.ite h h.bigReset)

theorem Kept.fatalGo : Kept o s.fatalGo := by
  unfold State.fatalGo
  split
  · extract_lets s1
    have hs1 : Kept o s1 := h.updRve
    exact .ite h (.ite hs1.bigReset hs1)
  · exact h

theorem Kept.execEvtRecordWrite : NextKept o (Machine.execEvtRecordWrite s) := by
  unfold Machine.execEvtRecordWrite
  refine .intro ?_
  refine .ite h ?_
  split
  · exact h
  · extract_lets s1
    have hs1 : Kept o s1 := h.same.evtHandle
    exact .ite hs1.updRve.fatalGo hs1

theorem Kept.execEvtRingHead {w head} : NextKept o (Machine.execEvtRingHead w head s) := by
  unfold Machine.execEvtRingHead
  extract_lets
  exact .intro (.ite h (.ite h.wr (.ite h.wr.evtDrain h.wr)))

theorem Kept.execHubFatalError {agent} : NextKept o (Machine.execHubFatalError agent s) := by
  unfold Machine.execHubFatalError
  exact .intro (.ite h.raise h)

theorem Kept.execFatalResetTimer : NextKept o (Machine.execFatalResetTimer s) := by
  unfold Machine.execFatalResetTimer
  exact .intro (.ite h.updRve.fatalGo h)

theorem Kept.svc {w op used arg f} (hf : ∀ {u}, Kept o u → Kept o (f u)) : Kept o (s.svc w op used arg f) := by
  unfold State.svc
  extract_lets
  exact .ite h (.ite h.wr (hf h.wr.wr.wr))

theorem Kept.execSvcWarm {w} : NextKept o (Machine.execSvcWarm w s) := by
  unfold Machine.execSvcWarm
  exact .intro (h.svc (fun hu => hu.bigReset))

theorem Kept.execSvcHubReset {w} : NextKept o (Machine.execSvcHubReset w s) := by
  unfold Machine.execSvcHubReset
  exact .intro (h.svc (fun hu => hu.bigReset))

theorem Kept.execSvcDomainReset {w dom force} : NextKept o (Machine.execSvcDomainReset w dom force s) := by
  unfold Machine.execSvcDomainReset
  exact .intro (h.svc (fun hu => Kept.ite hu.svcEnd (.ite hu.svcRefuse (.ite hu.svcRefuse hu.updRve.reeveTurn))))

theorem Kept.dozeStart : Kept o s.dozeStart := by
  unfold State.dozeStart
  extract_lets _ _ _ s1 s2 s3
  have hs1 : Kept o s1 := h.same
  have hs2 : Kept o s2 := hs1.wr
  have hs3 : Kept o s3 := Kept.foldl (fun _ _ ht => ht.updRx) hs2
  exact Kept.foldl (fun _ _ ht1 => ht1.closeDom) hs3

theorem Kept.execSvcDoze {w} : NextKept o (Machine.execSvcDoze w s) := by
  unfold Machine.execSvcDoze
  exact .intro (h.svc (fun hu => Kept.ite hu.dozeStart hu.svcRefuse))

theorem Kept.execDozeEntered : NextKept o (Machine.execDozeEntered s) := by
  unfold Machine.execDozeEntered
  extract_lets _ _ s0 s1
  have hs0 : Kept o s0 := Kept.foldl (fun _ _ ht => Kept.ite ht.wr ht) h
  have hs1 : Kept o s1 := hs0.updRve.setVcore.ltrTo.svcEnd
  exact .intro (.ite h (.ite (Kept.foldl (fun _ _ ht1 => ht1.closeDom) h.updRve) (.ite h (.ite hs1.wakeStart hs1))))

theorem Kept.execSvcWake {w} : NextKept o (Machine.execSvcWake w s) := by
  unfold Machine.execSvcWake
  exact .intro (h.svc (fun hu => Kept.ite hu.svcEnd hu.wake.reeveTurn))

theorem Kept.execWakeComplete : NextKept o (Machine.execWakeComplete s) := by
  unfold Machine.execWakeComplete
  extract_lets _ _ s1
  have hs1 : Kept o s1 := h.same
  exact .intro (.ite h (((Kept.ite hs1.svcEnd hs1).setVcore).stwTurn))

theorem Kept.execSvcUnitFail {w unit} : NextKept o (Machine.execSvcUnitFail w unit s) := by
  unfold Machine.execSvcUnitFail
  refine .intro ?_
  refine Kept.svc h (fun hu3 => ?_)
  extract_lets
  exact .ite hu3.svcRefuse (.ite hu3.svcRefuse hu3.unitFail.svcEnd.reeveTurn)

theorem Kept.svcFwUpdate {w slot allowOld} : Kept o (s.svcFwUpdate w slot allowOld) := by
  unfold State.svcFwUpdate
  refine Kept.svc h (fun hu2 => ?_)
  refine .ite hu2.svcRefuse ?_
  refine .ite hu2.svcRefuse ?_
  split
  · exact hu2.svcRefuse
  · extract_lets _ t1
    have ht1 : Kept o t1 := hu2.updRve
    exact .ite hu2.svcRefuse (.ite ht1.updRve ht1.fwNext.reeveTurn)

theorem Kept.execSvcFwUpdate {w slot allowOld} : NextKept o (Machine.execSvcFwUpdate w slot allowOld s) := by
  unfold Machine.execSvcFwUpdate
  exact .intro h.svcFwUpdate

theorem Kept.execSvcRecal {w target} : NextKept o (Machine.execSvcRecal w target s) := by
  unfold Machine.execSvcRecal
  refine .intro ?_
  refine Kept.svc h (fun hu3 => ?_)
  extract_lets _ _ t1
  have ht1 : Kept o t1 := hu3.updRve
  refine .ite ?_ ?_
  · exact .ite hu3.svcRefuse (.ite hu3.svcRefuse (.ite ht1 ht1.updStack.raise))
  · refine .ite ?_ ?_
    · exact .ite hu3.svcRefuse (.ite hu3.svcRefuse hu3.raise.svcEnd)
    · exact .ite (.ite hu3.svcRefuse (.ite hu3.svcRefuse hu3.raise.svcEnd)) hu3.svcRefuse

theorem Kept.execSvcOpInvalid {w op arg} : NextKept o (Machine.execSvcOpInvalid w op arg s) := by
  unfold Machine.execSvcOpInvalid
  exact .intro (.ite h (h.svc (fun hu => hu.svcRefuse)))

/-! ### Machine/Boot.lean: boot steps -/

theorem Kept.bootRefuse {k} : Kept o (s.bootRefuse k) := by
  unfold State.bootRefuse
  exact h.wr.bootErr

theorem Kept.bootStart {k arg} : Kept o (s.bootStart k arg) := by
  unfold State.bootStart
  extract_lets s1 s0 s2
  have hs1 : Kept o s1 := h.wr.wr.wr.wr
  have hs0 : Kept o s0 := .ite hs1.wr hs1
  have hs2 : Kept o s2 := hs0.setBootStep.updRve
  exact .ite hs2.bootFail hs2

theorem Kept.bootRun {w k arg us f} (hf : ∀ {u a}, Kept o u → Kept o (f u a)) : Kept o (s.bootRun w k arg us f) := by
  unfold State.bootRun
  extract_lets go s1
  have hgo : ∀ {t a}, Kept o t → Kept o (go t a) := fun ht => hf ht.later
  have hs1 : Kept o s1 := h.bootStart
  exact .ite (hgo h) (.ite h (.ite h.bootRefuse (.ite (hgo hs1) hs1)))

theorem Kept.execBootGoRefused {w step arg} : NextKept o (Machine.execBootGoRefused w step arg s) := by
  unfold Machine.execBootGoRefused
  exact .intro (.ite ((Kept.ite h h.wr.wr).bootRefuse) h)

theorem Kept.vstGo : Kept o s.vstGo := by
  unfold State.vstGo
  extract_lets w n t run
  have hrun : ∀ {r : State → Res}, (∀ {u}, Kept o u → NextKept o (r u)) → Kept o (run r) := fun hr => .stateOr (hr h.wr)
  clear_value run
  split
  · exact hrun fun hu => hu.execLcTransition
  · exact hrun fun hu => hu.execDebugCert
  · exact hrun fun hu => hu.execEpochRaise
  · exact hrun fun hu => hu.execOwnerSet
  · exact hrun fun hu => hu.execSiteAttest
  · exact hrun fun hu => hu.execLedgerCheckpoint
  · exact hrun fun hu => hu.execPurge
  · exact hrun fun hu => hu.execIdentity
  · exact h

theorem Kept.execBootVestry {w arg us rom sig} : NextKept o (Machine.execBootVestry w arg us rom sig s) := by
  unfold Machine.execBootVestry
  refine .intro ?_
  refine Kept.bootRun h (fun hu3 => ?_)
  extract_lets _ t1 t2
  have ht1 : Kept o t1 := Kept.foldl (fun _ _ ht4 => ht4.lcFinish.wr) hu3
  have ht2 : Kept o t2 := ht1.wr.bootEnd
  exact .ite hu3.bootFail (.ite ht1.bootFail (.ite ht2.vstGo ht2))

theorem Kept.execBootFuses {w arg us good stks sites links bad} : NextKept o (Machine.execBootFuses w arg us good stks sites links bad s) := by
  unfold Machine.execBootFuses
  refine .intro ?_
  refine Kept.bootRun h (fun hu3 => ?_)
  extract_lets t1 t2
  have ht1 : Kept o t1 := hu3.wr.wr.wr
  have ht2 : Kept o t2 := Kept.foldl (fun _ _ ht4 => ht4.markFailed) ht1
  exact .ite hu3.bootFail ht2.showPopulated.bootEnd

theorem Kept.execBootCommons {w arg us corr bad} : NextKept o (Machine.execBootCommons w arg us corr bad s) := by
  unfold Machine.execBootCommons
  refine .intro ?_
  refine Kept.bootRun h (fun hu3 => ?_)
  extract_lets t1
  have ht1 : Kept o t1 := hu3.inc
  clear_value t1
  split
  · exact ht1.bootFail
  · exact ht1.bootEnd

theorem Kept.execBootReeve {w arg us sig} : NextKept o (Machine.execBootReeve w arg us sig s) := by
  unfold Machine.execBootReeve
  refine .intro ?_
  refine Kept.bootRun h (fun hu3 => ?_)
  extract_lets
  exact .ite hu3.bootFail hu3.updRve.bootEnd

theorem Kept.execBootKat {w arg us fails homes} : NextKept o (Machine.execBootKat w arg us fails homes s) := by
  unfold Machine.execBootKat
  refine .intro ?_
  refine Kept.bootRun h (fun hu3 => ?_)
  extract_lets _ t1 t2 t3
  have ht1 : Kept o t1 := Kept.foldl (fun _ _ ht4 => ht4.setDom (by decide)) hu3
  have ht2 : Kept o t2 := Kept.foldl (fun _ _ ht5 => ht5.markFailed.inc.setDom (by decide)) ht1
  have ht3 : Kept o t3 := ht2.zeroSram
  clear_value t1 t2 t3
  split
  · exact ht3.bootFail
  · exact ht3.bootEnd

theorem Kept.execBootRoll {w arg us} : NextKept o (Machine.execBootRoll w arg us s) := by
  unfold Machine.execBootRoll
  refine .intro ?_
  refine Kept.bootRun h (fun hu3 => ?_)
  extract_lets _ _ _ t1 t2 t3
  have ht1 : Kept o t1 := hu3.same
  have ht2 : Kept o t2 := ht1.wr.wr
  have ht3 : Kept o t3 := Kept.foldl (fun _ _ ht4 => ht4.physMark) ht2
  exact .ite hu3.bootFail ht3.rollCounts.bootEnd

theorem Kept.trainStack {full t} : Kept o (s.trainStack full t) := by
  unfold State.trainStack
  extract_lets _ _ _ _ _ s1 s2 s3
  have hs1 : Kept o s1 := h.updStack
  have hs2 : Kept o s2 := hs1.wr.wr.wr.wr
  have hs3 : Kept o s3 := hs2.wr.wr.wr.wr
  exact hs3.wr.wr

theorem Kept.execBootHbm {w arg us ts} : NextKept o (Machine.execBootHbm w arg us ts s) := by
  unfold Machine.execBootHbm
  refine .intro ?_
  refine Kept.bootRun h (fun hu3 => ?_)
  extract_lets _ _ t0 t1 _ t2 _ _ t3 t4
  have ht0 : Kept o t0 := hu3.wr.wr
  have ht1 : Kept o t1 := Kept.foldl (fun _ _ ht4 => ht4.powerOff.setDom (by decide)) ht0
  have ht2 : Kept o t2 := ht1.same
  have ht3 : Kept o t3 := (Kept.foldl (fun _ _ ht5 => ht5.trainStack) ht2).wr
  have ht4 : Kept o t4 := ht3.zeroRange.wr
  clear_value t0 t1 t2 t3 t4
  refine .ite ht2.bootFail ?_
  split
  · exact ht2.bootFail
  · split
    · exact ht3.bootFail
    · exact (Kept.foldl (fun _ _ ht7 => ht7.setDom (by decide)) ht4).bootEnd

theorem Kept.bootLink {full t} : Kept o (s.bootLink full t) := by
  unfold State.bootLink
  extract_lets _ _ s1 s2
  have hs1 : Kept o s1 := (h.setDom (by decide)).updLink
  have hs2 : Kept o s2 := hs1.retrainLink.trainEnd
  exact .ite hs2 hs2.inc

theorem Kept.execBootLinks {w arg us ts} : NextKept o (Machine.execBootLinks w arg us ts s) := by
  unfold Machine.execBootLinks
  refine .intro ?_
  refine Kept.bootRun h (fun hu3 => ?_)
  extract_lets t1 _ t2
  have ht1 : Kept o t1 := hu3.wr
  have ht2 : Kept o t2 := Kept.foldl (fun _ _ ht4 => ht4.setDom (by decide)) ht1
  exact (Kept.foldl (fun _ _ ht5 => ht5.bootLink) ht2).bootEnd

theorem Kept.bootSites : Kept o s.bootSites := by
  unfold State.bootSites
  refine Kept.sitesBooted ?_
  refine Kept.foldl (fun u a hu2 => ?_) h
  extract_lets
  exact .ite hu2.openDom hu2

theorem Kept.bootCrier : Kept o s.bootCrier := by
  unfold State.bootCrier
  exact h.crierSlots

theorem Kept.bootGo {k arg} : Kept o (s.bootGo k arg) := by
  unfold State.bootGo
  extract_lets s1
  have hs1 : Kept o s1 := h.bootStart
  exact .ite hs1 (.ite hs1.bootSites (.ite hs1.bootCrier hs1))

theorem Kept.bootCommand {w k arg} : Kept o (s.bootCommand w k arg) := by
  unfold State.bootCommand
  exact .ite h (.ite h.bootRefuse h.bootGo)

theorem Kept.execBootSites {w arg} : NextKept o (Machine.execBootSites w arg s) := by
  unfold Machine.execBootSites
  exact .intro h.bootCommand

theorem Kept.execBootCrier {w arg} : NextKept o (Machine.execBootCrier w arg s) := by
  unfold Machine.execBootCrier
  exact .intro h.bootCommand

theorem Kept.execBootReady {w arg us} : NextKept o (Machine.execBootReady w arg us s) := by
  unfold Machine.execBootReady
  refine .intro ?_
  refine Kept.bootRun h (fun hu3 => ?_)
  extract_lets
  exact .ite hu3.bootEnd.wr.stwTurn hu3.bootFail

theorem Kept.execBootSaveHbm {w} : NextKept o (Machine.execBootSaveHbm w s) := by
  unfold Machine.execBootSaveHbm
  exact .intro (.ite ((Kept.foldl (fun _ _ ht => Kept.ite ht.saveSet ht) h).wr) h)

theorem Kept.execBootSaveLinks {w} : NextKept o (Machine.execBootSaveLinks w s) := by
  unfold Machine.execBootSaveLinks
  exact .intro (.ite ((Kept.foldl (fun _ _ ht => Kept.ite ht.updRve ht) h).wr) h)

/-! ### Machine/Domains.lean: Stile domains -/

theorem Kept.execStileAck {agent st} : NextKept o (Machine.execStileAck agent st s) := by
  unfold Machine.execStileAck
  extract_lets
  exact .intro (.ite h.rollAck.reeveTurn h.stileAck)

theorem Kept.execDomainFenced {dom} : NextKept o (Machine.execDomainFenced dom s) := by
  unfold Machine.execDomainFenced
  exact .intro h.domainFenced.reeveTurn

theorem Kept.execDomainPowerOff {dom} : NextKept o (Machine.execDomainPowerOff dom s) := by
  unfold Machine.execDomainPowerOff
  exact .intro h.domainPowerOff.sitesBooted.reeveTurn.stwTurn

theorem Kept.linkOpened {dom} : Kept o (s.linkOpened dom) := by
  unfold State.linkOpened
  extract_lets
  exact .ite (.ite h.retrainLink h) h

theorem Kept.execDomainOpened {dom ok} : NextKept o (Machine.execDomainOpened dom ok s) := by
  unfold Machine.execDomainOpened
  exact .intro (.ite h h.domainOpened.linkOpened.sitesBooted.reeveTurn.stwTurn)

/-! ### Machine/Flash.lean: flash -/

theorem Kept.flashEnd {status} : Kept o (s.flashEnd status) := by
  unfold State.flashEnd
  exact h.wr.wr

theorem Kept.flashGo {w op slot len f} (hf : ∀ {u}, Kept o u → Kept o (f u)) : Kept o (s.flashGo w op slot len f) := by
  unfold State.flashGo
  exact .ite h (.ite h.wr (.ite h.wr.wr (hf h.wr.wr.wr.wr)))

theorem Kept.stage {slot d fault} : Kept o (s.stage slot d fault).2 := by
  unfold State.stage
  extract_lets _ s1
  have hs1 : Kept o s1 := h.updRve.flashPut
  clear_value s1
  split
  · exact Kept.inSnd hs1.raise
  · exact Kept.iteSnd (Kept.inSnd hs1.updRve) hs1

theorem Kept.stageRun {fault} : Kept o (s.stageRun fault) := by
  unfold State.stageRun
  extract_lets
  refine .ite h.flashEnd ?_
  refine .ite h.flashEnd ?_
  split
  · rename_i x s1 heq
    have hs1 : Kept o s1 := Kept.snd heq h.snoopRead
    exact hs1
  · rename_i x s1 heq
    have hs1 : Kept o s1 := Kept.snd heq h.snoopRead
    exact hs1.flashEnd
  · rename_i x bytes bad s0 heq
    have hs0 : Kept o s0 := Kept.snd heq h.snoopRead
    refine .ite hs0.flashEnd ?_
    split
    · rename_i x r t1 heq
      have ht1 : Kept o t1 := Kept.snd heq hs0.stage
      exact ht1.flashEnd

theorem Kept.execFlashStage {w slot len fault} : NextKept o (Machine.execFlashStage w slot len fault s) := by
  unfold Machine.execFlashStage
  exact .intro (.ite h.stageRun (h.flashGo (fun hu => hu.stageRun)))

theorem Kept.flipBank {slot} : Kept o (s.flipBank slot) := by
  unfold State.flipBank
  split
  · exact h.flashPut.updRve

theorem Kept.activate {slot} : Kept o (s.activate slot).2 := by
  unfold State.activate
  exact Kept.iteSnd h (Kept.iteSnd h (Kept.inSnd h.flipBank))

theorem Kept.execFlashActivate {w slot} : NextKept o (Machine.execFlashActivate w slot s) := by
  unfold Machine.execFlashActivate
  refine .intro ?_
  refine Kept.flashGo h (fun hu3 => ?_)
  split
  · rename_i x r t1 heq
    have ht1 : Kept o t1 := Kept.snd heq hu3.activate
    exact ht1.flashEnd

theorem Kept.execFlashOpInvalid {w op slot} : NextKept o (Machine.execFlashOpInvalid w op slot s) := by
  unfold Machine.execFlashOpInvalid
  extract_lets
  exact .intro (.ite h (h.flashGo (fun hu => hu.flashEnd)))

/-! ### Machine/Csr.lean: register reads -/

theorem Kept.epSetWord {off v} : Kept o (s.epSetWord off v) := by
  unfold State.epSetWord
  extract_lets
  exact .ite h (.ite (.ite h.updHep h.updHep) (.ite h.updHep h))

theorem Kept.regRead {off size} : Kept o (s.regRead off size).2.2 := by
  unfold State.regRead
  extract_lets
  refine .iteThird h ?_
  refine .iteThird h ?_
  split
  · exact h
  · exact h
  · extract_lets
    exact Kept.iteThird (Kept.inThird h.fresh) (Kept.iteThird (Kept.inThird h.ledgerRefusal) h)

/-! ### Machine/Loss.lean: loss of a stack -/

theorem Kept.lossTurn : Kept o s.lossTurn := by
  unfold State.lossTurn
  extract_lets s1 _ s2
  have hs1 : Kept o s1 := h.millRetire
  clear_value s1
  have hs2 : Kept o s2 := hs1.same
  exact .ite h hs2.failItems.stwTurn

theorem Kept.execStackLoss {m cause} : NextKept o (Machine.execStackLoss m cause s) := by
  unfold Machine.execStackLoss
  exact .intro h.loseStack.lossTurn

theorem Kept.execHomeReadComplete {h' line c} : NextKept o (Machine.execHomeReadComplete h' line c s) := by
  unfold Machine.execHomeReadComplete
  refine .intro ?_
  split
  · exact h
  · extract_lets s0 s1
    have hs0 : Kept o s0 := .ite h.chargeMembers h
    have hs1 : Kept o s1 := hs0.updHome
    clear_value s0 s1
    refine .ite h ?_
    split
    · rename_i x d fst fst1 s1 heq
      have hs1 : Kept o s1 := Kept.fourth heq hs1.codeRead
      exact hs1.sendRead.checkUes.lossTurn

theorem Kept.execLineWaiterServed {line} : NextKept o (Machine.execLineWaiterServed line s) := by
  unfold Machine.execLineWaiterServed
  extract_lets
  refine .intro ?_
  split
  · exact h.pump.checkUes.lossTurn
  · exact h

theorem Kept.execStackTempRead {m temp refresh vddq} : NextKept o (Machine.execStackTempRead m temp refresh vddq s) := by
  unfold Machine.execStackTempRead
  extract_lets s1 s2
  have hs1 : Kept o s1 := h.wr.wr.updStack
  have hs2 : Kept o s2 := .ite hs1.setStep hs1
  exact .intro (.ite h (.ite hs2.loseStack.lossTurn hs2.checkEnv))

theorem Kept.execScrubRead {m hpa c row} : NextKept o (Machine.execScrubRead m hpa c row s) := by
  unfold Machine.execScrubRead
  exact .intro (.ite h h.enterWait.checkUes.lossTurn)

theorem Kept.execLaneRepair {m fix} : NextKept o (Machine.execLaneRepair m fix s) := by
  unfold Machine.execLaneRepair
  refine .intro ?_
  split
  · exact h.updStack.inc
  · exact h.loseStack.lossTurn

theorem Kept.execStackNoAnswerTimeout {m} : NextKept o (Machine.execStackNoAnswerTimeout m s) := by
  unfold Machine.execStackNoAnswerTimeout
  exact .intro h.loseStack.lossTurn

/-! ### Machine/SluCmds.lean: commands of the Sluice -/

theorem Kept.sluPump : Kept o s.sluPump := by
  unfold State.sluPump
  extract_lets homes modules links
  have hhomes : Kept o homes := Kept.foldl (fun _ _ ht => Kept.ite ht ht.pumpAll) h
  have hmodules : Kept o modules := by
    unfold modules
    refine Kept.foldl (fun u a hu3 => ?_) hhomes
    extract_lets _ t1
    have ht1 : Kept o t1 := .ite hu3 hu3.pumpOut
    exact .ite ht1 ht1.pumpIn.cxlGo
  have hlinks : Kept o links := Kept.foldl (fun _ _ ht4 => Kept.ite ht4 ht4.drainLink) hmodules
  exact hlinks.checkUes.lossTurn

theorem Kept.execBucketRefill : NextKept o (Machine.execBucketRefill s) := by
  unfold Machine.execBucketRefill
  extract_lets
  exact .intro h.same.sluPump

theorem Kept.sluMiss {kind dir unit which short} : Kept o (s.sluMiss kind dir unit which short) := by
  unfold State.sluMiss
  extract_lets r c
  have hr : Kept o r := h.wr.wr.wr.wr.wr.wr.wr
  clear_value r
  have hc : Kept o c := by
    unfold c
    split
    · exact hr.inc
    · exact hr.inc
    · exact hr.inc
  exact hc.raise

theorem Kept.execSluWindowEnd {meas} : NextKept o (Machine.execSluWindowEnd meas s) := by
  unfold Machine.execSluWindowEnd
  extract_lets _ _ _ _ s1 s2 _ s3 s4
  have hs1 : Kept o s1 := by
    unfold s1
    refine Kept.foldl (fun u a hu2 => ?_) h
    split
    · exact hu2.sluMiss
  have hs2 : Kept o s2 := by
    unfold s2
    refine Kept.foldl (fun u a hu5 => ?_) hs1
    split
    · exact hu5.sluMiss
  have hs3 : Kept o s3 := Kept.foldl (fun _ _ ht6 => ht6.msix) hs2
  have hs4 : Kept o s4 := by
    unfold s4
    refine Kept.foldl (fun u a hu9 => ?_) hs3
    extract_lets _ t1
    have ht1 : Kept o t1 := hu9.wr
    exact .ite ht1.inc ht1
  clear_value s4
  exact .intro hs4.same

theorem Kept.execSluCommit {w} : NextKept o (Machine.execSluCommit w s) := by
  unfold Machine.execSluCommit
  exact .intro (.ite h (.ite h.wr h.wr.wr))

theorem Kept.execSluCommitDone : NextKept o (Machine.execSluCommitDone s) := by
  unfold Machine.execSluCommitDone
  extract_lets _ _ t
  have ht : Kept o t := h.same
  clear_value t
  exact .intro (.ite h ht.same.wr.sluPump)

theorem Kept.execSluMissClear {w} : NextKept o (Machine.execSluMissClear w s) := by
  unfold Machine.execSluMissClear
  exact .intro (.ite h (.ite h.wr h.resetReg))

/-! ### Machine/XltEnd.lean: end of an invalidation -/

theorem Kept.siteBusyAgain {x} : Kept o (s.siteBusyAgain x) := by
  unfold State.siteBusyAgain
  exact Kept.foldl (fun _ _ ht => Kept.foldl (fun _ _ ht1 => Kept.foldl (fun _ _ ht2 => ht2.stlResume) ht1) ht) h

theorem Kept.siteInv {x} : Kept o (s.siteInv x) := by
  unfold State.siteInv
  refine Kept.foldl (fun u a hu1 => ?_) h
  extract_lets
  exact .ite hu1 hu1.updSlot.siteSend

theorem Kept.execXltInvGo {w scope asid va count} : NextKept o (Machine.execXltInvGo w scope asid va count s) := by
  unfold Machine.execXltInvGo
  extract_lets s1 _ _ s2
  have hs1 : Kept o s1 := h.wr.wr.wr.wr
  have hs2 : Kept o s2 := hs1.wr.updXlt.dropScope
  exact .intro (.ite h (.ite h.wr (.ite hs1 hs2.busyAgain.siteBusyAgain.siteInv)))

theorem Kept.execXltInvComplete : NextKept o (Machine.execXltInvComplete s) := by
  unfold Machine.execXltInvComplete
  refine .intro ?_
  split
  · exact h
  · extract_lets
    exact .ite h.dropScope.updXlt.wr h

theorem Kept.resumeWaiter {w failWith} : Kept o (s.resumeWaiter w failWith) := by
  unfold State.resumeWaiter
  split
  · exact h.resumeMover
  · exact h.stlResume.cxlGo
  · exact h.stwResume
  · exact h

theorem Kept.closeFault {fid fail} : Kept o (s.closeFault fid fail) := by
  unfold State.closeFault
  split
  · exact h
  · exact Kept.foldl (fun _ _ ht => ht.resumeWaiter) h.updXlt

theorem Kept.faultResp {w fid action fail} : Kept o (s.faultResp w fid action fail) := by
  unfold State.faultResp
  extract_lets s1
  have hs1 : Kept o s1 := h.wr.wr
  exact .ite h (.ite hs1.wr hs1.closeFault)

theorem Kept.execFltRespRetry {w fid} : NextKept o (Machine.execFltRespRetry w fid s) := by
  unfold Machine.execFltRespRetry
  exact .intro h.faultResp

theorem Kept.execFltRespFail {w fid} : NextKept o (Machine.execFltRespFail w fid s) := by
  unfold Machine.execFltRespFail
  exact .intro h.faultResp

theorem Kept.execFaultEntryTimeout {fid} : NextKept o (Machine.execFaultEntryTimeout fid s) := by
  unfold Machine.execFaultEntryTimeout
  exact .intro (.ite h.inc.closeFault h)

theorem Kept.execBusyPageRetry {agent q expired} : NextKept o (Machine.execBusyPageRetry agent q expired s) := by
  unfold Machine.execBusyPageRetry
  refine .intro ?_
  split
  · split
    · exact .ite h (.ite h.failJob h.updJob)
    · exact h
  · exact .ite h h.stlResume
  · exact h

end

end Sys2Proof.Machine
end

section
/-!
PROOFS. What the operations of the hub keep: writes of the registers.
-/

namespace Sys2Proof.Machine

open Sys2Proof.Safety

section
variable {o s : State} (h : Kept o s)
include h

/-! ### Machine/CsrSet.lean: register writes and their effects -/

theorem Kept.clearBits {r c} : Kept o (s.clearBits r c) := by
  unfold State.clearBits
  exact h.setReg

theorem Kept.storeBut {r keep c} : Kept o (s.storeBut r keep c) := by
  unfold State.storeBut
  extract_lets
  exact h.setReg.clearBits

theorem Kept.store {r c} : Kept o (s.store r c) := by
  unfold State.store
  exact h.storeBut

theorem Kept.onlyBy {ok f a} (hf : ∀ {a0 u}, Kept o u → Kept o (f a0 u)) : Kept o (Machine.onlyBy ok f a s) := by
  unfold Machine.onlyBy
  exact .ite (hf h) h

theorem Kept.stored {r a} : Kept o (Machine.stored r a s) := by
  unfold Machine.stored
  exact h.store

theorem Kept.wrHubNumber {a} : Kept o (Machine.wrHubNumber a s) := by
  unfold Machine.wrHubNumber
  exact .ite h h.wr

theorem Kept.wrStileCmd {a} : Kept o (Machine.wrStileCmd a s) := by
  unfold Machine.wrStileCmd
  extract_lets s1
  have hs1 : Kept o s1 := h.store
  clear_value s1
  refine .ite h.wr ?_
  refine .ite hs1 ?_
  split
  · exact hs1.doing hs1.execStileClose
  · exact hs1.doing hs1.execStileOpen
  · exact hs1.doing hs1.execStileForceOff
  · exact hs1.doing hs1.execStileOpReserved

theorem Kept.wrIsoCmd {a} : Kept o (Machine.wrIsoCmd a s) := by
  unfold Machine.wrIsoCmd
  extract_lets s1 _ s2
  have hs1 : Kept o s1 := h.store
  have hs2 : Kept o s2 := .ite (hs1.doing hs1.execIsoIsolate) hs1
  exact .ite (hs2.doing hs2.execIsoRelease) hs2

theorem Kept.wrComTmo {a} : Kept o (Machine.wrComTmo a s) := by
  unfold Machine.wrComTmo
  extract_lets s1
  have hs1 : Kept o s1 := h.store
  exact hs1.wr.wr

theorem Kept.wrComErr {a} : Kept o (Machine.wrComErr a s) := by
  unfold Machine.wrComErr
  extract_lets s1
  have hs1 : Kept o s1 := h.store
  exact .ite (hs1.doing hs1.execComErrClear) hs1

theorem Kept.wrHomeCfg {a} : Kept o (Machine.wrHomeCfg a s) := by
  unfold Machine.wrHomeCfg
  extract_lets s1
  have hs1 : Kept o s1 := h.store
  exact .ite (hs1.doing hs1.execHomeCntClear) hs1

theorem Kept.wrLostStat {a} : Kept o (Machine.wrLostStat a s) := by
  unfold Machine.wrLostStat
  exact .ite (h.doing h.execLostLinePop) h

theorem Kept.wrHbmErr {a} : Kept o (Machine.wrHbmErr a s) := by
  unfold Machine.wrHbmErr
  exact .ite (h.doing h.execHbmErrClear) h

theorem Kept.wrHbmRepair {a} : Kept o (Machine.wrHbmRepair a s) := by
  unfold Machine.wrHbmRepair
  extract_lets s1
  have hs1 : Kept o s1 := h.store
  exact .ite (hs1.doing hs1.execHbmBurn) hs1

theorem Kept.wrHbmTrain {a} : Kept o (Machine.wrHbmTrain a s) := by
  unfold Machine.wrHbmTrain
  exact .ite (h.doing h.execHbmTrainSave) h

theorem Kept.wrGranCfg {a} : Kept o (Machine.wrGranCfg a s) := by
  unfold Machine.wrGranCfg
  exact .ite h.wr (.ite h.store (.ite h.wr h.store))

theorem Kept.wrGranCmd {a} : Kept o (Machine.wrGranCmd a s) := by
  unfold Machine.wrGranCmd
  extract_lets s1
  have hs1 : Kept o s1 := h.store
  clear_value s1
  refine .ite h.wr ?_
  refine .ite hs1 ?_
  split
  · exact hs1.doing hs1.execGranQuery
  · exact hs1.doing hs1.execGranFill
  · exact hs1.doing hs1.execGranSeal
  · exact hs1.doing hs1.execGranRelease
  · exact hs1.doing hs1.execGranRestoreBegin
  · exact hs1.doing hs1.execGranRestoreEnd
  · exact hs1.doing hs1.execGranOpNone

theorem Kept.wrFmtDesc {a} : Kept o (Machine.wrFmtDesc a s) := by
  unfold Machine.wrFmtDesc
  exact .ite h.wr h.store

theorem Kept.wrFmtCtl {a} : Kept o (Machine.wrFmtCtl a s) := by
  unfold Machine.wrFmtCtl
  extract_lets s1
  have hs1 : Kept o s1 := h.store
  exact .ite (hs1.doing hs1.execFmtCommit) hs1

theorem Kept.wrMillCfg {a} : Kept o (Machine.wrMillCfg a s) := by
  unfold Machine.wrMillCfg
  extract_lets s1
  have hs1 : Kept o s1 := h.store
  exact .ite (hs1.doing hs1.execMillCntClear) hs1

theorem Kept.wrGroup {r a} : Kept o (Machine.wrGroup r a s) := by
  unfold Machine.wrGroup
  extract_lets s1
  have hs1 : Kept o s1 := h.store
  exact .ite h.wr (.ite (hs1.doing hs1.execMillGrpCommit) hs1)

theorem Kept.wrXltInv {a} : Kept o (Machine.wrXltInv a s) := by
  unfold Machine.wrXltInv
  extract_lets s1
  have hs1 : Kept o s1 := h.store
  exact .ite h.wr (.ite (hs1.doing hs1.execXltInvGo) hs1)

theorem Kept.wrXltInvVa {a} : Kept o (Machine.wrXltInvVa a s) := by
  unfold Machine.wrXltInvVa
  exact .ite h.wr h.store

theorem Kept.wrFltRing {a} : Kept o (Machine.wrFltRing a s) := by
  unfold Machine.wrFltRing
  extract_lets s1
  have hs1 : Kept o s1 := h.store
  exact hs1.ringDrain

theorem Kept.wrFltPtr {a} : Kept o (Machine.wrFltPtr a s) := by
  unfold Machine.wrFltPtr
  extract_lets _ s1
  have hs1 : Kept o s1 := h.clearBits
  exact .ite (hs1.doing hs1.execFaultRingHead) hs1

theorem Kept.wrFltResp {a} : Kept o (Machine.wrFltResp a s) := by
  unfold Machine.wrFltResp
  extract_lets s1
  have hs1 : Kept o s1 := h.store
  exact .ite hs1 (.ite (hs1.doing hs1.execFltRespRetry) (hs1.doing hs1.execFltRespFail))

theorem Kept.wrFirstErr {r valid a} : Kept o (Machine.wrFirstErr r valid a s) := by
  unfold Machine.wrFirstErr
  exact .ite h.resetReg h

theorem Kept.wrMboxCmd {a} : Kept o (Machine.wrMboxCmd a s) := by
  unfold Machine.wrMboxCmd
  exact .ite h.wr h.store

theorem Kept.wrResAck {a} : Kept o (Machine.wrResAck a s) := by
  unfold Machine.wrResAck
  exact .ite (h.doing h.execResAck) h

theorem Kept.wrMboxCtl {a} : Kept o (Machine.wrMboxCtl a s) := by
  unfold Machine.wrMboxCtl
  extract_lets s1
  have hs1 : Kept o s1 := h.store
  exact .ite (hs1.doing hs1.execMboxGo) hs1

theorem Kept.wrQbase {a} : Kept o (Machine.wrQbase a s) := by
  unfold Machine.wrQbase
  exact .ite h.wr h.store

theorem Kept.wrQcfg {a} : Kept o (Machine.wrQcfg a s) := by
  unfold Machine.wrQcfg
  extract_lets _ s1 s2
  have hs1 : Kept o s1 := h.clearBits
  have hs2 : Kept o s2 := .ite hs1 (.ite hs1.wr hs1.storeBut)
  exact .ite hs2 (.ite (hs2.doing hs2.execQueueEnable) (hs2.doing hs2.execQueueDisable))

theorem Kept.wrCqbase {a} : Kept o (Machine.wrCqbase a s) := by
  unfold Machine.wrCqbase
  exact h.doing h.execCqbaseWrite

theorem Kept.wrEvt {a} : Kept o (Machine.wrEvt a s) := by
  unfold Machine.wrEvt
  exact h.doing h.execEvtRegWrite

theorem Kept.wrSqdb {a} : Kept o (Machine.wrSqdb a s) := by
  unfold Machine.wrSqdb
  exact .ite (h.doing h.execSqDoorbell) h

theorem Kept.wrCqdb {a} : Kept o (Machine.wrCqdb a s) := by
  unfold Machine.wrCqdb
  exact .ite (h.doing h.execCqDoorbell) h

theorem Kept.wrRsv {a} : Kept o (Machine.wrRsv a s) := by
  unfold Machine.wrRsv
  exact .ite (h.doing h.execRsvWrite) h.clearBits

theorem Kept.wrPoolCfg {a} : Kept o (Machine.wrPoolCfg a s) := by
  unfold Machine.wrPoolCfg
  extract_lets s1
  have hs1 : Kept o s1 := h.clearBits
  exact .ite (h.doing h.execPoolCommit) (.ite hs1.wr hs1)

theorem Kept.wrKvCfg0 {a} : Kept o (Machine.wrKvCfg0 a s) := by
  unfold Machine.wrKvCfg0
  exact .ite h (.ite h.wr h.store)

theorem Kept.wrKvCfg1 {a} : Kept o (Machine.wrKvCfg1 a s) := by
  unfold Machine.wrKvCfg1
  extract_lets s1
  have hs1 : Kept o s1 := h.clearBits
  exact .ite (h.doing h.execKvPoolCommit) (.ite hs1.wr hs1)

theorem Kept.wrGenOut {a} : Kept o (Machine.wrGenOut a s) := by
  unfold Machine.wrGenOut
  exact .ite h h.store.wr.updGen

theorem Kept.wrGenOutptr {a} : Kept o (Machine.wrGenOutptr a s) := by
  unfold Machine.wrGenOutptr
  extract_lets s1
  have hs1 : Kept o s1 := h.storeBut
  exact .ite (hs1.doing hs1.execGenOutHead) hs1

theorem Kept.slu {f a} (hf : ∀ {a0 u}, Kept o u → Kept o (f a0 u)) : Kept o (Machine.slu f a s) := by
  unfold Machine.slu
  exact h.onlyBy (fun hu => Kept.ite hu.wr (hf hu))

theorem Kept.wrSluCtl {a} : Kept o (Machine.wrSluCtl a s) := by
  unfold Machine.wrSluCtl
  extract_lets s1
  have hs1 : Kept o s1 := h.store
  exact .ite (hs1.doing hs1.execSluCommit) hs1

theorem Kept.wrMissCnt {a} : Kept o (Machine.wrMissCnt a s) := by
  unfold Machine.wrMissCnt
  exact .ite (h.doing h.execSluMissClear) h

theorem Kept.wrSiteCfg {a} : Kept o (Machine.wrSiteCfg a s) := by
  unfold Machine.wrSiteCfg
  exact .ite h.wr h.store

theorem Kept.wrSiteIrq {a} : Kept o (Machine.wrSiteIrq a s) := by
  unfold Machine.wrSiteIrq
  extract_lets s1
  have hs1 : Kept o s1 := h.storeBut
  exact .ite (hs1.doing hs1.execSiteIrqUnmask) hs1

theorem Kept.wrSiteWq {a} : Kept o (Machine.wrSiteWq a s) := by
  unfold Machine.wrSiteWq
  extract_lets
  exact .ite h.wr h.store

theorem Kept.wrLnkCfg {a} : Kept o (Machine.wrLnkCfg a s) := by
  unfold Machine.wrLnkCfg
  extract_lets _ _ s1 s2
  have hs1 : Kept o s1 := h.storeBut
  have hs2 : Kept o s2 := .ite hs1.wr hs1
  exact .ite (hs2.doing hs2.execLinkRetrain) hs2

theorem Kept.wrLnkErr {a} : Kept o (Machine.wrLnkErr a s) := by
  unfold Machine.wrLnkErr
  exact .ite (h.doing h.execLnkErrClear) h

theorem Kept.wrRtAcc {a} : Kept o (Machine.wrRtAcc a s) := by
  unfold Machine.wrRtAcc
  extract_lets
  exact .ite (h.doing h.execRouteWrite) h.wr

theorem Kept.wrAnchor {a} : Kept o (Machine.wrAnchor a s) := by
  unfold Machine.wrAnchor
  exact h.store

theorem Kept.wrWinCtl {a} : Kept o (Machine.wrWinCtl a s) := by
  unfold Machine.wrWinCtl
  extract_lets s1
  have hs1 : Kept o s1 := h.store
  exact .ite (hs1.doing hs1.execWindowCommit) hs1

theorem Kept.wrUnsup {a} : Kept o (Machine.wrUnsup a s) := by
  unfold Machine.wrUnsup
  exact .ite (h.doing h.execHepUnsupClear) h

theorem Kept.wrFateStat {a} : Kept o (Machine.wrFateStat a s) := by
  unfold Machine.wrFateStat
  exact .ite (h.doing h.execFatePop) h

theorem Kept.wrFateCtl {a} : Kept o (Machine.wrFateCtl a s) := by
  unfold Machine.wrFateCtl
  exact .ite (h.doing h.execFateAck) h

theorem Kept.vstCommand {w cmd len} : Kept o (s.vstCommand w cmd len) := by
  unfold State.vstCommand
  split
  · exact h.doing h.execLcTransition
  · exact h.doing h.execDebugCert
  · exact h.doing h.execEpochRaise
  · exact h.doing h.execOwnerSet
  · exact h.doing h.execSiteAttest
  · exact h.doing h.execLedgerCheckpoint
  · exact h.doing h.execPurge
  · exact h.doing h.execIdentity
  · exact h

theorem Kept.wrVstMboxCtl {a} : Kept o (Machine.wrVstMboxCtl a s) := by
  unfold Machine.wrVstMboxCtl
  extract_lets s1 s2 _ s3
  have hs1 : Kept o s1 := h.clearBits
  have hs2 : Kept o s2 := .ite (hs1.doing hs1.execVstMboxAck) hs1
  have hs3 : Kept o s3 := hs2.store
  exact .ite hs2 (.ite hs2.wr (.ite hs3.vstCommand hs3))

theorem Kept.wrVstDir {a} : Kept o (Machine.wrVstDir a s) := by
  unfold Machine.wrVstDir
  exact .ite h.wr h.store

theorem Kept.wrLdgPtr {a} : Kept o (Machine.wrLdgPtr a s) := by
  unfold Machine.wrLdgPtr
  exact .ite (h.doing h.execLedgerExport) h

theorem Kept.wrBootCmd {a} : Kept o (Machine.wrBootCmd a s) := by
  unfold Machine.wrBootCmd
  extract_lets s1
  have hs1 : Kept o s1 := .ite h.clearBits h.store
  exact .ite hs1.bootCommand hs1

theorem Kept.wrBootSave {a} : Kept o (Machine.wrBootSave a s) := by
  unfold Machine.wrBootSave
  extract_lets s1
  have hs1 : Kept o s1 := .ite (h.doing h.execBootSaveHbm) h
  exact .ite (hs1.doing hs1.execBootSaveLinks) hs1

theorem Kept.wrSvcCmd {a} : Kept o (Machine.wrSvcCmd a s) := by
  unfold Machine.wrSvcCmd
  extract_lets s1
  have hs1 : Kept o s1 := h.store
  clear_value s1
  refine .ite h.wr ?_
  refine .ite hs1 ?_
  split
  · exact hs1.svcEnd
  · exact hs1.doing hs1.execSvcWarm
  · exact hs1.doing hs1.execSvcHubReset
  · exact hs1.doing hs1.execSvcDomainReset
  · exact hs1.doing hs1.execSvcDoze
  · exact hs1.doing hs1.execSvcWake
  · exact hs1.doing hs1.execSvcUnitFail
  · exact hs1.doing hs1.execSvcFwUpdate
  · exact hs1.doing hs1.execSvcRecal
  · exact hs1.doing hs1.execSvcOpInvalid

theorem Kept.wrEvtRing {a} : Kept o (Machine.wrEvtRing a s) := by
  unfold Machine.wrEvtRing
  extract_lets s1
  have hs1 : Kept o s1 := h.store
  exact .ite hs1.evtDrain hs1

theorem Kept.wrEvtPtr {a} : Kept o (Machine.wrEvtPtr a s) := by
  unfold Machine.wrEvtPtr
  extract_lets _ s1
  have hs1 : Kept o s1 := h.clearBits
  exact .ite (hs1.doing hs1.execEvtRingHead) hs1

theorem Kept.wrFlashCmd {a} : Kept o (Machine.wrFlashCmd a s) := by
  unfold Machine.wrFlashCmd
  extract_lets s1
  have hs1 : Kept o s1 := h.store
  refine .ite ?_ ?_
  · exact h.wr
  · refine .ite ?_ ?_
    · exact hs1
    · refine .ite ?_ ?_
      · exact hs1.flashGo (fun hu6 => Kept.ite hu6.flashEnd hu6)
      · exact .ite (hs1.doing hs1.execFlashActivate) (hs1.doing hs1.execFlashOpInvalid)

end

/-- A register effect keeps what every operation keeps. -/
def EffectKept (f : RegEffect) : Prop := ∀ {c : RegWr} {o s : State}, Kept o s → Kept o (f c s)

theorem EffectKept.onlyBy {ok : Writer → Bool} {f : RegEffect} (hf : EffectKept f) : EffectKept (Machine.onlyBy ok f) := fun h => h.onlyBy hf

/-- Effects that each keep it, in a list. -/
def EffectsKept (l : List (RegDef × RegEffect)) : Prop := ∀ e ∈ l, EffectKept e.2

theorem EffectsKept.append {l m : List (RegDef × RegEffect)} (hl : EffectsKept l) (hm : EffectsKept m) : EffectsKept (l ++ m) :=
  List.forall_mem_append.2 ⟨hl, hm⟩

theorem EffectsKept.onlyBy {ok : Writer → Bool} {l : List (RegDef × RegEffect)} (hl : EffectsKept l) :
    EffectsKept (l.map (fun e => (e.1, Machine.onlyBy ok e.2))) :=
  List.forall_mem_map.2 fun e he => EffectKept.onlyBy (hl e he)

theorem EffectsKept.nil : EffectsKept [] := fun _ he => nomatch he

theorem EffectsKept.cons {r : RegDef} {f : RegEffect} {l : List (RegDef × RegEffect)} (hf : EffectKept f) (hl : EffectsKept l) :
    EffectsKept ((r, f) :: l) :=
  List.forall_mem_cons.2 ⟨hf, hl⟩

theorem regEffects_kept : EffectsKept regEffects := by
  unfold regEffects
  refine .append (.append (.append (.append (.append (.append (.append ?_ ?_) ?_) ?_) ?_) ?_) ?_) ?_
  · exact .cons (fun h => h.wrHubNumber) <| .cons (fun h => h.stored) <| .cons (fun h => h.wrStileCmd) <| .cons (fun h => h.stored) <|
      .cons (fun h => h.wrComTmo) <| .cons (fun h => h.wrIsoCmd) <| .cons (fun h => h.wrComErr) <| .cons (fun h => h.stored) <|
      .cons (fun h => h.wrHomeCfg) <| .cons (fun h => h.wrLostStat) <| .cons (fun h => h.stored) <| .cons (fun h => h.wrHbmErr) <|
      .cons (fun h => h.stored) <| .cons (fun h => h.wrHbmRepair) <| .cons (fun h => h.wrHbmTrain) <| .cons (fun h => h.wrGranCfg) <|
      .cons (fun h => h.wrGranCmd) <| .cons (fun h => h.stored) <| .cons (fun h => h.stored) <| .cons (fun h => h.wrFmtDesc) <|
      .cons (fun h => h.wrFmtCtl) <| .cons (fun h => h.wrMillCfg) <| .cons (fun h => h.stored) <| .cons (fun h => h.wrGroup) <|
      .cons (fun h => h.wrGroup) <| .cons (fun h => h.wrGroup) <| .nil
  · exact .onlyBy (.cons (fun h => h.stored) <| .cons (fun h => h.wrXltInv) <| .cons (fun h => h.wrXltInvVa) <|
      .cons (fun h => h.stored) <| .cons (fun h => h.wrFltRing) <| .cons (fun h => h.wrFltPtr) <| .cons (fun h => h.wrFltResp) <| .nil)
  · exact .onlyBy (.cons (fun h => h.stored) <| .cons (fun h => h.wrFirstErr) <| .cons (fun h => h.wrMboxCmd) <|
      .cons (fun h => h.wrResAck) <| .cons (fun h => h.wrMboxCtl) <| .cons (fun h => h.wrQbase) <| .cons (fun h => h.wrQcfg) <|
      .cons (fun h => h.wrCqbase) <| .cons (fun h => h.stored) <| .cons (fun h => h.wrEvt) <| .cons (fun h => h.stored) <|
      .cons (fun h => h.stored) <| .cons (fun h => h.wrRsv) <| .cons (fun h => h.wrPoolCfg) <| .cons (fun h => h.wrKvCfg0) <|
      .cons (fun h => h.wrKvCfg1) <| .cons (fun h => h.wrGenOut) <| .cons (fun h => h.wrGenOutptr) <| .cons (fun h => h.wrSiteCfg) <|
      .cons (fun h => h.stored) <| .cons (fun h => h.wrSiteIrq) <| .cons (fun h => h.wrFirstErr) <| .cons (fun h => h.wrSiteWq) <| .nil)
  · exact .cons (fun h => h.wrSqdb) <| .cons (fun h => h.wrCqdb) <| .cons (fun h => h.slu fun hu => hu.wrSluCtl) <|
      .cons (fun h => h.slu fun hu => hu.stored) <| .cons (fun h => h.slu fun hu => hu.stored) <|
      .cons (fun h => h.slu fun hu => hu.wrMissCnt) <| .cons (fun h => h.slu fun hu => hu.stored) <|
      .cons (fun h => h.slu fun hu => hu.stored) <| .cons (fun h => h.slu fun hu => hu.stored) <| .nil
  · exact .onlyBy (.cons (fun h => h.wrLnkCfg) <| .cons (fun h => h.wrLnkErr) <| .cons (fun h => h.stored) <| .cons (fun h => h.stored) <|
      .cons (fun h => h.stored) <| .cons (fun h => h.stored) <| .cons (fun h => h.stored) <| .cons (fun h => h.wrRtAcc) <|
      .cons (fun h => h.wrAnchor) <| .cons (fun h => h.stored) <| .cons (fun h => h.stored) <| .cons (fun h => h.stored) <|
      .cons (fun h => h.wrWinCtl) <| .cons (fun h => h.stored) <| .cons (fun h => h.wrUnsup) <| .cons (fun h => h.stored) <|
      .cons (fun h => h.wrFateStat) <| .cons (fun h => h.wrFateCtl) <| .nil)
  · exact .cons (fun h => h.onlyBy fun hu => hu.stored) <| .nil
  · exact .onlyBy (.cons (fun h => h.wrVstMboxCtl) <| .cons (fun h => h.stored) <| .cons (fun h => h.wrVstDir) <|
      .cons (fun h => h.wrLdgPtr) <| .cons (fun h => h.stored) <| .cons (fun h => h.stored) <| .cons (fun h => h.wrSvcCmd) <|
      .cons (fun h => h.wrEvtRing) <| .cons (fun h => h.wrEvtPtr) <| .cons (fun h => h.stored) <| .cons (fun h => h.stored) <|
      .cons (fun h => h.stored) <| .cons (fun h => h.stored) <| .cons (fun h => h.stored) <| .cons (fun h => h.wrFlashCmd) <|
      .cons (fun h => h.stored) <| .nil)
  · exact .onlyBy (.cons (fun h => h.wrBootCmd) <| .cons (fun h => h.stored) <| .cons (fun h => h.wrBootSave) <| .nil)

section
variable {o s : State} (h : Kept o s)
include h

theorem Kept.regWrite {w off size value} : Kept o (s.regWrite w off size value).2 := by
  unfold State.regWrite
  extract_lets s1 sh
  have hs1 : Kept o s1 := h.epSetWord
  refine .iteSnd h (.iteSnd (.inSnd (.ite hs1.epSetWord hs1)) ?_)
  split
  · exact h
  · exact h
  · refine .iteSnd (.inSnd h.inc.wr.wr.wr) ?_
    split
    · exact h
    · rename_i heq
      exact regEffects_kept _ (List.mem_of_find?_eq_some heq) h

theorem Kept.hostRegRead {off size} : Kept o (s.hostRegRead off size).2 := by
  unfold State.hostRegRead
  split
  · rename_i x old bad s1 heq
    have hs1 : Kept o s1 := Kept.third heq h.regRead
    exact Kept.inSnd (Kept.ite hs1 hs1.hepUnsup)

theorem Kept.hostRegWrite {off size value} : Kept o (s.hostRegWrite off size value) := by
  unfold State.hostRegWrite
  split
  · rename_i x ok s1 heq
    have hs1 : Kept o s1 := Kept.snd heq h.regWrite
    exact .ite hs1 hs1.hepUnsup

theorem Kept.execRegisterWrite {w off size value} : NextKept o (Machine.execRegisterWrite w off size value s) := by
  unfold Machine.execRegisterWrite
  refine .intro ?_
  refine .ite h ?_
  split
  · exact h.hostRegWrite
  · exact .ite h.regWrite h
  · exact h.regWrite

theorem Kept.csrServe {q f} (hf : ∀ {u a1}, Kept o u → Kept o (f u a1)) : Kept o (s.csrServe q f) := by
  unfold State.csrServe
  extract_lets s1
  have hs1 : Kept o s1 := .ite h h.request
  clear_value s1
  split
  · exact .ite (hf hs1) hs1
  · exact hs1

theorem Kept.execCsrRd {p} : NextKept o (Machine.execCsrRd p s) := by
  unfold Machine.execCsrRd
  extract_lets
  refine .intro ?_
  refine Kept.csrServe h (fun hu3 => ?_)
  split
  · rename_i x old bad s1 heq
    have hs1 : Kept o s1 := Kept.third heq hu3.regRead
    exact hs1.send

theorem Kept.execCsrWr {p} : NextKept o (Machine.execCsrWr p s) := by
  unfold Machine.execCsrWr
  extract_lets
  exact .intro (h.csrServe (fun hu => hu.regWrite.send))

end

end Sys2Proof.Machine
end

section
/-!
PROOFS. What the operations of the hub keep: host memory, answers, management and bell time.
-/

namespace Sys2Proof.Machine

open Sys2Proof.Safety

section
variable {o s : State} (h : Kept o s)
include h

/-! ### Machine/HostMem.lean: host memory requests -/

theorem Kept.cxlIssue {r p} : Kept o (s.cxlIssue r p) := by
  unfold State.cxlIssue
  extract_lets
  exact h.updHep.issue

theorem Kept.hostParts {r} : Kept o (s.hostParts r) := by
  unfold State.hostParts
  split
  · exact h.cxlIssue
  · extract_lets
    exact .ite h.dmaRead (.ite h.dmaWrite h.issue)

theorem Kept.hostEnd {r} : Kept o (s.hostEnd r) := by
  unfold State.hostEnd
  exact .ite h (.ite (.ite h h.hepUnsup) (.ite h.hostSend (.ite h.hepUnsup.hostSend h.aer.hostSend)))

theorem Kept.hostBar0 {r} : Kept o (s.hostBar0 r) := by
  unfold State.hostBar0
  refine .ite ?_ h.hostRegWrite
  split
  · rename_i x r t1 heq
    have ht1 : Kept o t1 := Kept.snd heq h.hostRegRead
    exact ht1.hostSend

theorem Kept.hostServe {n} : Kept o (State.hostServe n s) := by
  induction n generalizing s with
  | zero =>
    rw [State.hostServe]
    exact h
  | succ n ih =>
    rw [State.hostServe]
    split
    · exact h
    · extract_lets s1
      have hs1 : Kept o s1 := .ite h (.ite h h.updHep.hostParts)
      clear_value s1
      split
      · exact hs1
      · exact .ite (ih hs1.updHep.hostBar0) (.ite (ih hs1.updHep.hostEnd) hs1)

theorem Kept.hostTurn : Kept o s.hostTurn := by
  unfold State.hostTurn
  exact h.hostServe

theorem Kept.hostAnswer {q p} : Kept o (s.hostAnswer q p) := by
  unfold State.hostAnswer
  split
  · exact h
  · extract_lets
    exact h.updHep.hostTurn

theorem Kept.hostRefuse {r} : Kept o (s.hostRefuse r) := by
  unfold State.hostRefuse
  exact .ite (.ite h.hepUnsup h) h.aer.hostSend

theorem Kept.hostArrive {r} : Kept o (s.hostArrive r) := by
  unfold State.hostArrive
  extract_lets
  exact .ite h (.ite h.hostRefuse h.updHep.hostTurn)

theorem Kept.execHostMemRead {bar tag off len} : NextKept o (Machine.execHostMemRead bar tag off len s) := by
  unfold Machine.execHostMemRead
  exact .intro h.hostArrive

theorem Kept.execHostMemWrite {bar off data ep} : NextKept o (Machine.execHostMemWrite bar off data ep s) := by
  unfold Machine.execHostMemWrite
  exact .intro h.hostArrive

theorem Kept.execHostAtomicop {tag off op size a b} : NextKept o (Machine.execHostAtomicop tag off op size a b s) := by
  unfold Machine.execHostAtomicop
  extract_lets
  exact .intro (.ite h (.ite h.hostRefuse h.hostArrive))

theorem Kept.cxlEnter {tag line kind p} : Kept o (s.cxlEnter tag line kind p) := by
  unfold State.cxlEnter
  extract_lets
  exact h.updHep.hostTurn

theorem Kept.execCxlMemrd {tag line mval} : NextKept o (Machine.execCxlMemrd tag line mval s) := by
  unfold Machine.execCxlMemrd
  extract_lets
  exact .intro (.ite h (.ite h.hostSend.fresh.hepUnsup h.cxlEnter))

theorem Kept.execCxlMemwr {tag line mask data ep} : NextKept o (Machine.execCxlMemwr tag line mask data ep s) := by
  unfold Machine.execCxlMemwr
  extract_lets
  exact .intro (.ite h (.ite h.hostSend.hepUnsup h.cxlEnter))

theorem Kept.execCxlMemclnevct {tag line} : NextKept o (Machine.execCxlMemclnevct tag line s) := by
  unfold Machine.execCxlMemclnevct
  exact .intro (.ite h (.ite h.hostSend.hepUnsup h.issue.hostSend))

theorem Kept.cxlFlush {l} : Kept o (s.cxlFlush l) := by
  unfold State.cxlFlush
  extract_lets
  exact Kept.foldl (fun _ _ ht => ht.hostParts) h.updHep

theorem Kept.execCxlBirsp {line st} : NextKept o (Machine.execCxlBirsp line st s) := by
  unfold Machine.execCxlBirsp
  refine .intro ?_
  split
  · exact h.cxlFlush.send
  · exact h

/-! ### Machine/Pairs.lean: loss of a pair -/

theorem Kept.execXpRto {hub} : NextKept o (Machine.execXpRto hub s) := by
  unfold Machine.execXpRto
  refine .intro ?_
  split
  · exact h
  · exact .ite h (.ite (h.losePair (fun hu => hu.millHubLost)) h.resend)

theorem Kept.execXpOpenRetry {hub expired} : NextKept o (Machine.execXpOpenRetry hub expired s) := by
  unfold Machine.execXpOpenRetry
  refine .intro ?_
  split
  · exact h
  · exact .ite h (.ite (h.losePair (fun hu => hu.millHubLost)) (Kept.foldl (fun _ _ ht1 => ht1.transmit) h.putSend))

theorem Kept.fabricTurn : Kept o s.fabricTurn := by
  unfold State.fabricTurn
  extract_lets s1
  have hs1 : Kept o s1 := Kept.foldl (fun _ _ ht => ht.drainLink) h
  exact Kept.foldl (fun _ _ ht1 => ht1.sendPerf) hs1

theorem Kept.tick : Kept o s.tick := by
  unfold State.tick
  exact h.tickLanes.fabricTurn

/-! ### Machine/Answers.lean: responses and events -/

theorem Kept.handAnswer {r p} : Kept o (s.handAnswer r p) := by
  unfold State.handAnswer
  extract_lets
  split
  · exact h.coreAnswer
  · exact h.moverAnswer
  · exact h.millAnswer
  · exact .ite h.siteGrant h.siteAnswer.cxlGo
  · exact h.linkAnswer
  · exact .ite h.stwAnswer.announced.stwTurn.reeveTurn h
  · exact h.xltResume
  · exact h.announced
  · split
    · exact h.cxlAnswer.hostTurn
    · exact .ite h.hostAnswer h
  · exact h

theorem Kept.handWfail {a p} : Kept o (s.handWfail a p) := by
  unfold State.handWfail
  extract_lets s1
  have hs1 : Kept o s1 := h.updIface
  clear_value s1
  split
  · exact hs1.coreWfail
  · exact hs1.moverWfail
  · exact hs1.siteWfail
  · exact hs1

theorem Kept.respond {p} : Kept o (s.respond p) := by
  unfold State.respond
  extract_lets
  refine .ite h.absorbRsp ?_
  refine .ite h.handWfail ?_
  split
  · exact h.absorbRsp
  · extract_lets s1
    have hs1 : Kept o s1 := h.updIface
    exact hs1.handAnswer.releaseWaiting

theorem Kept.response {p} : Kept o (s.response p) := by
  unfold State.response
  refine Kept.delivering h (fun hu1 => hu1.respond) ?_
  refine .ite h ?_
  split
  · exact h.isolate
  · extract_lets s1
    have hs1 : Kept o s1 := h.updIface
    exact .ite hs1.send hs1.respond

theorem Kept.execRsp {p} : NextKept o (Machine.execRsp p s) := by
  unfold Machine.execRsp
  exact .intro h.response

theorem Kept.execRspData {p} : NextKept o (Machine.execRspData p s) := by
  unfold Machine.execRspData
  exact .intro h.response

theorem Kept.execRspData2 {p} : NextKept o (Machine.execRspData2 p s) := by
  unfold Machine.execRspData2
  exact .intro h.response

theorem Kept.execWfail {p} : NextKept o (Machine.execWfail p s) := by
  unfold Machine.execWfail
  exact .intro h.response

theorem Kept.execGrant {p} : NextKept o (Machine.execGrant p s) := by
  unfold Machine.execGrant
  exact .intro h.response

theorem Kept.execReqTimeout {agent txn} : NextKept o (Machine.execReqTimeout agent txn s) := by
  unfold Machine.execReqTimeout
  refine .intro ?_
  split
  · exact h
  · exact h.updIface.respond

theorem Kept.execFenceComplete {agent stream} : NextKept o (Machine.execFenceComplete agent stream s) := by
  unfold Machine.execFenceComplete
  extract_lets s1
  have hs1 : Kept o s1 := h.endFence
  clear_value s1
  refine .intro ?_
  refine .ite h ?_
  split
  · exact hs1.coreFenced
  · exact hs1.siteFenced.cxlGo
  · exact hs1

theorem Kept.wakeAgent {a handle} : Kept o (s.wakeAgent a handle) := by
  unfold State.wakeAgent
  split
  · extract_lets
    split
    · exact h.updTile.retire.coreFence.awaitFence
    · exact h
  · extract_lets _ s1
    have hs1 : Kept o s1 := by
      unfold s1
      split
      · exact h.updSlot.siteFence
      · exact h
    exact hs1.siteSend
  · exact h

theorem Kept.event {p} : Kept o (s.event p) := by
  unfold State.event
  extract_lets
  exact .ite h.absorb (.ite h.completionEvent.reeveTurn (.ite h.msix (.ite h.wakeAgent h)))

theorem Kept.eventArrives {p} : Kept o (s.eventArrives p) := by
  unfold State.eventArrives
  exact h.delivering (fun hu => hu.event) h.event

theorem Kept.execEvent {p} : NextKept o (Machine.execEvent p s) := by
  unfold Machine.execEvent
  exact .intro h.eventArrives

theorem Kept.execWakeEvent {p} : NextKept o (Machine.execWakeEvent p s) := by
  unfold Machine.execWakeEvent
  exact .intro h.eventArrives

theorem Kept.tileStop {t item} : Kept o (s.tileStop t item) := by
  unfold State.tileStop
  extract_lets _ _ _ s1 s2
  have hs1 : Kept o s1 := h.updTile
  have hs2 : Kept o s2 := Kept.foldl (fun _ _ ht => ht.send) hs1
  clear_value s1 s2
  split
  · exact .ite hs2.stopKernel hs2
  · exact hs2

theorem Kept.unitStop {d q} : Kept o (s.unitStop d q) := by
  unfold State.unitStop
  extract_lets
  split
  · exact h.answer.tileStop
  · exact h.answer.stopMover
  · exact h.answer.millCancel
  · exact h.answer.siteStop
  · exact h.answer

theorem Kept.execUnitStop {p} : NextKept o (Machine.execUnitStop p s) := by
  unfold Machine.execUnitStop
  exact .intro (h.deliverUnit (fun hu => hu.unitStop))

/-! ### Machine/Manage.lean: resets, management and pins -/

/-- A cold reset keeps bell time and the queue of commands; memory, registers, poison and domains are those of the reset state. -/
theorem Kept.coldBase : Kept o s.coldBase := by
  unfold State.coldBase
  extract_lets
  refine Kept.wr ?_
  exact ⟨fun _ => rfl, fun _ => rfl, fun _ => .nil, fun _ => ⟨rfl, List.forall_mem_nil _⟩, h.time, h.queue⟩

theorem Kept.coldReset {source inReset} : Kept o (s.coldReset source inReset) := by
  unfold State.coldReset
  extract_lets t
  have ht : Kept o t := h.coldBase.noteReset
  exact ht.updRve

theorem Kept.execPowerOn {straps} : NextKept o (Machine.execPowerOn straps s) := by
  unfold Machine.execPowerOn
  exact .intro h.coldReset.updRve

theorem Kept.execPowerFail : NextKept o (Machine.execPowerFail s) := by
  unfold Machine.execPowerFail
  exact .intro h.coldReset

theorem Kept.execColdResetAssert : NextKept o (Machine.execColdResetAssert s) := by
  unfold Machine.execColdResetAssert
  exact .intro (.ite h h.coldReset)

theorem Kept.endpointRecord : Kept o s.endpointRecord := by
  unfold State.endpointRecord
  extract_lets _ _ _ _ _ s1
  have hs1 : Kept o s1 := h.wr.wr.wr.wr.wr
  exact .ite h (.ite hs1.wr.wr.wr hs1)

theorem Kept.execColdReset {rate} : NextKept o (Machine.execColdReset rate s) := by
  unfold Machine.execColdReset
  extract_lets s1
  have hs1 : Kept o s1 := .ite h h.coldReset
  exact .intro hs1.updRve.endpointRecord.updHep

theorem Kept.execThermalTrip {sensor} : NextKept o (Machine.execThermalTrip sensor s) := by
  unfold Machine.execThermalTrip
  extract_lets s1 s2 s3
  have hs1 : Kept o s1 := h.updPw
  have hs2 : Kept o s2 := Kept.foldl (fun _ _ ht => Kept.ite ht.updSite ht) hs1
  have hs3 : Kept o s3 := Kept.foldl (fun _ _ ht1 => Kept.ite ht1.setLink ht1) hs2
  exact .intro (.ite h ((Kept.ite hs3.functionReset hs3).raise))

theorem Kept.oobSay {via code data} : Kept o (s.oobSay via code data) := by
  unfold State.oobSay
  exact h.oobPut

theorem Kept.pldm {via ask} : Kept o (s.pldm via ask) := by
  unfold State.pldm
  split
  · exact h.oobSay
  · exact h.oobSay
  · split
    · exact h.oobSay
    · exact h.oobSay
  · split
    · exact h.oobSay
    · exact h.oobSay
  · exact h.oobSay
  · exact .ite h.wr.oobSay h.oobSay
  · exact h.updRve.oobSay
  · exact .ite h.oobSay h.updRve.oobSay

theorem Kept.mctpControl {via cmd arg} : Kept o (s.mctpControl via cmd arg) := by
  unfold State.mctpControl
  split
  · exact h.wr.oobSay
  · exact h.oobSay
  · exact h.oobSay
  · exact h.oobSay
  · exact h.oobSay

theorem Kept.readRegs {off n} : Kept o (s.readRegs off n).2 := by
  induction n generalizing s off with
  | zero =>
    rw [State.readRegs]
    exact h
  | succ n ih =>
    rw [State.readRegs]
    exact ih h.regRead

theorem Kept.applyComplete {via slot image fault} : Kept o (s.applyComplete via slot image fault) := by
  unfold State.applyComplete
  refine .ite h.oobSay ?_
  refine .ite h.oobSay ?_
  refine .ite h.oobSay ?_
  split
  · rename_i x r t1 heq
    have ht1 : Kept o t1 := Kept.snd heq h.stage
    refine .ite ht1.oobSay ?_
    split
    · rename_i x r t1 heq
      have ht1 : Kept o t1 := Kept.snd heq ht1.activate
      exact ht1.oobSay

theorem Kept.oobHead {sent h'} : Kept o (s.oobHead sent h') := by
  unfold State.oobHead
  exact h.updRve

theorem Kept.oobDo {via ask} : Kept o (s.oobDo via ask) := by
  induction ask generalizing s with
  | vendor c i a ih => exact (ih h).oobHead
  | control c a => exact h.mctpControl
  | pldm a => exact h.pldm
  | requestUpdate => exact .ite h.oobSay (.ite h.oobSay h.updRve.oobSay)
  | applyComplete k d f => exact h.applyComplete
  | activate k => exact .ite h.oobSay (.ite h.updRve.oobSay.svcFwUpdate h.updRve.oobSay)
  | getEvents i => exact h.oobSay
  | reset k => exact .ite h.oobSay (.ite h.oobSay h.oobSay.raise.bigReset)
  | wake => exact h.oobSay.raise.wake.reeveTurn
  | readReg off n => exact .ite h.oobSay h.readRegs.oobSay
  | writeReg off v => exact .ite h.oobSay (.ite h.oobSay h.regWrite.oobSay)
  | getBoot => exact h.oobSay

theorem Kept.oobAsk {via ask} : Kept o (s.oobAsk via ask) := by
  unfold State.oobAsk
  exact .ite h (.ite h.oobSay (.ite h.updRve h.oobDo))

theorem Kept.oobTurn : Kept o s.oobTurn := by
  unfold State.oobTurn
  exact .ite h (Kept.foldl (fun _ _ ht => ht.oobDo) h.updRve)

theorem Kept.execMctpMessage {via typ data} : NextKept o (Machine.execMctpMessage via typ data s) := by
  unfold Machine.execMctpMessage
  refine .intro ?_
  refine .ite h ?_
  split
  · exact h.oobAsk
  · refine .ite h ?_
    split
    · exact h.oobAsk
    · exact .ite h.oobSay h
  · exact .ite h (.ite h (.ite h.oobSay h.updRve))

theorem Kept.cccSay {d} : Kept o (s.cccSay d) := by
  unfold State.cccSay
  exact h.updRve

theorem Kept.execI3cCcc {code arg} : NextKept o (Machine.execI3cCcc code arg s) := by
  unfold Machine.execI3cCcc
  refine .intro ?_
  refine .ite h ?_
  split
  · exact .ite h.updRve h
  · exact .ite h.updRve h
  · exact .ite h.updRve h
  · exact .ite h.updRve h
  · exact h.wr
  · exact .ite h.wr h
  · exact .ite h.wr h
  · exact h.updRve
  · exact h.updRve
  · exact h.cccSay
  · exact h.cccSay
  · exact h.cccSay
  · exact h.cccSay
  · exact h.cccSay
  · exact h

theorem Kept.execPldmRequest {via ask} : NextKept o (Machine.execPldmRequest via ask s) := by
  unfold Machine.execPldmRequest
  exact .intro h.oobAsk

theorem Kept.execPldmRequestUpdate {via} : NextKept o (Machine.execPldmRequestUpdate via s) := by
  unfold Machine.execPldmRequestUpdate
  exact .intro h.oobAsk

theorem Kept.execPldmApplyComplete {via slot image fault} : NextKept o (Machine.execPldmApplyComplete via slot image fault s) := by
  unfold Machine.execPldmApplyComplete
  exact .intro h.oobAsk

theorem Kept.execPldmActivateFirmware {via slot} : NextKept o (Machine.execPldmActivateFirmware via slot s) := by
  unfold Machine.execPldmActivateFirmware
  exact .intro h.oobAsk

theorem Kept.execGetEvents {via index} : NextKept o (Machine.execGetEvents via index s) := by
  unfold Machine.execGetEvents
  exact .intro h.oobAsk

theorem Kept.execOobReset {via kind} : NextKept o (Machine.execOobReset via kind s) := by
  unfold Machine.execOobReset
  exact .intro h.oobAsk

theorem Kept.execOobWake {via} : NextKept o (Machine.execOobWake via s) := by
  unfold Machine.execOobWake
  exact .intro h.oobAsk

theorem Kept.execReadReg {via off count} : NextKept o (Machine.execReadReg via off count s) := by
  unfold Machine.execReadReg
  exact .intro h.oobAsk

theorem Kept.execWriteReg {via off value} : NextKept o (Machine.execWriteReg via off value s) := by
  unfold Machine.execWriteReg
  exact .intro h.oobAsk

theorem Kept.execGetBoot {via} : NextKept o (Machine.execGetBoot via s) := by
  unfold Machine.execGetBoot
  exact .intro h.oobAsk

theorem Kept.execOobLogFlush : NextKept o (Machine.execOobLogFlush s) := by
  unfold Machine.execOobLogFlush
  exact .intro (.ite h h.updRve)

theorem Kept.execFwReceiverVerified {agent} : NextKept o (Machine.execFwReceiverVerified agent s) := by
  unfold Machine.execFwReceiverVerified
  refine .intro ?_
  split
  · extract_lets s1
    have hs1 : Kept o s1 := by
      unfold s1
      split
      · exact .ite h.domainOpened h
      · exact h
    exact .ite (.ite h.updRve.fwNext.evtDrain.reeveTurn.oobTurn h) (.ite (.ite hs1.fwNext.reeveTurn.stwTurn hs1) h)
  · exact h

theorem Kept.jtagOut {d} : Kept o (s.jtagOut d) := by
  unfold State.jtagOut
  exact h.updRve

theorem Kept.debugRead {addr n} : Kept o (s.debugRead addr n).2 := by
  unfold State.debugRead
  refine Kept.foldlSnd (fun x g hx => ?_) h
  obtain ⟨d, t⟩ := x
  have ht : Kept o t := hx
  dsimp only
  split
  · exact ht.fresh
  · exact .iteSnd ht (.inSnd ht.ledgerRefusal)

theorem Kept.debugWrite {addr d} : Kept o (s.debugWrite addr d) := by
  unfold State.debugWrite
  refine Kept.foldl (fun u a hu1 => ?_) h
  split
  · exact hu1
  · extract_lets
    refine .ite hu1 ?_
    split
    · exact hu1.homeWrite
    · exact hu1.setBytes

theorem Kept.noteInspect {t} : Kept o (s.noteInspect t) := by
  unfold State.noteInspect
  exact .ite h.ledgerRefusal h

theorem Kept.setHalt {a b} : Kept o (s.setHalt a b) := by
  unfold State.setHalt
  exact .ite h.updTile.noteInspect (.ite h.updRve h)

theorem Kept.jtag {ask} : Kept o (s.jtag ask) := by
  unfold State.jtag
  extract_lets pinsFree
  have hpinsFree : ∀ {t}, Kept o t → Kept o (pinsFree t) := fun hu => hu.updRve
  clear_value pinsFree
  split
  · exact hpinsFree h
  · exact (hpinsFree h).jtagOut
  · exact (hpinsFree h).jtagOut
  · exact (hpinsFree h).updRve
  · exact h.updRve
  · split
    · rename_i x old bad s1 heq
      have hs1 : Kept o s1 := Kept.third heq h.regRead
      exact hs1.jtagOut
  · exact h.regWrite
  · split
    · split
      · rename_i x l s2 heq
        have hs2 : Kept o s2 := Kept.snd heq h.debugRead
        exact hs2.jtagOut
    · exact Kept.foldl (fun _ _ ht1 => ht1.recall) h
  · exact h.debugWrite
  · exact h.setHalt
  · extract_lets s1
    have hs1 : Kept o s1 := h.setHalt
    exact .ite hs1.evtDrain.reeveTurn.oobTurn hs1
  · exact .ite h h.updTile.coreWord.updTile
  · extract_lets
    exact .ite h (.ite h.noteInspect.jtagOut h.jtagOut)
  · exact .ite h.jtagOut h

theorem Kept.execJtagDebugAccess {ask} : NextKept o (Machine.execJtagDebugAccess ask s) := by
  unfold Machine.execJtagDebugAccess
  exact .intro h.jtag

theorem Kept.execPpsPulse : NextKept o (Machine.execPpsPulse s) := by
  unfold Machine.execPpsPulse
  exact .intro (.ite h h.updRve)

end

end Sys2Proof.Machine
end

section
/-!
PROOFS. Every command and every step keeps what its operations keep: O36 and O37.
-/

namespace Sys2Proof.Machine

open Sys2Proof.Safety

/-- Every command answers a next state, which is kept. -/
theorem Kept.exec {o s : State} (h : Kept o s) (c : Instr) : NextKept o (Machine.exec c s) := by
  cases c with
  | registerWrite _ _ _ _ => exact h.execRegisterWrite
  | stageWindowEnd _ => exact h.execStageWindowEnd
  | flitReceive _ _ _ _ _ => exact h.execFlitReceive
  | rd _ => exact h.execRd
  | rdLine _ => exact h.execRdLine
  | rd2line _ => exact h.execRd2line
  | wr _ => exact h.execWr
  | wrLine _ => exact h.execWrLine
  | wr2line _ => exact h.execWr2line
  | wrn _ => exact h.execWrn
  | wrnLine _ => exact h.execWrnLine
  | atom _ => exact h.execAtom
  | csrRd _ => exact h.execCsrRd
  | csrWr _ => exact h.execCsrWr
  | rsp _ => exact h.execRsp
  | rspData _ => exact h.execRspData
  | rspData2 _ => exact h.execRspData2
  | wfail _ => exact h.execWfail
  | inboundAcceptResume _ => exact h.execInboundAcceptResume
  | deadTimeout _ => exact h.execDeadTimeout
  | reqTimeout _ _ => exact h.execReqTimeout
  | txnHoldEnd _ _ => exact h.execTxnHoldEnd
  | stileClose _ => exact h.execStileClose
  | stileOpen _ => exact h.execStileOpen
  | stileForceOff _ => exact h.execStileForceOff
  | stileOpReserved _ _ => exact h.execStileOpReserved
  | stile _ _ => exact h.execStile
  | stileAck _ _ => exact h.execStileAck
  | agentIdle _ => exact h.execAgentIdle
  | domainFenced _ => exact h.execDomainFenced
  | domainPowerOff _ => exact h.execDomainPowerOff
  | domainOpened _ _ => exact h.execDomainOpened
  | drainTimeout _ => exact h.execDrainTimeout
  | isoIsolate _ => exact h.execIsoIsolate
  | isoRelease _ => exact h.execIsoRelease
  | comErrClear => exact h.execComErrClear
  | event _ => exact h.execEvent
  | flushProbe _ => exact h.execFlushProbe
  | flushProbeAnswer _ _ _ => exact h.execFlushProbeAnswer
  | fence _ _ => exact h.execFence
  | fenceComplete _ _ => exact h.execFenceComplete
  | fenceRemote _ _ => exact h.execFenceRemote
  | homeReadComplete _ _ _ => exact h.execHomeReadComplete
  | rdShared _ => exact h.execRdShared
  | rdUnique _ => exact h.execRdUnique
  | claim _ => exact h.execClaim
  | wbDirty _ => exact h.execWbDirty
  | evictClean _ => exact h.execEvictClean
  | atomP _ => exact h.execAtomP
  | grant _ => exact h.execGrant
  | snpRsp _ => exact h.execSnpRsp
  | snpRspData _ => exact h.execSnpRspData
  | cmpAck _ => exact h.execCmpAck
  | lineWaiterServed _ => exact h.execLineWaiterServed
  | ackTimeout _ => exact h.execAckTimeout
  | biTimeout _ => exact h.execBiTimeout
  | filterWalkDone _ _ => exact h.execFilterWalkDone
  | lostLinePop _ => exact h.execLostLinePop
  | homeCntClear _ => exact h.execHomeCntClear
  | cxlMemrd _ _ _ => exact h.execCxlMemrd
  | cxlMemwr _ _ _ _ _ => exact h.execCxlMemwr
  | cxlMemclnevct _ _ => exact h.execCxlMemclnevct
  | cxlBirsp _ _ => exact h.execCxlBirsp
  | cxlBiconflict _ _ => exact h.execCxlBiconflict
  | stackTempRead _ _ _ _ => exact h.execStackTempRead
  | capRiseTimer _ => exact h.execCapRiseTimer
  | scrubRead _ _ _ _ => exact h.execScrubRead
  | laneRepair _ _ => exact h.execLaneRepair
  | hbmBurn _ => exact h.execHbmBurn
  | hbmErrClear _ => exact h.execHbmErrClear
  | hbmTrainSave _ => exact h.execHbmTrainSave
  | recentreStart _ => exact h.execRecentreStart
  | recentreEnd _ => exact h.execRecentreEnd
  | stackNoAnswerTimeout _ => exact h.execStackNoAnswerTimeout
  | stackLoss _ _ => exact h.execStackLoss
  | granQuery _ _ => exact h.execGranQuery
  | granFill _ _ => exact h.execGranFill
  | granSeal _ _ => exact h.execGranSeal
  | granRelease _ _ => exact h.execGranRelease
  | granRestoreBegin _ _ _ => exact h.execGranRestoreBegin
  | granRestoreEnd _ _ _ => exact h.execGranRestoreEnd
  | granOpNone _ _ _ => exact h.execGranOpNone
  | parityPassEnd _ _ => exact h.execParityPassEnd
  | wipeEnd _ => exact h.execWipeEnd
  | restoreParityEnd _ _ _ => exact h.execRestoreParityEnd
  | fmtCommit => exact h.execFmtCommit
  | fmtCommitDone => exact h.execFmtCommitDone
  | loomDispatch _ => exact h.execLoomDispatch
  | loomLaunch _ => exact h.execLoomLaunch
  | loomClaimRecord _ => exact h.execLoomClaimRecord
  | loomParkRecord _ => exact h.execLoomParkRecord
  | loomBudgetExpire _ => exact h.execLoomBudgetExpire
  | unitStop _ => exact h.execUnitStop
  | scalarInstruction _ _ => exact h.execScalarInstruction
  | mret _ => exact h.execMret
  | fenceI _ => exact h.execFenceI
  | globalLoad _ _ _ _ _ _ => exact h.execGlobalLoad
  | globalStore _ _ _ _ _ => exact h.execGlobalStore
  | globalAmo _ _ _ _ _ _ _ _ => exact h.execGlobalAmo
  | lr _ _ _ _ => exact h.execLr
  | sc _ _ _ _ _ => exact h.execSc
  | vadd _ _ => exact h.execVadd
  | vsub _ _ => exact h.execVsub
  | vmul _ _ => exact h.execVmul
  | vfma _ _ => exact h.execVfma
  | vfms _ _ => exact h.execVfms
  | vfnma _ _ => exact h.execVfnma
  | vfnms _ _ => exact h.execVfnms
  | vmin _ _ => exact h.execVmin
  | vmax _ _ => exact h.execVmax
  | vabs _ _ => exact h.execVabs
  | vneg _ _ => exact h.execVneg
  | vsel _ _ => exact h.execVsel
  | vand _ _ => exact h.execVand
  | vor _ _ => exact h.execVor
  | vxor _ _ => exact h.execVxor
  | vsll _ _ => exact h.execVsll
  | vsrl _ _ => exact h.execVsrl
  | vsra _ _ => exact h.execVsra
  | vmulh _ _ => exact h.execVmulh
  | vcmpeq _ _ => exact h.execVcmpeq
  | vcmpne _ _ => exact h.execVcmpne
  | vcmplt _ _ => exact h.execVcmplt
  | vcmple _ _ => exact h.execVcmple
  | vcmpun _ _ => exact h.execVcmpun
  | vcvt _ _ => exact h.execVcvt
  | vrcp _ _ => exact h.execVrcp
  | vrsqrt _ _ => exact h.execVrsqrt
  | vsqrt _ _ => exact h.execVsqrt
  | vdiv _ _ => exact h.execVdiv
  | vexp _ _ => exact h.execVexp
  | vexp2 _ _ => exact h.execVexp2
  | vln _ _ => exact h.execVln
  | vlog2 _ _ => exact h.execVlog2
  | vtanh _ _ => exact h.execVtanh
  | vsigm _ _ => exact h.execVsigm
  | vsin _ _ => exact h.execVsin
  | vcos _ _ => exact h.execVcos
  | verf _ _ => exact h.execVerf
  | vrand _ _ => exact h.execVrand
  | vperm _ _ => exact h.execVperm
  | vslideup _ _ => exact h.execVslideup
  | vslidedn _ _ => exact h.execVslidedn
  | vcompress _ _ => exact h.execVcompress
  | lbcast _ _ => exact h.execLbcast
  | lext _ _ => exact h.execLext
  | vld _ _ => exact h.execVld
  | vst _ _ => exact h.execVst
  | vldx _ _ => exact h.execVldx
  | vstx _ _ => exact h.execVstx
  | vmld _ _ => exact h.execVmld
  | vmst _ _ => exact h.execVmst
  | vredAdd _ _ => exact h.execVredAdd
  | vredExact _ _ => exact h.execVredExact
  | vredIadd _ _ => exact h.execVredIadd
  | vredMax _ _ => exact h.execVredMax
  | vredMin _ _ => exact h.execVredMin
  | vredArgmax _ _ => exact h.execVredArgmax
  | vredArgmin _ _ => exact h.execVredArgmin
  | vredAnd _ _ => exact h.execVredAnd
  | vredOr _ _ => exact h.execVredOr
  | vredXor _ _ => exact h.execVredXor
  | lrbcast _ _ => exact h.execLrbcast
  | vmand _ _ => exact h.execVmand
  | vmor _ _ => exact h.execVmor
  | vmxor _ _ => exact h.execVmxor
  | vmandn _ _ => exact h.execVmandn
  | lmpop _ _ => exact h.execLmpop
  | lmfirst _ _ => exact h.execLmfirst
  | lsetvl _ _ _ _ _ => exact h.execLsetvl
  | lrreset _ _ _ _ => exact h.execLrreset
  | lrd _ _ _ _ => exact h.execLrd
  | lrdi _ _ _ _ => exact h.execLrdi
  | lrsave _ _ _ _ => exact h.execLrsave
  | lrmerge _ _ _ _ => exact h.execLrmerge
  | lpload _ _ _ _ => exact h.execLpload
  | lprun _ _ _ _ => exact h.execLprun
  | lvsync _ _ _ _ => exact h.execLvsync
  | lsignal _ _ _ _ => exact h.execLsignal
  | lwait _ _ _ _ => exact h.execLwait
  | lwaitLimit _ => exact h.execLwaitLimit
  | lend _ _ _ _ => exact h.execLend
  | lfail _ _ _ _ => exact h.execLfail
  | millDispatch _ => exact h.execMillDispatch
  | millItemStart _ _ => exact h.execMillItemStart
  | collJoin _ => exact h.execCollJoin
  | collExp _ => exact h.execCollExp
  | collData _ => exact h.execCollData
  | collCredit _ => exact h.execCollCredit
  | collKeep _ => exact h.execCollKeep
  | collLate _ => exact h.execCollLate
  | collAbort _ => exact h.execCollAbort
  | collNack _ => exact h.execCollNack
  | joinRetryTimer _ _ => exact h.execJoinRetryTimer
  | keepTimer _ _ => exact h.execKeepTimer
  | lateTimer => exact h.execLateTimer
  | millStartDeadline _ _ _ => exact h.execMillStartDeadline
  | millProgressDeadline _ _ _ => exact h.execMillProgressDeadline
  | millItemEnd _ _ => exact h.execMillItemEnd
  | millGrpCommit _ _ => exact h.execMillGrpCommit
  | millCntClear => exact h.execMillCntClear
  | moverDispatch _ => exact h.execMoverDispatch
  | movDescStart _ _ => exact h.execMovDescStart
  | movDescEnd _ _ => exact h.execMovDescEnd
  | movItemComplete _ _ => exact h.execMovItemComplete
  | xltRequest _ => exact h.execXltRequest
  | walkStep _ _ => exact h.execWalkStep
  | faultOpen => exact h.execFaultOpen
  | faultRecordWrite _ => exact h.execFaultRecordWrite
  | faultEntryTimeout _ => exact h.execFaultEntryTimeout
  | fltRespRetry _ _ => exact h.execFltRespRetry
  | fltRespFail _ _ => exact h.execFltRespFail
  | faultRingHead _ _ => exact h.execFaultRingHead
  | xltInvGo _ _ _ _ _ => exact h.execXltInvGo
  | xltInvComplete => exact h.execXltInvComplete
  | busyPageRetry _ _ _ => exact h.execBusyPageRetry
  | sqDoorbell _ _ _ => exact h.execSqDoorbell
  | cqDoorbell _ _ _ => exact h.execCqDoorbell
  | packetFetch _ _ => exact h.execPacketFetch
  | itemDispatch => exact h.execItemDispatch
  | busyRetryTimer _ _ => exact h.execBusyRetryTimer
  | nop _ _ => exact h.execNop
  | loomRun _ _ => exact h.execLoomRun
  | loomClaim _ _ => exact h.execLoomClaim
  | loomPark _ _ => exact h.execLoomPark
  | move _ _ => exact h.execMove
  | collective _ _ => exact h.execCollective
  | siteWork _ _ => exact h.execSiteWork
  | writeImm _ _ => exact h.execWriteImm
  | barrier _ _ => exact h.execBarrier
  | evtSignal _ _ => exact h.execEvtSignal
  | evtWait _ _ => exact h.execEvtWait
  | evtWaitTimeout _ _ => exact h.execEvtWaitTimeout
  | evtReset _ _ => exact h.execEvtReset
  | cancel _ _ => exact h.execCancel
  | itemQuery _ _ => exact h.execItemQuery
  | alloc _ _ => exact h.execAlloc
  | free _ _ => exact h.execFree
  | blockZeroDone _ => exact h.execBlockZeroDone
  | kvAlloc _ _ => exact h.execKvAlloc
  | kvFree _ _ => exact h.execKvFree
  | prefetch _ _ => exact h.execPrefetch
  | advise _ _ => exact h.execAdvise
  | evacuate _ _ => exact h.execEvacuate
  | weightLoad _ _ => exact h.execWeightLoad
  | weightChunk _ _ => exact h.execWeightChunk
  | weightRelease _ _ => exact h.execWeightRelease
  | seqOpen _ _ => exact h.execSeqOpen
  | seqFeed _ _ => exact h.execSeqFeed
  | seqClose _ _ => exact h.execSeqClose
  | genStart _ _ => exact h.execGenStart
  | genStop _ _ => exact h.execGenStop
  | completionEvent _ => exact h.execCompletionEvent
  | evtOp _ => exact h.execEvtOp
  | wakeEvent _ => exact h.execWakeEvent
  | evtRegWrite _ _ _ => exact h.execEvtRegWrite
  | queueEnable _ _ => exact h.execQueueEnable
  | queueDisable _ _ => exact h.execQueueDisable
  | queueDrained _ => exact h.execQueueDrained
  | cqbaseWrite _ _ _ => exact h.execCqbaseWrite
  | cqCoalTimeout _ => exact h.execCqCoalTimeout
  | mboxGo _ => exact h.execMboxGo
  | mboxReady => exact h.execMboxReady
  | resAck _ => exact h.execResAck
  | rsvWrite _ _ => exact h.execRsvWrite
  | poolCommit _ _ _ => exact h.execPoolCommit
  | poolZeroDone _ => exact h.execPoolZeroDone
  | kvPoolCommit _ _ _ _ => exact h.execKvPoolCommit
  | genStepBoundary => exact h.execGenStepBoundary
  | genSample => exact h.execGenSample
  | genStepRetry => exact h.execGenStepRetry
  | genRecordsWrite => exact h.execGenRecordsWrite
  | genOutHead _ _ => exact h.execGenOutHead
  | bucketRefill => exact h.execBucketRefill
  | sluWindowEnd _ => exact h.execSluWindowEnd
  | sluCommit _ => exact h.execSluCommit
  | sluCommitDone => exact h.execSluCommitDone
  | sluMissClear _ => exact h.execSluMissClear
  | siteDispatch _ => exact h.execSiteDispatch
  | stlRd _ _ _ => exact h.execStlRd
  | stlWr _ _ _ => exact h.execStlWr
  | stlWrn _ _ _ => exact h.execStlWrn
  | stlAtom _ _ _ => exact h.execStlAtom
  | stlRdShared _ _ _ => exact h.execStlRdShared
  | stlRdUnique _ _ _ => exact h.execStlRdUnique
  | stlClaim _ _ _ => exact h.execStlClaim
  | stlWbDirty _ _ _ => exact h.execStlWbDirty
  | stlEvictClean _ _ _ => exact h.execStlEvictClean
  | stlAtomP _ _ _ => exact h.execStlAtomP
  | stlFence _ _ _ => exact h.execStlFence
  | stlFenceRemote _ _ _ => exact h.execStlFenceRemote
  | xltReq _ _ _ => exact h.execXltReq
  | stlEvt _ _ _ => exact h.execStlEvt
  | stlIrq _ _ _ => exact h.execStlIrq
  | wqDone _ _ _ => exact h.execWqDone
  | stlErr _ _ _ => exact h.execStlErr
  | stlSnpRsp _ _ _ => exact h.execStlSnpRsp
  | stlSnpRspData _ _ _ => exact h.execStlSnpRspData
  | stlCmpAck _ _ _ => exact h.execStlCmpAck
  | wRsp _ _ _ => exact h.execWRsp
  | wRspData _ _ _ => exact h.execWRspData
  | xltInvDone _ _ _ => exact h.execXltInvDone
  | echo _ _ _ => exact h.execEcho
  | credit _ _ _ => exact h.execCredit
  | siteCxlRequest _ _ => exact h.execSiteCxlRequest
  | sidebandIdle _ => exact h.execSidebandIdle
  | sidebandSelftest _ _ => exact h.execSidebandSelftest
  | sidebandFatal _ => exact h.execSidebandFatal
  | credTimeout _ _ => exact h.execCredTimeout
  | invTimeout _ => exact h.execInvTimeout
  | stopTimeout _ _ => exact h.execStopTimeout
  | siteTrainTimeout _ => exact h.execSiteTrainTimeout
  | echoTimeout _ _ => exact h.execEchoTimeout
  | moduleRetrain _ _ _ => exact h.execModuleRetrain
  | siteIrqUnmask _ _ _ => exact h.execSiteIrqUnmask
  | siteBringup _ _ => exact h.execSiteBringup
  | rightRevoke _ _ => exact h.execRightRevoke
  | linkFlitReceive _ _ => exact h.execLinkFlitReceive
  | linkReplayTimeout _ => exact h.execLinkReplayTimeout
  | ethFrameReceive _ _ _ => exact h.execEthFrameReceive
  | ethCnp _ => exact h.execEthCnp
  | ethRateRise _ => exact h.execEthRateRise
  | anchorSend _ => exact h.execAnchorSend
  | xpRd _ => exact h.execXpRd
  | xpWr _ => exact h.execXpWr
  | xpWrn _ => exact h.execXpWrn
  | xpAtom _ => exact h.execXpAtom
  | xpColl _ => exact h.execXpColl
  | xpClose _ => exact h.execXpClose
  | xpRsp _ => exact h.execXpRsp
  | xpRspData _ => exact h.execXpRspData
  | xpWfail _ => exact h.execXpWfail
  | xpAck _ => exact h.execXpAck
  | xpPerf _ => exact h.execXpPerf
  | xpBusy _ => exact h.execXpBusy
  | xpAckTimer _ => exact h.execXpAckTimer
  | xpRto _ => exact h.execXpRto
  | xpOpenRetry _ _ => exact h.execXpOpenRetry
  | xpIdleClose _ => exact h.execXpIdleClose
  | intermediateForward _ _ _ => exact h.execIntermediateForward
  | timeSyncTimer => exact h.execTimeSyncTimer
  | linkTimeMsg _ _ _ _ => exact h.execLinkTimeMsg
  | ptpFrame _ _ _ => exact h.execPtpFrame
  | linkLaneFail _ _ => exact h.execLinkLaneFail
  | linkRetrainTimer _ => exact h.execLinkRetrainTimer
  | linkRetrain _ => exact h.execLinkRetrain
  | lnkErrClear _ => exact h.execLnkErrClear
  | routeWrite _ _ _ => exact h.execRouteWrite
  | windowCommit _ => exact h.execWindowCommit
  | hostMemRead _ _ _ _ => exact h.execHostMemRead
  | hostMemWrite _ _ _ _ => exact h.execHostMemWrite
  | hostAtomicop _ _ _ _ _ _ => exact h.execHostAtomicop
  | hostCompletion _ _ _ _ => exact h.execHostCompletion
  | hostCplTimeout _ => exact h.execHostCplTimeout
  | bmeClear _ => exact h.execBmeClear
  | bmeDrainTimeout => exact h.execBmeDrainTimeout
  | bmeSet _ => exact h.execBmeSet
  | msixPendingSend _ => exact h.execMsixPendingSend
  | functionLevelReset _ => exact h.execFunctionLevelReset
  | flrUnitWaitTimeout => exact h.execFlrUnitWaitTimeout
  | ltrIdleTimer => exact h.execLtrIdleTimer
  | fatePop _ => exact h.execFatePop
  | fateAck _ => exact h.execFateAck
  | hepUnsupClear _ => exact h.execHepUnsupClear
  | lcTransition _ _ => exact h.execLcTransition
  | debugCert _ _ => exact h.execDebugCert
  | epochRaise _ _ => exact h.execEpochRaise
  | ownerSet _ _ => exact h.execOwnerSet
  | siteAttest _ _ => exact h.execSiteAttest
  | ledgerCheckpoint _ _ => exact h.execLedgerCheckpoint
  | purge _ _ => exact h.execPurge
  | purgeEnd => exact h.execPurgeEnd
  | identity _ _ => exact h.execIdentity
  | vstMboxAck _ => exact h.execVstMboxAck
  | spdmRequest _ _ => exact h.execSpdmRequest
  | ledgerExport _ _ => exact h.execLedgerExport
  | bootVestry _ _ _ _ _ => exact h.execBootVestry
  | bootFuses _ _ _ _ _ _ _ _ => exact h.execBootFuses
  | bootCommons _ _ _ _ _ => exact h.execBootCommons
  | bootReeve _ _ _ _ => exact h.execBootReeve
  | bootKat _ _ _ _ _ => exact h.execBootKat
  | bootRoll _ _ _ => exact h.execBootRoll
  | bootHbm _ _ _ _ => exact h.execBootHbm
  | bootLinks _ _ _ _ => exact h.execBootLinks
  | bootSites _ _ => exact h.execBootSites
  | bootCrier _ _ => exact h.execBootCrier
  | bootReady _ _ _ => exact h.execBootReady
  | bootGoRefused _ _ _ => exact h.execBootGoRefused
  | bootSaveHbm _ => exact h.execBootSaveHbm
  | bootSaveLinks _ => exact h.execBootSaveLinks
  | rollUpd _ _ _ _ => exact h.execRollUpd
  | crier _ _ => exact h.execCrier
  | crierReport _ => exact h.execCrierReport
  | imageDigestDone _ => exact h.execImageDigestDone
  | evtRecordWrite => exact h.execEvtRecordWrite
  | evtRingHead _ _ => exact h.execEvtRingHead
  | hubFatalError _ => exact h.execHubFatalError
  | fatalResetTimer => exact h.execFatalResetTimer
  | unitFailure _ => exact h.execUnitFailure
  | unitDrainTimeout _ => exact h.execUnitDrainTimeout
  | unitSwapped => exact h.execUnitSwapped
  | svcWarm _ => exact h.execSvcWarm
  | svcHubReset _ => exact h.execSvcHubReset
  | svcDomainReset _ _ _ => exact h.execSvcDomainReset
  | svcDoze _ => exact h.execSvcDoze
  | svcWake _ => exact h.execSvcWake
  | svcUnitFail _ _ => exact h.execSvcUnitFail
  | svcFwUpdate _ _ _ => exact h.execSvcFwUpdate
  | svcRecal _ _ => exact h.execSvcRecal
  | svcOpInvalid _ _ _ => exact h.execSvcOpInvalid
  | fwUpdateWaitTimeout => exact h.execFwUpdateWaitTimeout
  | fwReceiverVerified _ => exact h.execFwReceiverVerified
  | warmReset => exact h.execWarmReset
  | dozeEntered => exact h.execDozeEntered
  | wakeComplete => exact h.execWakeComplete
  | powerOn _ => exact h.execPowerOn
  | coldReset _ => exact h.execColdReset
  | powerFail => exact h.execPowerFail
  | powerEval _ => exact h.execPowerEval
  | thermalSensorRead _ _ _ => exact h.execThermalSensorRead
  | thermalCeilingTick _ => exact h.execThermalCeilingTick
  | stageMissTimer => exact h.execStageMissTimer
  | pinThrottle _ _ => exact h.execPinThrottle
  | thermalTrip _ => exact h.execThermalTrip
  | mctpMessage _ _ _ => exact h.execMctpMessage
  | i3cCcc _ _ => exact h.execI3cCcc
  | pldmRequest _ _ => exact h.execPldmRequest
  | pldmRequestUpdate _ => exact h.execPldmRequestUpdate
  | pldmApplyComplete _ _ _ _ => exact h.execPldmApplyComplete
  | pldmActivateFirmware _ _ => exact h.execPldmActivateFirmware
  | getEvents _ _ => exact h.execGetEvents
  | oobReset _ _ => exact h.execOobReset
  | oobWake _ => exact h.execOobWake
  | readReg _ _ _ => exact h.execReadReg
  | writeReg _ _ _ => exact h.execWriteReg
  | getBoot _ => exact h.execGetBoot
  | oobLogFlush => exact h.execOobLogFlush
  | flashStage _ _ _ _ => exact h.execFlashStage
  | flashActivate _ _ => exact h.execFlashActivate
  | flashOpInvalid _ _ _ => exact h.execFlashOpInvalid
  | ppsPulse => exact h.execPpsPulse
  | hostConfigRequest _ _ _ _ _ => exact h.execHostConfigRequest
  | loadClassWindowEnd _ _ => exact h.execLoadClassWindowEnd
  | siteSpdmResponse _ _ _ => exact h.execSiteSpdmResponse
  | ledgerRecordInFlash => exact h.execLedgerRecordInFlash
  | linkTrainingEnd _ _ _ => exact h.execLinkTrainingEnd
  | coldResetAssert => exact h.execColdResetAssert
  | jtagDebugAccess _ => exact h.execJtagDebugAccess
  | markerLock _ _ => exact h.execMarkerLock

/-- The queue's rest with a state is as sound as the state with its whole queue. -/
theorem sound_of_pending {s : State} {q : List Instr} (hs : Sound s) : Sound { s with pending := q } := hs

/-- What is kept of a sound state is sound. -/
theorem Kept.sound {o s : State} (h : Kept o s) (ho : Sound o) : Sound s := by
  obtain ⟨hmem, hregs, hpoison, hdoms⟩ := ho
  exact ⟨h.mem hmem, h.regs hregs, h.poison hpoison, h.doms hdoms⟩

/-- A step keeps what stands before it with the command at the front of the queue taken. -/
theorem kept_of_step {s t : State} (hst : step s = .next t) : Kept { s with pending := s.pending.tail } t := by
  rw [step] at hst
  split at hst
  · next hq =>
    cases hst
    have hs : { s with pending := s.pending.tail } = s := by rw [hq, List.tail_nil, ← hq]
    rw [hs]
    exact (Kept.refl s).tick
  · next c rest hq =>
    obtain ⟨u, hu, hk⟩ := (Kept.refl { s with pending := rest }).exec c
    cases hu.symm.trans hst
    rwa [hq]

/-- Settles O36, by what each operation of the hub keeps (`Kept`): a step is a command, or a nanosecond of bell time. -/
theorem everyStepKeepsSound : Obligations.EveryStepKeepsSound := by
  unfold Obligations.EveryStepKeepsSound
  intro s t hs hst
  exact (kept_of_step hst).sound (sound_of_pending hs)

/-- Settles O37, by what each operation of the hub keeps (`Kept`): the queue stays and bell time goes on. -/
theorem everyCommandRuns : Obligations.EveryCommandRuns := by
  unfold Obligations.EveryCommandRuns
  intro c s
  obtain ⟨t, ht, hk⟩ := (Kept.refl s).exec c
  exact ⟨t, ht, hk.queue, hk.time⟩

end Sys2Proof.Machine
end
